-- ==== Sys2Proof/Word.lean ====
section
/-! DEFINITION. The word types of the device (R12, R85): bytes, 32-bit registers, 64-bit words and
the wider packed structures that commands, rules and records are. -/

namespace Sys2Proof

/-- One byte of memory. -/
abbrev Byte := BitVec 8

/-- One register (R85) or knot. -/
abbrev W32 := BitVec 32

/-- An 8-byte access or field. -/
abbrev W64 := BitVec 64

/-- A 64-byte command or event record (R126, R144): byte `i` is bits `8 i + 7 .. 8 i` (R12). -/
abbrev Line := BitVec 512

/-- Bytes 24 to 63 of a record (R144). -/
abbrev Payload := BitVec 320

/-- A 128-byte trigger rule entry (R54). -/
abbrev RuleBits := BitVec 1024

/-- The header of a message received on a link, as its receiver reads it (R432): the link, DSEQ, sending and receiving hoop, and
GEN, POS and QUEUE, which name the command that began the exchange. -/
structure MsgHdr where
  link : Fin 8
  dseq : W64
  sender : Fin 16
  receiver : Fin 16
  gen : BitVec 16
  pos : W32
  queue : Fin 64
  deriving DecidableEq, Repr

end Sys2Proof
end

