-- ==== Sys2Proof/Syntax.lean ====
section
/-! DEFINITION. The commands the package takes: one constructor for each row of spec/opcode_table.json, in the table's order. An
operand is what the row's sender says and the device cannot know. `f` is the PCIe function that makes an access (0 the physical
function), `h` a hoop, `q` a command queue, `e` an event queue, `v` a written value; `host` is what host memory holds where an object
of the command is homed there, and empty otherwise. -/

namespace Sys2Proof

/-- A command. -/
inductive Instr where
  /-- REFERENCE_EDGE (R26): A pulse or packet arrives on the selected scene-time reference. It passes the glitch
  filter and the divider and may end a stitch. `dt` ns after the last happening of scene time, a level change of
  `width` ns, falling or not; `onPrev`: on the previous source while it still gives the boundaries. -/
  | referenceEdge (dt : Nat) (falling : Bool) (width : Nat) (onPrev : Bool)
  /-- GENERATED_BOUNDARY (R32): The timebase interval I elapses in FREE, HOLDOVER, SLEWING or HOST, and the unit
  generates a stitch boundary. -/
  | generatedBoundary
  /-- REF_LOST (R33): No edge arrives for TS_LOST_PERIODS periods, so the unit moves the position forward and enters
  HOLDOVER. -/
  | refLost
  /-- TS_SOURCE_WRITE (R50): A write to TS_SOURCE is refused or changes the source, the index, the edge or the
  relock mode. -/
  | tsSourceWrite (f : Fin 16) (v : W32)
  /-- HOST_POS_GO (R37): The written host position is applied as a correction by RELOCK_MODE. -/
  | hostPosGo (f : Fin 16) (v : W32)
  /-- CAPTURE_REQ (R37): The current position is latched into the CAPTURE registers. -/
  | captureReq (f : Fin 16) (v : W32)
  /-- LOAD_GO (R38): A count load is requested, taking effect at once or at the next boundary, or it is refused. -/
  | loadGo (f : Fin 16) (v : W32)
  /-- STITCH_LO_READ (R48): A read of a low count word latches its high word and phase. `which`: 0 STITCH_LO, 1
  CAPTURE_LO, 2 CORR_LO, 3 + h the copy of hoop h. -/
  | stitchLoRead (which : Fin 19)
  /-- POSITION_REACHED (R44): The die's position reaches a waited target: AT_STITCH, a pricking entry, a capture
  window, a refractory time or an arm deadline. `dt` ns and `sub` sixteenths of one pass. -/
  | positionReached (dt : Nat) (sub : Fin 16)
  /-- RECORD_SEQUENCED (R45): A held record's 256-cycle hold ends and it receives its hoop sequence number in stamp
  order. -/
  | recordSequenced (h : Fin 16)
  /-- RULE_EVALUATE (R59): A trigger unit offers a held record to one rule and runs the refractory, release, ARM and
  FIRE procedure. -/
  | ruleEvaluate (u : Fin 16)
  /-- PENDING_FIRE_APPEND (R67): A waiting FIRE or APPEND finds room in its queue and appends its block. -/
  | pendingFireAppend (h : Fin 16) (q : Fin 64)
  /-- FIRE_HOLD_EXPIRY (R67): A waiting FIRE waits FIRE_HOLD stitches without room and is dropped. -/
  | fireHoldExpiry (h : Fin 16) (q : Fin 64)
  /-- DISARM (R70): 256 fabric cycles after an armed rule's deadline the DISARM is taken: the ARM's moves are killed
  and their age stamps are reset. -/
  | disarm (r : Fin 8192)
  /-- RULE_WRITE (R81): RULE_CMD WRITE copies RULE_DATA into the selected rule. -/
  | ruleWrite (f h : Fin 16)
  /-- RULE_READ (R81): RULE_CMD READ copies the selected rule into RULE_DATA. -/
  | ruleRead (f h : Fin 16)
  /-- RULE_ENABLE (R81): RULE_CMD ENABLE validates the rule, pins its template and makes the rule IDLE. -/
  | ruleEnable (f h : Fin 16)
  /-- RULE_DISABLE (R81): RULE_CMD DISABLE disarms an armed rule and disables it. -/
  | ruleDisable (f h : Fin 16)
  /-- FORCE_ARM (R73): The selected rule is armed at the current position. -/
  | forceArm (f h : Fin 16)
  /-- FORCE_FIRE (R73): The selected rule is armed if needed and then fired at the current position. -/
  | forceFire (f h : Fin 16)
  /-- FORCE_DISARM (R73): An armed rule is disarmed by R69. -/
  | forceDisarm (f h : Fin 16)
  /-- TRIG_PART_WRITE (R79): A hoop's rule range is changed or the write is refused. -/
  | trigPartWrite (f h : Fin 16) (v : W32)
  /-- PRICK_ENABLE (R81): Enabling a pricking engine checks its table and pins it, or sets REFUSED. -/
  | prickEnable (f h : Fin 16) (n : Fin 4) (v : W32)
  /-- PRICKING_ENTRY (R75): A pricking entry's target is reached and it acts (APPEND, FORCE, POST, KNOT_SIGNAL) or
  is skipped as late. -/
  | prickingEntry (h : Fin 16) (n : Fin 4)
  /-- PRICKING_WAKE (R77): The position reaches a WAKE entry's target less WAKE_LEAD and the exit from DOZE or
  LISTEN begins. -/
  | prickingWake
  /-- OUT_OF_VIEW_ACCESS (R84): A virtual function accesses an offset outside its view; the access reads 0 and
  VIEW_VIOLATION is set. `a` counts through the control, doorbell and knot windows. -/
  | outOfViewAccess (f : Fin 16) (a : Fin 88080384) (write : Bool)
  /-- REGISTER_WRITE (R98): A write to a register that has no row of its own is stored, refused or discarded by its
  access code. `n` bytes at window offset `a` (control window, doorbell window, knot window). -/
  | registerWrite (f : Fin 16) (a : Fin 88080384) (n : Fin 4097) (v : W64)
  /-- READ_CLEAR (R98): A read of an RC register returns its value and clears it. `n` bytes at window offset `a`. -/
  | readClear (f : Fin 16) (a : Fin 88080384) (n : Fin 4097)
  /-- STAMP_LO_READ (R92): A read of STAMP_LO latches STAMP_HI. -/
  | stampLoRead (f : Fin 16) (a : Fin 83886080)
  /-- BLOCK_ENABLE (R104): A write of EN = 1 starts the block or records an enable for when its stop completes.
  `page` counts 4 KiB pages of the control window. -/
  | blockEnable (f : Fin 16) (page : Fin 16384)
  /-- BLOCK_DISABLE (R104): A write of EN = 0 stops the block or sets PENDING_DISABLE. -/
  | blockDisable (f : Fin 16) (page : Fin 16384)
  /-- EXPERT_SEL_WRITE (R102): EXPERT_SEL is changed, or the change is refused while the page is locked. `v` is the
  selection written. -/
  | expertSelWrite (f : Fin 16) (page : Fin 16384) (v : Bool)
  /-- FENCE_REQ (R108): A fence is requested and the block moves toward FENCED. -/
  | fenceReq (f : Fin 16) (page : Fin 16384)
  /-- RETURN_REQ (R108): A return from FENCED is accepted, refused, or deferred to a health check. -/
  | returnReq (f : Fin 16) (page : Fin 16384)
  /-- BLOCK_RESET (R108): A per-block reset kills the block's work and returns its registers to their reset values.
  -/
  | blockReset (f : Fin 16) (page : Fin 16384)
  /-- BLOCK_START_COMPLETE (R104): A block's start completes and it enters ON or STOPPING, or fails to FENCED. -/
  | blockStartComplete (page : Fin 16384) (ok : Bool)
  /-- BLOCK_STOP_COMPLETE (R104): A block's stop completes and it enters OFF, FENCED or STARTING. -/
  | blockStopComplete (page : Fin 16384)
  /-- FATAL_STATE_ERROR (R591): An uncorrectable error in block state raises ECC_FATAL and fences the block with
  cause 2. -/
  | fatalStateError (page : Fin 16384)
  /-- HOOP_OWNER_WRITE (R97): Hoop 0 changes a page's owner or the write is refused. -/
  | hoopOwnerWrite (f : Fin 16) (page : Fin 16384) (v : W32)
  /-- EXPERT_KEY_WRITE (R100): A write to EXPERT_KEY unlocks the page if the key matches and locks it otherwise. -/
  | expertKeyWrite (f : Fin 16) (page : Fin 16384) (v : W32)
  /-- FAULT_MASK_WRITE (R111): A change of FAULT_MASK; clearing a mask bit whose fault is set posts a DEFERRED
  record. -/
  | faultMaskWrite (f : Fin 16) (page : Fin 16384) (v : W32)
  /-- FAULT_INJECT (R113): A fault occurrence is injected for test. -/
  | faultInject (f : Fin 16) (page : Fin 16384) (v : W32)
  /-- CQ_DB_TAIL (R122): A write of TAIL to a host ring is accepted or refused. -/
  | cqDbTail (f h : Fin 16) (q : Fin 64) (t : W32)
  /-- APPEND_GO (R123): The host appends one command to a device ring, or the append is refused. -/
  | appendGo (f h : Fin 16) (q : Fin 64) (v : W32)
  /-- COMMAND_FETCHED (R128): A fetched command is checked; it either proceeds or ends with a class C code. `bits`
  come from a host ring; `err`: 1 a completion error, 2 poisoned data. -/
  | commandFetched (h : Fin 16) (q : Fin 64) (bits : Line) (err : Fin 3)
  /-- COMMAND_BEGIN (R125): The command at the queue head obtains its allocations, reservations and conditions and
  begins. -/
  | commandBegin (h : Fin 16) (q : Fin 64) (host : List Byte)
  /-- COMMAND_COMMIT (R168): A completed command commits atomically, swapping its homes and posting its records.
  `pos` is the queue position of the command. -/
  | commandCommit (h : Fin 16) (q : Fin 64) (pos : W32)
  /-- NOP (R129): A command that completes and commits nothing. -/
  | nop (h : Fin 16) (q : Fin 64)
  /-- RUN_PATTERN (R130): A pattern runs on the named cores with its bindings. -/
  | runPattern (h : Fin 16) (q : Fin 64)
  /-- RUN_PATTERN_ARM_ONLY (R132): A RUN_PATTERN with ARM_ONLY performs only the prefetch moves of its pattern. -/
  | runPatternArmOnly (h : Fin 16) (q : Fin 64)
  /-- MOVE (R180): A MOVE changes an object's home through shuttles, optionally through a codec. -/
  | move (h : Fin 16) (q : Fin 64) (host : List Byte)
  /-- KNOT_WAIT (R398): A KNOT_WAIT waits at the queue head until a knot meets its condition. -/
  | knotWait (h : Fin 16) (q : Fin 64)
  /-- KNOT_WAIT_TIMEOUT (R398): A KNOT_WAIT's TIMEOUT elapses and it commits with TIMED_OUT. -/
  | knotWaitTimeout (h : Fin 16) (q : Fin 64)
  /-- KNOT_SIGNAL (R399): A KNOT_SIGNAL adds to or resets a knot, locally or remotely, at its commit. -/
  | knotSignal (h : Fin 16) (q : Fin 64)
  /-- AT_STITCH (R133): An AT_STITCH waits until the scene-time position is reached. -/
  | atStitch (h : Fin 16) (q : Fin 64)
  /-- FENCE (R134): A FENCE waits until earlier commits' records and link messages are done and then posts
  FENCE_DONE. -/
  | fence (h : Fin 16) (q : Fin 64)
  /-- POST_EVENT (R135): A POST_EVENT posts a USER record with software's payload. -/
  | postEvent (h : Fin 16) (q : Fin 64)
  /-- CONTEXT_OPEN (R239): A CONTEXT_OPEN opens a context and creates or attaches its state objects. -/
  | contextOpen (h : Fin 16) (q : Fin 64)
  /-- CONTEXT_CLOSE (R240): A CONTEXT_CLOSE closes a context after its work ends and checks its knots. -/
  | contextClose (h : Fin 16) (q : Fin 64)
  /-- SEAL_LOAD (R528): A SEAL_LOAD decrypts a sealed model package into SEALED objects. -/
  | sealLoad (h : Fin 16) (q : Fin 64) (host : List Byte)
  /-- CQ_RESUME (R139): A HALTED queue continues from READ. -/
  | cqResume (f h : Fin 16) (q : Fin 64)
  /-- CQ_RETRY (R139): A HALTED queue re-runs from the failed command. -/
  | cqRetry (f h : Fin 16) (q : Fin 64)
  /-- CQ_CLEAR_FLAGS (R139): The sticky flags of CQ_STATUS are cleared. -/
  | cqClearFlags (f h : Fin 16) (q : Fin 64)
  /-- CQ_ENABLE (R121): A write of CQ_CTRL.EN = 1 enables a command queue or is refused. -/
  | cqEnable (f h : Fin 16) (q : Fin 64) (v : W32)
  /-- CQ_DISABLE (R156): A write of CQ_CTRL.EN = 0 stops the queue, killing uncommitted commands and rewinding READ.
  -/
  | cqDisable (f h : Fin 16) (q : Fin 64) (v : W32)
  /-- EQ_ENABLE (R158): An event queue is enabled and HEAD and TAIL are set to 0. -/
  | eqEnable (f h e : Fin 16) (v : W32)
  /-- EQ_DISABLE (R158): An event queue is disabled and the records held for it are dropped. -/
  | eqDisable (f h e : Fin 16) (v : W32)
  /-- EQ_DB_HEAD (R149): The host frees event-queue entries, which releases held records. -/
  | eqDbHead (f h e : Fin 16) (v : W32)
  /-- EQ_DB_ARM (R148): The event queue is armed and sends MSI-X at once if a condition holds. -/
  | eqDbArm (f h e : Fin 16) (v : W32)
  /-- EQ_COALESCE_EXPIRY (R148): COAL_STITCHES elapse after the oldest pending record and the armed queue sends its
  message. -/
  | eqCoalesceExpiry (h e : Fin 16)
  /-- HOOP_ENABLE_WRITE (R118): A write of HOOP_TABLE EN changes whether a hoop may run and may reset it. -/
  | hoopEnableWrite (f h : Fin 16) (v : W32)
  /-- HOOP_RESET (R151): A hoop reset kills the hoop's work, releases its objects and enters SCRUBBING. -/
  | hoopReset (f h : Fin 16)
  /-- VF_ENABLE_CHANGE (R118): A change of VF Enable or NumVFs changes which hoops are READY. -/
  | vfEnableChange (en : Bool) (num : Fin 16)
  /-- FUNCTION_LEVEL_RESET (R153): An FLR of a function resets its hoop, or all hoops for the PF. -/
  | functionLevelReset (h : Fin 16)
  /-- CONVENTIONAL_RESET (R153): PERST_N, hot reset or link down resets every hoop and retrains the link. -/
  | conventionalReset
  /-- CREATE (R196): OBJ_CMD CREATE makes a DECLARED or allocated object. -/
  | create (f h : Fin 16)
  /-- DESTROY (R195): OBJ_CMD DESTROY releases an object. -/
  | destroy (f h : Fin 16)
  /-- PIN (R191): OBJ_CMD PIN adds a pin to an object. -/
  | pin (f h : Fin 16)
  /-- UNPIN (R191): OBJ_CMD UNPIN removes a pin from an object. -/
  | unpin (f h : Fin 16)
  /-- QUERY (R163): OBJ_CMD QUERY returns an object's state record. -/
  | query (f h : Fin 16)
  /-- OT_ENTRIES_WRITE (R160): A hoop's object table is resized or the write is refused. -/
  | otEntriesWrite (f h : Fin 16) (v : W32)
  /-- GUAR_WRITE (R186): A pool guarantee is changed or refused. -/
  | guarWrite (f : Fin 16) (tier : Fin 5) (h : Fin 16) (v : W32)
  /-- ALLOCATION_GRANTED (R189): A waiting allocation request is satisfied after evictions or releases. -/
  | allocationGranted
  /-- SHUTTLE_RANGE_DONE (R180): A shuttle finishes copying its range; when every range is done, the move commits.
  `cyc` fabric cycles passed. -/
  | shuttleRangeDone (u : Fin 32) (cyc : W32) (host : List Byte)
  /-- CODEC_RANGE_DONE (R386): A codec finishes encoding or decoding its range of blocks. `cyc` and `stall` fabric
  cycles passed. -/
  | codecRangeDone (u : Fin 4) (cyc stall : W32) (host : List Byte)
  /-- RETIRING_RELEASE (R171): The last reader of a replaced allocation ends and the allocation returns to its pool.
  -/
  | retiringRelease (h : Fin 16) (idx : Fin 1048576)
  /-- FLASH_PAGE_READ (R207): A tile read from flash completes, corrected or POISONED. Block `b` of stack `n`, its
  worst codeword corrected in `bits` places; `o0` and `o1`, of its two codewords: 0 clean, 1 corrected at first decoding, 2
  by re-read, 3 uncorrectable; `consumer`: queue and position of the command whose use the read is. -/
  | flashPageRead (n : Fin 2) (b bits : Nat) (o0 o1 : Fin 4) (h : Fin 16) (idx : Fin 1048576) (tile : Nat) (consumer : Option (Fin 64 × W32))
  /-- PATROL_READ (R210): The patrol reads each block once per PATROL_HOURS and refreshes weak blocks. Block `b`,
  `bits` corrections, `permille` of the patrol done; codewords corrected at first decoding, by re-read, and uncorrectable. -/
  | patrolRead (n : Fin 2) (b bits permille corr retry uncorr : Nat)
  /-- INTERNAL_WORK_DONE (R208): A relocation, refresh, reclamation or retirement copy completes. `work`: 0
  relocation, 1 refresh, 2 reclamation, 3 retirement. -/
  | internalWorkDone (n : Fin 2) (work : Fin 5) (b bytes : Nat)
  /-- BUDGET_ADMITTED (R216): A charged write that waits for budget is admitted as the balance rises. -/
  | budgetAdmitted
  /-- BUDGET_CAP_WRITE (R215): BUDGET_CAP_MB is written, persisted, and the balance is lowered to it. -/
  | budgetCapWrite (f : Fin 16) (n : Fin 2) (v : W32)
  /-- BUDGET_RATE_WRITE (R219): BUDGET_RATE_MB is written and persisted. -/
  | budgetRateWrite (f : Fin 16) (n : Fin 2) (v : W32)
  /-- PRESERVE (R223): CAT_CMD PRESERVE turns a T3 object into a catalogued extent. -/
  | preserve (f : Fin 16)
  /-- ADOPT (R223): CAT_CMD ADOPT turns an extent into an object of a hoop. -/
  | adopt (f : Fin 16)
  /-- DISCARD (R223): CAT_CMD DISCARD releases and erases an extent. -/
  | discard (f : Fin 16)
  /-- LOOKUP (R223): CAT_CMD LOOKUP returns an extent's size, kind and mask. -/
  | lookup (f : Fin 16)
  /-- CATALOGUE_LIST (R223): CAT_CMD LIST returns the key of the n-th extent. -/
  | catalogueList (f : Fin 16)
  /-- SKEIN_RELOAD_COMPLETE (R225): After power-up the skein controller reloads its table and journal and becomes
  READY. -/
  | skeinReloadComplete (n : Fin 2)
  /-- RESTORE_START (R243): The context manager starts restoring a runnable non-resident context, taking an entry,
  room and victims. -/
  | restoreStart (h : Fin 16)
  /-- RESIDENCY_STARVED (R250): A runnable episode lasts STARVE_BOUND and a RESIDENCY_STARVED record is posted. -/
  | residencyStarved (i : Fin 262144)
  /-- CTX_QUERY (R255): CTX_CMD QUERY returns a descriptor. -/
  | ctxQuery (f h : Fin 16)
  /-- CTX_PIN (R242): CTX_CMD PIN restores a context if needed and pins it. -/
  | ctxPin (f h : Fin 16)
  /-- CTX_UNPIN (R242): CTX_CMD UNPIN removes a context pin. -/
  | ctxUnpin (f h : Fin 16)
  /-- CTX_RESTORE (R256): CTX_CMD RESTORE makes a context resident ahead of need, without waiting. -/
  | ctxRestore (f h : Fin 16)
  /-- PARK (R256): CTX_CMD PARK spills a context's T2 state. -/
  | park (f h : Fin 16)
  /-- CTX_LIST (R255): CTX_CMD LIST returns the lowest open index at or above the argument. -/
  | ctxList (f h : Fin 16)
  /-- ACT_GUAR_WRITE (R251): An active-set guarantee is changed or refused. -/
  | actGuarWrite (f h : Fin 16) (v : W32)
  /-- GEMM (R265): A GEMM step computes a block-scaled or exact-integer matrix product. -/
  | gemm (core : Fin 64)
  /-- VECTOR (R271): A VECTOR step applies one element-wise operation. -/
  | vector (core : Fin 64)
  /-- KNOT_WAIT_STEP (R401): A pattern knot-wait step waits for a step knot. `cyc` cycles passed with no step able
  to start. -/
  | knotWaitStep (core : Fin 64) (cyc : W32)
  /-- KNOT_SIGNAL_STEP (R401): A pattern knot-signal step adds to a step knot when it ends. -/
  | knotSignalStep (core : Fin 64)
  /-- CONV (R300): A CONV step convolves directly or by Winograd. -/
  | conv (core : Fin 64)
  /-- DWCONV (R307): A DWCONV step convolves each channel with its own filter. -/
  | dwconv (core : Fin 64)
  /-- POOL (R308): A POOL step pools over windows. -/
  | pool (core : Fin 64)
  /-- RESIZE (R309): A RESIZE step resamples by nearest or bilinear. -/
  | resize (core : Fin 64)
  /-- ARGMAX (R310): An ARGMAX step writes the index and value planes over channels. -/
  | argmax (core : Fin 64)
  /-- BOXDEC (R312): A BOXDEC step decodes boxes, suppresses overlaps and writes M1 output. -/
  | boxdec (core : Fin 64)
  /-- HALO_PUT (R318): A HALO_PUT step waits for a free slot, copies halo rows and signals READY. -/
  | haloPut (core : Fin 64)
  /-- HALO_GET (R318): A HALO_GET step waits for READY, copies the slot and signals FREE. -/
  | haloGet (core : Fin 64)
  /-- KV_APPEND (R329): A KV_APPEND step rotates, quantises and writes keys and values. -/
  | kvAppend (core : Fin 64)
  /-- ATTN_FWD (R338): An ATTN_FWD step computes online-softmax attention over admitted keys. -/
  | attnFwd (core : Fin 64)
  /-- ATTN_BWD (R344): An ATTN_BWD step computes attention gradients. -/
  | attnBwd (core : Fin 64)
  /-- REC_LINEAR (R355): A REC_LINEAR step runs the linear recurrence in serial, chunked or scan mode. -/
  | recLinear (core : Fin 64)
  /-- REC_GRU (R363): A REC_GRU step runs a gated recurrent unit. -/
  | recGru (core : Fin 64)
  /-- REC_LSTM (R363): A REC_LSTM step runs an LSTM cell. -/
  | recLstm (core : Fin 64)
  /-- STEP_COMPLETE (R285): A core's step ends; the core takes the next able step, or the command finishes. The
  operands are what the core counted during the step. -/
  | stepComplete (core : Fin 64) (slots vec bank stage knot port : W32)
  /-- CL_GB_HASH_WRITE (R290): The ground-buffer interleave is changed or the write is refused. -/
  | clGbHashWrite (f : Fin 16) (n : Fin 8) (v : W32)
  /-- KW_ADD (R396): A knot-window write adds to a knot. -/
  | kwAdd (f h : Fin 16) (k : Fin 16384) (v : W32)
  /-- KW_RESET (R396): A knot-window write resets a knot. -/
  | kwReset (f h : Fin 16) (k : Fin 16384)
  /-- CHK_OPEN (R404): A knot check records the opening values of its knots. -/
  | chkOpen (f h : Fin 16)
  /-- CHK_CLOSE (R404): A knot check compares the closing values and reports KNOT_LEAK. -/
  | chkClose (f h : Fin 16)
  /-- KDBG_SET (R405): The operator hand-sets a knot, which is logged. -/
  | kdbgSet (f : Fin 16) (v : W32)
  /-- SCH_CLUSTER_WRITE (R407): A cluster's mode and owner are changed or refused. -/
  | schClusterWrite (f : Fin 16) (n : Fin 8) (v : W32)
  /-- SHARE_WRITE (R407): A cluster share is changed and takes effect at the next turn boundary. -/
  | shareWrite (f : Fin 16) (n : Fin 8) (h : Fin 16) (v : W32)
  /-- TURN_END (R408): A hoop's turn on a shared cluster ends and the next hoop's turn opens. -/
  | turnEnd (n : Fin 8)
  /-- REGULATOR_WRITE (R424): A regulator's rate or burst is changed and its tokens are cut. `which`: 0 REG_RATE, 1
  REG_BURST, 2 REG_WEIGHT, of resource `r`. -/
  | regulatorWrite (f h : Fin 16) (r : Fin 4) (which : Fin 3) (v : W32)
  /-- TOKEN_ISSUE (R412): A request held for tokens is issued once its bucket holds tokens again. -/
  | tokenIssue (h : Fin 16) (r : Fin 4)
  /-- PREEMPT (R416): PRE_CMD PREEMPT kills the selected queues at a kill point and rewinds them. `cyc` fabric
  cycles from the request to the last release. -/
  | preempt (f h : Fin 16) (cyc : W32)
  /-- RELEASE (R420): PRE_CMD RELEASE returns preempted queues to fetching. -/
  | release (f h : Fin 16)
  /-- LINK_TRAINING_COMPLETE (R426): A link finishes training or retraining at a width, or goes DOWN. `lanes`
  trained, the far end says it is `peer`, and `keyOk` says that both ends verify each other. -/
  | linkTrainingComplete (n : Fin 8) (lanes : BitVec 8) (peer : Fin 4) (keyOk : Bool)
  /-- LINK_DOWN (R428): An UP link goes down and a STANDBY link takes over, or the peer becomes unreachable. -/
  | linkDown (n : Fin 8)
  /-- FLIT_RECEIVED (R430): A flit is received, checked by CRC and sequence, and accepted or NAKed. `tag`: 0 the
  flit completes no message, 1 a message whose tag matches, 2 one whose tag does not; `ctr` its counter; `delivered`
  the session acknowledgment it carries. -/
  | flitReceived (n : Fin 8) (ftype : Byte) (crcOk : Bool) (fseq ack : Fin 4096) (cls : Fin 3) (credits : BitVec 16) (tag : Fin 3) (ctr : W64) (delivered : Option W64)
  /-- NAK (R430): A NAK is received and the sender replays from the named flit. -/
  | nak (n : Fin 8) (fseq : Fin 4096)
  /-- LINK_REKEY (R433): CTR approaches its limit and a new key is taken. -/
  | linkRekey (n : Fin 8)
  /-- PEER_NEW_SESSION (R436): The peer begins a new session; unacknowledged messages are discarded and pending
  remote commands end. -/
  | peerNewSession (p : Fin 4)
  /-- PEER_UNREACHABLE_TIMEOUT (R436): A command's peer stays unreachable for LK_DOWN_HOLD and the command ends. -/
  | peerUnreachableTimeout (p : Fin 4)
  /-- MOVE_REQ (R439): A received MOVE_REQ begins a remote move at the peer. `ret` is AUX bit 0, a return. -/
  | moveReq (m : MsgHdr) (ret : Bool) (handle : W32) (kind : Fin 16) (size objSize : Fin 68719476737) (param : W32) (compressed coded : Bool)
  /-- PULL_REQ (R439): A received PULL_REQ requests tiles of a committed object. -/
  | pullReq (m : MsgHdr)
  /-- PULL_DATA (R441): A received tile is verified and written at the taker. -/
  | pullData (m : MsgHdr) (tile : Fin 16777216) (crc : W32) (bytes : List Byte)
  /-- PREPARED (R439): The other side reports ready and the initiating MOVE can commit. -/
  | prepared (m : MsgHdr) (handle code over_ under_ : W32) (size : Fin 68719476737) (compressed : Bool)
  /-- REFUSED (R437): A request is refused and the initiating command ends. -/
  | refused (m : MsgHdr) (gone : Bool)
  /-- COMMITTED (R439): The taker homes the object, or the giver releases it. -/
  | committed (m : MsgHdr)
  /-- CANCEL (R439): The taker releases its allocation after the initiator is killed. -/
  | cancel (m : MsgHdr)
  /-- KNOT_SIG (R442): A remote knot signal is applied at delivery. `op`: 0 ADD, 1 RESET. -/
  | knotSig (m : MsgHdr) (knot : Fin 16384) (op : Fin 2) (v : W32)
  /-- EVENT_FWD (R443): A forwarded record is written to the peer's event queue. -/
  | eventFwd (m : MsgHdr) (fwdEq : Fin 16) (line : Line)
  /-- LK_PKG_ID_WRITE (R427): The package identity is set or the write is refused. -/
  | lkPkgIdWrite (f : Fin 16) (v : W32)
  /-- PDM_LINE_STUCK (R450): A PDM line's density stays out of bounds for 100 ms and the line becomes STUCK. -/
  | pdmLineStuck (l : Fin 16)
  /-- PDM_LINE_RECOVER (R450): A STUCK line stays in bounds for 100 ms and leaves STUCK. -/
  | pdmLineRecover (l : Fin 16)
  /-- TDM_PORT_LOST (R450): A TDM port loses its word clock or frame count and becomes LOST. `counts`: by a wrong
  BCLK count, else by a missing WS edge. -/
  | tdmPortLost (p : Fin 4) (counts : Bool)
  /-- TDM_PORT_LOCKED (R450): A LOST port sees 16 good frames and becomes LOCKED. -/
  | tdmPortLocked (p : Fin 4)
  /-- RING_FRAME (R454): A ring channel begins a 512-sample frame of filet-coded audio. `words` are the 512 source
  words of the frame. -/
  | ringFrame (c : Fin 16) (words : List W32)
  /-- DETECTOR_HOP (R465): A 10 ms hop ends and each enabled detector scores it and tests its crossings. `chans` are
  the 160 samples of each channel of group `g`. -/
  | detectorHop (g : Fin 16) (chans : List (List (BitVec 16)))
  /-- SEGMENT_READY (R458): The ring reaches a segment's end, or the wait ends, and the segment is decoded into an
  object. -/
  | segmentReady (h : Fin 16) (q : Fin 64) (slot : Fin 8)
  /-- MODEL_LOAD (R467): A detector model image is copied into the inactive buffer. -/
  | modelLoad (f : Fin 16)
  /-- MODEL_UNLOAD (R467): A detector is stopped at the next hop boundary. -/
  | modelUnload (f : Fin 16)
  /-- HW_MUTE_ASSERT (R472): Two low MUTE_N samples assert the hardware mute and clear the ring. -/
  | hwMuteAssert
  /-- HW_MUTE_RELEASE (R471): Twenty high MUTE_N samples release the hardware mute. -/
  | hwMuteRelease
  /-- RING_CLEAR_COMPLETE (R472): The zeroing of cleared frames completes and CLEARING drops. -/
  | ringClearComplete
  /-- ISL_SW_MUTE_WRITE (R473): Software mutes or unmutes channels, or all channels. -/
  | islSwMuteWrite (f : Fin 16) (v : W32)
  /-- ISL_CLEAR (R473): The frames of the named channels are cleared. -/
  | islClear (f : Fin 16) (v : W32)
  /-- RING_NCH_WRITE (R455): The ring is divided among channels and cleared, or the write is refused. -/
  | ringNchWrite (f : Fin 16) (v : W32)
  /-- RCH_WRITE (R451): A ring channel's source, gain, filter or group is changed, or the write is refused. -/
  | rchWrite (f c : Fin 16) (v : W32)
  /-- GROUP_ENABLE (R452): A listening group is enabled or the enable is refused. -/
  | groupEnable (f g : Fin 16) (v : W32)
  /-- CSI_FRAME_START (R483): A frame-start packet begins a frame and may apply a shadow set. `hdr`: 0 a clean
  header, 1 corrected, 2 uncorrectable; `csi` is the packet's frame number. -/
  | csiFrameStart (port vc : Fin 16) (hdr : Fin 3) (csi : BitVec 16)
  /-- CSI_LINE (R501): A line packet is admitted to the FIFO, fixed up, or causes an overrun. `occ` pixels stand in
  the input FIFO. -/
  | csiLine (port vc : Fin 16) (hdr : Fin 3) (dt : Byte) (crcOk : Bool) (pixels : List (BitVec 16)) (occ : Fin 196609)
  /-- CSI_FRAME_END (R500): A frame-end packet ends the frame, short or complete. -/
  | csiFrameEnd (port vc : Fin 16) (hdr : Fin 3)
  /-- FRAME_TIMEOUT (R500): No packet arrives for FRAME_TIMEOUT and the frame ends short. -/
  | frameTimeout (n : Fin 16)
  /-- FRAME_COMMIT (R487): A frame's objects commit together and rotate into their rotations. -/
  | frameCommit (n : Fin 16)
  /-- BIND (R485): PIPE_CMD BIND binds a port and virtual channel to a pipeline, or is refused. -/
  | bind (f n : Fin 16)
  /-- UNBIND (R485): PIPE_CMD UNBIND releases the live source. -/
  | unbind (f n : Fin 16)
  /-- MEM_RUN (R504): PIPE_CMD MEM_RUN re-processes a raw frame object through the pipeline. -/
  | memRun (f n : Fin 16)
  /-- MEM_ABORT (R506): PIPE_CMD MEM_ABORT kills the memory job. -/
  | memAbort (f n : Fin 16)
  /-- MEM_JOB_COMMIT (R504): A memory job finishes and commits its output frames. -/
  | memJobCommit (n : Fin 16)
  /-- PIPE_APPLY (R492): The shadow set is validated and pends for the next frame start. -/
  | pipeApply (f n : Fin 16)
  /-- ATTEST (R533): MB_CMD ATTEST writes a signed attestation report. -/
  | attest (f h : Fin 16)
  /-- GET_CHAIN (R545): MB_CMD GET_CHAIN writes the certificate chain. -/
  | getChain (f h : Fin 16)
  /-- EXTEND (R536): MB_CMD EXTEND extends the hoop's measurement register. -/
  | extend (f h : Fin 16)
  /-- CO_CHALLENGE (R516): MB_CMD CO_CHALLENGE returns a fresh challenge. -/
  | coChallenge (f h : Fin 16)
  /-- CO_AUTH (R516): MB_CMD CO_AUTH authenticates the Crypto Officer, or fails. -/
  | coAuth (f h : Fin 16) (host : List Byte)
  /-- CO_AUTH_EXPIRY (R516): 3,600 s pass and the Crypto Officer authentication ends. -/
  | coAuthExpiry
  /-- CO_AUTH_HOLDOFF_END (R516): The 60 s refusal after three failed attempts ends. -/
  | coAuthHoldoffEnd
  /-- CO_LOGOUT (R516): MB_CMD CO_LOGOUT ends the Crypto Officer authentication. -/
  | coLogout (f h : Fin 16)
  /-- ENROLL_CO (R516): MB_CMD ENROLL_CO stores the CO public key. -/
  | enrollCo (f h : Fin 16) (host : List Byte)
  /-- ADVANCE_SVN (R525): MB_CMD ADVANCE_SVN raises a fused SVN, or is refused. -/
  | advanceSvn (f h : Fin 16)
  /-- ZEROISE (R543): MB_CMD ZEROISE destroys every key and enters CRITICAL_ERROR. -/
  | zeroise (f h : Fin 16)
  /-- SELF_TEST (R541): MB_CMD SELF_TEST runs the known-answer tests. -/
  | selfTest (f h : Fin 16) (pass : Bool)
  /-- ENTROPY_TEST_FAIL (R542): An entropy health test fails and the root of trust enters SOFT_ERROR. -/
  | entropyTestFail
  /-- ENTROPY_RETEST (R542): The source is re-tested every 100 ms; three passes return to OPERATIONAL. -/
  | entropyRetest (pass : Bool)
  /-- SOFT_ERROR_TIMEOUT (R542): A soft error lasts 10 s and the root of trust enters CRITICAL_ERROR. -/
  | softErrorTimeout
  /-- GET_VERSION (R537): The SPDM GET_VERSION request is answered. -/
  | getVersion
  /-- GET_CAPABILITIES (R537): The SPDM GET_CAPABILITIES request is answered. -/
  | getCapabilities
  /-- NEGOTIATE_ALGORITHMS (R537): The SPDM NEGOTIATE_ALGORITHMS request is answered. -/
  | negotiateAlgorithms
  /-- GET_DIGESTS (R537): The SPDM GET_DIGESTS request is answered. -/
  | getDigests
  /-- GET_CERTIFICATE (R537): The SPDM GET_CERTIFICATE request returns the chain. -/
  | getCertificate
  /-- CHALLENGE (R537): The SPDM CHALLENGE request is answered. -/
  | challenge (nonce : BitVec 256)
  /-- GET_MEASUREMENTS (R537): The SPDM GET_MEASUREMENTS request returns the firmware measurements. -/
  | getMeasurements
  /-- KEY_EXCHANGE (R537): The SPDM KEY_EXCHANGE request begins a session. -/
  | keyExchange (pub : List Byte)
  /-- FINISH (R537): The SPDM FINISH request completes the session. -/
  | finish (ok : Bool)
  /-- END_SESSION (R537): The SPDM END_SESSION request ends the session and its keys. -/
  | endSession
  /-- KEY_PROG (R537): IDE_KM KEY_PROG keys an IDE stream if the Crypto Officer is authenticated. -/
  | keyProg (stream : Byte)
  /-- JTAG_INSTRUCTION (R532): A TAP instruction is loaded, restricted under the debug lock. `kind`: 0 BYPASS, 1
  IDCODE, 2 SAMPLE/PRELOAD, 3 any other. -/
  | jtagInstruction (kind : Fin 4)
  /-- SCRUB_COMPLETE (R538): Both scrub levels of a hoop complete and the hoop becomes READY or ABSENT. `bad`: the
  page of a unit one of whose lines failed three times. -/
  | scrubComplete (h : Fin 16) (bad : Option (Fin 16384))
  /-- DRAM_ZERO_FILL (R539): A 4 KiB unit of a scrubbed hoop's DRAM is zero-filled and returns to free room. -/
  | dramZeroFill (h : Fin 16)
  /-- STATE_REQUEST_ACTIVE (R556): PM_STATE_REQ GO with TARGET ACTIVE wakes the device. -/
  | stateRequestActive (f : Fin 16) (work : Bool)
  /-- STATE_REQUEST_DOZE (R556): PM_STATE_REQ GO requests DOZE. -/
  | stateRequestDoze (f : Fin 16) (work : Bool)
  /-- STATE_REQUEST_LISTEN (R556): PM_STATE_REQ GO requests LISTEN. -/
  | stateRequestListen (f : Fin 16) (work : Bool)
  /-- STATE_REQUEST_OFF (R556): PM_STATE_REQ GO requests OFF. -/
  | stateRequestOff (f : Fin 16) (work : Bool)
  /-- DRAIN_COMPLETE (R557): Every begun command has committed or ended, and entry proceeds. -/
  | drainComplete
  /-- DRAIN_TIMEOUT (R557): DRAIN_TIMEOUT_MS passes and the request is refused. -/
  | drainTimeout
  /-- PME_TURN_OFF (R570): The driver's PME_Turn_Off arrives and the link enters L2. -/
  | pmeTurnOff
  /-- PME_TIMEOUT (R570): PME_Turn_Off does not arrive within 1 s and the request is refused with LINK_UP. -/
  | pmeTimeout
  /-- ENTRY_COMPLETE (R558): State is saved, the copies and quiesce are done, and the enables fall into the target
  state. -/
  | entryComplete (dt : W32)
  /-- WAKE_IN_EVENT (R567): A WAKE_IN edge or level passes its filter and wakes, latches or is dropped. `level` is
  the pin's level past its filter. -/
  | wakeInEvent (pin : Fin 4) (level : Bool)
  /-- WAKE_STUCK (R567): A level wake held asserted for STUCK × 100 ms becomes STUCK. -/
  | wakeStuck (pin : Fin 4)
  /-- POWER_GOOD_TIMEOUT (R548): A power-good does not rise within PG_TIMEOUT_MS and a warm reset follows. -/
  | powerGoodTimeout
  /-- POWER_GOOD_LOST (R548): A power-good falls while its domain is powered and a warm reset follows. `pg`: 0 CORE,
  1 SRAM, 2 IO, 3 HBM, 4 FLASH. -/
  | powerGoodLost (pg : Fin 5)
  /-- EXIT_COMPLETE (R563): The exit from a sleep state restores state, starts blocks and reaches ACTIVE. -/
  | exitComplete (dt : W32)
  /-- IDLE_ENTRY (R555): IDLE_DELAY_US passes with no work and the device gates its clocks. -/
  | idleEntry
  /-- POWER_MEASURE (R551): Package power is measured every 100 µs and the cap ceilings are lowered or raised. `mw`
  mW measured. -/
  | powerMeasure (mw : W32)
  /-- THERMAL_STEP (R552): The thermal ceilings and memory level step per temperature. The hottest core of each of 8
  clusters, 6 DRAM stacks and 2 skein stacks, in °C. -/
  | thermalStep (cl dr sk : List Byte)
  /-- THERMAL_TRIP (R553): A sensor passes its trip limit and the device drops every enable. -/
  | thermalTrip
  /-- PL_TARGET_WRITE (R549): A cluster's target level is written. -/
  | plTargetWrite (f : Fin 16) (n : Fin 8) (v : W32)
  /-- LEVEL_CHANGE_DONE (R549): A cluster's change of level in force completes. -/
  | levelChangeDone (n : Fin 8)
  /-- PM_MEM_LEVEL_WRITE (R550): The DRAM memory level is written. -/
  | pmMemLevelWrite (f : Fin 16) (v : W32)
  /-- MEM_LEVEL_CHANGE_DONE (R550): A memory-level change completes and waiting DRAM requests resume. -/
  | memLevelChangeDone
  /-- PM_RESET_WARM (R572): PM_RESET.WARM causes a warm reset. -/
  | pmResetWarm (f : Fin 16) (v : W32)
  /-- COLD_RESET (R572): PORST_N, a brown-out or an exit from OFF causes a cold reset and boot. `why`: 0 power-on, 1
  PORST_N, 2 a brown-out, 3 an exit from OFF. -/
  | coldReset (why : Fin 4)
  /-- WARM_RESET (R572): WARM_RST_N causes a warm reset. -/
  | warmReset
  /-- BOOT_COMPLETE (R574): Boot finishes and BOOT_DONE is set. The images that verify: controller, slot, SVN,
  version and measured digest. -/
  | bootComplete (images : List (Fin 7 × Fin 4 × Byte × W64 × BitVec 384)) (dt : W32)
  /-- SYSCLK_STOP (R614): SYSCLK stops for 4 µs; the device holds in reset and cold resets on its return. -/
  | sysclkStop
  /-- AUDCLK_STOP (R614): AUDCLK stops for 1 ms and the PDM lines become STUCK. -/
  | audclkStop
  /-- FW_STAGE (R582): SVC_CMD FW_STAGE verifies an image and writes it to slot B. `verified`: what the signature
  check finds, the controller that the header names, its SVN and version. -/
  | fwStage (f : Fin 16) (verified : Option (Fin 7 × Byte × W64)) (host : List Byte)
  /-- FW_ACTIVATE (R582): SVC_CMD FW_ACTIVATE swaps the controller to the staged image at its safe point. -/
  | fwActivate (f : Fin 16)
  /-- FW_SAFE_POINT (R581): The controller reaches its safe point and swaps images. -/
  | fwSafePoint
  /-- FW_SAFE_TIMEOUT (R582): The safe point is not reached in time and the old image runs on. -/
  | fwSafeTimeout
  /-- FW_CONFIRM (R583): SVC_CMD FW_CONFIRM writes the trial image to slot A. -/
  | fwConfirm (f : Fin 16)
  /-- FW_REVERT (R583): SVC_CMD FW_REVERT restarts the slot-A image. -/
  | fwRevert (f : Fin 16)
  /-- HEARTBEAT_MISSED (R583): No heartbeat for 100 ms reverts the trial. -/
  | heartbeatMissed
  /-- TRIAL_EXPIRY (R583): TRIAL_MS passes without CONFIRM and the trial reverts. -/
  | trialExpiry
  /-- DIE_FENCE (R589): SVC_CMD DIE_FENCE takes a flash die out of service. `bad`: tiles that cannot be read from
  the die. -/
  | dieFence (f : Fin 16) (bad : List (Fin 16 × Fin 1048576 × Nat))
  /-- DIE_RETURN (R589): SVC_CMD DIE_RETURN returns a flash die after its health check. -/
  | dieReturn (f : Fin 16) (pass : Bool)
  /-- LANE_FENCE (R590): SVC_CMD LANE_FENCE retrains a link without the named lanes. -/
  | laneFence (f : Fin 16)
  /-- LANE_RETURN (R590): SVC_CMD LANE_RETURN retrains a link with the named lanes. -/
  | laneReturn (f : Fin 16)
  /-- STACK_DRAIN_TIMEOUT (R587): FENCE_DRAIN_MS passes and the remaining tiles of a fencing DRAM stack are
  POISONED. `left`: the tiles still on the stack, as hoop, index and tile. -/
  | stackDrainTimeout (n : Fin 6) (left : List (Fin 16 × Fin 1048576 × Nat))
  /-- HEALTH_CHECK_COMPLETE (R590): A returning unit's health check passes or fails. -/
  | healthCheckComplete (page : Fin 16384) (pass : Bool)
  /-- ECC_ERROR (R592): A memory error is corrected, or poisons its tile, and may repair a row or reach a RAS limit.
  `row` of a DRAM stack, or of the island the channel × 65,536 + FSEQ of a ring frame; `tile`: the tile an uncorrectable error falls in, as hoop, index and tile. -/
  | eccError (page : Fin 16384) (corrected : Bool) (row : Fin 4294967296) (tile : Option (Fin 16 × Fin 1048576 × Nat)) (consumer : Option (Fin 64 × W32))
  /-- SRAM_PATROL (R592): The SRAM patrol reads each memory in idle cycles at least every 10 s. `found`: pages whose
  memories gave a correctable error. -/
  | sramPatrol (found : List (Fin 16384))
  /-- TELEMETRY_SNAPSHOT (R596): Every TEL_PERIOD_MS a telemetry snapshot is latched. -/
  | telemetrySnapshot
  /-- TEL_SEQ_LO_READ (R596): A read of TEL_SEQ_LO freezes the telemetry page. -/
  | telSeqLoRead (f : Fin 16)
  /-- TEL_SEQ_HI_READ (R596): A read of TEL_SEQ_HI releases the telemetry page. -/
  | telSeqHiRead (f : Fin 16)
  /-- SMB_READ_PM_STATUS (R615): SMBus command 0x01 returns PM_STATUS. -/
  | smbReadPmStatus
  /-- SMB_READ_PM_TEMP (R615): SMBus command 0x02 returns PM_TEMP. -/
  | smbReadPmTemp
  /-- SMB_READ_PM_POWER (R615): SMBus command 0x03 returns PM_POWER_MW. -/
  | smbReadPmPower
  /-- SMB_READ_RESET_CAUSE (R615): SMBus command 0x04 returns RESET_CAUSE. -/
  | smbReadResetCause
  /-- SMB_READ_DEV_PART (R615): SMBus command 0x05 returns DEV_PART. -/
  | smbReadDevPart
  /-- SMB_READ_DEV_STATUS (R615): SMBus command 0x06 returns DEV_STATUS. -/
  | smbReadDevStatus
  /-- SMB_ALERT_RESPONSE (R615): A read of the Alert Response Address releases SMB_ALERT_N when no limit holds. -/
  | smbAlertResponse
  /-- LANE_FAULT (R426): A lane's corrected-error rate exceeds its limit while the link is UP; LANE_FAULT is set and
  the link begins to retrain without that lane. -/
  | laneFault (n : Fin 8) (lane : Fin 8)
  /-- CTX_QUANTUM_ELAPSED (R245): A resident RUNNABLE context has been resident for CTX_QUANTUM stitches and becomes
  a class B victim, so a waiting restore may take it. -/
  | ctxQuantumElapsed (i : Fin 262144)
  /-- WAKE_STUCK_CLEAR (R567): A STUCK WAKE_IN pin has been deasserted for 20 ms and leaves STUCK. -/
  | wakeStuckClear (pin : Fin 4)
  /-- SYSCLK_RETURN (R614): SYSCLK returns after a stop, and the device performs a cold reset with RESET_CAUSE
  BROWNOUT. -/
  | sysclkReturn
  /-- PCIE_LINK_UP (R570): The host link reaches L0 again, which releases PCIE_WAKE_N and lets a deferred
  conventional reset take effect. -/
  | pcieLinkUp
  deriving DecidableEq, Repr

end Sys2Proof
end

