-- ==== Sys2Proof/WellFormed.lean ====
section
/-! DEFINITION. Commands that a sender can send: the operands that the types leave too wide. -/

namespace Sys2Proof

/-- Operands of the right length: a tile has 4,096 bytes (R173), a ring frame 512 words (R454), a hop 160 samples (R462), a thermal
step 8, 6 and 2 temperatures (R552), and a packet at most 65,535 pixels (R482). [DESIGN CHOICE, log entry 6] -/
def Instr.wellFormed : Instr → Bool
  | .pullData _ _ _ bytes => decide (bytes.length = 4096)
  | .ringFrame _ words => decide (words.length = 512)
  | .detectorHop _ chans => chans.all fun l => decide (l.length = 160)
  | .csiLine _ _ _ _ _ pixels _ => decide (pixels.length ≤ 65535)
  | .thermalStep cl dr sk => decide (cl.length = 8 ∧ dr.length = 6 ∧ sk.length = 2)
  | _ => true

end Sys2Proof
end

