-- ==== Sys2Proof/Decode.lean ====
section
/-! DEFINITION. Words that spell commands. No row of spec/opcode_table.json gives bits, so no word spells one. -/

namespace Sys2Proof

/-- The command that a word of `nbits` bits spells by the table's bits: none, since the table gives no row any. [DESIGN CHOICE, log entries 3, 97] -/
def decodeTableWord (nbits w : Nat) : Option Instr := none

end Sys2Proof
end

