-- ==== Sys2Proof/Config.lean ====
section
/-! DEFINITION. What one part fixes, and the values the manual leaves open: constants with no body, so that
nothing can be proved about them but what holds for every value. -/

namespace Sys2Proof

/-- One assembled part (R3 to R7): DRAM stacks (2, 4 or 6), I/O dies (1 or 2), grade (0 C, 1 I, 2 A), the cores fenced
at the factory (none, or four in four different clusters on a -60 part). -/
structure Part where
  dramStacks : Nat
  ioDies : Nat
  grade : Nat
  fused : W64
  /-- User-area blocks of one skein stack (R211); the manual gives no count. -/
  skeinBlocks : Nat
  /-- The board's straps as sampled when PORST_N is released (R615): bit 0 SMB_ADDR0, bit 1 SMB_ADDR1, bit 2 BOOT_RECOVERY. -/
  straps : BitVec 3
  deriving DecidableEq, Repr

/-- The SMBus address that the straps give (R615). -/
def Part.smbAddress (p : Part) : Nat := 0x58 + p.straps.toNat % 4

/-- TDP in mW (R4). -/
def Part.tdpMw (p : Part) : Nat :=
  (if p.dramStacks ≤ 2 then 230000 else if p.dramStacks ≤ 4 then 300000 else 350000) + (if p.ioDies = 2 then 30000 else 0)

/-- Highest junction temperature of the grade in °C (R5). -/
def Part.tjMax (p : Part) : Int := if p.grade = 0 then 100 else 105

/-- The FP32 functions whose last bits the manual leaves to the unit (R271): a free function of the operand's bits. [DEDUCED, log entries 38, 39] -/
opaque Config.vecFun : Nat → W32 → W32

/-- A fresh free value of 32 bits for the `n`-th use: a value the manual leaves open and the machine goes on with. [DESIGN CHOICE, log entries 4, 115] -/
opaque Config.free32 : Nat → W32

/-- The word at a place of a core's SRAM that holds some objects and scratch (R289). [DESIGN CHOICE, log entry 4] -/
opaque Config.sramWord : (core word : Nat) → (held : List (Nat × List (Nat × Byte))) → W32

/-- A fresh free byte for the `n`-th use. [DESIGN CHOICE, log entry 26] -/
opaque Config.freeByte : Nat → Byte

/-- Spare rows of each DRAM stack (R593); the manual gives no count. [DESIGN CHOICE, log entry 84] -/
opaque Config.spareRows : Nat → Nat

/-- SHA-384 of a byte string (R513), as a free function: the manual names it and does not restate it. [DESIGN CHOICE, log entry 70] -/
opaque Config.sha384 : List Byte → BitVec 384

/-- ECDSA P-384 verification of a signature by a public key over a digest (R516, R524), not restated by the manual. [DESIGN CHOICE, log entry 70] -/
opaque Config.ecdsaVerify : (key sig digest : List Byte) → Bool

/-- ECDSA P-384 signature of a message by the device's attestation key (R533). [DESIGN CHOICE, log entry 70] -/
opaque Config.ecdsaSign : List Byte → BitVec 768

/-- Authenticated decryption of one sealed chunk: `none` when the tag does not match (R527). [DESIGN CHOICE, log entry 70] -/
opaque Config.aesGcmOpen : (key nonce aad cipher tag : List Byte) → Option (List Byte)

/-- Unwrapping of a key (R526): `none` when the integrity check fails. [DESIGN CHOICE, log entry 70] -/
opaque Config.keyUnwrap : (kek wrapped : List Byte) → Option (List Byte)

/-- Output of the deterministic random bit generator, by request number (R542). [DESIGN CHOICE, log entry 70] -/
opaque Config.drbg : Nat → BitVec 384

/-- One feature of the island's log-mel front end (R462): detector, number of bands, band, the last 400 samples of the mix; an
FP32 value. The front end is not restated bit for bit. [DEDUCED, log entry 65] -/
opaque Config.melBand : (det nbands band : Nat) → List (BitVec 16) → W32

/-- Band-energy sum of a hop, by which glass-break finds its start mark (R462). [DEDUCED, log entry 65] -/
opaque Config.bandEnergy : List (BitVec 16) → Nat

/-- The tone test of a hop (R464): F_LO, F_HI, TONE_DB and the hop's samples. [DEDUCED, log entry 65] -/
opaque Config.toneTest : (lo hi db : Nat) → List (BitVec 16) → Bool

/-- Device identity and certificate material (R522): DEVICE_ID, the DER certificates 2, 3 and 4, the sealing key's digest. [DESIGN CHOICE, log entry 70] -/
opaque Config.deviceId : BitVec 384
/-- [DESIGN CHOICE, log entry 70]. -/
opaque Config.cert : Nat → List Byte
/-- [DESIGN CHOICE, log entry 70]. -/
opaque Config.dskDigest : BitVec 384

/-- KEK of a package (R526): from EPH_PUB and PACKAGE_ID, with this device's sealing key. [DESIGN CHOICE, log entry 70] -/
opaque Config.kek : (ephPub : List Byte) → (packageId : Nat) → List Byte

/-- Signatures of SPDM answers (R537). [DESIGN CHOICE, log entry 70] -/
opaque Config.spdmSign : List Byte → BitVec 768

end Sys2Proof
end

