-- ==== Sys2Proof/Machine/Bits.lean ====
section
/-! DEFINITION. Bit fields, byte fields and checksums (R12, R127). -/

namespace Sys2Proof.Machine

/-- The `len`-bit field of `v` whose lowest bit is `lo`, as a number (R12). -/
def fld {w : Nat} (v : BitVec w) (lo len : Nat) : Nat := v.toNat / 2 ^ lo % 2 ^ len

/-- `v` with its `len`-bit field at `lo` replaced by `x` (taken modulo the field's size). -/
def setFld {w : Nat} (v : BitVec w) (lo len x : Nat) : BitVec w :=
  BitVec.ofNat w (v.toNat - fld v lo len * 2 ^ lo + x % 2 ^ len * 2 ^ lo)

/-- Bit `i` of `v`. -/
def bit {w : Nat} (v : BitVec w) (i : Nat) : Bool := v.getLsbD i

/-- `v` with bit `i` set to `b`. -/
def setBit {w : Nat} (v : BitVec w) (i : Nat) (b : Bool) : BitVec w :=
  setFld v i 1 (if b then 1 else 0)

/-- The little-endian field of `n` bytes that begins at byte `i` of a packed structure (R12). -/
def bytesAt {w : Nat} (v : BitVec w) (i n : Nat) : Nat := fld v (8 * i) (8 * n)

/-- A packed structure with the little-endian field of `n` bytes at byte `i` replaced (R12). -/
def setBytes {w : Nat} (v : BitVec w) (i n x : Nat) : BitVec w := setFld v (8 * i) (8 * n) x

/-- A number as a 32-bit register value. -/
def w32 (n : Nat) : W32 := BitVec.ofNat 32 n

/-- A Bool as one bit. -/
def b2n (b : Bool) : Nat := if b then 1 else 0

/-- The signed value of an `n`-bit field held in a number. -/
def signedOf (n x : Nat) : Int := if x % 2 ^ n < 2 ^ (n - 1) then (x % 2 ^ n : Nat) else (x % 2 ^ n : Nat) - (2 ^ n : Nat)

/-- The `n`-bit two's-complement encoding of an integer, saturated at the nearest limit. -/
def signedSat (n : Nat) (x : Int) : Nat :=
  let hi : Int := 2 ^ (n - 1) - 1
  let lo : Int := -(2 ^ (n - 1))
  ((if x > hi then hi else if x < lo then lo else x) % (2 ^ n : Nat)).toNat

/-- A counter of 32 bits that stops at all ones (R98). -/
def satAdd (v : W32) (n : Nat) : W32 := if v.toNat + n < 2 ^ 32 then w32 (v.toNat + n) else w32 (2 ^ 32 - 1)

/-- Ceiling division. -/
def ceilDiv (a b : Nat) : Nat := (a + b - 1) / b

/-- Round half up of `a / b`, used where the text says "round". [DEDUCED, log entry 41] -/
def roundDiv (a b : Nat) : Nat := (2 * a + b) / (2 * b)

/-- Clamp to a closed range. -/
def clamp (lo hi x : Nat) : Nat := if x < lo then lo else if x > hi then hi else x

/-- One byte step of the reflected CRC-32C register with polynomial 0x1EDC6F41 (R127). -/
def crcByte (crc : W32) (b : Byte) : W32 :=
  let step := fun (c : W32) => if bit c 0 then (c >>> 1) ^^^ (0x82F63B78#32) else c >>> 1
  step (step (step (step (step (step (step (step (crc ^^^ b.setWidth 32))))))))

/-- CRC-32C of a list of bytes, initial value all ones and final complement (R127). -/
def crc32c (bs : List Byte) : W32 := ~~~(bs.foldl crcByte (0xFFFFFFFF#32))

/-- The bytes of a packed structure of `n` bytes, lowest first. -/
def toBytes {w : Nat} (n : Nat) (v : BitVec w) : List Byte :=
  (List.range n).map fun i => BitVec.ofNat 8 (bytesAt v i 1)

/-- A packed structure from bytes, lowest first. -/
def ofBytes (w : Nat) (bs : List Byte) : BitVec w :=
  BitVec.ofNat w (bs.foldr (fun b acc => b.toNat + 256 * acc) 0)

/-- The checksum a command must carry: CRC-32C with bytes 12 to 15 taken as 0 (R126, R127). -/
def cmdChecksum (c : Line) : W32 := crc32c (toBytes 64 (setBytes c 12 4 0))

/-- A command with its checksum recomputed (R63). -/
def withChecksum (c : Line) : Line := setBytes c 12 4 (cmdChecksum c).toNat

end Sys2Proof.Machine
end

