-- ==== Sys2Proof/Machine/Float.lean ====
section
/-! DEFINITION. Floating-point values exactly: the bits of a format read as a number with a sign, and a number rounded
once to nearest, ties to even (R259, R260). -/

namespace Sys2Proof.Machine

/-- A floating-point value: not a number, an infinity, or a finite magnitude with its sign (so that −0 is kept). -/
inductive FVal where
  | nan
  | inf (neg : Bool)
  | fin (neg : Bool) (mag : Rat)
  deriving DecidableEq, Repr

/-- A binary format: exponent bits, fraction bits, bias, and whether the top exponent holds infinities and NaNs. -/
structure Fmt where
  eb : Nat
  mb : Nat
  bias : Nat
  hasInf : Bool
  deriving DecidableEq, Repr

def fmtFp32 : Fmt := ⟨8, 23, 127, true⟩
def fmtFp16 : Fmt := ⟨5, 10, 15, true⟩
def fmtBf16 : Fmt := ⟨8, 7, 127, true⟩

/-- 2 to an integer power, exactly. -/
def pow2 (e : Int) : Rat := if 0 ≤ e then ((2 ^ e.toNat : Nat) : Rat) else 1 / ((2 ^ (-e).toNat : Nat) : Rat)

/-- The value of the bits `x` in a format with infinities (IEEE style). -/
def decodeFmt (f : Fmt) (x : Nat) : FVal :=
  let neg := decide (x / 2 ^ (f.eb + f.mb) % 2 = 1)
  let e := x / 2 ^ f.mb % 2 ^ f.eb
  let m := x % 2 ^ f.mb
  if f.hasInf ∧ e = 2 ^ f.eb - 1 then (if m = 0 then .inf neg else .nan)
  else if e = 0 then .fin neg ((m : Rat) * pow2 (1 - (f.bias : Int) - f.mb))
  else .fin neg (((2 ^ f.mb + m : Nat) : Rat) * pow2 ((e : Int) - f.bias - f.mb))

/-- The value of an FP32 word. -/
def fp32 (w : W32) : FVal := decodeFmt fmtFp32 w.toNat

/-- floor(log2 q) for a positive q. -/
def log2Rat (q : Rat) : Int :=
  let g : Int := (Nat.log2 q.num.natAbs : Int) - (Nat.log2 q.den : Int)
  if q < pow2 g then g - 1 else if pow2 (g + 1) ≤ q then g + 1 else g

/-- Nearest integer to a non-negative number, ties to even. -/
def roundEven (q : Rat) : Nat :=
  let f := q.floor.toNat
  let r := q - (f : Rat)
  if r < 1 / 2 then f else if 1 / 2 < r then f + 1 else if f % 2 = 0 then f else f + 1

/-- A magnitude rounded once to the format, to nearest, ties to even, as bits without the sign; beyond the greatest
finite value it is the infinity of the format. -/
def encodeMag (f : Fmt) (q : Rat) : Nat :=
  if q = 0 then 0
  else
    let emin : Int := 1 - (f.bias : Int)
    let e := max emin (log2Rat q)
    let k := roundEven (q * pow2 ((f.mb : Int) - e))
    let bits := if k < 2 ^ f.mb then k else ((e - emin).toNat + 1) * 2 ^ f.mb + (k - 2 ^ f.mb)
    min bits ((2 ^ f.eb - 1) * 2 ^ f.mb)

/-- A value rounded once to a format with infinities; NaN is the quiet NaN with the sign clear (R260). -/
def encodeFmt (f : Fmt) : FVal → Nat
  | .nan => (2 ^ f.eb - 1) * 2 ^ f.mb + 2 ^ (f.mb - 1)
  | .inf n => (2 ^ f.eb - 1) * 2 ^ f.mb + b2n n * 2 ^ (f.eb + f.mb)
  | .fin n q => encodeMag f q + b2n n * 2 ^ (f.eb + f.mb)

/-- A value rounded once to FP32. -/
def toFp32 (v : FVal) : W32 := w32 (encodeFmt fmtFp32 v)

/-- The signed number of a finite value. -/
def FVal.num : FVal → Rat
  | .fin n q => if n then -q else q
  | _ => 0

/-- An exact number as a value; an exact zero is positive. -/
def FVal.ofRat (q : Rat) : FVal := .fin (decide (q < 0)) (if q < 0 then -q else q)

/-- Is it a NaN? -/
def FVal.isNan : FVal → Bool
  | .nan => true
  | _ => false

/-- a < b; false when either is NaN. -/
def FVal.lt : FVal → FVal → Bool
  | .nan, _ => false
  | _, .nan => false
  | .inf n, .inf m => n && !m
  | .inf n, .fin _ _ => n
  | .fin _ _, .inf m => !m
  | a, b => decide (a.num < b.num)

/-- a ≤ b; false when either is NaN. -/
def FVal.le : FVal → FVal → Bool
  | .nan, _ => false
  | _, .nan => false
  | a, b => !FVal.lt b a

/-- The negated value. -/
def FVal.neg : FVal → FVal
  | .nan => .nan
  | .inf n => .inf (!n)
  | .fin n q => .fin (!n) q

/-- Exact sum; an exact zero sum of unlike signs is +0 (round to nearest). -/
def FVal.add : FVal → FVal → FVal
  | .nan, _ => .nan
  | _, .nan => .nan
  | .inf n, .inf m => if n = m then .inf n else .nan
  | .inf n, _ => .inf n
  | _, .inf m => .inf m
  | .fin n a, .fin m b =>
    let x := (FVal.fin n a).num + (FVal.fin m b).num
    if x = 0 then .fin (n && m) 0 else FVal.ofRat x

/-- Exact difference. -/
def FVal.sub (a b : FVal) : FVal := a.add b.neg

/-- Exact product. -/
def FVal.mul : FVal → FVal → FVal
  | .nan, _ => .nan
  | _, .nan => .nan
  | .inf n, .inf m => .inf (n != m)
  | .inf n, .fin m b => if b = 0 then .nan else .inf (n != m)
  | .fin n a, .inf m => if a = 0 then .nan else .inf (n != m)
  | .fin n a, .fin m b => .fin (n != m) (a * b)

/-- Exact quotient. -/
def FVal.div : FVal → FVal → FVal
  | .nan, _ => .nan
  | _, .nan => .nan
  | .inf _, .inf _ => .nan
  | .inf n, .fin m _ => .inf (n != m)
  | .fin n _, .inf m => .fin (n != m) 0
  | .fin n a, .fin m b => if b = 0 then (if a = 0 then .nan else .inf (n != m)) else .fin (n != m) (a / b)

/-- The sign bit. -/
def FVal.sign : FVal → Bool
  | .nan => false
  | .inf n => n
  | .fin n _ => n

end Sys2Proof.Machine
end

