-- ==== Sys2Proof/Machine/SMap.lean ====
section
/-! DEFINITION. Sparse maps in one canonical form: entries by strictly rising key, none of them equal to
what an unlisted key reads as. Registers, memories and every table of units are held this way. -/

namespace Sys2Proof.Machine

/-- A sparse map from numbers. [DESIGN CHOICE, log entry 91] -/
abbrev SMap (V : Type) := List (Nat × V)

/-- The value at `k`, or `d` where `k` is not listed. -/
def mget {V : Type} (d : V) : SMap V → Nat → V
  | [], _ => d
  | (k', v) :: r, k => if k' = k then v else mget d r k

/-- The map without the key `k`. -/
def mdel {V : Type} (m : SMap V) (k : Nat) : SMap V := m.filter fun e => decide (e.1 ≠ k)

/-- The map with an entry put before the first greater key. -/
def mput {V : Type} : SMap V → Nat → V → SMap V
  | [], k, v => [(k, v)]
  | (k', v') :: r, k, v => if k < k' then (k, v) :: (k', v') :: r else (k', v') :: mput r k v

/-- The map with `v` at `k`, kept canonical: no entry when `v` is the default `d`. -/
def mset {V : Type} [DecidableEq V] (d : V) (m : SMap V) (k : Nat) (v : V) : SMap V :=
  if v = d then mdel m k else mput (mdel m k) k v

/-- Change the value at `k` by a function. -/
def mmod {V : Type} [DecidableEq V] (d : V) (m : SMap V) (k : Nat) (f : V → V) : SMap V :=
  mset d m k (f (mget d m k))

/-- Keys strictly rising from `lo` on, and no entry equal to the default of its key. -/
def mwf {V : Type} [DecidableEq V] (d : Nat → V) : Nat → SMap V → Bool
  | _, [] => true
  | lo, (k, v) :: r => decide (lo ≤ k) && !decide (v = d k) && mwf d (k + 1) r

/-- Write consecutive keys. -/
def msetList {V : Type} [DecidableEq V] (d : V) (m : SMap V) (k : Nat) : List V → SMap V
  | [] => m
  | v :: vs => msetList d (mset d m k v) (k + 1) vs

/-- Read `n` consecutive keys. -/
def mgetList {V : Type} (d : V) (m : SMap V) (k : Nat) : Nat → List V
  | 0 => []
  | n + 1 => mget d m k :: mgetList d m (k + 1) n

/-- Entries whose key satisfies `p` from `b`, the others from `a`: the merge of two canonical maps. -/
def mmerge {V : Type} [DecidableEq V] (d : V) (p : Nat → Bool) (a b : SMap V) : SMap V :=
  (b.filter fun e => p e.1).foldl (fun m e => mset d m e.1 e.2) (a.filter fun e => !p e.1)

end Sys2Proof.Machine
end

