-- ==== Sys2Proof/Machine/Picot.lean ====
section
/-! DEFINITION. The picot stream format, its tables and codes, encoding and decoding (R372 to R389), over the bytes of an
object. -/

namespace Sys2Proof.Machine

/-- The little-endian field of `n` bytes at byte `i` of a content. -/
def rdAt (d : SMap Byte) (i n : Nat) : Nat := (mgetList (0 : Byte) d i n).foldr (fun b a => b.toNat + 256 * a) 0

/-- Bytes from `i` on. -/
def bytesFrom (d : SMap Byte) (i n : Nat) : List Byte := mgetList 0 d i n

/-! ## Formats (R375) -/

/-- Formats a region may have. -/
def pcFmtOk (f : Nat) : Bool := decide (f ≤ 1 ∨ (3 ≤ f ∧ f ≤ 7) ∨ f = 16)
/-- Bytes of a value. -/
def pcValSize (f : Nat) : Nat := if f = 5 ∨ f = 6 then 2 else if f = 7 then 4 else 1
/-- Block size BS. -/
def pcBs (f : Nat) : Nat := if f = 7 then 16384 else 8192
/-- Symbols a code may have: the alphabet, and 0 to 8 for the classes of INT8 and UINT8 (R377). -/
def pcSyms (f : Nat) : Nat := if f = 5 ∨ f = 7 ∨ f = 16 then 256 else if f = 6 ∨ f = 4 then 32 else if f = 3 then 16 else 9
/-- Largest MANT_DROP (R382). -/
def pcMaxDrop (f : Nat) : Nat := if f = 5 then 6 else if f = 6 then 9 else if f = 7 then 22 else 0
/-- Exponent and mantissa bits of a float format. -/
def pcFloat (f : Nat) : Option (Nat × Nat) :=
  if f = 5 then some (8, 7) else if f = 6 then some (5, 10) else if f = 7 then some (8, 23)
  else if f = 3 then some (4, 3) else if f = 4 then some (5, 2) else none

/-- The class of a magnitude. -/
def pcClass (m : Nat) : Nat := if m = 0 then 0 else Nat.log2 m + 1

/-- |v| of an INT8 byte. -/
def abs8 (v : Nat) : Nat := if v < 128 then v else 256 - v

/-- Symbol and raw fields (width, value) of a value, with `d` mantissa bits dropped (R375). -/
def pcSplit (f d v : Nat) : Nat × List (Nat × Nat) :=
  match pcFloat f with
  | some (eb, mb) => (v / 2 ^ mb % 2 ^ eb, [(1, v / 2 ^ (eb + mb)), (mb - d, v % 2 ^ mb / 2 ^ d)])
  | none =>
    if f = 0 then
      let k := pcClass (abs8 v)
      (k, if k = 0 then [] else [(1, v / 128), (k - 1, abs8 v % 2 ^ (k - 1))])
    else if f = 1 then
      let k := pcClass v
      (k, if k < 2 then [] else [(k - 1, v % 2 ^ (k - 1))])
    else (v, [])

/-- Raw bits of a symbol. -/
def pcRawWidth (f d sym : Nat) : Nat :=
  match pcFloat f with
  | some (_, mb) => 1 + mb - d
  | none => if f = 0 then sym else if f = 1 then sym - 1 else 0

/-- The value of a symbol and its raw bits; none for an invalid value (R375). -/
def pcJoin (f d sym x : Nat) : Option Nat :=
  match pcFloat f with
  | some (eb, mb) => some (x / 2 ^ (mb - d) * 2 ^ (eb + mb) + sym * 2 ^ mb + x % 2 ^ (mb - d) * 2 ^ d)
  | none =>
    if f = 0 then
      if 8 < sym then none
      else if sym = 0 then some 0
      else
        let m := 2 ^ (sym - 1) + x % 2 ^ (sym - 1)
        let neg := decide (x / 2 ^ (sym - 1) = 1)
        if 128 < m ∨ (m = 128 ∧ neg = false) then none else some (if neg then 256 - m else m)
    else if f = 1 then (if 8 < sym then none else if sym = 0 then some 0 else some (2 ^ (sym - 1) + x))
    else some sym

/-! ## Codes (R376 to R379) -/

/-- A table's lengths, by symbol. -/
abbrev PcTable := List Nat

/-- The symbols with a code, in ascending length and then symbol, with the canonical codes (R378): symbol, length, code. -/
def pcCodes (t : PcTable) : List (Nat × Nat × Nat) :=
  let used := (List.range 13).flatMap fun l => if l = 0 then [] else ((t.zipIdx).filter fun e => decide (e.1 = l)).map fun e => (e.2, l)
  (used.foldl (fun (acc : List (Nat × Nat × Nat) × Nat × Nat) e =>
    let (l, code, prev) := acc
    let c := code * 2 ^ (e.2 - prev)
    (l ++ [(e.1, e.2, c)], c + 1, e.2)) (([] : List (Nat × Nat × Nat)), 0, 0)).1

/-- Bits of a section, most significant bit of each byte first (R379). -/
def bitsOfBytes (bs : List Byte) : List Bool := bs.flatMap fun b => (List.range 8).map fun i => b.getLsbD (7 - i)

/-- A number from bits, most significant first. -/
def natOfBits (l : List Bool) : Nat := l.foldl (fun a b => 2 * a + b2n b) 0

/-- `n` bits of a number, most significant first. -/
def bitsOfNat (n x : Nat) : List Bool := (List.range n).map fun i => x.testBit (n - 1 - i)

/-- Pad bits to whole bytes with zeros. -/
def bytesOfBits : Nat → List Bool → List Byte
  | 0, _ => []
  | n + 1, l => if l.isEmpty then [] else BitVec.ofNat 8 (natOfBits (l.take 8 ++ List.replicate (8 - (l.take 8).length) false)) :: bytesOfBits n (l.drop 8)

/-- The code that begins a list of bits. -/
def matchCode (codes : List (Nat × Nat × Nat)) (l : List Bool) : Option (Nat × List Bool) :=
  match codes.find? fun c => decide (c.2.1 ≤ l.length) && decide (natOfBits (l.take c.2.1) = c.2.2) with
  | some c => some (c.1, l.drop c.2.1)
  | none => none

/-! ## Stream header (R373, R374, R377, R389) -/

structure PcRegion where
  off : Nat
  len : Nat
  fmt : Nat
  drop : Nat
  tfirst : Nat
  tables : Nat
  fblock : Nat
  deriving DecidableEq, Repr

/-- Blocks of a region. -/
def PcRegion.nblocks (r : PcRegion) : Nat := ceilDiv r.len (pcBs r.fmt)

/-- A parsed stream. -/
structure PcStream where
  usize : Nat
  nblock : Nat
  dataOff : Nat
  nsub : Nat
  regions : List PcRegion
  tables : List PcTable
  deriving DecidableEq, Repr

def allZero (d : SMap Byte) (i n : Nat) : Bool := (bytesFrom d i n).all fun b => decide (b = 0)

/-- Region entry `r` of a stream. -/
def pcRegionAt (d : SMap Byte) (r : Nat) : PcRegion :=
  let a := 64 + 32 * r
  ⟨rdAt d a 8, rdAt d (a + 8) 8, rdAt d (a + 16) 1, rdAt d (a + 17) 1, rdAt d (a + 18) 1, rdAt d (a + 19) 1, rdAt d (a + 20) 4⟩

/-- Does a region follow its predecessor as R374 asks? -/
def regionFollows (p r : PcRegion) : Bool :=
  decide (r.off = p.off + p.len ∧ r.off % 4096 = 0 ∧ r.fblock = p.fblock + p.nblocks ∧ r.tfirst = p.tfirst + p.tables)

/-- DATA_OFF of a block count (R372). -/
def pcDataOff (n : Nat) : Nat := 8192 + 4096 * ceilDiv (8 * n) 4096

/-- The lengths of table `t`. -/
def pcTableAt (d : SMap Byte) (t : Nat) : PcTable :=
  (List.range 256).map fun s => rdAt d (4096 + 256 * t + 8 + s / 2) 1 / (if s % 2 = 0 then 1 else 16) % 16

/-- Is table `t` valid for format `f` (R377)? -/
def pcTableOk (d : SMap Byte) (t f : Nat) : Bool :=
  let a := 4096 + 256 * t
  let ls := pcTableAt d t
  let n := (ls.filter fun l => decide (l ≠ 0)).length
  decide (rdAt d a 1 = f) &&
  ls.all (fun l => decide (l ≤ 12)) && (ls.drop (pcSyms f)).all (fun l => decide (l = 0)) &&
  decide (rdAt d (a + 2) 2 = n ∧ 1 ≤ n ∧ ls.foldl (fun a l => if l = 0 then a else a + 2 ^ (12 - l)) 0 ≤ 4096)

/-- The stream a content holds, or the reason it cannot be read and the region or table index (R389). -/
def pcParse (d : SMap Byte) (size : Nat) : Except (Nat × Nat) PcStream :=
  let nr := rdAt d 6 1
  let nt := rdAt d 7 1
  let us := rdAt d 8 8
  let nb := rdAt d 16 8
  let rs := (List.range nr).map (pcRegionAt d)
  let badRegion := rs.findIdx? fun r => !pcFmtOk r.fmt || decide (pcMaxDrop r.fmt < r.drop ∨ r.len = 0 ∨ r.tables = 0 ∨ 16 < r.tables ∨ r.len % pcValSize r.fmt ≠ 0)
  let first := match rs with | r :: _ => decide (r.off = 0 ∧ r.fblock = 0 ∧ r.tfirst = 0) | [] => false
  let last := rs.getLast?
  let ends := match last with | some r => decide (r.off + r.len = us ∧ r.fblock + r.nblocks = nb ∧ r.tfirst + r.tables = nt) | none => false
  let rsv := allZero d 29 35 && allZero d (64 + 32 * nr) (128 - 32 * nr) && allZero d 192 64 && rs.zipIdx.all fun e => allZero d (64 + 32 * e.2 + 24) 8
  if rdAt d 0 4 ≠ 0x4D565043 ∨ rdAt d 4 2 ≠ 1 ∨ nr = 0 ∨ 4 < nr ∨ nt = 0 ∨ 16 < nt ∨ us = 0 ∨ 2 ^ 36 < us ∨ (rdAt d 28 1 ≠ 1 ∧ rdAt d 28 1 ≠ 16) ∨ rsv = false then .error (38, 0)
  else match badRegion with
    | some r => .error (38, r)
    | none =>
      -- the region that breaks R374's chain: the first, one that does not follow, or the last where the totals differ
      if first = false then .error (38, 0)
      else match (rs.zip rs.tail).findIdx? fun e => !regionFollows e.1 e.2 with
      | some r => .error (38, r + 1)
      | none =>
      if ends = false then .error (38, nr - 1)
      else if rdAt d 24 4 ≠ pcDataOff nb ∨ size < pcDataOff nb then .error (38, 0)
      else match rs.findSome? fun r => ((List.range r.tables).find? fun t => !pcTableOk d (r.tfirst + t) r.fmt).map fun t => r.tfirst + t with
        | some t => .error (39, t)
        | none => .ok ⟨us, nb, pcDataOff nb, rdAt d 28 1, rs, (List.range nt).map (pcTableAt d)⟩

/-- The region of block `b`. -/
def PcStream.regionOf (s : PcStream) (b : Nat) : Option PcRegion := s.regions.find? fun r => decide (r.fblock ≤ b ∧ b < r.fblock + r.nblocks)

/-- Declared range of block `b` of a region: decoded offset and size (R374). -/
def PcRegion.declared (r : PcRegion) (b : Nat) : Nat × Nat :=
  let o := r.off + (b - r.fblock) * pcBs r.fmt
  (o, min (pcBs r.fmt) (r.off + r.len - o))

/-! ## Decoding (R386) -/

/-- decode_sub: up to `cnt` values; answers the values, whether all were read, and whether a byte or more is left over. -/
def decodeSub (f d : Nat) (codes : List (Nat × Nat × Nat)) : Nat → List Bool → List Bool → List Nat × Bool × Bool
  | 0, c, r => ([], true, decide (8 ≤ c.length ∨ 8 ≤ r.length))
  | n + 1, c, r =>
    match matchCode codes c with
    | none => ([], false, false)
    | some (sym, c') =>
      let w := pcRawWidth f d sym
      if r.length < w then ([], false, false)
      else match pcJoin f d sym (natOfBits (r.take w)) with
        | none => ([], false, false)
        | some v =>
          let (vs, ok, ex) := decodeSub f d codes n c' (r.drop w)
          (v :: vs, ok, ex)

/-- Little-endian bytes of values. -/
def valBytes (sz : Nat) (vs : List Nat) : List Byte := vs.flatMap fun v => (List.range sz).map fun i => BitVec.ofNat 8 (v / 256 ^ i)

/-- What decoding one block gives: its bytes over the declared range, SIZE_OVER, SIZE_UNDER, malformed, its KIND. -/
structure PcOut where
  bytes : List Byte
  sizeOver : Bool
  sizeUnder : Bool
  malformed : Bool
  kind : Nat
  deriving DecidableEq, Repr

/-- Is block `b` malformed (R386)? -/
def pcMalformed (d : SMap Byte) (size : Nat) (s : PcStream) (r : PcRegion) (b : Nat) : Bool :=
  let a := rdAt d (8192 + 8 * b) 5
  let stop := if b + 1 < s.nblock then min size (rdAt d (8192 + 8 * (b + 1)) 5) else size
  let kind := rdAt d a 1
  let us := rdAt d (a + 4) 4
  let cs := rdAt d (a + 8) 4
  let secs := (List.range s.nsub).foldl (fun t i => t + rdAt d (a + 16 + 4 * i) 2 + rdAt d (a + 18 + 4 * i) 2) 0
  decide (a < s.dataOff ∨ stop < a + 16 ∨ stop < a + cs ∨ 2 < kind ∨ rdAt d (a + 1) 1 ≠ r.fmt ∨ rdAt d (a + 12) 1 ≠ r.drop ∨
    (kind = 0 ∧ (rdAt d (a + 2) 1 < r.tfirst ∨ r.tfirst + r.tables ≤ rdAt d (a + 2) 1 ∨ rdAt d (a + 3) 1 ≠ s.nsub ∨ cs ≠ 16 + 4 * s.nsub + secs)) ∨
    (kind = 2 ∧ cs ≠ 16) ∨ (kind = 1 ∧ cs ≠ 16 + us) ∨ us % pcValSize r.fmt ≠ 0)

/-- The sub-streams of a CODED block from `i` on, at byte `p`, with `left` values to read. -/
def decodeSubs (d : SMap Byte) (a f drop nsub per : Nat) (codes : List (Nat × Nat × Nat)) : Nat → Nat → Nat → Nat → List Nat × Bool
  | 0, _, _, _ => ([], false)
  | n + 1, i, p, left =>
    if nsub ≤ i then ([], false)
    else
      let cb := rdAt d (a + 16 + 4 * i) 2
      let rb := rdAt d (a + 18 + 4 * i) 2
      let (vs, ok, ex) := decodeSub f drop codes (min per left) (bitsOfBytes (bytesFrom d p cb)) (bitsOfBytes (bytesFrom d (p + cb) rb))
      if ok then
        let (ws, ex') := decodeSubs d a f drop nsub per codes n (i + 1) (p + cb + rb) (left - min per left)
        (vs ++ ws, ex || ex')
      else (vs, ex)

/-- decode_block (R386). -/
def pcDecodeBlock (d : SMap Byte) (size : Nat) (s : PcStream) (b : Nat) : PcOut :=
  match s.regionOf b with
  | none => ⟨[], false, false, true, 3⟩
  | some r =>
    let n := (r.declared b).2
    let a := rdAt d (8192 + 8 * b) 5
    let kind := rdAt d a 1
    let us := rdAt d (a + 4) 4
    let vsz := pcValSize r.fmt
    let bad := pcMalformed d size s r b
    let (out, more) : List Byte × Bool :=
      if bad then ([], false)
      else if kind = 2 then (List.replicate us 0, false)
      else if kind = 1 then (bytesFrom d (a + 16) us, false)
      else
        let v := us / vsz
        let (vs, ex) := decodeSubs d a r.fmt r.drop s.nsub (ceilDiv v s.nsub) (pcCodes (s.tables.getD (rdAt d (a + 2) 1) [])) s.nsub 0 (a + 16 + 4 * s.nsub) v
        (valBytes vsz vs, ex)
    let above := decide (n < out.length) || more
    ⟨out.take n ++ List.replicate (n - out.length) 0, above, !above && decide (out.length < n), bad, kind⟩

/-! ## Encoding (R382 to R385) -/

/-- One region of a layout (R382). -/
structure PcLayRegion where
  len : Nat
  fmt : Nat
  drop : Nat
  tables : Nat
  deriving DecidableEq, Repr

/-- A layout: regions and NSUB as written. -/
structure PcLayout where
  nsub : Nat
  regions : List PcLayRegion
  deriving DecidableEq, Repr

/-- The layout for an object of `size` bytes from a TABLE object's content, or none where ENC_LAYOUT applies. -/
def pcLayout (d : SMap Byte) (tsize size : Nat) : Option PcLayout :=
  let nr := rdAt d 0 1
  let raw := (List.range nr).map fun r => (⟨rdAt d (16 + 12 * r) 8, rdAt d (24 + 12 * r) 1, rdAt d (25 + 12 * r) 1, rdAt d (26 + 12 * r) 1⟩ : PcLayRegion)
  let front := raw.dropLast
  let used := front.foldl (fun (a : Nat) r => a + r.len) 0
  let rs : List PcLayRegion := raw.zipIdx.map fun e => if e.2 + 1 = nr ∧ e.1.len = 0 then { e.1 with len := size - used } else e.1
  if nr = 0 ∨ 4 < nr ∨ tsize < 16 + 12 * nr ∨ (rdAt d 1 1 ≠ 0 ∧ rdAt d 1 1 ≠ 1 ∧ rdAt d 1 1 ≠ 16) ∨ allZero d 2 14 = false ∨
      ((List.range nr).all fun r => decide (rdAt d (27 + 12 * r) 1 = 0)) = false then none
  else if rs.all (fun r => pcFmtOk r.fmt && decide (r.drop ≤ pcMaxDrop r.fmt ∧ 1 ≤ r.tables ∧ r.tables ≤ 16 ∧ 0 < r.len ∧ r.len % pcValSize r.fmt = 0)) &&
      front.all (fun r => decide (r.len ≠ 0 ∧ r.len % 4096 = 0)) &&
      decide (rs.foldl (fun (a : Nat) r => a + r.len) 0 = size ∧ rs.foldl (fun (a : Nat) r => a + r.tables) 0 ≤ 16) then some ⟨rdAt d 1 1, rs⟩
  else none

/-- The layout that CODEC_PARAM 0 stands for. -/
def pcDefaultLayout (size : Nat) : PcLayout := ⟨0, [⟨size, 16, 0, 1⟩]⟩

/-- A value with its low `d` mantissa bits rounded away (R383 step 1). -/
def pcRound (f d v : Nat) : Nat :=
  match pcFloat f with
  | none => v
  | some (eb, mb) =>
    if d = 0 then v
    else
      let sign := v / 2 ^ (eb + mb) * 2 ^ (eb + mb)
      let m := v % 2 ^ (eb + mb)
      let inf := (2 ^ eb - 1) * 2 ^ mb
      if inf < m then inf + 2 ^ (mb - 1)
      else if m = inf then v
      else
        let r := m % 2 ^ d
        let q := m / 2 ^ d
        let up := decide (2 ^ (d - 1) < r) || (decide (r = 2 ^ (d - 1)) && decide (q % 2 = 1))
        let x := (if up then q + 1 else q) * 2 ^ d
        sign + (if inf ≤ x then inf - 2 ^ d else x)

/-- A node of the code tree: weight, key, leaves with depth. -/
abbrev PcNode := Nat × Nat × List (Nat × Nat)

/-- The node lowest in (weight, key), and the others. -/
def minNode : PcNode → List PcNode → PcNode × List PcNode
  | m, [] => (m, [])
  | m, x :: r =>
    if x.1 < m.1 ∨ (x.1 = m.1 ∧ x.2.1 < m.2.1) then (let (y, rest) := minNode x r; (y, m :: rest))
    else (let (y, rest) := minNode m r; (y, x :: rest))

/-- Join the two lowest nodes until one remains. -/
def joinNodes : Nat → List PcNode → List PcNode
  | 0, l => l
  | n + 1, l =>
    match l with
    | [] => []
    | [x] => [x]
    | x :: y :: r =>
      let (a, rest) := minNode x (y :: r)
      match rest with
      | [] => [a]
      | z :: zs =>
        let (b, others) := minNode z zs
        joinNodes n ((a.1 + b.1, min a.2.1 b.2.1, (a.2.2 ++ b.2.2).map fun e => (e.1, e.2 + 1)) :: others)

/-- The symbol to lengthen: greatest LEN below 12, then least count, then greatest symbol. -/
def pickLonger (fs : List Nat) (ls : PcTable) : Option Nat :=
  (ls.zipIdx).foldl (fun best e =>
    if e.1 = 0 ∨ 12 ≤ e.1 then best
    else match best with
      | none => some e.2
      | some b =>
        let lb := ls.getD b 0
        if lb < e.1 ∨ (lb = e.1 ∧ fs.getD e.2 0 ≤ fs.getD b 0) then some e.2 else some b) none

/-- Lengthen codes until they fit (R383 build). -/
def fitLens (fs : List Nat) : Nat → PcTable → PcTable
  | 0, ls => ls
  | n + 1, ls =>
    if ls.foldl (fun a l => if l = 0 then a else a + 2 ^ (12 - l)) 0 ≤ 4096 then ls
    else match pickLonger fs ls with
      | none => ls
      | some s => fitLens fs n (ls.modify s (· + 1))

/-- build(f): the code lengths of a group's symbol counts (R383). -/
def pcBuild (fs : List Nat) : PcTable :=
  let used := (fs.zipIdx).filter fun e => decide (0 < e.1)
  match used with
  | [e] => (List.range 256).map fun s => if s = e.2 then 1 else 0
  | _ =>
    let tree := joinNodes used.length (used.map fun e => (e.1, e.2, [(e.2, 0)]))
    let leaves := match tree with | t :: _ => t.2.2 | [] => []
    fitLens fs 3072 ((List.range 256).map fun s => match leaves.find? fun e => decide (e.1 = s) with | some e => min e.2 12 | none => 0)

/-- The values of a decoded range. -/
def pcValues (d : SMap Byte) (f off n : Nat) : List Nat := (List.range (n / pcValSize f)).map fun i => rdAt d (off + pcValSize f * i) (pcValSize f)

/-- Symbol counts. -/
def pcCount (f d : Nat) (vs : List Nat) (fs : List Nat) : List Nat := vs.foldl (fun fs v => fs.modify (pcSplit f d v).1 (· + 1)) fs

/-- The sub-streams of values: code section and raw section each (R381). -/
def pcSections (f d : Nat) (codes : List (Nat × Nat × Nat)) (per : Nat) (vs : List Nat) : Nat → List (List Byte × List Byte)
  | 0 => []
  | n + 1 =>
    let here := vs.take per
    let cb := here.flatMap fun v => match codes.find? fun c => decide (c.1 = (pcSplit f d v).1) with | some c => bitsOfNat c.2.1 c.2.2 | none => []
    let rb := here.flatMap fun v => (pcSplit f d v).2.flatMap fun e => bitsOfNat e.1 e.2
    (bytesOfBits (cb.length / 8 + 1) cb, bytesOfBits (rb.length / 8 + 1) rb) :: pcSections f d codes per (vs.drop per) n

/-- One block as stored (R380, R381, R384). -/
def pcEncodeBlock (f d nsub table : Nat) (t : PcTable) (vs : List Nat) : Nat × List Byte :=
  let vsz := pcValSize f
  let us := vs.length * vsz
  let hdr := fun (kind tb ns cs : Nat) => valBytes 1 [kind, f, tb, ns] ++ valBytes 4 [us, cs] ++ valBytes 1 [d, 0, 0, 0]
  if vs.all fun v => decide (v = 0) then (2, hdr 2 0 0 16)
  else
    let secs := pcSections f d (pcCodes t) (ceilDiv vs.length nsub) vs nsub
    let cs := 16 + 4 * nsub + secs.foldl (fun a e => a + e.1.length + e.2.length) 0
    if 16 + us < cs then (1, hdr 1 0 0 (16 + us) ++ valBytes vsz vs)
    else (0, hdr 0 table nsub cs ++ (secs.flatMap fun e => valBytes 2 [e.1.length, e.2.length]) ++ secs.flatMap fun e => e.1 ++ e.2)

/-- The regions of the stream a layout gives: table and block numbers assigned (R374, R383 step 2). -/
def pcRegions : List PcLayRegion → Nat → Nat → Nat → List PcRegion
  | [], _, _, _ => []
  | r :: rs, off, tf, fb =>
    let n := ceilDiv r.len (pcBs r.fmt)
    let t := min r.tables n
    ⟨off, r.len, r.fmt, r.drop, tf, t, fb⟩ :: pcRegions rs (off + r.len) (tf + t) (fb + n)

/-- Blocks of one region with their tables (R383 step 2): each block's KIND and bytes, and the tables. -/
def pcEncodeRegion (d : SMap Byte) (nsub : Nat) (r : PcRegion) : List (Nat × List Byte) × List PcTable :=
  let n := r.nblocks
  let vals := (List.range n).map fun i =>
    let e := r.declared (r.fblock + i)
    (pcValues d r.fmt e.1 e.2).map (pcRound r.fmt r.drop)
  let groups := (List.range r.tables).map fun g => (vals.drop (g * n / r.tables)).take ((g + 1) * n / r.tables - g * n / r.tables)
  let tabs := groups.map fun vs => pcBuild (vs.foldl (fun fs b => pcCount r.fmt r.drop b fs) (List.replicate 256 0))
  (((groups.zip tabs).zipIdx).flatMap fun e => e.1.1.map fun b => pcEncodeBlock r.fmt r.drop nsub (r.tfirst + e.2) e.1.2 b, tabs)

/-- WORST of an encoding (R385). -/
def pcWorst (rs : List PcRegion) : Nat :=
  let nb := rs.foldl (fun a r => a + r.nblocks) 0
  pcDataOff nb + 16 * nb + rs.foldl (fun a r => a + r.len) 0

/-- Offsets of the blocks (R385): each range is packed from DATA_OFF plus the worst sizes of the blocks before it. `cuts`
holds each range's first block and count; `sizes` each block's stored and declared size. -/
def pcOffsets (dataOff : Nat) (cuts : List (Nat × Nat)) (sizes : List (Nat × Nat)) : List Nat :=
  cuts.flatMap fun c =>
    let start := dataOff + (sizes.take c.1).foldl (fun a e => a + 16 + e.2) 0
    (List.range c.2).map fun i => start + ((sizes.drop c.1).take i).foldl (fun a e => a + e.1) 0

/-- A whole encoding: the stream's content, its SIZE, and the KIND and stored size of each block. -/
def pcEncode (d : SMap Byte) (lay : PcLayout) (nsub : Nat) (cuts : List (Nat × Nat)) : SMap Byte × Nat × List (Nat × Nat) :=
  let rs := pcRegions lay.regions 0 0 0
  let enc := rs.map (pcEncodeRegion d nsub)
  let blocks := enc.flatMap fun e => e.1
  let tabs := (rs.zip enc).flatMap fun e => e.2.2.map fun t => (e.1.fmt, t)
  let nb := blocks.length
  let us := rs.foldl (fun a r => a + r.len) 0
  let decl := rs.flatMap fun r => (List.range r.nblocks).map fun i => (r.declared (r.fblock + i)).2
  let dOff := pcDataOff nb
  let offs := pcOffsets dOff cuts ((blocks.map fun b => b.2.length).zip decl)
  let hdr := valBytes 4 [0x4D565043] ++ valBytes 2 [1] ++ valBytes 1 [rs.length, tabs.length] ++ valBytes 8 [us, nb] ++ valBytes 4 [dOff] ++ valBytes 1 [nsub]
  let m : SMap Byte := msetList 0 [] 0 hdr
  let m := (rs.zipIdx).foldl (fun m e => msetList 0 m (64 + 32 * e.2) (valBytes 8 [e.1.off, e.1.len] ++ valBytes 1 [e.1.fmt, e.1.drop, e.1.tfirst, e.1.tables] ++ valBytes 4 [e.1.fblock])) m
  let m := (tabs.zipIdx).foldl (fun m e =>
    let t := e.1.2
    let a := 4096 + 256 * e.2
    let m := msetList 0 m a (valBytes 1 [e.1.1, 0] ++ valBytes 2 [(t.filter fun l => decide (l ≠ 0)).length])
    msetList 0 m (a + 8) ((List.range 128).map fun i => BitVec.ofNat 8 (t.getD (2 * i) 0 + 16 * t.getD (2 * i + 1) 0))) m
  let m := (offs.zipIdx).foldl (fun m e => msetList 0 m (8192 + 8 * e.2) (valBytes 8 [e.1])) m
  let m := (offs.zip blocks).foldl (fun m e => msetList 0 m e.1 e.2.2) m
  let size := match (offs.zip blocks).getLast? with | some e => e.1 + e.2.2.length | none => dOff
  (m, size, blocks.map fun b => (b.1, b.2.length))

end Sys2Proof.Machine
end

