-- ==== Sys2Proof/Machine/RegTable.lean ====
section
/-! DEFINITION. The register map of the control and doorbell windows (R83 to R102): every block of R86 and of
the chapters' own region tables, and every register the chapters list, with offset, replication, access code,
reset value and field limits. The tables are transcribed row by row from the chapters' register tables; the rule
of each table stands beside it. Keys are byte offsets: 0 to 64 MiB is the control window, the doorbell window
follows at `doorbellBase`. -/

namespace Sys2Proof.Machine

/-- The block types of the control window (R86, R87), and the two kinds of doorbell page (R89). -/
inductive Blk where
  | devGlobal | sceneTime | triggerUnit | hoopTrigger | objTable | tierPool | commitTable | shuttle | dramStack | skein | ctxGlobal | ctxHoop | cluster | codec | knot | sched | link | island | mailbox | power | service | hostIf | core | pipeline | cqDoorbell | eqDoorbell
  deriving DecidableEq, Repr

/-- The power domains of R13 that hold register pages. -/
inductive Domain where
  | aon | ioMain | compute
  deriving DecidableEq, Repr

/-- Who owns a page at reset and whether the owner can change (R86, R97). -/
inductive OwnerRule where
  | hoop0      -- hoop 0, fixed
  | hoopH      -- hoop of the instance number, fixed
  | assignable -- hoop 0 at reset; hoop 0 may give it to one hoop
  | cluster    -- follows the mode of its cluster (R406)
  | doorbell   -- a page of the doorbell window: the hoop of its region (R89)
  deriving DecidableEq, Repr

/-- Access codes (R98). RWL is used by no register of this manual's tables. -/
inductive Access where
  | RO | RW | WO | W1C | W1S | RC
  deriving DecidableEq, Repr

/-- How a written value is brought into range (R49, R98): `fields` keeps the named fields, each at the nearest
limit, and drops the reserved bits; `whole lo hi` clamps the whole value; `signed m` clamps it as a signed number
to at most `m` in magnitude; `any` stores all 32 bits. -/
inductive Limit where
  | any
  | whole (lo hi : Nat)
  | signed (m : Nat)
  | fields (fs : List (Nat × Nat × Nat × Nat))   -- lowest bit, width, least, greatest
  deriving DecidableEq, Repr

/-- One block type: first page, bytes per instance, instances, owner, expert key, capabilities, domain. -/
structure BlkRow where
  base : Nat
  stride : Nat
  count : Nat
  owner : OwnerRule
  key : Option Nat
  fenceable : Bool
  alwaysOn : Bool
  domain : Domain
  deriving DecidableEq, Repr

/-- One register: offset in its instance, two replications (count and stride), access, reset values by the first
index (the last one repeats), limits of a write, and whether it is on instance 0 only. -/
structure RegRow where
  name : String
  off : Nat
  n1 : Nat
  s1 : Nat
  n2 : Nat
  s2 : Nat
  acc : Access
  reset : List Nat
  limit : Limit
  only : Option Nat
  deriving DecidableEq, Repr

/-- First key of the doorbell window (R83, R89), after the 64 MiB of the control window. -/
def doorbellBase : Nat := 0x4000000

/-- The block table (R86, R95, R197, and the page paragraphs of the chapters). -/
def blkRow : Blk → BlkRow
  | .devGlobal => ⟨0x0, 0x1000, 1, .hoop0, some 0x6E11, false, true, .ioMain⟩
  | .sceneTime => ⟨0x10000, 0x1000, 1, .hoop0, some 0x51C7, false, true, .aon⟩
  | .triggerUnit => ⟨0x40000, 0x1000, 16, .hoop0, some 0x2D6B, false, true, .compute⟩
  | .hoopTrigger => ⟨0x50000, 0x1000, 16, .hoopH, some 0x2D6C, false, true, .compute⟩
  | .objTable => ⟨0x80000, 0x1000, 16, .hoopH, none, false, true, .compute⟩
  | .tierPool => ⟨0x90000, 0x1000, 5, .hoop0, some 0x70A1, false, true, .compute⟩
  | .commitTable => ⟨0x98000, 0x1000, 1, .hoop0, none, false, true, .compute⟩
  | .shuttle => ⟨0xA0000, 0x1000, 32, .hoop0, none, true, true, .compute⟩
  | .dramStack => ⟨0xC0000, 0x1000, 6, .hoop0, some 0x3B9E, true, true, .compute⟩
  | .skein => ⟨0xD0000, 0x1000, 2, .hoop0, some 0x5E1D, true, true, .ioMain⟩
  | .ctxGlobal => ⟨0xE0000, 0x1000, 1, .hoop0, some 0x4C7A, false, true, .compute⟩
  | .ctxHoop => ⟨0xF0000, 0x1000, 16, .hoopH, none, false, true, .compute⟩
  | .cluster => ⟨0x140000, 0x1000, 8, .assignable, some 0x7C1A, true, false, .compute⟩
  | .codec => ⟨0x150000, 0x1000, 4, .hoop0, some 0x9C0D, true, false, .compute⟩
  | .knot => ⟨0x160000, 0x1000, 16, .hoopH, none, false, true, .compute⟩
  | .sched => ⟨0x170000, 0x1000, 16, .hoopH, some 0x5C4D, false, true, .compute⟩
  | .link => ⟨0x180000, 0x1000, 8, .hoop0, some 0x1A5E, true, false, .ioMain⟩
  | .island => ⟨0x190000, 0x10000, 1, .hoop0, some 0x3E71, false, false, .aon⟩
  | .mailbox => ⟨0x1C0000, 0x1000, 16, .hoopH, none, false, true, .aon⟩
  | .power => ⟨0x1D0000, 0x1000, 1, .hoop0, some 0x4D1E, false, true, .aon⟩
  | .service => ⟨0x1E0000, 0x10000, 1, .hoop0, some 0x7E5A, false, true, .aon⟩
  | .hostIf => ⟨0x400000, 0x4000, 16, .hoopH, none, false, false, .ioMain⟩
  | .core => ⟨0x800000, 0x4000, 64, .cluster, some 0x7C0E, true, false, .compute⟩
  | .pipeline => ⟨0xC00000, 0x8000, 16, .assignable, some 0x6A3C, true, false, .ioMain⟩
  | .cqDoorbell => ⟨0x4000000, 0x1000, 4096, .doorbell, none, false, false, .ioMain⟩
  | .eqDoorbell => ⟨0x4040000, 0x1000, 4096, .doorbell, none, false, false, .ioMain⟩

/-- Every block type, in window order. -/
def allBlks : List Blk :=
  [.devGlobal, .sceneTime, .triggerUnit, .hoopTrigger, .objTable, .tierPool, .commitTable, .shuttle, .dramStack, .skein, .ctxGlobal, .ctxHoop, .cluster, .codec, .knot, .sched, .link, .island, .mailbox, .power, .service, .hostIf, .core, .pipeline]

/-- Registers of devGlobal (R91). -/
def regs_devGlobal_0 : List RegRow :=
  [⟨"DEV_PART", 0x100, 1, 0x0, 1, 0x0, .RO, [0], .any, none⟩,
   ⟨"DEV_LIVE", 0x104, 1, 0x0, 1, 0x0, .RO, [0], .any, none⟩,
   ⟨"DRAM_LIVE_GIB", 0x108, 1, 0x0, 1, 0x0, .RO, [0], .any, none⟩,
   ⟨"SKEIN_LIVE_GIB", 0x10C, 1, 0x0, 1, 0x0, .RO, [0], .any, none⟩,
   ⟨"DEV_STATUS", 0x110, 1, 0x0, 1, 0x0, .RO, [0], .any, none⟩,
   ⟨"VIEW_VIOLATION_COUNT", 0x114, 1, 0x0, 1, 0x0, .RC, [0], .any, none⟩,
   ⟨"BAD_ACCESS_COUNT", 0x118, 1, 0x0, 1, 0x0, .RC, [0], .any, none⟩,
   ⟨"FUSE_FENCE_LO", 0x120, 1, 0x0, 1, 0x0, .RO, [0], .any, none⟩,
   ⟨"FUSE_FENCE_HI", 0x124, 1, 0x0, 1, 0x0, .RO, [0], .any, none⟩,
   ⟨"FUSE_STATE", 0x128, 1, 0x0, 1, 0x0, .RO, [0], .any, none⟩,
   ⟨"HOOP_TABLE", 0x200, 16, 0x4, 1, 0x0, .RW, [0x11, 0], .fields [(0,1,0,1)], none⟩]

/-- Registers of sceneTime (R49). -/
def regs_sceneTime_0 : List RegRow :=
  [⟨"TS_SOURCE", 0x100, 1, 0x0, 1, 0x0, .RW, [0], .fields [(0,3,0,7), (4,4,0,15), (8,1,0,1), (9,1,0,1)], none⟩,
   ⟨"TS_DIVIDER", 0x104, 1, 0x0, 1, 0x0, .RW, [0], .fields [(0,16,0,65535)], none⟩,
   ⟨"TS_GLITCH", 0x108, 1, 0x0, 1, 0x0, .RW, [0xfa], .fields [(0,16,0,65535)], none⟩,
   ⟨"TS_MIN_PERIOD", 0x10C, 1, 0x0, 1, 0x0, .RW, [0x1388], .whole 5000 1000000000, none⟩,
   ⟨"TS_NOMINAL_PERIOD", 0x110, 1, 0x0, 1, 0x0, .RW, [0xf424], .whole 5000 1000000000, none⟩,
   ⟨"TS_HOST_RATE", 0x114, 1, 0x0, 1, 0x0, .RW, [0], .signed 2147484, none⟩,
   ⟨"TS_STATUS", 0x118, 1, 0x0, 1, 0x0, .RO, [0], .any, none⟩,
   ⟨"TS_STATUS_CLR", 0x11C, 1, 0x0, 1, 0x0, .W1C, [0], .any, none⟩,
   ⟨"STITCH_LO", 0x120, 1, 0x0, 1, 0x0, .RO, [0], .any, none⟩,
   ⟨"STITCH_HI", 0x124, 1, 0x0, 1, 0x0, .RO, [0], .any, none⟩,
   ⟨"PHASE", 0x128, 1, 0x0, 1, 0x0, .RO, [0], .any, none⟩,
   ⟨"PERIOD_EST", 0x12C, 1, 0x0, 1, 0x0, .RO, [0x3d090], .any, none⟩,
   ⟨"CORR_LO", 0x130, 1, 0x0, 1, 0x0, .RO, [0], .any, none⟩,
   ⟨"CORR_HI", 0x134, 1, 0x0, 1, 0x0, .RO, [0], .any, none⟩,
   ⟨"GLITCH_COUNT", 0x138, 1, 0x0, 1, 0x0, .RC, [0], .any, none⟩,
   ⟨"FAST_COUNT", 0x13C, 1, 0x0, 1, 0x0, .RC, [0], .any, none⟩,
   ⟨"LOST_COUNT", 0x140, 1, 0x0, 1, 0x0, .RC, [0], .any, none⟩,
   ⟨"MISSED_COUNT", 0x144, 1, 0x0, 1, 0x0, .RC, [0], .any, none⟩,
   ⟨"STEP_COUNT", 0x148, 1, 0x0, 1, 0x0, .RC, [0], .any, none⟩,
   ⟨"LOAD_LO", 0x150, 1, 0x0, 1, 0x0, .RW, [0], .any, none⟩]

def regs_sceneTime_1 : List RegRow :=
  [⟨"LOAD_HI", 0x154, 1, 0x0, 1, 0x0, .RW, [0], .any, none⟩,
   ⟨"LOAD_CTRL", 0x158, 1, 0x0, 1, 0x0, .RW, [0], .fields [(1,1,0,1)], none⟩,
   ⟨"HOST_POS_LO", 0x160, 1, 0x0, 1, 0x0, .RW, [0], .any, none⟩,
   ⟨"HOST_POS_HI", 0x164, 1, 0x0, 1, 0x0, .RW, [0], .any, none⟩,
   ⟨"HOST_POS_PHASE", 0x168, 1, 0x0, 1, 0x0, .RW, [0], .fields [(0,16,0,65535)], none⟩,
   ⟨"HOST_POS_GO", 0x16C, 1, 0x0, 1, 0x0, .WO, [0], .any, none⟩,
   ⟨"CAPTURE_REQ", 0x170, 1, 0x0, 1, 0x0, .WO, [0], .any, none⟩,
   ⟨"CAPTURE_LO", 0x174, 1, 0x0, 1, 0x0, .RO, [0], .any, none⟩,
   ⟨"CAPTURE_HI", 0x178, 1, 0x0, 1, 0x0, .RO, [0], .any, none⟩,
   ⟨"CAPTURE_PHASE", 0x17C, 1, 0x0, 1, 0x0, .RO, [0], .any, none⟩,
   ⟨"TS_LOCK_EDGES", 0x800, 1, 0x0, 1, 0x0, .RW, [8], .whole 2 64, none⟩,
   ⟨"TS_LOCK_TOL", 0x804, 1, 0x0, 1, 0x0, .RW, [0xa], .whole 1 64, none⟩,
   ⟨"TS_LOST_PERIODS", 0x808, 1, 0x0, 1, 0x0, .RW, [4], .whole 2 64, none⟩,
   ⟨"TS_SLEW_RATE", 0x80C, 1, 0x0, 1, 0x0, .RW, [0x400], .whole 1 8192, none⟩,
   ⟨"TS_SKEW_MON", 0xF00, 1, 0x0, 1, 0x0, .RO, [0], .any, none⟩]

/-- Registers of triggerUnit (R78). -/
def regs_triggerUnit_0 : List RegRow :=
  [⟨"TU_STATUS", 0x100, 1, 0x0, 1, 0x0, .RO, [0], .any, none⟩,
   ⟨"TU_STATUS_CLR", 0x104, 1, 0x0, 1, 0x0, .W1C, [0], .any, none⟩,
   ⟨"EVAL_COUNT", 0x108, 1, 0x0, 1, 0x0, .RC, [0], .any, none⟩,
   ⟨"ARM_COUNT", 0x10C, 1, 0x0, 1, 0x0, .RC, [0], .any, none⟩,
   ⟨"FIRE_COUNT", 0x110, 1, 0x0, 1, 0x0, .RC, [0], .any, none⟩,
   ⟨"DISARM_COUNT", 0x114, 1, 0x0, 1, 0x0, .RC, [0], .any, none⟩,
   ⟨"SUPPRESS_COUNT", 0x118, 1, 0x0, 1, 0x0, .RC, [0], .any, none⟩,
   ⟨"PREFETCH_DROP_COUNT", 0x11C, 1, 0x0, 1, 0x0, .RC, [0], .any, none⟩,
   ⟨"FIRE_DROP_COUNT", 0x120, 1, 0x0, 1, 0x0, .RC, [0], .any, none⟩,
   ⟨"BACKPRESSURE_CYCLES", 0x124, 1, 0x0, 1, 0x0, .RC, [0], .any, none⟩,
   ⟨"TRIG_PART", 0x200, 16, 0x4, 1, 0x0, .RW, [0x20000000, 0], .fields [(0,13,0,8191), (16,14,0,16383)], some 0⟩,
   ⟨"RULE_PEEK_SEL", 0xF00, 1, 0x0, 1, 0x0, .RW, [0], .whole 0 8191, none⟩,
   ⟨"RULE_PEEK_STATE", 0xF04, 1, 0x0, 1, 0x0, .RO, [0], .any, none⟩]

/-- Registers of hoopTrigger (R80). -/
def regs_hoopTrigger_0 : List RegRow :=
  [⟨"RULE_RANGE", 0x100, 1, 0x0, 1, 0x0, .RO, [0], .any, none⟩,
   ⟨"RULE_SEL", 0x104, 1, 0x0, 1, 0x0, .RW, [0], .whole 0 16383, none⟩,
   ⟨"RULE_CMD", 0x108, 1, 0x0, 1, 0x0, .WO, [0], .any, none⟩,
   ⟨"RULE_CMD_STATUS", 0x10C, 1, 0x0, 1, 0x0, .RO, [1], .any, none⟩,
   ⟨"RULE_STATE", 0x110, 1, 0x0, 1, 0x0, .RO, [0], .any, none⟩,
   ⟨"RULE_ARM_STAMP_LO", 0x114, 1, 0x0, 1, 0x0, .RO, [0], .any, none⟩,
   ⟨"RULE_ARM_STAMP_HI", 0x118, 1, 0x0, 1, 0x0, .RO, [0], .any, none⟩,
   ⟨"FIRE_HOLD", 0x11C, 1, 0x0, 1, 0x0, .RW, [0x400], .any, none⟩,
   ⟨"WAKE_LEAD", 0x120, 1, 0x0, 1, 0x0, .RW, [0x280], .any, none⟩,
   ⟨"PRICK_CTRL", 0x180, 4, 0x20, 1, 0x0, .RW, [0], .fields [(0,1,0,1), (1,2,0,3)], none⟩,
   ⟨"PRICK_TABLE", 0x184, 4, 0x20, 1, 0x0, .RW, [0], .any, none⟩,
   ⟨"PRICK_START_LO", 0x188, 4, 0x20, 1, 0x0, .RW, [0], .any, none⟩,
   ⟨"PRICK_START_HI", 0x18C, 4, 0x20, 1, 0x0, .RW, [0], .any, none⟩,
   ⟨"PRICK_PERIOD", 0x190, 4, 0x20, 1, 0x0, .RW, [0], .any, none⟩,
   ⟨"PRICK_LATE_TOL", 0x194, 4, 0x20, 1, 0x0, .RW, [0x10], .any, none⟩,
   ⟨"PRICK_STATUS", 0x198, 4, 0x20, 1, 0x0, .RO, [0], .any, none⟩,
   ⟨"PRICK_SKIP_COUNT", 0x19C, 4, 0x20, 1, 0x0, .RC, [0], .any, none⟩,
   ⟨"RULE_DATA", 0x200, 32, 0x4, 1, 0x0, .RW, [0], .any, none⟩,
   ⟨"PENDING_FIRE_MAX", 0x800, 1, 0x0, 1, 0x0, .RW, [4], .whole 1 8, none⟩]

/-- Registers of objTable (R198). -/
def regs_objTable_0 : List RegRow :=
  [⟨"OT_USED", 0x100, 1, 0x0, 1, 0x0, .RO, [0], .any, none⟩,
   ⟨"OT_CAPACITY", 0x104, 1, 0x0, 1, 0x0, .RO, [0], .any, none⟩,
   ⟨"WALK_DEPTH", 0x108, 1, 0x0, 1, 0x0, .RW, [2], .whole 0 16, none⟩,
   ⟨"HOST_POOL_BASE_LO", 0x10C, 1, 0x0, 1, 0x0, .RW, [0], .fields [(12,20,0,1048575)], none⟩,
   ⟨"HOST_POOL_BASE_HI", 0x110, 1, 0x0, 1, 0x0, .RW, [0], .any, none⟩,
   ⟨"HOST_POOL_PAGES", 0x114, 1, 0x0, 1, 0x0, .RW, [0], .any, none⟩,
   ⟨"OT_FLAGS", 0x118, 1, 0x0, 1, 0x0, .RO, [0], .any, none⟩,
   ⟨"OT_FLAGS_CLR", 0x11C, 1, 0x0, 1, 0x0, .W1C, [0], .any, none⟩,
   ⟨"OBJ_ARG", 0x120, 4, 0x4, 1, 0x0, .RW, [0], .any, none⟩,
   ⟨"OBJ_CMD", 0x130, 1, 0x0, 1, 0x0, .WO, [0], .any, none⟩,
   ⟨"OBJ_RESULT", 0x134, 1, 0x0, 1, 0x0, .RO, [1], .any, none⟩,
   ⟨"OBJ_OUT", 0x140, 8, 0x4, 1, 0x0, .RO, [0], .any, none⟩,
   ⟨"TILE_CHECK_COUNT", 0x160, 1, 0x0, 1, 0x0, .RC, [0], .any, none⟩,
   ⟨"POISONED_TILES", 0x164, 1, 0x0, 1, 0x0, .RO, [0], .any, none⟩,
   ⟨"EVICTED_COUNT", 0x168, 1, 0x0, 1, 0x0, .RC, [0], .any, none⟩,
   ⟨"WALK_SKIP_COUNT", 0x16C, 1, 0x0, 1, 0x0, .RC, [0], .any, none⟩,
   ⟨"WALK_DROP_COUNT", 0x170, 1, 0x0, 1, 0x0, .RC, [0], .any, none⟩,
   ⟨"ALLOC_WAIT_STITCHES", 0x174, 1, 0x0, 1, 0x0, .RC, [0], .any, none⟩,
   ⟨"OT_PEEK_INDEX", 0xF00, 1, 0x0, 1, 0x0, .RW, [0], .whole 0 1048575, none⟩,
   ⟨"OT_PEEK_STATE", 0xF04, 1, 0x0, 1, 0x0, .RO, [0], .any, none⟩]

/-- Registers of tierPool (R199). -/
def regs_tierPool_0 : List RegRow :=
  [⟨"POOL_CAPACITY_KIB", 0x100, 1, 0x0, 1, 0x0, .RO, [0], .any, none⟩,
   ⟨"POOL_FREE_KIB", 0x104, 1, 0x0, 1, 0x0, .RO, [0], .any, none⟩,
   ⟨"POOL_STATUS", 0x108, 1, 0x0, 1, 0x0, .RO, [0], .any, none⟩,
   ⟨"POOL_STATUS_CLR", 0x10C, 1, 0x0, 1, 0x0, .W1C, [0], .any, none⟩,
   ⟨"EVICT_COUNT", 0x110, 1, 0x0, 1, 0x0, .RC, [0], .any, none⟩,
   ⟨"EVICT_KIB", 0x114, 1, 0x0, 1, 0x0, .RC, [0], .any, none⟩,
   ⟨"ALLOC_WAITERS", 0x118, 1, 0x0, 1, 0x0, .RO, [0], .any, none⟩,
   ⟨"BUDGET_REFUSALS", 0x11C, 1, 0x0, 1, 0x0, .RC, [0], .any, some 2⟩,
   ⟨"UNIT_SEL", 0x120, 1, 0x0, 1, 0x0, .RW, [0], .whole 0 63, none⟩,
   ⟨"UNIT_FREE_KIB", 0x124, 1, 0x0, 1, 0x0, .RO, [0], .any, none⟩,
   ⟨"GUAR", 0x200, 16, 0x10, 1, 0x0, .RW, [0], .any, none⟩,
   ⟨"USED_KIB", 0x204, 16, 0x10, 1, 0x0, .RO, [0], .any, none⟩,
   ⟨"PINNED_KIB", 0x208, 16, 0x10, 1, 0x0, .RO, [0], .any, none⟩,
   ⟨"PIN_LIMIT", 0x20C, 16, 0x10, 1, 0x0, .RW, [0xffffffff, 0], .any, none⟩,
   ⟨"OT_ENTRIES", 0x300, 16, 0x4, 1, 0x0, .RW, [0x10000, 0], .whole 0 1048576, some 2⟩,
   ⟨"FREE_TARGET", 0x800, 1, 0x0, 1, 0x0, .RW, [0], .any, none⟩]

/-- Registers of commitTable (R201). -/
def regs_commitTable_0 : List RegRow :=
  [⟨"CT_OCC", 0x100, 6, 0x4, 1, 0x0, .RO, [0], .any, none⟩,
   ⟨"CT_HWM_CLR", 0x118, 1, 0x0, 1, 0x0, .W1C, [0], .any, none⟩,
   ⟨"CT_FULL_CYCLES", 0x11C, 1, 0x0, 1, 0x0, .RC, [0], .any, none⟩]

/-- Registers of shuttle (R200). -/
def regs_shuttle_0 : List RegRow :=
  [⟨"SH_STATUS", 0x100, 1, 0x0, 1, 0x0, .RO, [0], .any, none⟩,
   ⟨"SH_RANGES", 0x104, 1, 0x0, 1, 0x0, .RC, [0], .any, none⟩,
   ⟨"SH_MIB", 0x108, 1, 0x0, 1, 0x0, .RC, [0], .any, none⟩,
   ⟨"SH_KILLED", 0x10C, 1, 0x0, 1, 0x0, .RC, [0], .any, none⟩,
   ⟨"SH_BUSY_CYCLES", 0x110, 1, 0x0, 1, 0x0, .RC, [0], .any, none⟩]

/-- Registers of dramStack (R202). -/
def regs_dramStack_0 : List RegRow :=
  [⟨"DS_STATUS", 0x100, 1, 0x0, 1, 0x0, .RO, [0], .any, none⟩,
   ⟨"DS_READ_MIB", 0x104, 1, 0x0, 1, 0x0, .RC, [0], .any, none⟩,
   ⟨"DS_WRITE_MIB", 0x108, 1, 0x0, 1, 0x0, .RC, [0], .any, none⟩,
   ⟨"DS_ECC_CORR", 0x10C, 1, 0x0, 1, 0x0, .RC, [0], .any, none⟩,
   ⟨"DS_ECC_UNCORR", 0x110, 1, 0x0, 1, 0x0, .RC, [0], .any, none⟩,
   ⟨"DS_ROW_REPAIRS", 0x114, 1, 0x0, 1, 0x0, .RO, [0], .any, none⟩,
   ⟨"DS_REFRESH", 0x800, 1, 0x0, 1, 0x0, .RW, [0], .whole 0 2, none⟩]

/-- Registers of skein (R228). -/
def regs_skein_0 : List RegRow :=
  [⟨"SK_STATUS", 0x100, 1, 0x0, 1, 0x0, .RO, [0], .any, none⟩,
   ⟨"SK_USER_GIB", 0x104, 1, 0x0, 1, 0x0, .RO, [0x400], .any, none⟩,
   ⟨"SK_FREE_MIB", 0x108, 1, 0x0, 1, 0x0, .RO, [0], .any, none⟩,
   ⟨"SK_PRESERVED_MIB", 0x10C, 1, 0x0, 1, 0x0, .RO, [0], .any, none⟩,
   ⟨"SK_READ_MB", 0x110, 1, 0x0, 1, 0x0, .RC, [0], .any, none⟩,
   ⟨"SK_WRITE_MB", 0x114, 1, 0x0, 1, 0x0, .RC, [0], .any, none⟩,
   ⟨"SK_INTERNAL_MB", 0x118, 1, 0x0, 1, 0x0, .RC, [0], .any, none⟩,
   ⟨"SK_SHARE", 0x11C, 1, 0x0, 1, 0x0, .RO, [0], .any, none⟩,
   ⟨"BUDGET_RATE_MB", 0x120, 1, 0x0, 1, 0x0, .RW, [0], .any, none⟩,
   ⟨"BUDGET_CAP_MB", 0x124, 1, 0x0, 1, 0x0, .RW, [0], .whole 1 4294967295, none⟩,
   ⟨"BUDGET_BALANCE_MB", 0x128, 1, 0x0, 1, 0x0, .RO, [0], .any, none⟩,
   ⟨"BUDGET_REFUSED_MB", 0x12C, 1, 0x0, 1, 0x0, .RC, [0], .any, none⟩,
   ⟨"BUDGET_REFUSALS", 0x130, 1, 0x0, 1, 0x0, .RC, [0], .any, none⟩,
   ⟨"LIFE_CHARGED_GB", 0x134, 1, 0x0, 1, 0x0, .RO, [0], .any, none⟩,
   ⟨"LIFE_PROGRAMMED_GB", 0x138, 1, 0x0, 1, 0x0, .RO, [0], .any, none⟩,
   ⟨"CYCLES", 0x13C, 1, 0x0, 1, 0x0, .RO, [0], .any, none⟩,
   ⟨"WAF_30D", 0x140, 1, 0x0, 1, 0x0, .RO, [0], .any, none⟩,
   ⟨"DAILY_30D_GB", 0x144, 1, 0x0, 1, 0x0, .RO, [0], .any, none⟩,
   ⟨"PROJ_REMAIN_TB", 0x148, 1, 0x0, 1, 0x0, .RO, [0], .any, none⟩,
   ⟨"PROJ_DAYS", 0x14C, 1, 0x0, 1, 0x0, .RO, [0], .any, none⟩]

def regs_skein_1 : List RegRow :=
  [⟨"SPARE_BLOCKS", 0x150, 1, 0x0, 1, 0x0, .RO, [0], .any, none⟩,
   ⟨"RETIRED_BLOCKS", 0x154, 1, 0x0, 1, 0x0, .RO, [0], .any, none⟩,
   ⟨"LDPC_CORR", 0x158, 1, 0x0, 1, 0x0, .RC, [0], .any, none⟩,
   ⟨"LDPC_RETRY", 0x15C, 1, 0x0, 1, 0x0, .RC, [0], .any, none⟩,
   ⟨"LDPC_UNCORR", 0x160, 1, 0x0, 1, 0x0, .RC, [0], .any, none⟩,
   ⟨"RELOC_COUNT", 0x164, 1, 0x0, 1, 0x0, .RC, [0], .any, none⟩,
   ⟨"REFRESH_COUNT", 0x168, 1, 0x0, 1, 0x0, .RC, [0], .any, none⟩,
   ⟨"PATROL_PROGRESS", 0x16C, 1, 0x0, 1, 0x0, .RO, [0], .any, none⟩,
   ⟨"CAT_ARG", 0x180, 4, 0x4, 1, 0x0, .RW, [0], .any, some 0⟩,
   ⟨"CAT_CMD", 0x190, 1, 0x0, 1, 0x0, .WO, [0], .any, some 0⟩,
   ⟨"CAT_RESULT", 0x194, 1, 0x0, 1, 0x0, .RO, [1], .any, some 0⟩,
   ⟨"CAT_OUT", 0x1A0, 4, 0x4, 1, 0x0, .RO, [0], .any, some 0⟩,
   ⟨"CAT_USED", 0x1B0, 1, 0x0, 1, 0x0, .RO, [0], .any, some 0⟩,
   ⟨"RD_THRESHOLD", 0x800, 1, 0x0, 1, 0x0, .RW, [0x7a120], .any, none⟩,
   ⟨"RD_URGENT", 0x804, 1, 0x0, 1, 0x0, .RW, [0xdbba0], .any, none⟩,
   ⟨"INTERNAL_SHARE", 0x808, 1, 0x0, 1, 0x0, .RW, [8], .whole 1 64, none⟩,
   ⟨"URGENT_SHARE", 0x80C, 1, 0x0, 1, 0x0, .RW, [0x80], .whole 64 255, none⟩,
   ⟨"PATROL_HOURS", 0x810, 1, 0x0, 1, 0x0, .RW, [0xa8], .whole 24 2160, none⟩,
   ⟨"REFRESH_BITS", 0x814, 1, 0x0, 1, 0x0, .RW, [0x3c], .whole 20 100, none⟩,
   ⟨"SPARE_FLOOR", 0x818, 1, 0x0, 1, 0x0, .RW, [0xa], .whole 2 50, none⟩]

def regs_skein_2 : List RegRow :=
  [⟨"SK_FW_VERSION", 0xF00, 1, 0x0, 1, 0x0, .RO, [0], .any, none⟩,
   ⟨"SK_PEEK_BLOCK", 0xF04, 1, 0x0, 1, 0x0, .RW, [0], .any, none⟩,
   ⟨"SK_PEEK_STATE", 0xF08, 1, 0x0, 1, 0x0, .RO, [0], .any, none⟩]

/-- Registers of ctxGlobal (R253). -/
def regs_ctxGlobal_0 : List RegRow :=
  [⟨"CM_STATUS", 0x100, 1, 0x0, 1, 0x0, .RO, [0], .any, none⟩,
   ⟨"CM_OPEN_COUNT", 0x104, 1, 0x0, 1, 0x0, .RO, [0], .any, none⟩,
   ⟨"CM_RESIDENT_COUNT", 0x108, 1, 0x0, 1, 0x0, .RO, [0], .any, none⟩,
   ⟨"CM_STATE_MAX_KIB", 0x10C, 1, 0x0, 1, 0x0, .RO, [0], .any, none⟩,
   ⟨"CM_FLAGS", 0x110, 1, 0x0, 1, 0x0, .RO, [0], .any, none⟩,
   ⟨"CM_FLAGS_CLR", 0x114, 1, 0x0, 1, 0x0, .W1C, [0], .any, none⟩,
   ⟨"CTX_QUOTA", 0x200, 16, 0x10, 1, 0x0, .RW, [0x3fffe, 0], .any, none⟩,
   ⟨"ACT_GUAR", 0x204, 16, 0x10, 1, 0x0, .RW, [0], .any, none⟩,
   ⟨"STARVE_BOUND", 0x208, 16, 0x10, 1, 0x0, .RW, [0x3e80], .whole 1 4294967295, none⟩,
   ⟨"SPILL", 0x20C, 16, 0x10, 1, 0x0, .RW, [3], .fields [(0,3,0,7), (8,2,0,3), (16,6,0,63)], none⟩,
   ⟨"CTX_QUANTUM", 0x800, 1, 0x0, 1, 0x0, .RW, [0x40], .whole 1 65535, none⟩,
   ⟨"RESTORE_PARALLEL", 0x804, 1, 0x0, 1, 0x0, .RW, [4], .whole 1 16, none⟩,
   ⟨"CM_PEEK_INDEX", 0xF00, 1, 0x0, 1, 0x0, .RW, [0], .whole 0 262143, none⟩,
   ⟨"CM_PEEK_STATE", 0xF04, 1, 0x0, 1, 0x0, .RO, [0], .any, none⟩]

/-- Registers of ctxHoop (R254). -/
def regs_ctxHoop_0 : List RegRow :=
  [⟨"CTX_OPEN", 0x100, 1, 0x0, 1, 0x0, .RO, [0], .any, none⟩,
   ⟨"CTX_RESIDENT", 0x104, 1, 0x0, 1, 0x0, .RO, [0], .any, none⟩,
   ⟨"CTX_PINNED", 0x108, 1, 0x0, 1, 0x0, .RO, [0], .any, none⟩,
   ⟨"CTX_WAITING", 0x10C, 1, 0x0, 1, 0x0, .RO, [0], .any, none⟩,
   ⟨"CTX_QUOTA_COPY", 0x110, 1, 0x0, 1, 0x0, .RO, [0], .any, none⟩,
   ⟨"CTX_LONGEST_WAIT", 0x114, 1, 0x0, 1, 0x0, .RC, [0], .any, none⟩,
   ⟨"RESTORE_COUNT", 0x118, 1, 0x0, 1, 0x0, .RC, [0], .any, none⟩,
   ⟨"SPILL_COUNT", 0x11C, 1, 0x0, 1, 0x0, .RC, [0], .any, none⟩,
   ⟨"SPILL_REFUSED", 0x120, 1, 0x0, 1, 0x0, .RC, [0], .any, none⟩,
   ⟨"STARVED_COUNT", 0x124, 1, 0x0, 1, 0x0, .RC, [0], .any, none⟩,
   ⟨"DESC_SWAP_COUNT", 0x128, 1, 0x0, 1, 0x0, .RC, [0], .any, none⟩,
   ⟨"STARVE_EQ", 0x12C, 1, 0x0, 1, 0x0, .RW, [0], .whole 0 15, none⟩,
   ⟨"CTX_ARG0", 0x140, 1, 0x0, 1, 0x0, .RW, [0], .whole 0 262143, none⟩,
   ⟨"CTX_ARG1", 0x144, 1, 0x0, 1, 0x0, .RW, [0], .whole 0 262143, none⟩,
   ⟨"CTX_CMD", 0x148, 1, 0x0, 1, 0x0, .WO, [0], .any, none⟩,
   ⟨"CTX_RESULT", 0x14C, 1, 0x0, 1, 0x0, .RO, [1], .any, none⟩,
   ⟨"CTX_OUT", 0x180, 32, 0x4, 1, 0x0, .RO, [0], .any, none⟩]

/-- Registers of cluster (R290). -/
def regs_cluster_0 : List RegRow :=
  [⟨"CL_STATUS", 0x100, 1, 0x0, 1, 0x0, .RO, [0], .any, none⟩,
   ⟨"CL_TEMP", 0x104, 1, 0x0, 1, 0x0, .RO, [0], .any, none⟩,
   ⟨"CL_GB_HELD_KIB", 0x108, 1, 0x0, 1, 0x0, .RO, [0], .any, none⟩,
   ⟨"CL_PORT_RD_MIB", 0x10C, 1, 0x0, 1, 0x0, .RC, [0], .any, none⟩,
   ⟨"CL_PORT_WR_MIB", 0x110, 1, 0x0, 1, 0x0, .RC, [0], .any, none⟩,
   ⟨"CL_PORT_WAIT_CYCLES", 0x114, 1, 0x0, 1, 0x0, .RC, [0], .any, none⟩,
   ⟨"CL_GB_ECC_CORR", 0x118, 1, 0x0, 1, 0x0, .RC, [0], .any, none⟩,
   ⟨"CL_GB_HASH", 0x800, 1, 0x0, 1, 0x0, .RW, [0], .fields [(0,1,0,1)], none⟩]

/-- Registers of codec (R392). -/
def regs_codec_0 : List RegRow :=
  [⟨"PC_STATUS", 0x100, 1, 0x0, 1, 0x0, .RO, [0], .any, none⟩,
   ⟨"PC_IN_MIB", 0x104, 1, 0x0, 1, 0x0, .RC, [0], .any, none⟩,
   ⟨"PC_OUT_MIB", 0x108, 1, 0x0, 1, 0x0, .RC, [0], .any, none⟩,
   ⟨"PC_BLOCKS_CODED", 0x10C, 1, 0x0, 1, 0x0, .RC, [0], .any, none⟩,
   ⟨"PC_BLOCKS_RAW", 0x110, 1, 0x0, 1, 0x0, .RC, [0], .any, none⟩,
   ⟨"PC_BLOCKS_ZERO", 0x114, 1, 0x0, 1, 0x0, .RC, [0], .any, none⟩,
   ⟨"PC_SIZE_OVER", 0x118, 1, 0x0, 1, 0x0, .RC, [0], .any, none⟩,
   ⟨"PC_SIZE_UNDER", 0x11C, 1, 0x0, 1, 0x0, .RC, [0], .any, none⟩,
   ⟨"PC_MALFORMED", 0x120, 1, 0x0, 1, 0x0, .RC, [0], .any, none⟩,
   ⟨"PC_STREAM_REFUSED", 0x124, 1, 0x0, 1, 0x0, .RC, [0], .any, none⟩,
   ⟨"PC_BUSY_CYCLES", 0x128, 1, 0x0, 1, 0x0, .RC, [0], .any, none⟩,
   ⟨"PC_OUT_STALL_CYCLES", 0x12C, 1, 0x0, 1, 0x0, .RC, [0], .any, none⟩,
   ⟨"LOSSY_ENABLE", 0x800, 1, 0x0, 1, 0x0, .RW, [0], .fields [(0,1,0,1)], some 0⟩,
   ⟨"PC_LAST_BLOCK", 0xF00, 1, 0x0, 1, 0x0, .RO, [0], .any, none⟩,
   ⟨"PC_LAST_OBJECT", 0xF04, 1, 0x0, 1, 0x0, .RO, [0], .any, none⟩]

/-- Registers of knot (R421, R422). -/
def regs_knot_0 : List RegRow :=
  [⟨"KN_STATUS", 0x100, 1, 0x0, 1, 0x0, .RO, [0], .any, none⟩,
   ⟨"KN_STATUS_CLR", 0x104, 1, 0x0, 1, 0x0, .W1C, [0], .any, none⟩,
   ⟨"KN_SIGNAL_COUNT", 0x108, 1, 0x0, 1, 0x0, .RC, [0], .any, none⟩,
   ⟨"KN_WAIT_COUNT", 0x10C, 1, 0x0, 1, 0x0, .RC, [0], .any, none⟩,
   ⟨"KN_HELD_DISCARDS", 0x110, 1, 0x0, 1, 0x0, .RC, [0], .any, none⟩,
   ⟨"KN_LEAK_COUNT", 0x114, 1, 0x0, 1, 0x0, .RC, [0], .any, none⟩,
   ⟨"KN_TIMEOUT_COUNT", 0x118, 1, 0x0, 1, 0x0, .RC, [0], .any, none⟩,
   ⟨"CHK_KNOT", 0x120, 16, 0x4, 1, 0x0, .RW, [0], .any, none⟩,
   ⟨"CHK_CMD", 0x160, 1, 0x0, 1, 0x0, .WO, [0], .any, none⟩,
   ⟨"CHK_RESULT", 0x164, 1, 0x0, 1, 0x0, .RO, [1], .any, none⟩,
   ⟨"CHK_OPEN_VAL", 0x180, 16, 0x4, 1, 0x0, .RO, [0], .any, none⟩,
   ⟨"CHK_CLOSE_VAL", 0x1C0, 16, 0x4, 1, 0x0, .RO, [0], .any, none⟩,
   ⟨"KDBG_SEL", 0xF00, 1, 0x0, 1, 0x0, .RW, [0], .fields [(0,14,0,16383), (16,4,0,15)], some 0⟩,
   ⟨"KDBG_VALUE", 0xF04, 1, 0x0, 1, 0x0, .RO, [0], .any, some 0⟩,
   ⟨"KDBG_HOLD", 0xF08, 1, 0x0, 1, 0x0, .RO, [0], .any, some 0⟩,
   ⟨"KDBG_SET", 0xF0C, 1, 0x0, 1, 0x0, .WO, [0], .any, some 0⟩,
   ⟨"KDBG_SET_COUNT", 0xF10, 1, 0x0, 1, 0x0, .RO, [0], .any, some 0⟩,
   ⟨"KDBG_LOG_SEL", 0xF14, 1, 0x0, 1, 0x0, .RW, [0], .whole 0 15, some 0⟩,
   ⟨"KDBG_LOG_STAMP_LO", 0xF18, 1, 0x0, 1, 0x0, .RO, [0], .any, some 0⟩,
   ⟨"KDBG_LOG_STAMP_HI", 0xF1C, 1, 0x0, 1, 0x0, .RO, [0], .any, some 0⟩]

def regs_knot_1 : List RegRow :=
  [⟨"KDBG_LOG_KNOT", 0xF20, 1, 0x0, 1, 0x0, .RO, [0], .any, some 0⟩,
   ⟨"KDBG_LOG_OLD", 0xF24, 1, 0x0, 1, 0x0, .RO, [0], .any, some 0⟩,
   ⟨"KDBG_LOG_NEW", 0xF28, 1, 0x0, 1, 0x0, .RO, [0], .any, some 0⟩]

/-- Registers of sched (R423, R424). -/
def regs_sched_0 : List RegRow :=
  [⟨"PRE_HOOP", 0x100, 1, 0x0, 1, 0x0, .RW, [0], .whole 0 15, none⟩,
   ⟨"PRE_MASK_LO", 0x104, 1, 0x0, 1, 0x0, .RW, [0], .any, none⟩,
   ⟨"PRE_MASK_HI", 0x108, 1, 0x0, 1, 0x0, .RW, [0], .any, none⟩,
   ⟨"PRE_CMD", 0x10C, 1, 0x0, 1, 0x0, .WO, [0], .any, none⟩,
   ⟨"PRE_RESULT", 0x110, 1, 0x0, 1, 0x0, .RO, [1], .any, none⟩,
   ⟨"PRE_COUNT", 0x114, 1, 0x0, 1, 0x0, .RC, [0], .any, none⟩,
   ⟨"PRE_LATENCY_MAX", 0x118, 1, 0x0, 1, 0x0, .RC, [0], .any, none⟩,
   ⟨"LATE_REPLY_DROPS", 0x11C, 1, 0x0, 1, 0x0, .RC, [0], .any, none⟩,
   ⟨"OWN_RATE", 0x120, 4, 0x10, 1, 0x0, .RO, [0], .any, none⟩,
   ⟨"OWN_BURST", 0x124, 4, 0x10, 1, 0x0, .RO, [0], .any, none⟩,
   ⟨"OWN_WEIGHT", 0x128, 4, 0x10, 1, 0x0, .RO, [0], .any, none⟩,
   ⟨"OWN_TOKENS", 0x12C, 4, 0x10, 1, 0x0, .RO, [0], .any, none⟩,
   ⟨"OWN_THROTTLE", 0x160, 4, 0x4, 1, 0x0, .RC, [0], .any, none⟩,
   ⟨"OWN_CLUSTERS", 0x170, 1, 0x0, 1, 0x0, .RO, [0], .any, none⟩,
   ⟨"SCH_CAP_SCALE", 0x180, 1, 0x0, 1, 0x0, .RO, [0x100], .any, some 0⟩,
   ⟨"SCH_FLAGS", 0x184, 1, 0x0, 1, 0x0, .RO, [0], .any, some 0⟩,
   ⟨"SCH_FLAGS_CLR", 0x188, 1, 0x0, 1, 0x0, .W1C, [0], .any, some 0⟩,
   ⟨"SCH_CLUSTER", 0x1A0, 8, 0x4, 1, 0x0, .RW, [0], .fields [(0,1,0,1), (4,4,0,15)], some 0⟩,
   ⟨"SCH_TURN_HOOP", 0x1C0, 8, 0x4, 1, 0x0, .RO, [0], .any, some 0⟩,
   ⟨"SHARE", 0x200, 16, 0x4, 8, 0x40, .RW, [0], .whole 0 255, some 0⟩]

def regs_sched_1 : List RegRow :=
  [⟨"REG_RATE", 0x400, 4, 0x10, 16, 0x40, .RW, [0xffffffff], .any, some 0⟩,
   ⟨"REG_BURST", 0x404, 4, 0x10, 16, 0x40, .RW, [0x1000], .whole 4 1048576, some 0⟩,
   ⟨"REG_WEIGHT", 0x408, 4, 0x10, 16, 0x40, .RW, [1], .whole 0 255, some 0⟩,
   ⟨"REG_TOKENS", 0x40C, 4, 0x10, 16, 0x40, .RO, [0x1000], .any, some 0⟩,
   ⟨"SCH_TURN_US", 0x800, 1, 0x0, 1, 0x0, .RW, [0x32], .whole 1 100000, some 0⟩]

/-- Registers of link (R445). -/
def regs_link_0 : List RegRow :=
  [⟨"LK_STATUS", 0x100, 1, 0x0, 1, 0x0, .RO, [0], .any, none⟩,
   ⟨"LK_STATUS_CLR", 0x104, 1, 0x0, 1, 0x0, .W1C, [0], .any, none⟩,
   ⟨"LK_CTRL", 0x108, 1, 0x0, 1, 0x0, .RW, [0], .fields [(0,2,0,3), (4,2,0,3)], none⟩,
   ⟨"LK_PKG_ID", 0x10C, 1, 0x0, 1, 0x0, .RW, [0], .whole 0 3, some 0⟩,
   ⟨"LK_TX_MB", 0x110, 1, 0x0, 1, 0x0, .RC, [0], .any, none⟩,
   ⟨"LK_RX_MB", 0x114, 1, 0x0, 1, 0x0, .RC, [0], .any, none⟩,
   ⟨"LK_RETRY_COUNT", 0x118, 1, 0x0, 1, 0x0, .RC, [0], .any, none⟩,
   ⟨"LK_RETRAIN_COUNT", 0x11C, 1, 0x0, 1, 0x0, .RC, [0], .any, none⟩,
   ⟨"LK_AUTH_COUNT", 0x120, 1, 0x0, 1, 0x0, .RC, [0], .any, none⟩,
   ⟨"LK_REPLAY_COUNT", 0x124, 1, 0x0, 1, 0x0, .RC, [0], .any, none⟩,
   ⟨"LK_IN_REFUSED", 0x128, 1, 0x0, 1, 0x0, .RC, [0], .any, none⟩,
   ⟨"LK_LOST_MSGS", 0x12C, 1, 0x0, 1, 0x0, .RC, [0], .any, none⟩,
   ⟨"LK_REKEY_COUNT", 0x130, 1, 0x0, 1, 0x0, .RC, [0], .any, none⟩,
   ⟨"LK_KEY_EPOCH", 0x134, 1, 0x0, 1, 0x0, .RO, [0], .any, none⟩,
   ⟨"LK_UNACKED", 0x138, 1, 0x0, 1, 0x0, .RO, [0], .any, none⟩,
   ⟨"LK_HOOP_MAP", 0x200, 16, 0x4, 1, 0x0, .RW, [0], .fields [(0,4,0,15), (8,4,0,15), (16,16,0,65535)], none⟩,
   ⟨"LK_FWD_MASK", 0x240, 16, 0x4, 1, 0x0, .RW, [0], .whole 0 65535, none⟩,
   ⟨"LC_TX_IN_MIB", 0x300, 1, 0x0, 1, 0x0, .RC, [0], .any, none⟩,
   ⟨"LC_TX_OUT_MIB", 0x304, 1, 0x0, 1, 0x0, .RC, [0], .any, none⟩,
   ⟨"LC_RX_IN_MIB", 0x308, 1, 0x0, 1, 0x0, .RC, [0], .any, none⟩]

def regs_link_1 : List RegRow :=
  [⟨"LC_RX_OUT_MIB", 0x30C, 1, 0x0, 1, 0x0, .RC, [0], .any, none⟩,
   ⟨"LC_SIZE_OVER", 0x310, 1, 0x0, 1, 0x0, .RC, [0], .any, none⟩,
   ⟨"LC_SIZE_UNDER", 0x314, 1, 0x0, 1, 0x0, .RC, [0], .any, none⟩,
   ⟨"LC_STREAM_REFUSED", 0x318, 1, 0x0, 1, 0x0, .RC, [0], .any, none⟩,
   ⟨"LK_REKEY_LOG2", 0x800, 1, 0x0, 1, 0x0, .RW, [0x20], .whole 20 48, none⟩,
   ⟨"LK_RETRY_LIMIT", 0x804, 1, 0x0, 1, 0x0, .RW, [8], .whole 1 64, none⟩,
   ⟨"LK_AUTH_LIMIT", 0x808, 1, 0x0, 1, 0x0, .RW, [0x10], .whole 1 255, none⟩,
   ⟨"LK_DOWN_HOLD", 0x80C, 1, 0x0, 1, 0x0, .RW, [0x3e80], .whole 1 4294967295, none⟩,
   ⟨"LK_LANE_SEL", 0xF00, 1, 0x0, 1, 0x0, .RW, [0], .whole 0 7, none⟩,
   ⟨"LK_LANE_BER", 0xF04, 1, 0x0, 1, 0x0, .RO, [0], .any, none⟩]

/-- Registers of island (R475, R477, R478, R479, R480, R481). -/
def regs_island_0 : List RegRow :=
  [⟨"ISL_STATUS", 0x100, 1, 0x0, 1, 0x0, .RO, [0], .any, none⟩,
   ⟨"ISL_CTRL", 0x104, 1, 0x0, 1, 0x0, .RW, [0], .fields [(0,1,0,1), (1,1,0,1), (4,2,0,2)], none⟩,
   ⟨"ISL_SW_MUTE", 0x108, 1, 0x0, 1, 0x0, .RW, [0], .fields [(0,16,0,65535), (16,1,0,1)], none⟩,
   ⟨"ISL_CLEAR", 0x10C, 1, 0x0, 1, 0x0, .WO, [0], .any, none⟩,
   ⟨"RING_NCH", 0x110, 1, 0x0, 1, 0x0, .RW, [0x10], .whole 1 16, none⟩,
   ⟨"RING_FRAMES", 0x114, 1, 0x0, 1, 0x0, .RO, [0x2c8], .any, none⟩,
   ⟨"SEG_MAX_SAMPLES", 0x118, 1, 0x0, 1, 0x0, .RW, [0x100000], .whole 16000 8388608, none⟩,
   ⟨"MUTE_COUNT", 0x11C, 1, 0x0, 1, 0x0, .RC, [0], .any, none⟩,
   ⟨"MUTE_TOGGLE_COUNT", 0x120, 1, 0x0, 1, 0x0, .RC, [0], .any, none⟩,
   ⟨"PENDING_LOST", 0x124, 1, 0x0, 1, 0x0, .RC, [0], .any, none⟩,
   ⟨"SEG_COUNT", 0x128, 1, 0x0, 1, 0x0, .RC, [0], .any, none⟩,
   ⟨"RING_ECC_UNCORR", 0x12C, 1, 0x0, 1, 0x0, .RC, [0], .any, none⟩,
   ⟨"MUTE_STAMP_LO", 0x130, 1, 0x0, 1, 0x0, .RO, [0], .any, none⟩,
   ⟨"MUTE_STAMP_HI", 0x134, 1, 0x0, 1, 0x0, .RO, [0], .any, none⟩,
   ⟨"ISL_STATUS_CLR", 0x138, 1, 0x0, 1, 0x0, .W1C, [0], .any, none⟩,
   ⟨"ONSET_DB", 0x800, 1, 0x0, 1, 0x0, .RW, [9], .whole 3 30, none⟩,
   ⟨"ONSET_QUIET_MS", 0x804, 1, 0x0, 1, 0x0, .RW, [0x12c], .whole 50 2000, none⟩,
   ⟨"PDM_STATUS", 0x1140, 1, 0x0, 1, 0x0, .RO, [0], .any, none⟩,
   ⟨"PDM_STUCK_COUNT", 0x1144, 1, 0x0, 1, 0x0, .RC, [0], .any, none⟩,
   ⟨"TDM_CTRL", 0x1180, 4, 0x10, 1, 0x0, .RW, [0x10], .fields [(0,1,0,1), (1,1,0,1), (4,2,0,3), (8,2,0,2), (12,4,0,15), (16,1,0,1), (17,1,0,1), (18,1,0,1)], none⟩]

def regs_island_1 : List RegRow :=
  [⟨"TDM_STATUS", 0x1184, 4, 0x10, 1, 0x0, .RO, [0], .any, none⟩,
   ⟨"TDM_LOST_COUNT", 0x1188, 4, 0x10, 1, 0x0, .RC, [0], .any, none⟩,
   ⟨"TDM_FRAME_ERR", 0x118C, 4, 0x10, 1, 0x0, .RC, [0], .any, none⟩,
   ⟨"RCH", 0x2100, 16, 0x4, 1, 0x0, .RW, [0], .fields [(0,2,0,2), (4,4,0,15), (8,4,0,15), (16,5,0,30), (24,1,0,1), (28,4,0,15)], none⟩,
   ⟨"RCH_SAT", 0x2140, 16, 0x4, 1, 0x0, .RC, [0], .any, none⟩,
   ⟨"RCH_FRAMES", 0x2180, 16, 0x4, 1, 0x0, .RO, [0], .any, none⟩,
   ⟨"GRP_CTRL", 0x3100, 16, 0x10, 1, 0x0, .RW, [0], .fields [(0,1,0,1), (4,4,0,15), (8,4,0,15), (12,3,0,7), (16,3,0,7), (20,2,0,2), (22,2,0,2), (24,2,0,2)], none⟩,
   ⟨"GRP_CTX", 0x3104, 16, 0x10, 1, 0x0, .RW, [0], .whole 0 262143, none⟩,
   ⟨"GRP_CHAN", 0x3108, 16, 0x10, 1, 0x0, .RO, [0], .any, none⟩,
   ⟨"GRP_MARK", 0x310C, 16, 0x10, 1, 0x0, .RW, [0x64], .whole 0 1000, none⟩,
   ⟨"DET_ARM", 0x4100, 3, 0x20, 1, 0x0, .RW, [0x3f000000, 0x3f000000, 0x3f800000], .any, none⟩,
   ⟨"DET_FIRE", 0x4104, 3, 0x20, 1, 0x0, .RW, [0x3f59999a, 0x3f4ccccd, 0x40000000], .any, none⟩,
   ⟨"DET_HYST", 0x4108, 3, 0x20, 1, 0x0, .RW, [0x3dcccccd, 0x3dcccccd, 0x3f000000], .any, none⟩,
   ⟨"DET_REFRACTORY", 0x410C, 3, 0x20, 1, 0x0, .RW, [0x3e80], .any, none⟩,
   ⟨"DET_XCOUNT", 0x4110, 3, 0x20, 1, 0x0, .RC, [0], .any, none⟩,
   ⟨"MODEL_STATUS", 0x4114, 3, 0x20, 1, 0x0, .RO, [0], .any, none⟩,
   ⟨"ALARM_BAND", 0x4180, 1, 0x0, 1, 0x0, .RW, [0xe100af0], .any, none⟩,
   ⟨"ALARM_CTRL", 0x4184, 1, 0x0, 1, 0x0, .RW, [0x30c], .fields [(0,8,0,255), (8,2,0,3)], none⟩,
   ⟨"DET_PEEK_SEL", 0x4F00, 1, 0x0, 1, 0x0, .RW, [0], .fields [(0,4,0,15), (8,2,0,3)], none⟩,
   ⟨"DET_PEEK_STATE", 0x4F04, 1, 0x0, 1, 0x0, .RO, [0], .any, none⟩]

def regs_island_2 : List RegRow :=
  [⟨"DET_PEEK_SCORE", 0x4F08, 1, 0x0, 1, 0x0, .RO, [0], .any, none⟩,
   ⟨"MODEL_DET", 0x5100, 1, 0x0, 1, 0x0, .RW, [0], .whole 0 3, none⟩,
   ⟨"MODEL_HANDLE", 0x5104, 1, 0x0, 1, 0x0, .RW, [0], .any, none⟩,
   ⟨"MODEL_CMD", 0x5108, 1, 0x0, 1, 0x0, .WO, [0], .any, none⟩,
   ⟨"MODEL_RESULT", 0x510C, 1, 0x0, 1, 0x0, .RO, [1], .any, none⟩]

/-- Registers of mailbox (R544). -/
def regs_mailbox_0 : List RegRow :=
  [⟨"MB_STATUS", 0x100, 1, 0x0, 1, 0x0, .RO, [0], .any, none⟩,
   ⟨"MB_CMD", 0x104, 1, 0x0, 1, 0x0, .WO, [0], .any, none⟩,
   ⟨"MB_RESULT", 0x108, 1, 0x0, 1, 0x0, .RO, [1], .any, none⟩,
   ⟨"MB_ARG", 0x110, 16, 0x4, 1, 0x0, .RW, [0], .any, none⟩,
   ⟨"MB_OUT", 0x180, 16, 0x4, 1, 0x0, .RO, [0], .any, none⟩,
   ⟨"SEAL_PKGS", 0x1C0, 1, 0x0, 1, 0x0, .RO, [0], .any, none⟩,
   ⟨"SEAL_OBJECTS", 0x1C4, 1, 0x0, 1, 0x0, .RO, [0], .any, none⟩,
   ⟨"SEAL_FAIL_COUNT", 0x1C8, 1, 0x0, 1, 0x0, .RC, [0], .any, none⟩,
   ⟨"ATTEST_COUNT", 0x1CC, 1, 0x0, 1, 0x0, .RC, [0], .any, none⟩]

/-- Registers of power (R577). -/
def regs_power_0 : List RegRow :=
  [⟨"PM_STATUS", 0x100, 1, 0x0, 1, 0x0, .RO, [0], .any, none⟩,
   ⟨"PM_STATE_REQ", 0x104, 1, 0x0, 1, 0x0, .RW, [0], .fields [(0,3,0,7), (4,1,0,1)], none⟩,
   ⟨"PM_REQ_RESULT", 0x108, 1, 0x0, 1, 0x0, .RO, [1], .any, none⟩,
   ⟨"PM_WAKE_CTRL", 0x10C, 1, 0x0, 1, 0x0, .RW, [0xa000000], .fields [(0,1,0,1), (1,1,0,1), (4,4,0,15), (8,4,0,15), (12,4,0,15), (16,4,0,15), (24,8,1,255)], none⟩,
   ⟨"PM_WAKE_STATUS", 0x110, 1, 0x0, 1, 0x0, .RO, [0], .any, none⟩,
   ⟨"PM_WAKE_COUNT", 0x114, 1, 0x0, 1, 0x0, .RC, [0], .any, none⟩,
   ⟨"WAKE_FAST_COUNT", 0x118, 1, 0x0, 1, 0x0, .RC, [0], .any, none⟩,
   ⟨"WAKE_STUCK_COUNT", 0x11C, 1, 0x0, 1, 0x0, .RC, [0], .any, none⟩,
   ⟨"ENTRY_ABORTS", 0x120, 1, 0x0, 1, 0x0, .RC, [0], .any, none⟩,
   ⟨"PM_ENTRY_US", 0x124, 1, 0x0, 1, 0x0, .RO, [0], .any, none⟩,
   ⟨"PM_EXIT_US", 0x128, 1, 0x0, 1, 0x0, .RO, [0], .any, none⟩,
   ⟨"PL_TARGET", 0x130, 8, 0x4, 1, 0x0, .RW, [0], .whole 0 7, none⟩,
   ⟨"PM_MEM_LEVEL", 0x150, 1, 0x0, 1, 0x0, .RW, [0], .fields [(0,2,0,2)], none⟩,
   ⟨"PM_CAP_MW", 0x154, 1, 0x0, 1, 0x0, .RW, [0], .any, none⟩,
   ⟨"PM_POWER_MW", 0x158, 1, 0x0, 1, 0x0, .RO, [0], .any, none⟩,
   ⟨"PM_TEMP", 0x15C, 1, 0x0, 1, 0x0, .RO, [0], .any, none⟩,
   ⟨"PM_GB_RETAIN", 0x160, 1, 0x0, 1, 0x0, .RW, [0], .fields [(0,4,0,8), (4,4,0,8), (8,4,0,8), (12,4,0,8), (16,4,0,8), (20,4,0,8), (24,4,0,8), (28,4,0,8)], none⟩,
   ⟨"PM_DRAM_RETAIN", 0x170, 6, 0x4, 1, 0x0, .RW, [0xffff], .whole 0 65535, none⟩,
   ⟨"PM_RETAIN_MIB", 0x190, 1, 0x0, 1, 0x0, .RO, [0], .any, none⟩,
   ⟨"PM_LOST_TILES", 0x194, 1, 0x0, 1, 0x0, .RC, [0], .any, none⟩]

def regs_power_1 : List RegRow :=
  [⟨"PM_RESET", 0x198, 1, 0x0, 1, 0x0, .WO, [0], .any, none⟩,
   ⟨"RESET_CAUSE", 0x19C, 1, 0x0, 1, 0x0, .RO, [0], .any, none⟩,
   ⟨"THERM_SOFT_OFFSET", 0x800, 1, 0x0, 1, 0x0, .RW, [5], .whole 2 20, none⟩,
   ⟨"IDLE_DELAY_US", 0x804, 1, 0x0, 1, 0x0, .RW, [0x32], .whole 1 10000, none⟩,
   ⟨"DRAIN_TIMEOUT_MS", 0x808, 1, 0x0, 1, 0x0, .RW, [0x64], .whole 1 10000, none⟩,
   ⟨"PG_TIMEOUT_MS", 0x80C, 1, 0x0, 1, 0x0, .RW, [0xa], .whole 3 50, none⟩,
   ⟨"CLUSTER_STAGGER_US", 0x810, 1, 0x0, 1, 0x0, .RW, [0x1f4], .whole 100 2000, none⟩]

/-- Registers of service (R597, R600, R601). -/
def regs_service_0 : List RegRow :=
  [⟨"FW_STATUS", 0x100, 1, 0x0, 1, 0x0, .RO, [0], .any, none⟩,
   ⟨"FW_STATUS_CLR", 0x104, 1, 0x0, 1, 0x0, .W1C, [0], .any, none⟩,
   ⟨"SVC_ARG", 0x108, 4, 0x4, 1, 0x0, .RW, [0], .any, none⟩,
   ⟨"SVC_CMD", 0x118, 1, 0x0, 1, 0x0, .WO, [0], .any, none⟩,
   ⟨"SVC_RESULT", 0x11C, 1, 0x0, 1, 0x0, .RO, [1], .any, none⟩,
   ⟨"FW_TRIAL_LEFT_MS", 0x120, 1, 0x0, 1, 0x0, .RO, [0], .any, none⟩,
   ⟨"TRIAL_MS", 0x800, 1, 0x0, 1, 0x0, .RW, [0x2710], .whole 1000 600000, none⟩,
   ⟨"FW_SAFE_TIMEOUT_MS", 0x804, 1, 0x0, 1, 0x0, .RW, [0x3e8], .whole 10 60000, none⟩,
   ⟨"FENCE_DRAIN_MS", 0x808, 1, 0x0, 1, 0x0, .RW, [0x2710], .whole 100 600000, none⟩,
   ⟨"RAS_STATUS", 0x1100, 1, 0x0, 1, 0x0, .RO, [0], .any, none⟩,
   ⟨"RAS_STATUS_CLR", 0x1104, 1, 0x0, 1, 0x0, .W1C, [0], .any, none⟩,
   ⟨"RAS_LAST_UNIT", 0x1108, 1, 0x0, 1, 0x0, .RO, [0], .any, none⟩,
   ⟨"RAS_LOST_TILES", 0x110C, 1, 0x0, 1, 0x0, .RC, [0], .any, none⟩,
   ⟨"RAS_CE", 0x1110, 6, 0x4, 1, 0x0, .RC, [0], .any, none⟩,
   ⟨"RAS_CE_LIMIT", 0x1800, 6, 0x4, 1, 0x0, .RW, [0x400], .any, none⟩,
   ⟨"RAS_AUTO_FENCE", 0x1820, 1, 0x0, 1, 0x0, .RW, [0], .fields [(0,6,0,63)], none⟩,
   ⟨"RAS_ROW_CE", 0x1824, 1, 0x0, 1, 0x0, .RW, [0x10], .whole 1 255, none⟩,
   ⟨"TEL_PERIOD_MS", 0x2100, 1, 0x0, 1, 0x0, .RW, [0x64], .whole 10 60000, none⟩,
   ⟨"TEL_SEQ_LO", 0x2104, 1, 0x0, 1, 0x0, .RO, [0], .any, none⟩,
   ⟨"TEL_SEQ_HI", 0x2108, 1, 0x0, 1, 0x0, .RO, [0], .any, none⟩]

def regs_service_1 : List RegRow :=
  [⟨"TEL_POWER_MW", 0x210C, 1, 0x0, 1, 0x0, .RO, [0], .any, none⟩,
   ⟨"TEL_CLUSTER_TEMP", 0x2110, 8, 0x4, 1, 0x0, .RO, [0], .any, none⟩,
   ⟨"TEL_DRAM_TEMP", 0x2130, 6, 0x4, 1, 0x0, .RO, [0], .any, none⟩,
   ⟨"TEL_SKEIN", 0x2148, 2, 0x4, 1, 0x0, .RO, [0], .any, none⟩,
   ⟨"TEL_BW", 0x2200, 4, 0x4, 16, 0x10, .RO, [0], .any, none⟩]

/-- Registers of hostIf (R154, R155, R158). -/
def regs_hostIf_0 : List RegRow :=
  [⟨"HOOP_STATUS", 0x100, 1, 0x0, 1, 0x0, .RO, [0], .any, none⟩,
   ⟨"HOOP_SEQ", 0x104, 1, 0x0, 1, 0x0, .RO, [0], .any, none⟩,
   ⟨"HOOP_DROP_COUNT", 0x108, 1, 0x0, 1, 0x0, .RC, [0], .any, none⟩,
   ⟨"CMD_FAULT_COUNT", 0x10C, 1, 0x0, 1, 0x0, .RC, [0], .any, none⟩,
   ⟨"STITCH_LO", 0x110, 1, 0x0, 1, 0x0, .RO, [0], .any, none⟩,
   ⟨"STITCH_HI", 0x114, 1, 0x0, 1, 0x0, .RO, [0], .any, none⟩,
   ⟨"PHASE", 0x118, 1, 0x0, 1, 0x0, .RO, [0], .any, none⟩,
   ⟨"MSIX_TABLE", 0x600, 64, 0x4, 1, 0x0, .RW, [0], .any, none⟩,
   ⟨"MSIX_PBA", 0x700, 2, 0x4, 1, 0x0, .RO, [0], .any, none⟩,
   ⟨"DBG_CQ_SEL", 0xF00, 1, 0x0, 1, 0x0, .RW, [0], .whole 0 63, none⟩,
   ⟨"DBG_CQ_INFLIGHT", 0xF04, 1, 0x0, 1, 0x0, .RO, [0], .any, none⟩,
   ⟨"CQ_BASE_LO", 0x1100, 32, 0x20, 2, 0x1000, .RW, [0], .any, none⟩,
   ⟨"CQ_BASE_HI", 0x1104, 32, 0x20, 2, 0x1000, .RW, [0], .any, none⟩,
   ⟨"CQ_CTRL", 0x1108, 32, 0x20, 2, 0x1000, .RW, [0x64], .fields [(0,1,0,1), (1,1,0,1), (2,1,0,1), (4,5,6,16), (12,4,0,15)], none⟩,
   ⟨"CQ_STATUS", 0x110C, 32, 0x20, 2, 0x1000, .RO, [0], .any, none⟩,
   ⟨"CQ_READ_POS", 0x1110, 32, 0x20, 2, 0x1000, .RO, [0], .any, none⟩,
   ⟨"CQ_DONE_POS", 0x1114, 32, 0x20, 2, 0x1000, .RO, [0], .any, none⟩,
   ⟨"CQ_TAIL_POS", 0x1118, 32, 0x20, 2, 0x1000, .RO, [0], .any, none⟩,
   ⟨"CQ_CMD", 0x111C, 32, 0x20, 2, 0x1000, .WO, [0], .any, none⟩,
   ⟨"EQ_BASE_LO", 0x3100, 16, 0x20, 1, 0x0, .RW, [0], .fields [(12,20,0,1048575)], none⟩]

def regs_hostIf_1 : List RegRow :=
  [⟨"EQ_BASE_HI", 0x3104, 16, 0x20, 1, 0x0, .RW, [0], .any, none⟩,
   ⟨"EQ_CTRL", 0x3108, 16, 0x20, 1, 0x0, .RW, [0x10060], .fields [(0,1,0,1), (1,1,0,1), (2,1,0,1), (4,5,6,16), (16,16,0,65535)], none⟩,
   ⟨"EQ_COAL_STITCHES", 0x310C, 16, 0x20, 1, 0x0, .RW, [0], .any, none⟩,
   ⟨"EQ_STATUS", 0x3110, 16, 0x20, 1, 0x0, .RO, [0], .any, none⟩,
   ⟨"EQ_TAIL_POS", 0x3114, 16, 0x20, 1, 0x0, .RO, [0], .any, none⟩,
   ⟨"EQ_HEAD_POS", 0x3118, 16, 0x20, 1, 0x0, .RO, [0], .any, none⟩,
   ⟨"EQ_DROP_COUNT", 0x311C, 16, 0x20, 1, 0x0, .RC, [0], .any, none⟩]

/-- Registers of core (R289). -/
def regs_core_0 : List RegRow :=
  [⟨"CORE_STATUS", 0x100, 1, 0x0, 1, 0x0, .RO, [0], .any, none⟩,
   ⟨"CORE_CUR_PATTERN", 0x104, 1, 0x0, 1, 0x0, .RO, [0], .any, none⟩,
   ⟨"CORE_CUR_STEP", 0x108, 1, 0x0, 1, 0x0, .RO, [0], .any, none⟩,
   ⟨"CORE_RESERVED_KIB", 0x10C, 1, 0x0, 1, 0x0, .RO, [0], .any, none⟩,
   ⟨"STEPS_DONE", 0x110, 1, 0x0, 1, 0x0, .RC, [0], .any, none⟩,
   ⟨"ARRAY_ISSUE_SLOTS", 0x114, 1, 0x0, 1, 0x0, .RC, [0], .any, none⟩,
   ⟨"VECTOR_BUSY_CYCLES", 0x118, 1, 0x0, 1, 0x0, .RC, [0], .any, none⟩,
   ⟨"BANK_STALL_CYCLES", 0x11C, 1, 0x0, 1, 0x0, .RC, [0], .any, none⟩,
   ⟨"STAGE_STALL_CYCLES", 0x120, 1, 0x0, 1, 0x0, .RC, [0], .any, none⟩,
   ⟨"KNOT_STALL_CYCLES", 0x124, 1, 0x0, 1, 0x0, .RC, [0], .any, none⟩,
   ⟨"SAT_COUNT", 0x128, 1, 0x0, 1, 0x0, .RC, [0], .any, none⟩,
   ⟨"NAN_OUT_COUNT", 0x12C, 1, 0x0, 1, 0x0, .RC, [0], .any, none⟩,
   ⟨"KILLED_STEPS", 0x130, 1, 0x0, 1, 0x0, .RC, [0], .any, none⟩,
   ⟨"SRAM_ECC_CORR", 0x134, 1, 0x0, 1, 0x0, .RC, [0], .any, none⟩,
   ⟨"SR_ENABLE", 0x800, 1, 0x0, 1, 0x0, .RW, [0], .fields [(0,1,0,1)], none⟩,
   ⟨"STAGE_AHEAD", 0x804, 1, 0x0, 1, 0x0, .RW, [0x10], .whole 1 64, none⟩,
   ⟨"SRAM_PEEK_ADDR", 0xF00, 1, 0x0, 1, 0x0, .RW, [0], .fields [(2,19,0,524287)], none⟩,
   ⟨"SRAM_PEEK_DATA", 0xF04, 1, 0x0, 1, 0x0, .RO, [0], .any, none⟩]

/-- Registers of pipeline (R508, R509, R510, R511, R512). -/
def regs_pipeline_0 : List RegRow :=
  [⟨"PIPE_STATUS", 0x100, 1, 0x0, 1, 0x0, .RO, [0], .any, none⟩,
   ⟨"PIPE_STATUS_CLR", 0x104, 1, 0x0, 1, 0x0, .W1C, [0], .any, none⟩,
   ⟨"PIPE_BOUND", 0x108, 1, 0x0, 1, 0x0, .RO, [0], .any, none⟩,
   ⟨"PIPE_ARG", 0x10C, 1, 0x0, 1, 0x0, .RW, [0], .any, none⟩,
   ⟨"PIPE_CMD", 0x110, 1, 0x0, 1, 0x0, .WO, [0], .any, none⟩,
   ⟨"PIPE_RESULT", 0x114, 1, 0x0, 1, 0x0, .RO, [1], .any, none⟩,
   ⟨"PIPE_APPLY", 0x118, 1, 0x0, 1, 0x0, .WO, [0], .any, none⟩,
   ⟨"FSEQ", 0x11C, 1, 0x0, 1, 0x0, .RO, [0], .any, none⟩,
   ⟨"FRAMES_DONE", 0x120, 1, 0x0, 1, 0x0, .RC, [0], .any, none⟩,
   ⟨"FRAMES_DROPPED", 0x124, 1, 0x0, 1, 0x0, .RC, [0], .any, none⟩,
   ⟨"LAST_DROP", 0x128, 1, 0x0, 1, 0x0, .RO, [0], .any, none⟩,
   ⟨"SHORT_COUNT", 0x12C, 1, 0x0, 1, 0x0, .RC, [0], .any, none⟩,
   ⟨"LONG_COUNT", 0x130, 1, 0x0, 1, 0x0, .RC, [0], .any, none⟩,
   ⟨"LINE_ERR_COUNT", 0x134, 1, 0x0, 1, 0x0, .RC, [0], .any, none⟩,
   ⟨"FIFO_HWM_KIB", 0x138, 1, 0x0, 1, 0x0, .RC, [0], .any, none⟩,
   ⟨"FRAME_TIMEOUT", 0x13C, 1, 0x0, 1, 0x0, .RW, [0xc350], .whole 1000 1000000, none⟩,
   ⟨"PORT_CTRL", 0x1100, 1, 0x0, 1, 0x0, .RW, [8], .fields [(0,1,0,1), (1,3,0,7)], none⟩,
   ⟨"PORT_STATUS", 0x1104, 1, 0x0, 1, 0x0, .RO, [0], .any, none⟩,
   ⟨"HDR_ECC_CORR", 0x1108, 1, 0x0, 1, 0x0, .RC, [0], .any, none⟩,
   ⟨"HDR_ECC_DROP", 0x110C, 1, 0x0, 1, 0x0, .RC, [0], .any, none⟩]

def regs_pipeline_1 : List RegRow :=
  [⟨"CRC_ERR", 0x1110, 1, 0x0, 1, 0x0, .RC, [0], .any, none⟩,
   ⟨"PORT_DT_DROPS", 0x1114, 1, 0x0, 1, 0x0, .RC, [0], .any, none⟩,
   ⟨"FMT_CTRL", 0x2100, 1, 0x0, 1, 0x0, .RW, [2], .fields [(0,3,0,4), (4,3,0,4)], none⟩,
   ⟨"FMT_SRC", 0x2104, 1, 0x0, 1, 0x0, .RW, [0x4380780], .fields [(0,14,0,16383), (16,14,0,16383)], none⟩,
   ⟨"FMT_ORIGIN", 0x2108, 1, 0x0, 1, 0x0, .RW, [0], .fields [(0,14,0,16383), (16,14,0,16383)], none⟩,
   ⟨"FMT_SIZE", 0x210C, 1, 0x0, 1, 0x0, .RW, [0x4380780], .fields [(0,14,0,16383), (16,14,0,16383)], none⟩,
   ⟨"BL", 0x2110, 4, 0x4, 1, 0x0, .RW, [0x10000000], .any, none⟩,
   ⟨"WB", 0x2120, 4, 0x4, 1, 0x0, .RW, [0x1000], .whole 0 65535, none⟩,
   ⟨"DPC_CTRL", 0x2130, 1, 0x0, 1, 0x0, .RW, [0], .fields [(0,1,0,1), (1,1,0,1), (16,16,0,65535)], none⟩,
   ⟨"DPC_TABLE", 0x2134, 1, 0x0, 1, 0x0, .RW, [0], .any, none⟩,
   ⟨"DPC_COUNT", 0x2138, 1, 0x0, 1, 0x0, .RW, [0], .whole 0 4096, none⟩,
   ⟨"LSC_CTRL", 0x213C, 1, 0x0, 1, 0x0, .RW, [0], .fields [(0,1,0,1)], none⟩,
   ⟨"LSC_TABLE", 0x2140, 1, 0x0, 1, 0x0, .RW, [0], .any, none⟩,
   ⟨"DEM_T", 0x2144, 1, 0x0, 1, 0x0, .RW, [0x100], .whole 0 65535, none⟩,
   ⟨"CCM", 0x2150, 9, 0x4, 1, 0x0, .RW, [0x1000, 0, 0, 0, 0x1000, 0, 0, 0, 0x1000], .fields [(0,16,0,65535)], none⟩,
   ⟨"CCM_OFF", 0x2180, 3, 0x4, 1, 0x0, .RW, [0], .fields [(0,16,0,65535)], none⟩,
   ⟨"TONE_CTRL", 0x2190, 1, 0x0, 1, 0x0, .RW, [0], .fields [(0,1,0,1)], none⟩,
   ⟨"TONE_TABLE", 0x2194, 1, 0x0, 1, 0x0, .RW, [0], .any, none⟩,
   ⟨"OUT_CTRL", 0x3100, 4, 0x20, 1, 0x0, .RW, [0x40100], .fields [(0,1,0,1), (1,1,0,1), (2,1,0,1), (8,4,1,6), (16,6,2,63)], none⟩,
   ⟨"OUT_CROP_ORG", 0x3104, 4, 0x20, 1, 0x0, .RW, [0], .fields [(0,14,0,16383), (16,14,0,16383)], none⟩]

def regs_pipeline_2 : List RegRow :=
  [⟨"OUT_CROP_SIZE", 0x3108, 4, 0x20, 1, 0x0, .RW, [0x4380780], .fields [(0,14,0,16383), (16,14,0,16383)], none⟩,
   ⟨"OUT_SIZE", 0x310C, 4, 0x20, 1, 0x0, .RW, [0x4380780], .fields [(0,14,0,16383), (16,14,0,16383)], none⟩,
   ⟨"OUT_LOC", 0x3110, 4, 0x20, 1, 0x0, .RW, [0], .fields [(0,6,0,63)], none⟩,
   ⟨"OUT_LAST", 0x3114, 4, 0x20, 1, 0x0, .RO, [0], .any, none⟩,
   ⟨"OUT_FRAMES", 0x3118, 4, 0x20, 1, 0x0, .RO, [0], .any, none⟩,
   ⟨"TAP_CTRL", 0x3200, 5, 0x10, 1, 0x0, .RW, [0x40000], .fields [(0,1,0,1), (16,6,2,63)], none⟩,
   ⟨"TAP_LOC", 0x3204, 5, 0x10, 1, 0x0, .RW, [0], .fields [(0,6,0,63)], none⟩,
   ⟨"TAP_LAST", 0x3208, 5, 0x10, 1, 0x0, .RO, [0], .any, none⟩,
   ⟨"MEM_STATUS", 0x4100, 1, 0x0, 1, 0x0, .RO, [0], .any, none⟩,
   ⟨"MEM_RESULT", 0x4104, 1, 0x0, 1, 0x0, .RO, [1], .any, none⟩,
   ⟨"MEM_SEQ", 0x4108, 1, 0x0, 1, 0x0, .RO, [0], .any, none⟩,
   ⟨"MEM_OUT", 0x4110, 4, 0x4, 1, 0x0, .RO, [0], .any, none⟩]

/-- Registers of cqDoorbell (R124). -/
def regs_cqDoorbell_0 : List RegRow :=
  [⟨"CQ_DB_TAIL", 0x0, 1, 0x0, 1, 0x0, .RW, [0], .any, none⟩,
   ⟨"CQ_DB_DONE", 0x4, 1, 0x0, 1, 0x0, .RO, [0], .any, none⟩,
   ⟨"CQ_DB_STATUS", 0x8, 1, 0x0, 1, 0x0, .RO, [0], .any, none⟩,
   ⟨"APPEND_DATA", 0x40, 16, 0x4, 1, 0x0, .WO, [0], .any, none⟩,
   ⟨"APPEND_GO", 0x80, 1, 0x0, 1, 0x0, .WO, [0], .any, none⟩,
   ⟨"APPEND_RESULT", 0x84, 1, 0x0, 1, 0x0, .RO, [1], .any, none⟩]

/-- Registers of eqDoorbell (R150). -/
def regs_eqDoorbell_0 : List RegRow :=
  [⟨"EQ_DB_HEAD", 0x0, 1, 0x0, 1, 0x0, .RW, [0], .any, none⟩,
   ⟨"EQ_DB_ARM", 0x4, 1, 0x0, 1, 0x0, .W1S, [0], .any, none⟩,
   ⟨"EQ_DB_TAIL", 0x8, 1, 0x0, 1, 0x0, .RO, [0], .any, none⟩]

/-- The registers of a block type beyond the common header. -/
def regRows : Blk → List RegRow
  | .devGlobal => regs_devGlobal_0
  | .sceneTime => regs_sceneTime_0 ++ regs_sceneTime_1
  | .triggerUnit => regs_triggerUnit_0
  | .hoopTrigger => regs_hoopTrigger_0
  | .objTable => regs_objTable_0
  | .tierPool => regs_tierPool_0
  | .commitTable => regs_commitTable_0
  | .shuttle => regs_shuttle_0
  | .dramStack => regs_dramStack_0
  | .skein => regs_skein_0 ++ regs_skein_1 ++ regs_skein_2
  | .ctxGlobal => regs_ctxGlobal_0
  | .ctxHoop => regs_ctxHoop_0
  | .cluster => regs_cluster_0
  | .codec => regs_codec_0
  | .knot => regs_knot_0 ++ regs_knot_1
  | .sched => regs_sched_0 ++ regs_sched_1
  | .link => regs_link_0 ++ regs_link_1
  | .island => regs_island_0 ++ regs_island_1 ++ regs_island_2
  | .mailbox => regs_mailbox_0
  | .power => regs_power_0 ++ regs_power_1
  | .service => regs_service_0 ++ regs_service_1
  | .hostIf => regs_hostIf_0 ++ regs_hostIf_1
  | .core => regs_core_0
  | .pipeline => regs_pipeline_0 ++ regs_pipeline_1 ++ regs_pipeline_2
  | .cqDoorbell => regs_cqDoorbell_0
  | .eqDoorbell => regs_eqDoorbell_0

/-! Register addresses, by the manual's names: window offset of the register of instance `u`, index `i` (and `j`). -/

namespace R

/-- BLOCK_ID of the page at `b` (R92). -/
abbrev BLOCK_ID (b : Nat) : Nat := b + 0x0
/-- BLOCK_CAPS of the page at `b` (R92). -/
abbrev BLOCK_CAPS (b : Nat) : Nat := b + 0x4
/-- BLOCK_CTRL of the page at `b` (R92). -/
abbrev BLOCK_CTRL (b : Nat) : Nat := b + 0x8
/-- BLOCK_STATE of the page at `b` (R92). -/
abbrev BLOCK_STATE (b : Nat) : Nat := b + 0xC
/-- FAULT_STATUS of the page at `b` (R92). -/
abbrev FAULT_STATUS (b : Nat) : Nat := b + 0x10
/-- FAULT_MASK of the page at `b` (R92). -/
abbrev FAULT_MASK (b : Nat) : Nat := b + 0x14
/-- FAULT_ROUTE of the page at `b` (R92). -/
abbrev FAULT_ROUTE (b : Nat) : Nat := b + 0x18
/-- FAULT_INJECT of the page at `b` (R92). -/
abbrev FAULT_INJECT (b : Nat) : Nat := b + 0x1C
/-- HOOP_OWNER of the page at `b` (R92). -/
abbrev HOOP_OWNER (b : Nat) : Nat := b + 0x20
/-- EXPERT_KEY of the page at `b` (R92). -/
abbrev EXPERT_KEY (b : Nat) : Nat := b + 0x24
/-- STAMP_LO of the page at `b` (R92). -/
abbrev STAMP_LO (b : Nat) : Nat := b + 0x28
/-- STAMP_HI of the page at `b` (R92). -/
abbrev STAMP_HI (b : Nat) : Nat := b + 0x2C
abbrev TS_SOURCE : Nat := 0x10100
abbrev TS_DIVIDER : Nat := 0x10104
abbrev TS_GLITCH : Nat := 0x10108
abbrev TS_MIN_PERIOD : Nat := 0x1010C
abbrev TS_NOMINAL_PERIOD : Nat := 0x10110
abbrev TS_HOST_RATE : Nat := 0x10114
abbrev TS_STATUS : Nat := 0x10118
abbrev TS_STATUS_CLR : Nat := 0x1011C
abbrev STITCH_LO : Nat := 0x10120
abbrev STITCH_HI : Nat := 0x10124
abbrev PHASE : Nat := 0x10128
abbrev PERIOD_EST : Nat := 0x1012C
abbrev CORR_LO : Nat := 0x10130
abbrev CORR_HI : Nat := 0x10134
abbrev GLITCH_COUNT : Nat := 0x10138
abbrev FAST_COUNT : Nat := 0x1013C
abbrev LOST_COUNT : Nat := 0x10140
abbrev MISSED_COUNT : Nat := 0x10144
abbrev STEP_COUNT : Nat := 0x10148
abbrev LOAD_LO : Nat := 0x10150
abbrev LOAD_HI : Nat := 0x10154
abbrev LOAD_CTRL : Nat := 0x10158
abbrev HOST_POS_LO : Nat := 0x10160
abbrev HOST_POS_HI : Nat := 0x10164
abbrev HOST_POS_PHASE : Nat := 0x10168
abbrev HOST_POS_GO : Nat := 0x1016C
abbrev CAPTURE_REQ : Nat := 0x10170
abbrev CAPTURE_LO : Nat := 0x10174
abbrev CAPTURE_HI : Nat := 0x10178
abbrev CAPTURE_PHASE : Nat := 0x1017C
abbrev TS_LOCK_EDGES : Nat := 0x10800
abbrev TS_LOCK_TOL : Nat := 0x10804
abbrev TS_LOST_PERIODS : Nat := 0x10808
abbrev TS_SLEW_RATE : Nat := 0x1080C
abbrev TS_SKEW_MON : Nat := 0x10F00
abbrev TU_STATUS (u : Nat) : Nat := 0x40100 + 0x1000 * u
abbrev TU_STATUS_CLR (u : Nat) : Nat := 0x40104 + 0x1000 * u
abbrev EVAL_COUNT (u : Nat) : Nat := 0x40108 + 0x1000 * u
abbrev ARM_COUNT (u : Nat) : Nat := 0x4010C + 0x1000 * u
abbrev FIRE_COUNT (u : Nat) : Nat := 0x40110 + 0x1000 * u
abbrev DISARM_COUNT (u : Nat) : Nat := 0x40114 + 0x1000 * u
abbrev SUPPRESS_COUNT (u : Nat) : Nat := 0x40118 + 0x1000 * u
abbrev PREFETCH_DROP_COUNT (u : Nat) : Nat := 0x4011C + 0x1000 * u
abbrev FIRE_DROP_COUNT (u : Nat) : Nat := 0x40120 + 0x1000 * u
abbrev BACKPRESSURE_CYCLES (u : Nat) : Nat := 0x40124 + 0x1000 * u
abbrev TRIG_PART (i : Nat) : Nat := 0x40200 + 0x4 * i
abbrev RULE_PEEK_SEL (u : Nat) : Nat := 0x40F00 + 0x1000 * u
abbrev RULE_PEEK_STATE (u : Nat) : Nat := 0x40F04 + 0x1000 * u
abbrev RULE_RANGE (u : Nat) : Nat := 0x50100 + 0x1000 * u
abbrev RULE_SEL (u : Nat) : Nat := 0x50104 + 0x1000 * u
abbrev RULE_CMD (u : Nat) : Nat := 0x50108 + 0x1000 * u
abbrev RULE_CMD_STATUS (u : Nat) : Nat := 0x5010C + 0x1000 * u
abbrev RULE_STATE (u : Nat) : Nat := 0x50110 + 0x1000 * u
abbrev RULE_ARM_STAMP_LO (u : Nat) : Nat := 0x50114 + 0x1000 * u
abbrev RULE_ARM_STAMP_HI (u : Nat) : Nat := 0x50118 + 0x1000 * u
abbrev FIRE_HOLD (u : Nat) : Nat := 0x5011C + 0x1000 * u
abbrev WAKE_LEAD (u : Nat) : Nat := 0x50120 + 0x1000 * u
abbrev PRICK_CTRL (u i : Nat) : Nat := 0x50180 + 0x1000 * u + 0x20 * i
abbrev PRICK_TABLE (u i : Nat) : Nat := 0x50184 + 0x1000 * u + 0x20 * i
abbrev PRICK_START_LO (u i : Nat) : Nat := 0x50188 + 0x1000 * u + 0x20 * i
abbrev PRICK_START_HI (u i : Nat) : Nat := 0x5018C + 0x1000 * u + 0x20 * i
abbrev PRICK_PERIOD (u i : Nat) : Nat := 0x50190 + 0x1000 * u + 0x20 * i
abbrev PRICK_LATE_TOL (u i : Nat) : Nat := 0x50194 + 0x1000 * u + 0x20 * i
abbrev PRICK_STATUS (u i : Nat) : Nat := 0x50198 + 0x1000 * u + 0x20 * i
abbrev PRICK_SKIP_COUNT (u i : Nat) : Nat := 0x5019C + 0x1000 * u + 0x20 * i
abbrev RULE_DATA (u i : Nat) : Nat := 0x50200 + 0x1000 * u + 0x4 * i
abbrev PENDING_FIRE_MAX (u : Nat) : Nat := 0x50800 + 0x1000 * u
abbrev DEV_PART : Nat := 0x100
abbrev DEV_LIVE : Nat := 0x104
abbrev DRAM_LIVE_GIB : Nat := 0x108
abbrev SKEIN_LIVE_GIB : Nat := 0x10C
abbrev DEV_STATUS : Nat := 0x110
abbrev VIEW_VIOLATION_COUNT : Nat := 0x114
abbrev BAD_ACCESS_COUNT : Nat := 0x118
abbrev FUSE_FENCE_LO : Nat := 0x120
abbrev FUSE_FENCE_HI : Nat := 0x124
abbrev FUSE_STATE : Nat := 0x128
abbrev HOOP_TABLE (i : Nat) : Nat := 0x200 + 0x4 * i
abbrev CQ_DB_TAIL (h q : Nat) : Nat := 0x4000000 + 0x100000 * h + 0x1000 * q
abbrev CQ_DB_DONE (h q : Nat) : Nat := 0x4000004 + 0x100000 * h + 0x1000 * q
abbrev CQ_DB_STATUS (h q : Nat) : Nat := 0x4000008 + 0x100000 * h + 0x1000 * q
abbrev APPEND_DATA (h q i : Nat) : Nat := 0x4000040 + 0x100000 * h + 0x1000 * q + 0x4 * i
abbrev APPEND_GO (h q : Nat) : Nat := 0x4000080 + 0x100000 * h + 0x1000 * q
abbrev APPEND_RESULT (h q : Nat) : Nat := 0x4000084 + 0x100000 * h + 0x1000 * q
abbrev EQ_DB_HEAD (h q : Nat) : Nat := 0x4040000 + 0x100000 * h + 0x1000 * q
abbrev EQ_DB_ARM (h q : Nat) : Nat := 0x4040004 + 0x100000 * h + 0x1000 * q
abbrev EQ_DB_TAIL (h q : Nat) : Nat := 0x4040008 + 0x100000 * h + 0x1000 * q
abbrev HOOP_STATUS (u : Nat) : Nat := 0x400100 + 0x4000 * u
abbrev HOOP_SEQ (u : Nat) : Nat := 0x400104 + 0x4000 * u
abbrev HOOP_DROP_COUNT (u : Nat) : Nat := 0x400108 + 0x4000 * u
abbrev CMD_FAULT_COUNT (u : Nat) : Nat := 0x40010C + 0x4000 * u
abbrev HI_STITCH_LO (u : Nat) : Nat := 0x400110 + 0x4000 * u
abbrev HI_STITCH_HI (u : Nat) : Nat := 0x400114 + 0x4000 * u
abbrev HI_PHASE (u : Nat) : Nat := 0x400118 + 0x4000 * u
abbrev MSIX_TABLE (u i : Nat) : Nat := 0x400600 + 0x4000 * u + 0x4 * i
abbrev MSIX_PBA (u i : Nat) : Nat := 0x400700 + 0x4000 * u + 0x4 * i
abbrev DBG_CQ_SEL (u : Nat) : Nat := 0x400F00 + 0x4000 * u
abbrev DBG_CQ_INFLIGHT (u : Nat) : Nat := 0x400F04 + 0x4000 * u
abbrev CQ_BASE_LO (u i j : Nat) : Nat := 0x401100 + 0x4000 * u + 0x20 * i + 0x1000 * j
abbrev CQ_BASE_HI (u i j : Nat) : Nat := 0x401104 + 0x4000 * u + 0x20 * i + 0x1000 * j
abbrev CQ_CTRL (u i j : Nat) : Nat := 0x401108 + 0x4000 * u + 0x20 * i + 0x1000 * j
abbrev CQ_STATUS (u i j : Nat) : Nat := 0x40110C + 0x4000 * u + 0x20 * i + 0x1000 * j
abbrev CQ_READ_POS (u i j : Nat) : Nat := 0x401110 + 0x4000 * u + 0x20 * i + 0x1000 * j
abbrev CQ_DONE_POS (u i j : Nat) : Nat := 0x401114 + 0x4000 * u + 0x20 * i + 0x1000 * j
abbrev CQ_TAIL_POS (u i j : Nat) : Nat := 0x401118 + 0x4000 * u + 0x20 * i + 0x1000 * j
abbrev CQ_CMD (u i j : Nat) : Nat := 0x40111C + 0x4000 * u + 0x20 * i + 0x1000 * j
abbrev EQ_BASE_LO (u i : Nat) : Nat := 0x403100 + 0x4000 * u + 0x20 * i
abbrev EQ_BASE_HI (u i : Nat) : Nat := 0x403104 + 0x4000 * u + 0x20 * i
abbrev EQ_CTRL (u i : Nat) : Nat := 0x403108 + 0x4000 * u + 0x20 * i
abbrev EQ_COAL_STITCHES (u i : Nat) : Nat := 0x40310C + 0x4000 * u + 0x20 * i
abbrev EQ_STATUS (u i : Nat) : Nat := 0x403110 + 0x4000 * u + 0x20 * i
abbrev EQ_TAIL_POS (u i : Nat) : Nat := 0x403114 + 0x4000 * u + 0x20 * i
abbrev EQ_HEAD_POS (u i : Nat) : Nat := 0x403118 + 0x4000 * u + 0x20 * i
abbrev EQ_DROP_COUNT (u i : Nat) : Nat := 0x40311C + 0x4000 * u + 0x20 * i
abbrev OT_USED (u : Nat) : Nat := 0x80100 + 0x1000 * u
abbrev OT_CAPACITY (u : Nat) : Nat := 0x80104 + 0x1000 * u
abbrev WALK_DEPTH (u : Nat) : Nat := 0x80108 + 0x1000 * u
abbrev HOST_POOL_BASE_LO (u : Nat) : Nat := 0x8010C + 0x1000 * u
abbrev HOST_POOL_BASE_HI (u : Nat) : Nat := 0x80110 + 0x1000 * u
abbrev HOST_POOL_PAGES (u : Nat) : Nat := 0x80114 + 0x1000 * u
abbrev OT_FLAGS (u : Nat) : Nat := 0x80118 + 0x1000 * u
abbrev OT_FLAGS_CLR (u : Nat) : Nat := 0x8011C + 0x1000 * u
abbrev OBJ_ARG (u i : Nat) : Nat := 0x80120 + 0x1000 * u + 0x4 * i
abbrev OBJ_CMD (u : Nat) : Nat := 0x80130 + 0x1000 * u
abbrev OBJ_RESULT (u : Nat) : Nat := 0x80134 + 0x1000 * u
abbrev OBJ_OUT (u i : Nat) : Nat := 0x80140 + 0x1000 * u + 0x4 * i
abbrev TILE_CHECK_COUNT (u : Nat) : Nat := 0x80160 + 0x1000 * u
abbrev POISONED_TILES (u : Nat) : Nat := 0x80164 + 0x1000 * u
abbrev EVICTED_COUNT (u : Nat) : Nat := 0x80168 + 0x1000 * u
abbrev WALK_SKIP_COUNT (u : Nat) : Nat := 0x8016C + 0x1000 * u
abbrev WALK_DROP_COUNT (u : Nat) : Nat := 0x80170 + 0x1000 * u
abbrev ALLOC_WAIT_STITCHES (u : Nat) : Nat := 0x80174 + 0x1000 * u
abbrev OT_PEEK_INDEX (u : Nat) : Nat := 0x80F00 + 0x1000 * u
abbrev OT_PEEK_STATE (u : Nat) : Nat := 0x80F04 + 0x1000 * u
abbrev POOL_CAPACITY_KIB (u : Nat) : Nat := 0x90100 + 0x1000 * u
abbrev POOL_FREE_KIB (u : Nat) : Nat := 0x90104 + 0x1000 * u
abbrev POOL_STATUS (u : Nat) : Nat := 0x90108 + 0x1000 * u
abbrev POOL_STATUS_CLR (u : Nat) : Nat := 0x9010C + 0x1000 * u
abbrev EVICT_COUNT (u : Nat) : Nat := 0x90110 + 0x1000 * u
abbrev EVICT_KIB (u : Nat) : Nat := 0x90114 + 0x1000 * u
abbrev ALLOC_WAITERS (u : Nat) : Nat := 0x90118 + 0x1000 * u
abbrev TP_BUDGET_REFUSALS (u : Nat) : Nat := 0x9011C + 0x1000 * u
abbrev UNIT_SEL (u : Nat) : Nat := 0x90120 + 0x1000 * u
abbrev UNIT_FREE_KIB (u : Nat) : Nat := 0x90124 + 0x1000 * u
abbrev GUAR (u i : Nat) : Nat := 0x90200 + 0x1000 * u + 0x10 * i
abbrev USED_KIB (u i : Nat) : Nat := 0x90204 + 0x1000 * u + 0x10 * i
abbrev PINNED_KIB (u i : Nat) : Nat := 0x90208 + 0x1000 * u + 0x10 * i
abbrev PIN_LIMIT (u i : Nat) : Nat := 0x9020C + 0x1000 * u + 0x10 * i
abbrev OT_ENTRIES (i : Nat) : Nat := 0x92300 + 0x4 * i
abbrev FREE_TARGET (u : Nat) : Nat := 0x90800 + 0x1000 * u
abbrev SH_STATUS (u : Nat) : Nat := 0xA0100 + 0x1000 * u
abbrev SH_RANGES (u : Nat) : Nat := 0xA0104 + 0x1000 * u
abbrev SH_MIB (u : Nat) : Nat := 0xA0108 + 0x1000 * u
abbrev SH_KILLED (u : Nat) : Nat := 0xA010C + 0x1000 * u
abbrev SH_BUSY_CYCLES (u : Nat) : Nat := 0xA0110 + 0x1000 * u
abbrev CT_OCC (i : Nat) : Nat := 0x98100 + 0x4 * i
abbrev CT_HWM_CLR : Nat := 0x98118
abbrev CT_FULL_CYCLES : Nat := 0x9811C
abbrev DS_STATUS (u : Nat) : Nat := 0xC0100 + 0x1000 * u
abbrev DS_READ_MIB (u : Nat) : Nat := 0xC0104 + 0x1000 * u
abbrev DS_WRITE_MIB (u : Nat) : Nat := 0xC0108 + 0x1000 * u
abbrev DS_ECC_CORR (u : Nat) : Nat := 0xC010C + 0x1000 * u
abbrev DS_ECC_UNCORR (u : Nat) : Nat := 0xC0110 + 0x1000 * u
abbrev DS_ROW_REPAIRS (u : Nat) : Nat := 0xC0114 + 0x1000 * u
abbrev DS_REFRESH (u : Nat) : Nat := 0xC0800 + 0x1000 * u
abbrev SK_STATUS (u : Nat) : Nat := 0xD0100 + 0x1000 * u
abbrev SK_USER_GIB (u : Nat) : Nat := 0xD0104 + 0x1000 * u
abbrev SK_FREE_MIB (u : Nat) : Nat := 0xD0108 + 0x1000 * u
abbrev SK_PRESERVED_MIB (u : Nat) : Nat := 0xD010C + 0x1000 * u
abbrev SK_READ_MB (u : Nat) : Nat := 0xD0110 + 0x1000 * u
abbrev SK_WRITE_MB (u : Nat) : Nat := 0xD0114 + 0x1000 * u
abbrev SK_INTERNAL_MB (u : Nat) : Nat := 0xD0118 + 0x1000 * u
abbrev SK_SHARE (u : Nat) : Nat := 0xD011C + 0x1000 * u
abbrev BUDGET_RATE_MB (u : Nat) : Nat := 0xD0120 + 0x1000 * u
abbrev BUDGET_CAP_MB (u : Nat) : Nat := 0xD0124 + 0x1000 * u
abbrev BUDGET_BALANCE_MB (u : Nat) : Nat := 0xD0128 + 0x1000 * u
abbrev BUDGET_REFUSED_MB (u : Nat) : Nat := 0xD012C + 0x1000 * u
abbrev BUDGET_REFUSALS (u : Nat) : Nat := 0xD0130 + 0x1000 * u
abbrev LIFE_CHARGED_GB (u : Nat) : Nat := 0xD0134 + 0x1000 * u
abbrev LIFE_PROGRAMMED_GB (u : Nat) : Nat := 0xD0138 + 0x1000 * u
abbrev CYCLES (u : Nat) : Nat := 0xD013C + 0x1000 * u
abbrev WAF_30D (u : Nat) : Nat := 0xD0140 + 0x1000 * u
abbrev DAILY_30D_GB (u : Nat) : Nat := 0xD0144 + 0x1000 * u
abbrev PROJ_REMAIN_TB (u : Nat) : Nat := 0xD0148 + 0x1000 * u
abbrev PROJ_DAYS (u : Nat) : Nat := 0xD014C + 0x1000 * u
abbrev SPARE_BLOCKS (u : Nat) : Nat := 0xD0150 + 0x1000 * u
abbrev RETIRED_BLOCKS (u : Nat) : Nat := 0xD0154 + 0x1000 * u
abbrev LDPC_CORR (u : Nat) : Nat := 0xD0158 + 0x1000 * u
abbrev LDPC_RETRY (u : Nat) : Nat := 0xD015C + 0x1000 * u
abbrev LDPC_UNCORR (u : Nat) : Nat := 0xD0160 + 0x1000 * u
abbrev RELOC_COUNT (u : Nat) : Nat := 0xD0164 + 0x1000 * u
abbrev REFRESH_COUNT (u : Nat) : Nat := 0xD0168 + 0x1000 * u
abbrev PATROL_PROGRESS (u : Nat) : Nat := 0xD016C + 0x1000 * u
abbrev CAT_ARG (i : Nat) : Nat := 0xD0180 + 0x4 * i
abbrev CAT_CMD : Nat := 0xD0190
abbrev CAT_RESULT : Nat := 0xD0194
abbrev CAT_OUT (i : Nat) : Nat := 0xD01A0 + 0x4 * i
abbrev CAT_USED : Nat := 0xD01B0
abbrev RD_THRESHOLD (u : Nat) : Nat := 0xD0800 + 0x1000 * u
abbrev RD_URGENT (u : Nat) : Nat := 0xD0804 + 0x1000 * u
abbrev INTERNAL_SHARE (u : Nat) : Nat := 0xD0808 + 0x1000 * u
abbrev URGENT_SHARE (u : Nat) : Nat := 0xD080C + 0x1000 * u
abbrev PATROL_HOURS (u : Nat) : Nat := 0xD0810 + 0x1000 * u
abbrev REFRESH_BITS (u : Nat) : Nat := 0xD0814 + 0x1000 * u
abbrev SPARE_FLOOR (u : Nat) : Nat := 0xD0818 + 0x1000 * u
abbrev SK_FW_VERSION (u : Nat) : Nat := 0xD0F00 + 0x1000 * u
abbrev SK_PEEK_BLOCK (u : Nat) : Nat := 0xD0F04 + 0x1000 * u
abbrev SK_PEEK_STATE (u : Nat) : Nat := 0xD0F08 + 0x1000 * u
abbrev CM_STATUS : Nat := 0xE0100
abbrev CM_OPEN_COUNT : Nat := 0xE0104
abbrev CM_RESIDENT_COUNT : Nat := 0xE0108
abbrev CM_STATE_MAX_KIB : Nat := 0xE010C
abbrev CM_FLAGS : Nat := 0xE0110
abbrev CM_FLAGS_CLR : Nat := 0xE0114
abbrev CTX_QUOTA (i : Nat) : Nat := 0xE0200 + 0x10 * i
abbrev ACT_GUAR (i : Nat) : Nat := 0xE0204 + 0x10 * i
abbrev STARVE_BOUND (i : Nat) : Nat := 0xE0208 + 0x10 * i
abbrev SPILL (i : Nat) : Nat := 0xE020C + 0x10 * i
abbrev CTX_QUANTUM : Nat := 0xE0800
abbrev RESTORE_PARALLEL : Nat := 0xE0804
abbrev CM_PEEK_INDEX : Nat := 0xE0F00
abbrev CM_PEEK_STATE : Nat := 0xE0F04
abbrev CTX_OPEN (u : Nat) : Nat := 0xF0100 + 0x1000 * u
abbrev CTX_RESIDENT (u : Nat) : Nat := 0xF0104 + 0x1000 * u
abbrev CTX_PINNED (u : Nat) : Nat := 0xF0108 + 0x1000 * u
abbrev CTX_WAITING (u : Nat) : Nat := 0xF010C + 0x1000 * u
abbrev CTX_QUOTA_COPY (u : Nat) : Nat := 0xF0110 + 0x1000 * u
abbrev CTX_LONGEST_WAIT (u : Nat) : Nat := 0xF0114 + 0x1000 * u
abbrev RESTORE_COUNT (u : Nat) : Nat := 0xF0118 + 0x1000 * u
abbrev SPILL_COUNT (u : Nat) : Nat := 0xF011C + 0x1000 * u
abbrev SPILL_REFUSED (u : Nat) : Nat := 0xF0120 + 0x1000 * u
abbrev STARVED_COUNT (u : Nat) : Nat := 0xF0124 + 0x1000 * u
abbrev DESC_SWAP_COUNT (u : Nat) : Nat := 0xF0128 + 0x1000 * u
abbrev STARVE_EQ (u : Nat) : Nat := 0xF012C + 0x1000 * u
abbrev CTX_ARG0 (u : Nat) : Nat := 0xF0140 + 0x1000 * u
abbrev CTX_ARG1 (u : Nat) : Nat := 0xF0144 + 0x1000 * u
abbrev CTX_CMD (u : Nat) : Nat := 0xF0148 + 0x1000 * u
abbrev CTX_RESULT (u : Nat) : Nat := 0xF014C + 0x1000 * u
abbrev CTX_OUT (u i : Nat) : Nat := 0xF0180 + 0x1000 * u + 0x4 * i
abbrev CORE_STATUS (u : Nat) : Nat := 0x800100 + 0x4000 * u
abbrev CORE_CUR_PATTERN (u : Nat) : Nat := 0x800104 + 0x4000 * u
abbrev CORE_CUR_STEP (u : Nat) : Nat := 0x800108 + 0x4000 * u
abbrev CORE_RESERVED_KIB (u : Nat) : Nat := 0x80010C + 0x4000 * u
abbrev STEPS_DONE (u : Nat) : Nat := 0x800110 + 0x4000 * u
abbrev ARRAY_ISSUE_SLOTS (u : Nat) : Nat := 0x800114 + 0x4000 * u
abbrev VECTOR_BUSY_CYCLES (u : Nat) : Nat := 0x800118 + 0x4000 * u
abbrev BANK_STALL_CYCLES (u : Nat) : Nat := 0x80011C + 0x4000 * u
abbrev STAGE_STALL_CYCLES (u : Nat) : Nat := 0x800120 + 0x4000 * u
abbrev KNOT_STALL_CYCLES (u : Nat) : Nat := 0x800124 + 0x4000 * u
abbrev SAT_COUNT (u : Nat) : Nat := 0x800128 + 0x4000 * u
abbrev NAN_OUT_COUNT (u : Nat) : Nat := 0x80012C + 0x4000 * u
abbrev KILLED_STEPS (u : Nat) : Nat := 0x800130 + 0x4000 * u
abbrev SRAM_ECC_CORR (u : Nat) : Nat := 0x800134 + 0x4000 * u
abbrev SR_ENABLE (u : Nat) : Nat := 0x800800 + 0x4000 * u
abbrev STAGE_AHEAD (u : Nat) : Nat := 0x800804 + 0x4000 * u
abbrev SRAM_PEEK_ADDR (u : Nat) : Nat := 0x800F00 + 0x4000 * u
abbrev SRAM_PEEK_DATA (u : Nat) : Nat := 0x800F04 + 0x4000 * u
abbrev CL_STATUS (u : Nat) : Nat := 0x140100 + 0x1000 * u
abbrev CL_TEMP (u : Nat) : Nat := 0x140104 + 0x1000 * u
abbrev CL_GB_HELD_KIB (u : Nat) : Nat := 0x140108 + 0x1000 * u
abbrev CL_PORT_RD_MIB (u : Nat) : Nat := 0x14010C + 0x1000 * u
abbrev CL_PORT_WR_MIB (u : Nat) : Nat := 0x140110 + 0x1000 * u
abbrev CL_PORT_WAIT_CYCLES (u : Nat) : Nat := 0x140114 + 0x1000 * u
abbrev CL_GB_ECC_CORR (u : Nat) : Nat := 0x140118 + 0x1000 * u
abbrev CL_GB_HASH (u : Nat) : Nat := 0x140800 + 0x1000 * u
abbrev PC_STATUS (u : Nat) : Nat := 0x150100 + 0x1000 * u
abbrev PC_IN_MIB (u : Nat) : Nat := 0x150104 + 0x1000 * u
abbrev PC_OUT_MIB (u : Nat) : Nat := 0x150108 + 0x1000 * u
abbrev PC_BLOCKS_CODED (u : Nat) : Nat := 0x15010C + 0x1000 * u
abbrev PC_BLOCKS_RAW (u : Nat) : Nat := 0x150110 + 0x1000 * u
abbrev PC_BLOCKS_ZERO (u : Nat) : Nat := 0x150114 + 0x1000 * u
abbrev PC_SIZE_OVER (u : Nat) : Nat := 0x150118 + 0x1000 * u
abbrev PC_SIZE_UNDER (u : Nat) : Nat := 0x15011C + 0x1000 * u
abbrev PC_MALFORMED (u : Nat) : Nat := 0x150120 + 0x1000 * u
abbrev PC_STREAM_REFUSED (u : Nat) : Nat := 0x150124 + 0x1000 * u
abbrev PC_BUSY_CYCLES (u : Nat) : Nat := 0x150128 + 0x1000 * u
abbrev PC_OUT_STALL_CYCLES (u : Nat) : Nat := 0x15012C + 0x1000 * u
abbrev LOSSY_ENABLE : Nat := 0x150800
abbrev PC_LAST_BLOCK (u : Nat) : Nat := 0x150F00 + 0x1000 * u
abbrev PC_LAST_OBJECT (u : Nat) : Nat := 0x150F04 + 0x1000 * u
abbrev KN_STATUS (u : Nat) : Nat := 0x160100 + 0x1000 * u
abbrev KN_STATUS_CLR (u : Nat) : Nat := 0x160104 + 0x1000 * u
abbrev KN_SIGNAL_COUNT (u : Nat) : Nat := 0x160108 + 0x1000 * u
abbrev KN_WAIT_COUNT (u : Nat) : Nat := 0x16010C + 0x1000 * u
abbrev KN_HELD_DISCARDS (u : Nat) : Nat := 0x160110 + 0x1000 * u
abbrev KN_LEAK_COUNT (u : Nat) : Nat := 0x160114 + 0x1000 * u
abbrev KN_TIMEOUT_COUNT (u : Nat) : Nat := 0x160118 + 0x1000 * u
abbrev CHK_KNOT (u i : Nat) : Nat := 0x160120 + 0x1000 * u + 0x4 * i
abbrev CHK_CMD (u : Nat) : Nat := 0x160160 + 0x1000 * u
abbrev CHK_RESULT (u : Nat) : Nat := 0x160164 + 0x1000 * u
abbrev CHK_OPEN_VAL (u i : Nat) : Nat := 0x160180 + 0x1000 * u + 0x4 * i
abbrev CHK_CLOSE_VAL (u i : Nat) : Nat := 0x1601C0 + 0x1000 * u + 0x4 * i
abbrev KDBG_SEL : Nat := 0x160F00
abbrev KDBG_VALUE : Nat := 0x160F04
abbrev KDBG_HOLD : Nat := 0x160F08
abbrev KDBG_SET : Nat := 0x160F0C
abbrev KDBG_SET_COUNT : Nat := 0x160F10
abbrev KDBG_LOG_SEL : Nat := 0x160F14
abbrev KDBG_LOG_STAMP_LO : Nat := 0x160F18
abbrev KDBG_LOG_STAMP_HI : Nat := 0x160F1C
abbrev KDBG_LOG_KNOT : Nat := 0x160F20
abbrev KDBG_LOG_OLD : Nat := 0x160F24
abbrev KDBG_LOG_NEW : Nat := 0x160F28
abbrev PRE_HOOP (u : Nat) : Nat := 0x170100 + 0x1000 * u
abbrev PRE_MASK_LO (u : Nat) : Nat := 0x170104 + 0x1000 * u
abbrev PRE_MASK_HI (u : Nat) : Nat := 0x170108 + 0x1000 * u
abbrev PRE_CMD (u : Nat) : Nat := 0x17010C + 0x1000 * u
abbrev PRE_RESULT (u : Nat) : Nat := 0x170110 + 0x1000 * u
abbrev PRE_COUNT (u : Nat) : Nat := 0x170114 + 0x1000 * u
abbrev PRE_LATENCY_MAX (u : Nat) : Nat := 0x170118 + 0x1000 * u
abbrev LATE_REPLY_DROPS (u : Nat) : Nat := 0x17011C + 0x1000 * u
abbrev OWN_RATE (u i : Nat) : Nat := 0x170120 + 0x1000 * u + 0x10 * i
abbrev OWN_BURST (u i : Nat) : Nat := 0x170124 + 0x1000 * u + 0x10 * i
abbrev OWN_WEIGHT (u i : Nat) : Nat := 0x170128 + 0x1000 * u + 0x10 * i
abbrev OWN_TOKENS (u i : Nat) : Nat := 0x17012C + 0x1000 * u + 0x10 * i
abbrev OWN_THROTTLE (u i : Nat) : Nat := 0x170160 + 0x1000 * u + 0x4 * i
abbrev OWN_CLUSTERS (u : Nat) : Nat := 0x170170 + 0x1000 * u
abbrev SCH_CAP_SCALE : Nat := 0x170180
abbrev SCH_FLAGS : Nat := 0x170184
abbrev SCH_FLAGS_CLR : Nat := 0x170188
abbrev SCH_CLUSTER (i : Nat) : Nat := 0x1701A0 + 0x4 * i
abbrev SCH_TURN_HOOP (i : Nat) : Nat := 0x1701C0 + 0x4 * i
abbrev SHARE (i j : Nat) : Nat := 0x170200 + 0x4 * i + 0x40 * j
abbrev REG_RATE (i j : Nat) : Nat := 0x170400 + 0x10 * i + 0x40 * j
abbrev REG_BURST (i j : Nat) : Nat := 0x170404 + 0x10 * i + 0x40 * j
abbrev REG_WEIGHT (i j : Nat) : Nat := 0x170408 + 0x10 * i + 0x40 * j
abbrev REG_TOKENS (i j : Nat) : Nat := 0x17040C + 0x10 * i + 0x40 * j
abbrev SCH_TURN_US : Nat := 0x170800
abbrev LK_STATUS (u : Nat) : Nat := 0x180100 + 0x1000 * u
abbrev LK_STATUS_CLR (u : Nat) : Nat := 0x180104 + 0x1000 * u
abbrev LK_CTRL (u : Nat) : Nat := 0x180108 + 0x1000 * u
abbrev LK_PKG_ID : Nat := 0x18010C
abbrev LK_TX_MB (u : Nat) : Nat := 0x180110 + 0x1000 * u
abbrev LK_RX_MB (u : Nat) : Nat := 0x180114 + 0x1000 * u
abbrev LK_RETRY_COUNT (u : Nat) : Nat := 0x180118 + 0x1000 * u
abbrev LK_RETRAIN_COUNT (u : Nat) : Nat := 0x18011C + 0x1000 * u
abbrev LK_AUTH_COUNT (u : Nat) : Nat := 0x180120 + 0x1000 * u
abbrev LK_REPLAY_COUNT (u : Nat) : Nat := 0x180124 + 0x1000 * u
abbrev LK_IN_REFUSED (u : Nat) : Nat := 0x180128 + 0x1000 * u
abbrev LK_LOST_MSGS (u : Nat) : Nat := 0x18012C + 0x1000 * u
abbrev LK_REKEY_COUNT (u : Nat) : Nat := 0x180130 + 0x1000 * u
abbrev LK_KEY_EPOCH (u : Nat) : Nat := 0x180134 + 0x1000 * u
abbrev LK_UNACKED (u : Nat) : Nat := 0x180138 + 0x1000 * u
abbrev LK_HOOP_MAP (u i : Nat) : Nat := 0x180200 + 0x1000 * u + 0x4 * i
abbrev LK_FWD_MASK (u i : Nat) : Nat := 0x180240 + 0x1000 * u + 0x4 * i
abbrev LC_TX_IN_MIB (u : Nat) : Nat := 0x180300 + 0x1000 * u
abbrev LC_TX_OUT_MIB (u : Nat) : Nat := 0x180304 + 0x1000 * u
abbrev LC_RX_IN_MIB (u : Nat) : Nat := 0x180308 + 0x1000 * u
abbrev LC_RX_OUT_MIB (u : Nat) : Nat := 0x18030C + 0x1000 * u
abbrev LC_SIZE_OVER (u : Nat) : Nat := 0x180310 + 0x1000 * u
abbrev LC_SIZE_UNDER (u : Nat) : Nat := 0x180314 + 0x1000 * u
abbrev LC_STREAM_REFUSED (u : Nat) : Nat := 0x180318 + 0x1000 * u
abbrev LK_REKEY_LOG2 (u : Nat) : Nat := 0x180800 + 0x1000 * u
abbrev LK_RETRY_LIMIT (u : Nat) : Nat := 0x180804 + 0x1000 * u
abbrev LK_AUTH_LIMIT (u : Nat) : Nat := 0x180808 + 0x1000 * u
abbrev LK_DOWN_HOLD (u : Nat) : Nat := 0x18080C + 0x1000 * u
abbrev LK_LANE_SEL (u : Nat) : Nat := 0x180F00 + 0x1000 * u
abbrev LK_LANE_BER (u : Nat) : Nat := 0x180F04 + 0x1000 * u
abbrev ISL_STATUS : Nat := 0x190100
abbrev ISL_CTRL : Nat := 0x190104
abbrev ISL_SW_MUTE : Nat := 0x190108
abbrev ISL_CLEAR : Nat := 0x19010C
abbrev RING_NCH : Nat := 0x190110
abbrev RING_FRAMES : Nat := 0x190114
abbrev SEG_MAX_SAMPLES : Nat := 0x190118
abbrev MUTE_COUNT : Nat := 0x19011C
abbrev MUTE_TOGGLE_COUNT : Nat := 0x190120
abbrev PENDING_LOST : Nat := 0x190124
abbrev SEG_COUNT : Nat := 0x190128
abbrev RING_ECC_UNCORR : Nat := 0x19012C
abbrev MUTE_STAMP_LO : Nat := 0x190130
abbrev MUTE_STAMP_HI : Nat := 0x190134
abbrev ISL_STATUS_CLR : Nat := 0x190138
abbrev ONSET_DB : Nat := 0x190800
abbrev ONSET_QUIET_MS : Nat := 0x190804
abbrev PDM_STATUS : Nat := 0x191140
abbrev PDM_STUCK_COUNT : Nat := 0x191144
abbrev TDM_CTRL (i : Nat) : Nat := 0x191180 + 0x10 * i
abbrev TDM_STATUS (i : Nat) : Nat := 0x191184 + 0x10 * i
abbrev TDM_LOST_COUNT (i : Nat) : Nat := 0x191188 + 0x10 * i
abbrev TDM_FRAME_ERR (i : Nat) : Nat := 0x19118C + 0x10 * i
abbrev RCH (i : Nat) : Nat := 0x192100 + 0x4 * i
abbrev RCH_SAT (i : Nat) : Nat := 0x192140 + 0x4 * i
abbrev RCH_FRAMES (i : Nat) : Nat := 0x192180 + 0x4 * i
abbrev GRP_CTRL (i : Nat) : Nat := 0x193100 + 0x10 * i
abbrev GRP_CTX (i : Nat) : Nat := 0x193104 + 0x10 * i
abbrev GRP_CHAN (i : Nat) : Nat := 0x193108 + 0x10 * i
abbrev GRP_MARK (i : Nat) : Nat := 0x19310C + 0x10 * i
abbrev DET_ARM (i : Nat) : Nat := 0x194100 + 0x20 * i
abbrev DET_FIRE (i : Nat) : Nat := 0x194104 + 0x20 * i
abbrev DET_HYST (i : Nat) : Nat := 0x194108 + 0x20 * i
abbrev DET_REFRACTORY (i : Nat) : Nat := 0x19410C + 0x20 * i
abbrev DET_XCOUNT (i : Nat) : Nat := 0x194110 + 0x20 * i
abbrev MODEL_STATUS (i : Nat) : Nat := 0x194114 + 0x20 * i
abbrev ALARM_BAND : Nat := 0x194180
abbrev ALARM_CTRL : Nat := 0x194184
abbrev DET_PEEK_SEL : Nat := 0x194F00
abbrev DET_PEEK_STATE : Nat := 0x194F04
abbrev DET_PEEK_SCORE : Nat := 0x194F08
abbrev MODEL_DET : Nat := 0x195100
abbrev MODEL_HANDLE : Nat := 0x195104
abbrev MODEL_CMD : Nat := 0x195108
abbrev MODEL_RESULT : Nat := 0x19510C
abbrev PIPE_STATUS (u : Nat) : Nat := 0xC00100 + 0x8000 * u
abbrev PIPE_STATUS_CLR (u : Nat) : Nat := 0xC00104 + 0x8000 * u
abbrev PIPE_BOUND (u : Nat) : Nat := 0xC00108 + 0x8000 * u
abbrev PIPE_ARG (u : Nat) : Nat := 0xC0010C + 0x8000 * u
abbrev PIPE_CMD (u : Nat) : Nat := 0xC00110 + 0x8000 * u
abbrev PIPE_RESULT (u : Nat) : Nat := 0xC00114 + 0x8000 * u
abbrev PIPE_APPLY (u : Nat) : Nat := 0xC00118 + 0x8000 * u
abbrev FSEQ (u : Nat) : Nat := 0xC0011C + 0x8000 * u
abbrev FRAMES_DONE (u : Nat) : Nat := 0xC00120 + 0x8000 * u
abbrev FRAMES_DROPPED (u : Nat) : Nat := 0xC00124 + 0x8000 * u
abbrev LAST_DROP (u : Nat) : Nat := 0xC00128 + 0x8000 * u
abbrev SHORT_COUNT (u : Nat) : Nat := 0xC0012C + 0x8000 * u
abbrev LONG_COUNT (u : Nat) : Nat := 0xC00130 + 0x8000 * u
abbrev LINE_ERR_COUNT (u : Nat) : Nat := 0xC00134 + 0x8000 * u
abbrev FIFO_HWM_KIB (u : Nat) : Nat := 0xC00138 + 0x8000 * u
abbrev FRAME_TIMEOUT (u : Nat) : Nat := 0xC0013C + 0x8000 * u
abbrev PORT_CTRL (u : Nat) : Nat := 0xC01100 + 0x8000 * u
abbrev PORT_STATUS (u : Nat) : Nat := 0xC01104 + 0x8000 * u
abbrev HDR_ECC_CORR (u : Nat) : Nat := 0xC01108 + 0x8000 * u
abbrev HDR_ECC_DROP (u : Nat) : Nat := 0xC0110C + 0x8000 * u
abbrev CRC_ERR (u : Nat) : Nat := 0xC01110 + 0x8000 * u
abbrev PORT_DT_DROPS (u : Nat) : Nat := 0xC01114 + 0x8000 * u
abbrev FMT_CTRL (u : Nat) : Nat := 0xC02100 + 0x8000 * u
abbrev FMT_SRC (u : Nat) : Nat := 0xC02104 + 0x8000 * u
abbrev FMT_ORIGIN (u : Nat) : Nat := 0xC02108 + 0x8000 * u
abbrev FMT_SIZE (u : Nat) : Nat := 0xC0210C + 0x8000 * u
abbrev BL (u i : Nat) : Nat := 0xC02110 + 0x8000 * u + 0x4 * i
abbrev WB (u i : Nat) : Nat := 0xC02120 + 0x8000 * u + 0x4 * i
abbrev DPC_CTRL (u : Nat) : Nat := 0xC02130 + 0x8000 * u
abbrev DPC_TABLE (u : Nat) : Nat := 0xC02134 + 0x8000 * u
abbrev DPC_COUNT (u : Nat) : Nat := 0xC02138 + 0x8000 * u
abbrev LSC_CTRL (u : Nat) : Nat := 0xC0213C + 0x8000 * u
abbrev LSC_TABLE (u : Nat) : Nat := 0xC02140 + 0x8000 * u
abbrev DEM_T (u : Nat) : Nat := 0xC02144 + 0x8000 * u
abbrev CCM (u i : Nat) : Nat := 0xC02150 + 0x8000 * u + 0x4 * i
abbrev CCM_OFF (u i : Nat) : Nat := 0xC02180 + 0x8000 * u + 0x4 * i
abbrev TONE_CTRL (u : Nat) : Nat := 0xC02190 + 0x8000 * u
abbrev TONE_TABLE (u : Nat) : Nat := 0xC02194 + 0x8000 * u
abbrev OUT_CTRL (u i : Nat) : Nat := 0xC03100 + 0x8000 * u + 0x20 * i
abbrev OUT_CROP_ORG (u i : Nat) : Nat := 0xC03104 + 0x8000 * u + 0x20 * i
abbrev OUT_CROP_SIZE (u i : Nat) : Nat := 0xC03108 + 0x8000 * u + 0x20 * i
abbrev OUT_SIZE (u i : Nat) : Nat := 0xC0310C + 0x8000 * u + 0x20 * i
abbrev OUT_LOC (u i : Nat) : Nat := 0xC03110 + 0x8000 * u + 0x20 * i
abbrev OUT_LAST (u i : Nat) : Nat := 0xC03114 + 0x8000 * u + 0x20 * i
abbrev OUT_FRAMES (u i : Nat) : Nat := 0xC03118 + 0x8000 * u + 0x20 * i
abbrev TAP_CTRL (u i : Nat) : Nat := 0xC03200 + 0x8000 * u + 0x10 * i
abbrev TAP_LOC (u i : Nat) : Nat := 0xC03204 + 0x8000 * u + 0x10 * i
abbrev TAP_LAST (u i : Nat) : Nat := 0xC03208 + 0x8000 * u + 0x10 * i
abbrev MEM_STATUS (u : Nat) : Nat := 0xC04100 + 0x8000 * u
abbrev MEM_RESULT (u : Nat) : Nat := 0xC04104 + 0x8000 * u
abbrev MEM_SEQ (u : Nat) : Nat := 0xC04108 + 0x8000 * u
abbrev MEM_OUT (u i : Nat) : Nat := 0xC04110 + 0x8000 * u + 0x4 * i
abbrev MB_STATUS (u : Nat) : Nat := 0x1C0100 + 0x1000 * u
abbrev MB_CMD (u : Nat) : Nat := 0x1C0104 + 0x1000 * u
abbrev MB_RESULT (u : Nat) : Nat := 0x1C0108 + 0x1000 * u
abbrev MB_ARG (u i : Nat) : Nat := 0x1C0110 + 0x1000 * u + 0x4 * i
abbrev MB_OUT (u i : Nat) : Nat := 0x1C0180 + 0x1000 * u + 0x4 * i
abbrev SEAL_PKGS (u : Nat) : Nat := 0x1C01C0 + 0x1000 * u
abbrev SEAL_OBJECTS (u : Nat) : Nat := 0x1C01C4 + 0x1000 * u
abbrev SEAL_FAIL_COUNT (u : Nat) : Nat := 0x1C01C8 + 0x1000 * u
abbrev ATTEST_COUNT (u : Nat) : Nat := 0x1C01CC + 0x1000 * u
abbrev PM_STATUS : Nat := 0x1D0100
abbrev PM_STATE_REQ : Nat := 0x1D0104
abbrev PM_REQ_RESULT : Nat := 0x1D0108
abbrev PM_WAKE_CTRL : Nat := 0x1D010C
abbrev PM_WAKE_STATUS : Nat := 0x1D0110
abbrev PM_WAKE_COUNT : Nat := 0x1D0114
abbrev WAKE_FAST_COUNT : Nat := 0x1D0118
abbrev WAKE_STUCK_COUNT : Nat := 0x1D011C
abbrev ENTRY_ABORTS : Nat := 0x1D0120
abbrev PM_ENTRY_US : Nat := 0x1D0124
abbrev PM_EXIT_US : Nat := 0x1D0128
abbrev PL_TARGET (i : Nat) : Nat := 0x1D0130 + 0x4 * i
abbrev PM_MEM_LEVEL : Nat := 0x1D0150
abbrev PM_CAP_MW : Nat := 0x1D0154
abbrev PM_POWER_MW : Nat := 0x1D0158
abbrev PM_TEMP : Nat := 0x1D015C
abbrev PM_GB_RETAIN : Nat := 0x1D0160
abbrev PM_DRAM_RETAIN (i : Nat) : Nat := 0x1D0170 + 0x4 * i
abbrev PM_RETAIN_MIB : Nat := 0x1D0190
abbrev PM_LOST_TILES : Nat := 0x1D0194
abbrev PM_RESET : Nat := 0x1D0198
abbrev RESET_CAUSE : Nat := 0x1D019C
abbrev THERM_SOFT_OFFSET : Nat := 0x1D0800
abbrev IDLE_DELAY_US : Nat := 0x1D0804
abbrev DRAIN_TIMEOUT_MS : Nat := 0x1D0808
abbrev PG_TIMEOUT_MS : Nat := 0x1D080C
abbrev CLUSTER_STAGGER_US : Nat := 0x1D0810
abbrev FW_STATUS : Nat := 0x1E0100
abbrev FW_STATUS_CLR : Nat := 0x1E0104
abbrev SVC_ARG (i : Nat) : Nat := 0x1E0108 + 0x4 * i
abbrev SVC_CMD : Nat := 0x1E0118
abbrev SVC_RESULT : Nat := 0x1E011C
abbrev FW_TRIAL_LEFT_MS : Nat := 0x1E0120
abbrev TRIAL_MS : Nat := 0x1E0800
abbrev FW_SAFE_TIMEOUT_MS : Nat := 0x1E0804
abbrev FENCE_DRAIN_MS : Nat := 0x1E0808
abbrev RAS_STATUS : Nat := 0x1E1100
abbrev RAS_STATUS_CLR : Nat := 0x1E1104
abbrev RAS_LAST_UNIT : Nat := 0x1E1108
abbrev RAS_LOST_TILES : Nat := 0x1E110C
abbrev RAS_CE (i : Nat) : Nat := 0x1E1110 + 0x4 * i
abbrev RAS_CE_LIMIT (i : Nat) : Nat := 0x1E1800 + 0x4 * i
abbrev RAS_AUTO_FENCE : Nat := 0x1E1820
abbrev RAS_ROW_CE : Nat := 0x1E1824
abbrev TEL_PERIOD_MS : Nat := 0x1E2100
abbrev TEL_SEQ_LO : Nat := 0x1E2104
abbrev TEL_SEQ_HI : Nat := 0x1E2108
abbrev TEL_POWER_MW : Nat := 0x1E210C
abbrev TEL_CLUSTER_TEMP (i : Nat) : Nat := 0x1E2110 + 0x4 * i
abbrev TEL_DRAM_TEMP (i : Nat) : Nat := 0x1E2130 + 0x4 * i
abbrev TEL_SKEIN (i : Nat) : Nat := 0x1E2148 + 0x4 * i
abbrev TEL_BW (i j : Nat) : Nat := 0x1E2200 + 0x4 * i + 0x10 * j

end R

end Sys2Proof.Machine
end

