-- ==== Sys2Proof/Machine/State.lean ====
section
/-! DEFINITION. The state of the whole package as plain data: the part, time, every register, and every queue, table,
buffer and hidden mode the manual gives its blocks; the reasons a command can stop; the state after reset. -/

namespace Sys2Proof.Machine

/-- Raised when the model itself would leave the manual's machine. No command of this model raises one: every row of the
command table has an effect in the manual. It is kept because the host's interface asks for a fault type. Safe. -/
inductive Fault where
  /-- Never raised. -/
  | unreachable
  deriving DecidableEq, Repr

/-- Why a command is not run. -/
inductive Refusal where
  /-- Raised by an arm that has no meaning yet. Safe: the machine stops. -/
  | notModelled (mnemonic : String)
  /-- Raised for a term no sender can send: one that `Sys2Proof.Instr.wellFormed` rejects. Safe: the machine stops. -/
  | illFormed
  deriving DecidableEq, Repr

/-! ## Scene time (R23 to R51) -/

/-- TS_STATUS.STATE (R31). -/
inductive TsMode where
  | free | acquiring | locked | holdover | slewing | host
  deriving DecidableEq, Repr

/-- The scene-time unit. Positions are numbers of phase units: count × 65,536 + phase. -/
structure SceneTime where
  mode : TsMode
  /-- Position at the last boundary, always a whole count (R24). -/
  base : Nat
  /-- Timebase time of that boundary, in ns since cold reset. -/
  baseAt : Rat
  /-- The position never reads below this (R23; also the hold of a negative STEP, R35). -/
  floor : Nat
  /-- The period estimate P in ns (R30). -/
  period : Rat
  /-- Length of the interval being generated, in ns (R32). -/
  ival : Rat
  /-- Remaining correction C in phase units (R35). -/
  corr : Int
  /-- Accepted intervals in ns, newest first, at most 64 (R30). -/
  intervals : List Nat
  /-- Capture time of the last accepted edge of the selected source, from which the next interval is measured. -/
  lastEdge : Option Nat
  /-- The same, kept over a loss of the reference and a sleep, for the minimum period (R28). -/
  lastAccepted : Option Nat
  /-- Edges passed since the last divided edge (R26). -/
  divCount : Nat
  /-- TS_SOURCE of the source that still gives the boundaries while ACQUIRING; none in holdover (R30). -/
  prevSrc : Option W32
  /-- HOLD_CAUSE (R51). -/
  holdCause : Nat
  everLocked : Bool
  loadPending : Bool
  /-- The count that the waiting load writes (R38). -/
  loadVal : Nat
  loadRefused : Bool
  srcRefused : Bool
  aonTimebase : Bool
  /-- Edges of the previous source passed since its last divided edge. -/
  prevDiv : Nat
  /-- While ACQUIRING, the period of the previous source or of the holdover that gives the boundaries (R30). -/
  prevPeriod : Rat
  /-- Accepted intervals of the previous source, newest first, at most 64 (R30). -/
  prevIntervals : List Nat
  /-- Capture time of the last accepted edge of the previous source. -/
  prevEdge : Option Nat
  /-- Phase units the current slewing interval absorbs (R35). -/
  slewAbs : Int
  /-- A slew ended in LOCKED and no edge has been accepted since (R35). -/
  slewEnd : Bool
  deriving DecidableEq, Repr

/-! ## Records (R144) -/

/-- An event record before its sequence number and phase bit are assigned. -/
structure Rec where
  hoop : Nat
  eq : Nat
  ty : Nat
  fault : Bool
  forwarded : Bool
  stamp : Nat
  source : Nat
  context : Nat
  payload : Payload
  /-- Time it reached its sequencer or trigger unit, in ns. -/
  arrived : Nat
  /-- False for a stage result that goes to the trigger units only (R52). -/
  toHost : Bool
  /-- The commit-table entry that holds it until it is written or dropped: partition and unit (R20). -/
  entry : Option (Nat × Nat) := none
  deriving DecidableEq, Repr

/-! ## Trigger units and prickings (R52 to R82) -/

/-- One entry of the rule store with its running state (R54, R56). -/
structure Rule where
  bits : RuleBits
  enabled : Bool
  /-- 0 IDLE, 1 ARMED, 2 HELD (R56). -/
  state : Nat
  armStamp : Nat
  armCtx : Nat
  /-- Arm deadline as a position; none without ARM_TIMEOUT (R60). -/
  deadline : Option Nat
  refractoryEnd : Nat
  suppressed : Nat
  /-- Objects this ARM moves, by object key, and the ARM's own number, which its moves carry (R60, R69). -/
  armObjs : List Nat
  armId : Nat
  deriving DecidableEq, Repr

/-- A waiting FIRE or APPEND (R67). -/
structure PendFire where
  hoop : Nat
  cq : Nat
  cmds : List Line
  /-- The position at which the wait began (R67). -/
  since : Nat
  /-- The record to post when it drops: rule, cause, stamp, event queue, engine, entry, value, context. -/
  drop : Rec
  /-- The TRIGGER_FIRED record of the FIRE, posted with it (R67). -/
  fired : Option Rec
  unit : Option Nat
  deriving DecidableEq, Repr

/-- One trigger unit: its input queue and the record it is offering (R57, R58). -/
structure TrigUnit where
  inq : List Rec
  cur : Option Rec
  next : Nat
  /-- The time since which the input queue is full (R58). -/
  fullAt : Option Nat
  deriving DecidableEq, Repr

/-- A running pricking engine (R74, R75): entries read at its enable, and the next target. -/
structure Prick where
  entries : List (BitVec 256)
  lap : Nat
  entry : Nat
  done : Bool
  refused : Bool
  /-- The table that its enable pinned (R81). -/
  table : Option Nat
  deriving DecidableEq, Repr

/-! ## The root of trust (R513 to R545) -/

/-- ROT_STATE (R542). -/
inductive RotMode where
  | selfTest | operational | softError | criticalError
  deriving DecidableEq, Repr

/-- A sealed package that a hoop holds (R528, R535): its objects by key and generation. -/
structure Package where
  id : Nat
  nobj : Nat
  stamp : Nat
  ownerKey : BitVec 384
  patterns : BitVec 384
  weights : BitVec 384
  objs : List (Nat × Nat)
  deriving DecidableEq, Repr

/-- What the root of trust measures of one hoop (R535, R536). -/
structure HoopSec where
  mr : BitVec 384
  extends_ : Nat
  pkgs : List Package
  deriving DecidableEq, Repr

/-- A firmware image: slot (R534), SVN, version, measured digest. -/
structure FwImage where
  slot : Nat
  svn : Nat
  version : Nat
  digest : BitVec 384
  deriving DecidableEq, Repr

/-- The last answer on the SPDM responder (R537). -/
inductive SpdmAnswer where
  | none | error | version | capabilities | algorithms
  | digests (d : BitVec 384)
  | certificate (chain : List Byte)
  | challenge (sig : BitVec 768)
  | measurements (entries : List Byte)
  | keyExchange (sig : BitVec 768)
  | finish | ended | keyed | unauthorised
  deriving DecidableEq, Repr

/-- The root of trust outside its mailbox registers. -/
structure RoT where
  mode : RotMode
  coKey : Option (List Byte)
  /-- The challenge that the next CO_AUTH serves; the time at which the Crypto Officer was authenticated; failed attempts in a
  row, and the time of the third (R516). -/
  challenge : Option (BitVec 384)
  coAuth : Option Nat
  coFails : Nat
  coHold : Option Nat
  zeroised : Bool
  sealCert : Bool
  debugUsed : Bool
  /-- FUSE_STATE (R536). -/
  fuse : W32
  /-- Image in each slot, controller × 4 + slot, and the slot that each controller runs (R524). -/
  slots : SMap (Option FwImage)
  /-- Stack 1's mirror of the slots (R226). -/
  mirror : SMap (Option FwImage)
  running : SMap (Option FwImage)
  hoops : SMap HoopSec
  /-- Time of the entry to SOFT_ERROR, and re-tests passed since (R542). -/
  softSince : Nat
  retests : Nat
  /-- DRBG requests made so far; the request that gave each memory key (index 16 the device's own), 0 where it is erased. -/
  drbg : Nat
  memKeys : SMap Nat
  /-- SPDM session: 0 none, 1 after KEY_EXCHANGE, 2 after FINISH; the last answer; the IDE streams keyed. -/
  session : Nat
  answer : SpdmAnswer
  ide : List Nat
  /-- The TAP instruction in force (R532): 0 BYPASS, 1 IDCODE, 2 SAMPLE/PRELOAD, 3 another. -/
  jtag : Nat
  deriving DecidableEq, Repr

/-! ## Commands, queues and events (R118 to R158) -/

/-- A fetched command (R126). -/
structure Cmd where
  hoop : Nat
  cq : Nat
  pos : Nat
  bits : Line
  deriving DecidableEq, Repr

/-- STATE of HOOP_TABLE (R119). -/
inductive HoopPhase where
  | absent | ready | resetting | scrubbing
  deriving DecidableEq, Repr

/-- One hoop's own state outside its registers. -/
structure Hoop where
  phase : HoopPhase
  seq : Nat
  /-- Records held by the sequencer for 256 cycles, in arrival order (R45). -/
  held : List Rec
  /-- 4 KiB units of the hoop's DRAM still to be zero-filled by scrubbing (R539). -/
  scrubUnits : Nat
  /-- A reset that has been requested also resets the assignable pages that the hoop owns (R151, R153). -/
  resetPages : Bool
  deriving DecidableEq, Repr

/-- CQ_STATUS.STATE as far as it is not computed from the positions and the head (R157). -/
inductive CqMode where
  | disabled | running | halted | stopping | preempted
  deriving DecidableEq, Repr

/-- A command queue (R120): positions are modulo 2^32. -/
structure Cq where
  mode : CqMode
  tail : Nat
  read : Nat
  done : Nat
  /-- The fetched command that has not begun, and the position at which it became the head (R125, R398). -/
  head : Option Cmd
  headSince : Nat
  /-- A refusal of budget delayed the head's begin (R217). -/
  headDelayed : Bool
  /-- Outputs of the head whose T3 allocation the budget has refused, each counted once (R216). -/
  t3Refused : List Nat
  /-- Positions from DONE on that are passed over (R417), committed or ended under R235 (R416), and those that otherwise ended without
  committing: a kill fetches these again. -/
  marks : List Nat
  ended : List Nat
  failed : Nat
  preemptGen : Nat
  tailRefused : Bool
  appendFull : Bool
  cfgRefused : Bool
  /-- Time and stamp at which a FENCE at the head took its set of commits (R134). -/
  fenceAt : Option (Nat × Nat)
  /-- Segments made for the head's SEGMENT bindings: first slot and object key (R278, R458). -/
  segs : List (Nat × Nat)
  /-- The fetch of the next entry of a host ring has been asked of the PCIE regulator (R411, R412). -/
  asked : Bool := false
  deriving DecidableEq, Repr

/-- An event queue (R141 to R149). -/
structure Eq where
  en : Bool
  head : Nat
  tail : Nat
  armed : Bool
  loss : Bool
  cfgRefused : Bool
  headRefused : Bool
  /-- Stamps of the records between HEAD and TAIL, oldest first. -/
  pendStamps : List Nat
  /-- Command records that wait for room under STALL, with the commit-table entry each keeps (R20, R143). -/
  held : List (BitVec 512 × Option (Nat × Nat))
  deriving DecidableEq, Repr

/-! ## Objects (R159 to R202) -/

/-- State of one tile's check entry (R173). -/
inductive TileState where
  | unwritten | valid | poisoned
  deriving DecidableEq, Repr

/-- One check-plane entry (R173). -/
structure Tile where
  st : TileState
  crc : W32
  deriving DecidableEq, Repr

/-- One object-table entry with the object's content (R159 to R163). -/
structure Obj where
  used : Bool
  gen : Nat
  kind : Nat
  tier : Nat
  loc : Nat
  homed : Bool
  sealed : Bool
  compressed : Bool
  ctxState : Bool
  size : Nat
  /-- Age stamp as a position. -/
  age : Nat
  pins : Nat
  aux : Nat
  /-- Stacks its T3 allocation lies on, as a mask (R205). -/
  place : Nat
  /-- STEPS carried since the object was first allocated, for a RECURRENT_STATE object (R351). -/
  steps : Nat
  data : SMap Byte
  tileDflt : Tile
  tiles : SMap Tile
  deriving DecidableEq, Repr

/-- Who holds an allocation or a reservation: a command, a move, or none any longer. -/
inductive Holder where
  | cmd (id : Nat)
  | move (id : Nat)
  | seal (hoop : Nat)
  | camera (pipe : Nat)
  /-- The head of a queue, by hoop × 64 + queue, whose reservations are still being sought (R284). -/
  | head (cq : Nat)
  /-- The restore of a context, for which room that a spill freed is kept (R244). -/
  | ctx (i : Nat)
  deriving DecidableEq, Repr

/-- Bytes of a pool or unit held beside the homes: fresh allocations, reservations and retiring allocations (R167,
R171, R186). `unit` is the core or cluster in T0 and T1, and 0 elsewhere. -/
structure Alloc where
  holder : Holder
  hoop : Nat
  tier : Nat
  unit : Nat
  bytes : Nat
  /-- Stacks a T3 allocation lies on, as a mask (R205). -/
  place : Nat
  deriving DecidableEq, Repr

/-- A RETIRING allocation and the begun commands that still read it (R171). -/
structure Retire where
  obj : Nat
  hoop : Nat
  tier : Nat
  unit : Nat
  bytes : Nat
  readers : List Nat
  /-- It held sealed data in T0 or T1 and is still to be zeroed (R531). -/
  zeroing : Bool
  /-- Stacks a T3 allocation lies on, as a mask (R205). -/
  place : Nat
  deriving DecidableEq, Repr

/-- Why a move runs (R164, R180). -/
inductive MoveKind where
  | command (id : Nat)
  | arm (rule id : Nat)
  | walk
  | evict
  | restore (ctx : Nat)
  | spill (ctx : Nat)
  | armOnly (id : Nat)
  deriving DecidableEq, Repr

/-- One range of a move: the shuttle (or codec) that carries it and its tiles (R180). -/
structure Range where
  shuttle : Option Nat
  codec : Option Nat
  first : Nat
  count : Nat
  done : Bool
  /-- Its requests have been made of the regulators (R411, R412). -/
  drawn : Bool := false
  deriving DecidableEq, Repr

/-- A move that waits or runs (R178 to R184). -/
structure Move where
  id : Nat
  kind : MoveKind
  hoop : Nat
  obj : Nat
  tier : Nat
  loc : Nat
  codec : Nat
  param : Nat
  nshuttle : Nat
  /-- Age stamp to set at the commit; none takes the commit stamp (R60, R180); evictions keep the age (R188). -/
  ageStamp : Option Nat
  /-- The hoop for whose request an eviction runs, which pays for it (R187). -/
  payer : Nat
  /-- Offset taken in the host pool by a move into T4 (R166). -/
  aux : Nat
  started : Bool
  ranges : List Range
  /-- Content for an object read out of host memory (T4), supplied by the host; empty otherwise. -/
  hostBytes : SMap Byte
  /-- Tiles whose reads from flash failed: POISONED at the destination (R175, R212). -/
  bad : List Nat
  /-- The context for whose restore it frees room: the room is kept for it (R244). -/
  forCtx : Option Nat
  /-- The layout an ENCODE uses, fixed with its permission when its checks pass (R382, R392). -/
  layout : Option PcLayout
  deriving DecidableEq, Repr

/-- One output of a begun command: the object, its content as built beside the old one, the tiles written (R167). -/
structure OutBuf where
  obj : Nat
  data : SMap Byte
  written : List Nat
  /-- A DECLARED output becomes HOMED at the commit (R168). -/
  declared : Bool
  /-- Stacks of its fresh T3 allocation, as a mask (R205). -/
  place : Nat := 0
  deriving DecidableEq, Repr

/-- One step stream of a begun RUN_PATTERN (R278, R285): its core, the next step, whether that step runs, whether the
stream is finished. -/
structure Stream where
  core : Nat
  step : Nat
  running : Bool
  done : Bool
  /-- On a shared cluster, when the turn in which its last step started must end (R408). -/
  due : Nat := 0
  deriving DecidableEq, Repr

/-- A begun, uncommitted command (R125, R168). -/
structure InFlight where
  id : Nat
  cmd : Cmd
  begin_ : Nat
  /-- Its work is complete and it waits only for its turn or for room in its event queue (R136, R143). -/
  done : Bool
  /-- A use of its inputs has failed: it ends with this class C code and DETAIL (R138). -/
  fail : Option (Nat × BitVec 192)
  /-- Class N code with which it commits (R140). -/
  code : Nat
  flags : Nat
  /-- Payload bytes 40 to 63 of its record (R146). -/
  detail : BitVec 192
  /-- Inputs as read at the begin (R170), by object key. -/
  ins : List (Nat × Obj)
  outs : List OutBuf
  /-- Contexts it names, the header's first (R235). -/
  ctxs : List Nat
  /-- Cores it runs on. -/
  cores : List Nat
  streams : List Stream
  /-- The pattern's object key, and the key of the object each binding names (R278). -/
  pat : Nat
  binds : List Nat
  /-- Transient AUDIO_SEGMENT objects made before the begin and released at the commit or end (R278). -/
  segs : List Nat
  /-- T0 scratch by core × 2^21 + byte, T1 scratch by cluster × 2^23 + byte (R276). -/
  scr0 : SMap Byte
  scr1 : SMap Byte
  /-- Positions appended to KV regions: region, layer, core, position (R329 to R331). -/
  appended : List (Nat × Nat × Nat × Nat)
  /-- State slots written by recurrence steps: object, core, first byte, bytes, T (R350, R351). -/
  carried : List (Nat × Nat × Nat × Nat × Nat)
  /-- The layers begun so far (R286). -/
  layersBegun : List Nat
  /-- How many layers are completed (R286). -/
  layersDone : Nat
  /-- The STAGE_RESULT record its commit posts (R52, R287). -/
  stageRec : Option Rec
  /-- A SEAL_LOAD's new objects, its package and the digest that extends the measurement register (R528, R536). -/
  news : List Nat
  package : Option (Package × BitVec 384)
  deriving DecidableEq, Repr

/-- A request for room that waits for evictions or releases (R189). -/
structure AllocWait where
  hoop : Nat
  tier : Nat
  unit : Nat
  bytes : Nat
  since : Nat
  /-- The queue whose head waits, the move that waits, or the object a CREATE waits to make. -/
  cq : Option Nat
  move : Option Nat
  create : Option Obj
  deriving DecidableEq, Repr

/-- One prefetch walk (R193): its command's hoop, the prefetch list, the layers begun and the entries issued. -/
structure Walk where
  id : Nat
  hoop : Nat
  coreMask : Nat
  entries : List (BitVec 128)
  issued : List Nat
  layer : Nat
  deriving DecidableEq, Repr

/-! ## Skein (R203 to R230) -/

/-- One preserved extent (R222). -/
structure Extent where
  key : Nat
  kind : Nat
  origin : Nat
  obj : Obj
  deriving DecidableEq, Repr

/-- One skein stack's state outside its registers (R209 to R229). -/
structure Skein where
  /-- Balance in bytes, the part of a byte accrued (in 1/86,400,000), and the time up to which it has accrued (R215). -/
  balance : Int
  frac : Nat
  balAt : Nat
  ready : Bool
  worn : Bool
  quiescent : Bool
  patrol : Bool
  temp : Int
  /-- Page reads per block since its erase, and erases per block (R209, R221). -/
  reads : SMap Nat
  cycles : SMap Nat
  /-- Blocks queued for relocation, urgent relocation, refresh and retirement (R209 to R211). -/
  relocate : List Nat
  urgent : List Nat
  refresh : List Nat
  retire : List Nat
  /-- Spare blocks of the user area, the change of the SLC region's own spares since manufacture (R227), and blocks retired. -/
  spare : Nat
  slcSpare : Int
  retired : Nat
  lifeCharged : Nat
  lifeProgrammed : Nat
  /-- Charged bytes since the balance was last saved, and the balance saved (R218). -/
  sinceSaved : Nat
  savedBalance : Int
  /-- Powered time up to the last power-down, the time of the last power-up, and the writes of the trailing days: powered time,
  charged bytes, programmed bytes (R221). -/
  poweredBase : Nat
  upAt : Option Nat
  history : List (Nat × Nat × Nat)
  /-- Fenced flash dies (R589). -/
  fencedDies : List Nat
  /-- The die whose data a DIE_FENCE still copies (R589). -/
  dieCopy : Option Nat
  /-- Media traffic of the last millisecond: time, bytes read, bytes written, and internal work as read bytes of the same time (R206, R213). -/
  recent : List (Nat × Nat × Nat × Nat)
  /-- Most corrections that a codeword of the block has needed since the block was erased (R210, R211). -/
  worst : SMap Nat
  /-- Content, by offset, of the SLC region's directory, translation checkpoints, journal and reserved areas (R226), which no rule states and no
  command reaches (R227). -/
  slc : SMap Byte
  deriving DecidableEq, Repr

/-! ## Contexts (R231 to R256) -/

/-- One context descriptor (R232). RESIDENT, COLD and STATUS are computed. -/
structure Ctx where
  isOpen : Bool
  closing : Bool
  hoop : Nat
  inActive : Bool
  restoring : Bool
  spilling : Bool
  starved : Bool
  pins : Nat
  lastRun : Nat
  runnableSince : Option Nat
  residentSince : Nat
  opened : Nat
  runCount : Nat
  objs : List Nat
  knots : List (Nat × W32)
  /-- Causes of R248 that held during the current wait, and spills refused during it (R250). -/
  causes : Nat
  refused : Nat
  /-- The CTX_CMD that has not completed: 0 none, 1 RESTORE, 2 PIN, 4 PARK (R256); the queue whose head is the CONTEXT_OPEN that waits for
  residency, with the objects it attached (R239). -/
  ask : Nat
  opener : Option Nat
  attached : List Nat
  /-- DECLARED objects that the restore in progress has allocated, with their declared tier and location (R243, R247). -/
  fresh : List (Nat × Nat × Nat)
  /-- The restore in progress has started copying (R247). -/
  copying : Bool
  /-- The wait in progress is one of a CONTEXT_OPEN, before the context is RUNNABLE (R239, R250). -/
  openWait : Bool
  deriving DecidableEq, Repr

/-! ## Knots and scheduling (R393 to R424) -/

/-- A knot held by a begun RUN_PATTERN (R397): its base and the queue that holds it. -/
structure HeldKnot where
  knot : Nat
  base : W32
  cq : Nat
  cmd : Nat
  deriving DecidableEq, Repr

/-- One entry of the hand-set log (R405, R422). -/
structure KdbgLog where
  stamp : Nat
  hoop : Nat
  index : Nat
  old : W32
  new : W32
  discarded : Bool
  deriving DecidableEq, Repr

/-- The turn state of one shared cluster (R408). -/
structure Turn where
  active : Bool
  hoop : Nat
  /-- Deficit of each hoop in ns. -/
  deficit : SMap Nat
  /-- Start of the turn and its length limit in ns, with the unit and shares in force at its start. -/
  start : Nat
  limit : Nat
  /-- End of each hoop's last turn. -/
  ends : SMap Nat
  /-- Shares in force for the turn, by hoop (R407). -/
  shares : List Nat
  deriving DecidableEq, Repr

/-- What a request for tokens belongs to, and waits with it (R412): a range of a move, a running step, the fetch of a queue, a message to a peer. -/
inductive DrawFor where
  | other
  | range (move idx : Nat)
  | step (cmd stream : Nat)
  | fetch (hoop cq : Nat)
  | msg (peer ticket : Nat)
  deriving DecidableEq, Repr

/-- Tokens of one regulator in bytes, and the time of the last update (R412). -/
structure Bucket where
  tokens : Int
  frac : Nat
  at_ : Nat
  /-- Transfers that wait for tokens, oldest first: the bytes still to issue, since when, and what waits. -/
  waiting : List (Nat × Nat × DrawFor)
  deriving DecidableEq, Repr

/-! ## Package links (R425 to R446) -/

/-- STATE of LK_STATUS (R446). -/
inductive LinkMode where
  | down | training | keying | up | standby | authHold
  deriving DecidableEq, Repr

/-- One link's own state outside its registers. -/
structure Link where
  mode : LinkMode
  width : Nat
  peer : Nat
  peerValid : Bool
  sessionNew : Bool
  laneFault : Nat
  /-- Lanes left out by LANE_FENCE (R590). -/
  lanesOut : Nat
  /-- Lanes the retrain in progress leaves out after a LANE_FAULT (R426). -/
  without : Nat
  /-- Next flit sequence to send, next one expected, oldest unacknowledged (R429, R430). -/
  txSeq : Nat
  rxSeq : Nat
  ackSeq : Nat
  /-- Times the oldest unacknowledged flit has been replayed (R430). -/
  replays : Nat
  /-- Credits held for REQ, RSP and NOTICE flits (R431). -/
  credits : List Nat
  /-- Key epoch, next CTR to send, last CTR accepted (R433, R434); none before the first. -/
  epoch : Nat
  txCtr : Nat
  rxCtr : Option Nat
  /-- A rekey has begun: the peer's new key applies from its first message whose CTR is 0 (R433). -/
  rxNew : Bool
  /-- FSEQ named by the last NAK sent (R430). -/
  nakSent : Option Nat
  /-- Times of the LINK_AUTH findings of the last second (R434). -/
  authAt : List Nat
  deriving DecidableEq, Repr

/-- A message a session carries, with the meaning of its body (R432, R438). -/
structure LinkMsg where
  /-- TYPE of R438. -/
  ty : Nat
  /-- Local sending hoop and receiving hoop at the peer. -/
  hoop : Nat
  peerHoop : Nat
  dseq : Nat
  gen : Nat
  pos : Nat
  queue : Nat
  aux : Nat
  /-- The fields its body carries, in the order its sender gives them. -/
  body : List Nat
  /-- Bytes it carries on the wire, the object and tile of a PULL_DATA, and the time it was sent. -/
  bytes : Nat
  sentAt : Nat
  /-- It is on the wire: its credits are spent (R431). -/
  sent : Bool
  deriving DecidableEq, Repr

/-- The session with one peer (R435): the next DSEQ to send, the next DSEQ to deliver, the messages unacknowledged. -/
structure Session where
  txDseq : Nat
  rxDseq : Nat
  unacked : List LinkMsg
  /-- Stitch count since which no link to the peer is UP (R436); none while one is. -/
  lostSince : Option Nat
  /-- Messages held for LINK tokens (R411, R412), with their tickets. -/
  queued : List (Nat × LinkMsg)
  /-- The next ticket for a held message (R412). -/
  tickets : Nat
  /-- A link carries the session again and the highest delivered DSEQ has still to be exchanged (R435). -/
  resync : Bool
  deriving DecidableEq, Repr

/-- Which side of a remote move this package is (R439). -/
inductive RemoteRole where
  /-- The initiator of a push: it gives. -/
  | pushInit
  /-- The initiator of a return: it takes. -/
  | returnInit
  /-- The taker of a peer's push: the object is inbound. -/
  | inbound
  /-- The giver of a peer's return: the object is lent. -/
  | lent
  deriving DecidableEq, Repr

/-- One remote move in progress (R439). -/
structure Remote where
  role : RemoteRole
  peer : Nat
  /-- Local hoop and peer hoop. -/
  hoop : Nat
  peerHoop : Nat
  /-- Local object key, the peer's handle, the begun command of an initiator, the identifier of its allocation. -/
  obj : Nat
  peerHandle : Nat
  cmd : Nat
  alloc : Nat
  /-- GEN, POS and QUEUE of the request, which name the move. -/
  gen : Nat
  pos : Nat
  queue : Nat
  /-- Where the taker homes it, and the first page it takes of a host pool (R166). -/
  tier : Nat
  loc : Nat
  aux : Nat
  size : Nat
  kind : Nat
  data : SMap Byte
  got : List Nat
  poison : List Nat
  compressed : Bool
  /-- The tiles are a picot stream that the taker decodes (R441). -/
  coded : Bool
  prepared : Bool
  /-- Code that the PREPARED carries (R441). -/
  code : Nat
  sizeOver : Nat
  sizeUnder : Nat
  /-- Stacks of a return's T3 allocation, as a mask (R205). -/
  place : Nat := 0
  /-- The MOVE_REQ of a return has gone out; its allocation may still wait (R439 steps 1 and 2). -/
  asked : Bool := false
  deriving DecidableEq, Repr

/-! ## The power manager (R546 to R580) -/

/-- What the device is doing: the power states of R554 and the passages between them; `boot` runs from a cold or warm reset to
BOOT_DONE (R574). -/
inductive PmMode where
  | boot | active | idle | entering | doze | listen | off | exiting
  deriving DecidableEq, Repr

/-- The power manager's own state. -/
structure Pm where
  mode : PmMode
  /-- TARGET of the request in progress (R556), and the state that an exit leaves. -/
  target : Nat
  exitFrom : PmMode
  /-- WORK of the request: DRAIN waits (R557). -/
  draining : Bool
  /-- The kills of R557 are done and the blocks of R558 stop: the island keeps its records. -/
  killed : Bool
  /-- PME_Turn_Off has arrived (R570). -/
  pme : Bool
  reqAt : Nat
  exitAt : Nat
  /-- Wake sources latched or asserted, oldest first (R566, R568). -/
  wakes : List Nat
  computeUp : Bool
  /-- Saved state of R558 exists; DRAM was off in the sleep that is ending (R562). -/
  saved : Bool
  dramOff : Bool
  /-- Queues marked as pre-empted for power, hoop × 64 + queue (R557). -/
  marked : List Nat
  /-- Clusters whose cap ceiling was lowered, latest first, and the ceilings; steps by which CAP_SCALE was lowered (R551). -/
  capDown : List Nat
  capCeil : SMap Nat
  scaleDown : Nat
  /-- Thermal ceilings, levels in force, and when each cluster's ceiling last moved (R549, R552). -/
  thermCeil : SMap Nat
  inForce : SMap Nat
  thermAt : SMap Nat
  /-- The cap's last step and the DRAM level's last step, in ns; steps the memory level stands lowered by temperature; the
  level in force (R550, R552). -/
  capAt : Nat
  memAt : Nat
  memDown : Nat
  memForce : Nat
  /-- Power measurements of the trailing 10 ms in mW, newest first (R551). -/
  powers : List Nat
  /-- Time of the last edge wake on each WAKE_IN pin (R567). -/
  wakeEdge : SMap Nat
  /-- When each WAKE_IN pin last changed its level: how long it has been asserted or not (R567). -/
  wakeAt : SMap Nat
  /-- When the device last became ACTIVE (R567). -/
  activeAt : Nat
  /-- THERM_TRIP_N is driven low (R553); SMB_ALERT_N is asserted (R615); SYSCLK has stopped (R614). -/
  tripped : Bool
  alert : Bool
  clockStopped : Bool
  /-- A conventional reset waits for the host link (R566); PCIE_WAKE_N is driven (R570). -/
  perst : Bool
  wakeN : Bool
  deriving DecidableEq, Repr

/-! ## The eyelet island (R447 to R481) -/

/-- One frame of the pre-roll ring (R454); `span` is the position of its sample 0 in phase units, DELTA is in 1/256 unit, code
`k` is bits 4 k + 3 .. 4 k. -/
structure Frame where
  pos : Nat
  delta : Nat
  p0 : Int
  i0 : Nat
  flags : Nat
  fseq : Nat
  codes : BitVec 2048
  /-- Samples written: all 512 unless its group or the ring stops before its end (R457). -/
  len : Nat
  /-- The sample from which its channel is muted or without a source (R457). -/
  quiet : Nat
  /-- The flags of the samples from there on: MUTED or GAP (R457). -/
  why : Nat
  deriving DecidableEq, Repr

/-- One ring channel's coder and its share of the ring, oldest frame first (R454, R455). -/
structure Chan where
  frames : List Frame
  fseq : Nat
  p : Int
  i : Nat
  /-- The coder continues from the previous frame; otherwise the next one carries RESET. -/
  cont : Bool
  /-- The run of frames continues, so DELTA comes from the previous frame (R456). -/
  runs : Bool
  /-- The source changed since the last frame (R478). -/
  srcChanged : Bool
  deriving DecidableEq, Repr

/-- A hop of a group's mix: the position of its first sample, its energy, and whether it is an onset (R463). -/
structure Hop where
  pos : Nat
  energy : Nat
  onset : Bool
  deriving DecidableEq, Repr

/-- One temporal pattern of the alarm-tone detector (R464). -/
structure Alarm where
  pulses : Nat
  score : Nat
  closing : Bool
  cur : Nat
  first : Nat
  deriving DecidableEq, Repr

/-- A listening group: the control and mark values in force since its last hop boundary (R479), its hops newest first, the mix
oldest first, and the runs of tone and no tone. -/
structure Group where
  ctrl : W32
  mark : W32
  hops : List Hop
  mix : List (BitVec 16)
  toneOn : Bool
  run : Nat
  runPos : Nat
  three : Alarm
  four : Alarm
  deriving DecidableEq, Repr

/-- One detector of one group (R465): STATE, end of the refractory time, last score, mark of its ARM crossing. -/
structure Det where
  st : Nat
  refractoryEnd : Nat
  score : W32
  mark : Nat
  deriving DecidableEq, Repr

/-- The model of one detector (R467): the image in force, the one that takes over at the next hop boundaries, the groups that
have passed theirs, an UNLOAD that waits for them. -/
structure Model where
  loaded : Bool
  buf : Bool
  image : SMap Byte
  next : Option (SMap Byte)
  unload : Bool
  passed : List Nat
  deriving DecidableEq, Repr

/-- The island outside its registers. -/
structure Island where
  chans : SMap Chan
  groups : SMap Group
  dets : SMap Det
  models : SMap Model
  hwMuted : Bool
  muteHigh : Bool
  clearing : Bool
  wakeHeld : Bool
  /-- ISLAND_TRIGGER records kept while the compute domain is off, oldest first (R71). -/
  kept : List Rec
  deriving DecidableEq, Repr

/-! ## Camera pipelines (R482 to R512) -/

/-- A frame in progress, or ended and not yet committed. -/
structure CamFrame where
  fseq : Nat
  csi : Nat
  /-- Frame-start and frame-end stamps as positions. -/
  fs : Nat
  fe : Nat
  /-- Sensor lines received so far. -/
  received : Nat
  /-- Codes of the formatted lines so far (R495). -/
  lines : List (List Nat)
  flags : Nat
  filled : Nat
  errs : Nat
  /-- Time of its last packet (R500), the position of its last line's start packet (R42), and the set it runs under (R492). -/
  lastAt : Nat
  lineAt : Nat
  set : SMap W32
  /-- Identifier of its allocations (R487). -/
  alloc : Nat
  /-- The line-start packet of its next line has come (R483). -/
  lineOpen : Bool
  deriving DecidableEq, Repr

/-- A memory job (R504): the raw object, its handle, the set it runs under and the tables pinned for it (R492), its start, and
whether it has run yet (R505). -/
structure MemJob where
  obj : Nat
  handle : Nat
  set : SMap W32
  pins : List Nat
  start : Nat
  begun : Bool
  deriving DecidableEq, Repr

/-- One pipeline outside its registers. A set is the stored values of pages 2 and 3 by offset in the window. -/
structure Pipe where
  set : SMap W32
  next : Option (SMap W32)
  /-- Tables pinned by the set in force and by the set that pends (R492). -/
  pins : List Nat
  nextPins : List Nat
  frame : Option CamFrame
  /-- Frames that have ended and wait for their commit. -/
  ended : List CamFrame
  /-- Frame starts received since the BIND; frames dropped since the last commit. -/
  starts : Nat
  dropped : Nat
  mem : Option MemJob
  /-- Vertical blanking: from the commit of a live frame to the next frame start (R505). -/
  blank : Bool
  deriving DecidableEq, Repr

/-! ## The service block (R581 to R601, R615) -/

/-- The service block outside its registers; the update in progress stands in FW_STATUS (R597). -/
structure Svc where
  /-- Time at which FW_ACTIVATE was accepted, and at which the trial began (R582, R583). -/
  activateAt : Nat
  trialAt : Nat
  /-- Controller of the staged image, which slot B holds (R582). -/
  slotB : Option Nat
  /-- Bytes drawn since the last snapshot, by hoop × 4 + resource (R596). -/
  drawn : SMap Nat
  /-- Temperatures in °C: clusters 0 to 7 (their hottest core), then DRAM stacks 8 to 13. -/
  temps : SMap Int
  /-- Snapshots taken, the last one as values of page 2 by offset, and page 2 frozen by a read of TEL_SEQ_LO (R596). -/
  snaps : Nat
  latest : SMap W32
  frozen : Bool
  /-- Times of the corrected errors of the trailing hour by page, and of each DRAM row by stack × 2^32 + row (R593, R594). -/
  errors : SMap (List Nat)
  rows : SMap (List Nat)
  /-- Spare rows used, by stack (R593). -/
  spareUsed : SMap Nat
  /-- What the last SMBus read returned (R615). -/
  smb : W32
  deriving DecidableEq, Repr

/-! ## The host port and the camera controls (R116, R117, R142, R617) -/

/-- What a request on the host link is for. -/
inductive TlpKind where
  | ringRead | t4Read | recordWrite | t4Write
  deriving DecidableEq, Repr

/-- A request that the device has issued for a hoop: bus address, bytes, Relaxed Ordering (R117). -/
structure Tlp where
  kind : TlpKind
  hoop : Nat
  addr : Nat
  bytes : Nat
  relaxed : Bool
  deriving DecidableEq, Repr

/-- The host port: the requests of the last transfer, first issued first, and the errors that AER has reported (R116). -/
structure Pcie where
  tlps : List Tlp
  corrected : Nat
  nonFatal : Nat
  fatal : Nat
  deriving DecidableEq, Repr

/-- The controls of a camera instance (R617): its bus in I3C mode or as an I2C controller, and CAM_RST_N, which is low until the
owner raises it. -/
structure CamCtl where
  i3c : Bool
  resetHigh : Bool
  deriving DecidableEq, Repr

/-! ## The package -/

/-- Everything the package holds. -/
structure State where
  /-- The part (R3 to R7); it never changes. -/
  part : Part
  /-- The timebase, in cycles of 1 ns since cold reset (R24, R41). -/
  now : Nat
  /-- Sixteenths of a cycle passed since then: 0 to 15 (R40). -/
  sub : Nat
  ts : SceneTime
  /-- Stored register values that differ from the reset value, by window offset (R83 to R102). -/
  regs : SMap W32
  /-- High words latched by the read of a low word (R48, R92). -/
  latch : SMap (Option W32)
  /-- What the last register read returned, its bytes as one little-endian number (R85). -/
  readData : Nat
  /-- Bytes (or pieces of another unit) counted toward the next unit of a counter, by the counter's offset. -/
  partials : SMap Nat
  /-- Of each fault bit that is set, by page × 32 + bit: its code, the BLOCK_STATE at that moment, its detail, and 1 where it was
  injected (R110, R111, R113, R114). -/
  faults : SMap (Nat × Nat × Nat × Nat)
  /-- Uses of free values so far (the model's own). -/
  freeCtr : Nat
  /-- The next identifier of a command or move (the model's own). -/
  nextId : Nat
  rules : SMap Rule
  tus : SMap TrigUnit
  pendFires : List PendFire
  pricks : SMap Prick
  hoops : SMap Hoop
  cqs : SMap Cq
  eqs : SMap Eq
  eqRings : SMap Line
  msiSent : SMap Nat
  /-- VF Enable and NumVFs of the PF's SR-IOV capability (R118). -/
  vfEnable : Bool
  numVfs : Nat
  objs : SMap Obj
  allocs : List Alloc
  retiring : List Retire
  moves : List Move
  flights : List InFlight
  waits : List AllocWait
  walks : List Walk
  skeins : SMap Skein
  catalogue : List Extent
  ctxs : SMap Ctx
  knots : SMap W32
  heldKnots : List HeldKnot
  chkOpen : SMap Bool
  kdbg : List KdbgLog
  turns : SMap Turn
  buckets : SMap Bucket
  links : SMap Link
  sessions : SMap Session
  remotes : List Remote
  /-- Frames held in each rotation, oldest first: object key and completion stamp; keyed pipe × 16 + output (R489). -/
  rotations : SMap (List (Nat × Nat))
  /-- Causes of the pending fences that software did not ask for, by page: 2 a fatal error, 4 a controller's image that is gone (R108, R583). -/
  fatal : SMap Nat
  /-- The clock at which a start or a stop may first complete, by page: a cycle after STARTING or STOPPING was entered (R621). -/
  entered : SMap Nat
  /-- Pages whose owner has changed: the block's next start zeroes its storage (R540). -/
  zeroOwed : SMap Bool
  pipes : SMap Pipe
  /-- Frames that have left their rotations while a begun command names them (R489). -/
  gone : List Nat
  rot : RoT
  pm : Pm
  svc : Svc
  island : Island
  pcie : Pcie
  camCtls : SMap CamCtl
  /-- Candidates that FREE_TARGET has found refused by the write budget, each counted once (R217). -/
  freeRefused : List Nat
  /-- Of each resource, the hoop whose turn its port serves and the bytes left of the turn (R17, R413). -/
  turnsOf : SMap (Nat × Int)
  /-- Commands that wait, first in, first out. -/
  pending : List Instr
  deriving DecidableEq, Repr

/-! ## Values of units that nothing has touched -/

def Rec.dflt : Rec := ⟨0, 0, 0, false, false, 0, 0, 0, 0, 0, true, none⟩
def Rule.dflt : Rule := ⟨0, false, 0, 0, 0, none, 0, 0, [], 0⟩
def TrigUnit.dflt : TrigUnit := ⟨[], none, 0, none⟩
def Prick.dflt : Prick := ⟨[], 0, 0, false, false, none⟩
def Hoop.dflt : Hoop := ⟨.absent, 0, [], 0, false⟩
def Cq.dflt : Cq := ⟨.disabled, 0, 0, 0, none, 0, false, [], [], [], 0, 0, false, false, false, none, [], false⟩
def Eq.dflt : Eq := ⟨false, 0, 0, false, false, false, false, [], []⟩
def Obj.dflt : Obj := ⟨false, 0, 0, 0, 0, false, false, false, false, 0, 0, 0, 0, 0, 0, [], ⟨.unwritten, 0⟩, []⟩
def Cmd.dflt : Cmd := ⟨0, 0, 0, 0⟩
def Move.dflt : Move := ⟨0, .evict, 0, 0, 0, 0, 0, 0, 4, none, 0, 0, false, [], [], [], none, none⟩
def InFlight.dflt : InFlight := ⟨0, Cmd.dflt, 0, false, none, 0, 0, 0, [], [], [], [], [], 0, [], [], [], [], [], [], [], 0, none, [], none⟩
/-- [DESIGN CHOICE, log entry 2; PRESUMED, log entry 52]. -/
def Skein.dflt : Skein := ⟨10 ^ 12, 0, 0, false, false, false, false, 0, [], [], [], [], [], [], 17748, 0, 0, 0, 0, 0, 10 ^ 12, 0, some 0, [], [], none, [], [], []⟩
def Ctx.dflt : Ctx := ⟨false, false, 0, false, false, false, false, 0, 0, none, 0, 0, 0, [], [], 0, 0, 0, none, [], [], false, false⟩
def Turn.dflt : Turn := ⟨false, 0, [], 0, 0, [], []⟩
/-- [DEDUCED, log entry 100]. -/
def Bucket.dflt : Bucket := ⟨4194304, 0, 0, []⟩
def Link.dflt : Link := ⟨.down, 0, 0, false, false, 0, 0, 0, 0, 0, 0, 0, [], 0, 0, none, false, none, []⟩
def Pipe.dflt : Pipe := ⟨[], none, [], [], none, [], 0, 0, none, false⟩
def Frame.dflt : Frame := ⟨0, 0, 0, 0, 0, 0, 0, 512, 512, 0⟩
def Chan.dflt : Chan := ⟨[], 0, 0, 16, false, false, false⟩
def Alarm.dflt : Alarm := ⟨0, 0, false, 0, 0⟩
def Group.dflt : Group := ⟨0, 0x64, [], [], false, 0, 0, Alarm.dflt, Alarm.dflt⟩
def Det.dflt : Det := ⟨0, 0, 0, 0⟩
def Model.dflt : Model := ⟨false, false, [], none, false, []⟩
/-- [DESIGN CHOICE, log entry 2]. -/
def Island.dflt : Island := ⟨[], [], [], [], false, false, false, false, []⟩
/-- [DESIGN CHOICE, log entry 2]. -/
def Pm.dflt : Pm := ⟨.boot, 0, .off, false, false, false, 0, 0, [], false, false, false, [], [], [], 0, [], [], [], 0, 0, 0, 0, [], [], [], 0, false, false, false, false, false⟩
/-- [DESIGN CHOICE, log entry 2]. -/
def Svc.dflt : Svc := ⟨0, 0, none, [], [], 0, [], false, [], [], [], 0⟩
def HoopSec.dflt : HoopSec := ⟨0, 0, []⟩
/-- [DESIGN CHOICE, log entry 2]. -/
def RoT.dflt : RoT := ⟨.selfTest, none, none, none, 0, none, false, true, false, 2, [], [], [], [], 0, 0, 0, [], 0, .none, [], 0⟩
/-- [DESIGN CHOICE, log entry 128]. -/
def Pcie.dflt : Pcie := ⟨[], 0, 0, 0⟩
/-- [DESIGN CHOICE, log entry 99]. -/
def CamCtl.dflt : CamCtl := ⟨false, false⟩
def LinkMsg.dflt : LinkMsg := ⟨0, 0, 0, 0, 0, 0, 0, 0, [], 0, 0, false⟩
def Session.dflt : Session := ⟨0, 0, [], none, [], 0, false⟩

/-! ## Reset -/

/-- The scene-time unit at cold reset (R23, R30, R50): FREE at position 0, P at its nominal value of 62,500 ns. -/
def SceneTime.reset : SceneTime :=
  ⟨.free, 0, 0, 0, 62500, 62500, 0, [], none, none, 0, none, 0, false, false, 0, false, false, false, 0, 62500, [], none, 0, false⟩

/-- The part of State.reset: an MV2-4D2X-C with every core, every strap low (log entry 1). [DESIGN CHOICE, log entry 1; PRESUMED, log entry 52] -/
def Part.reset : Part := ⟨4, 2, 0, 0, 105129, 0⟩

/-- The machine right after a cold reset at power-on: boot has not completed (R574). [DESIGN CHOICE, log entry 2] -/
def State.reset : State where
  part := Part.reset
  now := 0
  sub := 0
  ts := SceneTime.reset
  regs := [(R.RESET_CAUSE, 1)]
  latch := []
  readData := 0
  partials := []
  faults := []
  freeCtr := 0
  nextId := 1
  rules := []
  tus := []
  pendFires := []
  pricks := []
  hoops := [(0, { Hoop.dflt with phase := .ready })]
  cqs := []
  eqs := []
  eqRings := []
  msiSent := []
  vfEnable := false
  numVfs := 0
  objs := []
  allocs := []
  retiring := []
  moves := []
  flights := []
  waits := []
  walks := []
  skeins := []
  catalogue := []
  ctxs := []
  knots := []
  heldKnots := []
  chkOpen := []
  kdbg := []
  turns := []
  buckets := []
  links := []
  sessions := []
  remotes := []
  rotations := []
  fatal := []
  entered := []
  zeroOwed := []
  pipes := []
  gone := []
  rot := RoT.dflt
  pm := Pm.dflt
  svc := Svc.dflt
  island := Island.dflt
  pcie := Pcie.dflt
  camCtls := []
  freeRefused := []
  turnsOf := []
  pending := []

end Sys2Proof.Machine
end

