-- ==== Sys2Proof/Machine/Ops.lean ====
section
/-! DEFINITION. The named operations every meaning is built from: registers (R83 to R102), the scene-time position
(R23 to R46), faults (R110 to R114), and event records from a block to its hoop's ring (R141 to R149). -/

namespace Sys2Proof.Machine

/-! ## Registers -/

/-- The block, instance and offset in the instance that a window offset lies in (R86, R89). -/
def blkAt (a : Nat) : Option (Blk × Nat × Nat) :=
  if a < doorbellBase then
    match allBlks.find? fun b => decide ((blkRow b).base ≤ a ∧ a < (blkRow b).base + (blkRow b).stride * (blkRow b).count) with
    | some b => some (b, (a - (blkRow b).base) / (blkRow b).stride, (a - (blkRow b).base) % (blkRow b).stride)
    | none => none
  else
    let o := a - doorbellBase
    let h := o / 0x100000
    let p := o % 0x100000 / 0x1000
    if h < 16 ∧ p < 64 then some (.cqDoorbell, h * 256 + p, o % 0x1000)
    else if h < 16 ∧ p < 80 then some (.eqDoorbell, h * 256 + (p - 64), o % 0x1000)
    else none

/-- First page of instance `i` of a block: where its common header lies (R88). -/
def pageOf (b : Blk) (i : Nat) : Nat := (blkRow b).base + (blkRow b).stride * i

/-- Source block identifier of an instance: its first page divided by 0x1000 (R87). -/
def sourceId (b : Blk) (i : Nat) : Nat := pageOf b i / 0x1000

/-- The first and second index of `off` in a register row, where the row covers it. -/
def rowIndex (r : RegRow) (off : Nat) : Option (Nat × Nat) :=
  if off < r.off then none else
    let d := off - r.off
    let j := if r.n2 ≤ 1 then 0 else d / r.s2
    let m := if r.n2 ≤ 1 then d else d % r.s2
    let i := if r.n1 ≤ 1 then 0 else m / r.s1
    if j < r.n2 ∧ i < r.n1 ∧ m = (if r.n1 ≤ 1 then 0 else i * r.s1) then some (i, j) else none

/-- The register row and indices at an offset of an instance; none for a reserved offset (R99). -/
def rowAt (b : Blk) (inst off : Nat) : Option (RegRow × Nat × Nat) :=
  (regRows b).findSome? fun r =>
    match rowIndex r off with
    | some (i, j) => if r.only = none ∨ r.only = some inst then some (r, i, j) else none
    | none => none

/-- Is the unit of this page on the part (R4, R9)? [DESIGN CHOICE, log entry 1; DEDUCED, log entry 93] -/
def present (p : Part) : Blk → Nat → Bool
  | .dramStack, n => decide (n < p.dramStacks)
  | .skein, n => decide (n < p.ioDies)
  | .link, n => decide (n < 4 * p.ioDies)
  | .pipeline, n => decide (n < 8 * p.ioDies)
  | _, _ => true

/-- Is the core fenced by fuse (R6, R7)? [DESIGN CHOICE, log entry 1] -/
def factoryFenced (p : Part) : Blk → Nat → Bool
  | .core, c => bit p.fused c
  | _, _ => false

/-- BLOCK_ID (R87, R92); VERSION is not given by the manual and reads 0 here. [DESIGN CHOICE, log entry 13] -/
def blockId (b : Blk) (i : Nat) : Nat := ((blkRow b).base / 0x1000) * 65536 + i * 256

/-- Does the page list a register at or above `lo` and below `hi` (HAS_EXPERT, HAS_DEBUG)? [DEDUCED, log entry 109] -/
def hasRegIn (b : Blk) (i lo hi : Nat) : Bool :=
  (regRows b).any fun r => decide (lo ≤ r.off % 0x1000 ∧ r.off % 0x1000 < hi ∧ (r.only = none ∨ r.only = some i))

/-- BLOCK_CAPS (R93). [DEDUCED, log entry 109] -/
def blockCaps (p : Part) (b : Blk) (i : Nat) : Nat :=
  b2n (hasRegIn b i 0x800 0xF00) + 2 * b2n (hasRegIn b i 0xF00 0x1000) + 4 * b2n (blkRow b).fenceable +
  8 * b2n (factoryFenced p b i) + 16 * b2n (blkRow b).alwaysOn + 256 * ((blkRow b).stride / 0x1000)

/-- Owner of a page at reset (R86, R197). -/
def ownerAtReset (b : Blk) (i : Nat) : Nat :=
  match (blkRow b).owner with
  | .hoopH => i
  | .doorbell => i / 256
  | _ => 0

/-- Is the owner of the page fixed (R86, R97, R406)? -/
def ownerFixed (b : Blk) : Bool :=
  match (blkRow b).owner with
  | .assignable => false
  | _ => true

/-- Reset value of a common-header register (R92 to R97, R112). -/
def hdrReset (p : Part) (b : Blk) (i off : Nat) : Nat :=
  if off = 0x0 then blockId b i
  else if off = 0x4 then blockCaps p b i
  else if off = 0x8 then b2n (blkRow b).alwaysOn
  else if off = 0xC then (if factoryFenced p b i then 0x305 else 0)
  else if off = 0x18 then ownerAtReset b i
  else if off = 0x20 then ownerAtReset b i + 256 * b2n (ownerFixed b)
  else 0

/-- Reset values that depend on the part or the instance. [DESIGN CHOICE, log entries 1, 2; PRESUMED, log entry 51] -/
def partReset (p : Part) (r : RegRow) (inst i : Nat) : Nat :=
  if r.name = "PRE_HOOP" then inst
  else if r.name = "OWN_CLUSTERS" then (if inst = 0 then 0xFF else 0)
  else if r.name = "PM_CAP_MW" then p.tdpMw
  else if r.name = "BUDGET_RATE_MB" ∨ r.name = "BUDGET_CAP_MB" then 1000000
  else if r.name = "MSIX_TABLE" then b2n (decide (i % 4 = 3))
  else (r.reset[i]?).getD (r.reset.getLastD 0)

/-- Value of the register at window offset `a` at reset; 0 for a reserved offset or an absent unit (R9, R85). -/
def regReset (p : Part) (a : Nat) : W32 :=
  match blkAt a with
  | none => 0
  | some (b, inst, off) =>
    if !present p b inst then 0
    else if off % 0x1000 < 0x30 ∧ a < doorbellBase then w32 (hdrReset p b inst (off % 0x1000))
    else match rowAt b inst off with
      | some (r, i, _) => w32 (partReset p r inst i)
      | none => 0

/-- The stored value of the register at `a`. [DESIGN CHOICE, log entry 91] -/
def State.reg (s : State) (a : Nat) : W32 := mget (regReset s.part a) s.regs a

/-- The value in force of an expert register (R102): the stored one while EXPERT_SEL of its block is 1, else the reset value. -/
def State.force (s : State) (a : Nat) : W32 :=
  match blkAt a with
  | some (b, i, _) => if bit (s.reg (R.BLOCK_CTRL (pageOf b i))) 1 then s.reg a else regReset s.part a
  | none => 0

/-- The state with `v` stored at `a`. -/
def State.setReg (s : State) (a : Nat) (v : W32) : State :=
  { s with regs := mset (regReset s.part a) s.regs a v }

/-- Set one field of a register. -/
def State.setRegFld (s : State) (a lo len x : Nat) : State := s.setReg a (setFld (s.reg a) lo len x)

/-- Set bits of a register. -/
def State.orReg (s : State) (a : Nat) (v : W32) : State := s.setReg a (s.reg a ||| v)

/-- Add to a saturating count (R98). -/
def State.addReg (s : State) (a n : Nat) : State := s.setReg a (satAdd (s.reg a) n)

/-- Count `n` pieces on a counter of units of `unit` pieces (MB and MiB counters): the rest is kept for the next unit. -/
def State.addPieces (s : State) (a unit n : Nat) : State :=
  let t := mget 0 s.partials a + n
  ({ s with partials := mset 0 s.partials a (t % unit) }).addReg a (t / unit)

/-- Raise a register to at least `v` (largest-value counters). -/
def State.maxReg (s : State) (a v : Nat) : State := if (s.reg a).toNat < v then s.setReg a (w32 v) else s

/-- Store a list of words at consecutive registers. -/
def State.setRegs (s : State) (a : Nat) : List W32 → State
  | [] => s
  | v :: vs => (s.setReg a v).setRegs (a + 4) vs

/-- Read consecutive registers. -/
def State.getRegs (s : State) (a : Nat) : Nat → List W32
  | 0 => []
  | n + 1 => s.reg a :: s.getRegs (a + 4) n

/-- Latch a value to be returned by the next read of the register at `a` (R48, R92). -/
def State.latchReg (s : State) (a : Nat) (v : W32) : State := { s with latch := mset none s.latch a (some v) }

/-- The value a register read returns. -/
def State.setRead (s : State) (v : Nat) : State := { s with readData := v }

/-! ## The position (R23 to R46) -/

/-- floor as a natural number, 0 below 0. -/
def ratFloor (q : Rat) : Nat := q.floor.toNat

/-- The time in ns: whole cycles and sixteenths of one (R40). -/
def State.time (s : State) : Rat := (s.now : Rat) + (s.sub : Rat) / 16

/-- A time in whole resolution steps: 40 ns on the AON timebase (R41). [DESIGN CHOICE, log entry 126] -/
def SceneTime.resolve (t : SceneTime) (x : Rat) : Rat := if t.aonTimebase then ((x / 40).floor * 40 : Int) else x

/-- Elapsed time since the last boundary (R32). -/
def SceneTime.elapsed (t : SceneTime) (x : Rat) : Rat :=
  let n := t.resolve x
  if n < t.baseAt then 0 else n - t.baseAt

/-- Does a TS_SOURCE value name a source of edges (R25)? -/
def isEdgeSrc (v : W32) : Bool := decide (1 ≤ fld v 0 3) && decide (fld v 0 3 ≤ 4)

/-- Are the boundaries generated by the timebase (R32)? -/
def SceneTime.generated (t : SceneTime) : Bool :=
  match t.mode with
  | .locked => false
  | .acquiring => match t.prevSrc with | some p => !isEdgeSrc p | none => true
  | _ => true

/-- The interval that interpolation divides by (R32). [DEDUCED, log entry 9] -/
def SceneTime.interval (t : SceneTime) : Rat :=
  if t.generated then t.ival else match t.mode with | .acquiring => t.prevPeriod | _ => t.period

/-- The position at time `x` in phase units (R24, R32): never below the floor (R23). [DESIGN CHOICE, log entry 96] -/
def SceneTime.pos (t : SceneTime) (x : Rat) : Nat :=
  max t.floor (t.base + min 65535 (ratFloor (t.elapsed x * 65536 / t.interval)))

/-- The device's position now. [DESIGN CHOICE, log entry 96] -/
def State.pos (s : State) : Nat := s.ts.pos s.time

def State.tsNominal (s : State) : Rat := ((s.reg R.TS_NOMINAL_PERIOD).toNat : Rat)

/-- The period estimate P: TS_NOMINAL_PERIOD before the selected source's first lock (R30). [DEDUCED, log entry 9; DESIGN CHOICE, log entry 121] -/
def State.estP (s : State) : Rat := if s.ts.everLocked then s.ts.period else s.tsNominal

/-- The stitch count now. -/
def State.count (s : State) : Nat := s.pos / 65536

/-- The phase now. -/
def State.phase (s : State) : Nat := s.pos % 65536

/-- An operation of the device's blocks: it leaves the part, the clock, the scene-time unit's state and the waiting
commands as they are. Scene time moves only by the commands of its own family. -/
def dev (f : State → State) (s : State) : State :=
  { f s with part := s.part, now := s.now, sub := s.sub, ts := s.ts, pending := s.pending }

/-- What a command answers. -/
abbrev Out := Host.Outcome State Fault Refusal

/-- A command of the device's blocks always has an effect, or none, and the machine goes on. -/
def run (f : State → State) (s : State) : Out := .next (dev f s)

/-- A command that may move scene time or the clock: it leaves the part and the waiting commands as they are. [DESIGN CHOICE, log entry 5] -/
def runTime (f : State → State) (s : State) : Out := .next { f s with part := s.part, pending := s.pending }

/-- A command whose operands the table's row cannot carry is refused. [DESIGN CHOICE, log entry 6] -/
def runIf (ok : Bool) (f : State → State) (s : State) : Out := if ok then run f s else .refused .illFormed

/-- The domains a power state powers (R13, R554). During boot and in OFF no window is reached; on the way out of DOZE the I/O
main domain has stayed powered; an entry that began in DOZE finds the compute domain off. [DEDUCED, log entry 22] -/
def State.domainOn (s : State) : Domain → Bool
  | .aon => decide (s.pm.mode ≠ .off)
  | .ioMain => decide (s.pm.mode = .active ∨ s.pm.mode = .idle ∨ s.pm.mode = .entering ∨ s.pm.mode = .doze ∨ (s.pm.mode = .exiting ∧ s.pm.exitFrom = .doze))
  | .compute => decide (s.pm.mode = .active ∨ s.pm.mode = .idle ∨ (s.pm.mode = .entering ∧ s.pm.exitFrom ≠ .doze))

/-- An event inside a domain, which cannot happen while the domain is off. [DESIGN CHOICE, log entry 6] -/
def runIn (d : Domain) (f : State → State) (s : State) : Out := run (fun s => if s.domainOn d then f s else s) s

/-- STATE of a block's page (R96, R103). -/
def State.blkState (s : State) (page : Nat) : Nat := fld (s.reg (R.BLOCK_STATE page)) 0 3

/-- Is the block ON? -/
def State.isOn (s : State) (b : Blk) (i : Nat) : Bool := decide (s.blkState (pageOf b i) = 2)

/-- Is the unit present and not FENCED? -/
def State.live (s : State) (b : Blk) (i : Nat) : Bool :=
  present s.part b i && !decide (s.blkState (pageOf b i) = 5)

/-! ## Bandwidth regulators (R411 to R413) -/

/-- Capacity of a resource in MB/s, which regulates a hoop without a bucket while the cap scales (R411, R412); that of a DRAM
stack follows the memory level in force (R550). -/
def State.resCapacity (s : State) (r : Nat) : Nat :=
  if r = 0 then (if s.pm.memForce = 0 then 1000000 else if s.pm.memForce = 1 then 800000 else 400000) * ((List.range 6).filter fun i => s.live .dramStack i).length
  else if r = 1 then 80000 * ((List.range 2).filter fun i => s.live .skein i).length
  else if r = 2 then 128000
  else 100000 * ((List.range 8).filter fun i => s.live .link i).length

/-- Rate in force, before CAP_SCALE, of hoop `h` on resource `r` in MB/s (R412). -/
def State.rateOf (s : State) (h r : Nat) : Nat :=
  let v := (s.reg (R.REG_RATE r h)).toNat
  if v = 2 ^ 32 - 1 then s.resCapacity r else v

/-- Has the hoop no bucket on the resource (R412)? [DEDUCED, log entry 100] -/
def State.noBucket (s : State) (h r : Nat) : Bool :=
  decide ((s.reg (R.REG_RATE r h)).toNat = 2 ^ 32 - 1 ∧ 256 ≤ (s.reg R.SCH_CAP_SCALE).toNat)

/-- A bucket with its tokens risen up to now, at most to BURST, at which they stand where the hoop has no bucket (R412). [DEDUCED, log entry 100] -/
def State.bucket (s : State) (h r : Nat) : Bucket :=
  let b := mget Bucket.dflt s.buckets (h * 4 + r)
  let num := b.frac + s.rateOf h r * (s.reg R.SCH_CAP_SCALE).toNat * (s.now - b.at_)
  let burst : Int := (s.reg (R.REG_BURST r h)).toNat * 1024
  let t : Int := b.tokens + (num / 256000 : Nat)
  if s.noBucket h r = true ∨ burst ≤ t then { b with tokens := burst, frac := 0, at_ := s.now } else { b with tokens := t, frac := num % 256000, at_ := s.now }

/-- Store a bucket. -/
def State.setBucket (s : State) (h r : Nat) (b : Bucket) : State := { s with buckets := mset Bucket.dflt s.buckets (h * 4 + r) b }

/-- Every bucket is brought up to now, before what it rises by changes (R412). [DEDUCED, log entry 100] -/
def State.accrue (s : State) : State := (List.range 64).foldl (fun (s : State) k => s.setBucket (k / 4) (k % 4) (s.bucket (k / 4) (k % 4))) s

/-- The memory level that is to be in force (R550, R552); while another one is, the level changes and DRAM requests wait. -/
def State.memDue (s : State) : Nat := min 2 (fld (s.reg R.PM_MEM_LEVEL) 0 2 + s.pm.memDown)
def State.portHeld (s : State) (r : Nat) : Bool := decide (r = 0 ∧ s.pm.memForce ≠ s.memDue)

/-- Weight of a hoop at a resource (R413). -/
def State.weight (s : State) (r h : Nat) : Nat := (s.reg (R.REG_WEIGHT r h)).toNat

/-- Has the hoop tokens at resource `r`, a RATE other than 0, and does the port take requests (R412, R550)? -/
def State.mayIssue (s : State) (r h : Nat) : Bool :=
  (s.noBucket h r || (decide (0 ≤ (s.bucket h r).tokens) && decide (s.rateOf h r ≠ 0))) && !s.portHeld r

/-- Has the hoop a request waiting at the port of resource `r`, with tokens (R413)? -/
def State.portAsks (s : State) (r h : Nat) : Bool := !(s.bucket h r).waiting.isEmpty && s.mayIssue r h

/-- A transfer of `n` bytes for hoop `h` crosses resource `r` in requests of at most 4,096 bytes (R411, R412). Those that have tokens while nothing
else asks at the port are issued and the tokens fall; the rest are held, and issued one by one by TOKEN_ISSUE; `f` is what waits for them. Every
transfer counts in the period's telemetry (R596). [DEDUCED, log entry 46] -/
def State.draw (s : State) (h r n : Nat) (f : DrawFor) : State :=
  let s : State := { s with svc := { s.svc with drawn := mset 0 s.svc.drawn (h * 4 + r) (mget 0 s.svc.drawn (h * 4 + r) + n) } }
  let b := s.bucket h r
  let now_ : Nat :=
    if !s.mayIssue r h || !b.waiting.isEmpty || (List.range 16).any fun g => s.portAsks r g then 0
    else if s.noBucket h r then n else min n (4096 * (b.tokens.toNat / 4096 + 1))
  if n = 0 ∨ (s.noBucket h r = true ∧ now_ = n) then s
  else s.setBucket h r { b with tokens := if s.noBucket h r then b.tokens else b.tokens - now_,
                                waiting := b.waiting ++ (if now_ < n then [(n - now_, s.now, f)] else []) }

/-- Is a request held that `f` waits for (R412)? -/
def State.drawHeld (s : State) (f : DrawFor) : Bool := s.buckets.any fun e => e.2.waiting.any fun x => decide (x.2.2 = f)

/-- What waited for requests is over: they are asked for no longer. -/
def State.cancelDraws (s : State) (p : DrawFor → Bool) : State :=
  { s with buckets := s.buckets.foldl (fun m e => mset Bucket.dflt m e.1 { e.2 with waiting := e.2.waiting.filter fun x => !p x.2.2 }) [] }

/-! ## Messages to peers (R435, R444) -/

/-- The one link that carries traffic to a peer: the UP one (R428). -/
def State.upLink (s : State) (p : Nat) : Option Nat :=
  (List.range 8).find? fun n => let l := mget Link.dflt s.links n; decide (l.mode = .up) && l.peerValid && decide (l.peer = p)

/-- Credit class of a message type: 0 REQ, 1 RSP, 2 NOTICE (R438). -/
def msgClass (ty : Nat) : Nat := if ty ≤ 2 then 0 else if ty ≤ 5 then 1 else 2

/-- Flits a message of `bytes` bytes takes, at 240 bytes of payload each (R429). -/
def flitsOf (bytes : Nat) : Nat := ceilDiv bytes 240

/-- What a pass over the unacknowledged messages has done: the link, the messages, bytes sent, bytes stored, blocked classes. -/
structure TxPass where
  link : Link
  msgs : List LinkMsg
  sent : Nat
  stored : Nat
  blocked : List Nat
  /-- CTR at which a new key has to be taken, and the keys taken (R433). -/
  limit : Nat
  rekeys : Nat
  deriving DecidableEq, Repr

/-- A rekey (R433): the next epoch, and CTR 0 for the next message; the peer's new key applies from its first message whose CTR is 0. [DEDUCED, log entry 56] -/
def Link.rekey (l : Link) : Link := { l with epoch := (l.epoch + 1) % 2 ^ 31, txCtr := 0, rxNew := true }

/-- One message of the pass: it goes out when no earlier one of its class waits, its class has the credits (R431), the replay
buffer of 1,024 flits has room (R430) and the store of 16 MiB holds it (R435), under a new key where CTR has come to its limit (R433). -/
def TxPass.next (x : TxPass) (m : LinkMsg) : TxPass :=
  let c := msgClass m.ty
  let n := flitsOf m.bytes
  let have_ := (x.link.credits[c]?).getD 0
  if m.sent then { x with msgs := x.msgs ++ [m], stored := x.stored + m.bytes }
  else if x.blocked.contains c = false ∧ n ≤ have_ ∧ (x.link.txSeq + 4096 - x.link.ackSeq) % 4096 + n ≤ 1024 ∧ x.stored + m.bytes ≤ 2 ^ 24 then
    let l := if x.limit ≤ x.link.txCtr then x.link.rekey else x.link
    { x with
      link := { l with credits := l.credits.set c (have_ - n), txSeq := (l.txSeq + n) % 4096, txCtr := l.txCtr + 1 },
      rekeys := x.rekeys + (if x.limit ≤ x.link.txCtr then 1 else 0),
      msgs := x.msgs ++ [{ m with sent := true }], sent := x.sent + m.bytes, stored := x.stored + m.bytes }
  else { x with msgs := x.msgs ++ [m], blocked := x.blocked ++ [c], stored := x.stored + m.bytes }

/-- Send what can be sent to a peer on its UP link: nothing until both sides know what the other has delivered (R435). [DEDUCED, log entries 57, 101] -/
def State.transmit (s : State) (p : Nat) : State :=
  match s.upLink p with
  | none => s
  | some n =>
    let x := mget Session.dflt s.sessions p
    if x.resync then s
    else
      let r := x.unacked.foldl TxPass.next ⟨mget Link.dflt s.links n, [], 0, 0, [], 2 ^ (s.force (R.LK_REKEY_LOG2 n)).toNat, 0⟩
      let s := ({ s with links := mset Link.dflt s.links n r.link, sessions := mset Session.dflt s.sessions p { x with unacked := r.msgs } }).addPieces (R.LK_TX_MB n) 1000000 r.sent
      if r.rekeys = 0 then s else (s.addReg (R.LK_REKEY_COUNT n) r.rekeys).setReg (R.LK_KEY_EPOCH n) (w32 r.link.epoch)

/-- A message goes out to a peer: it takes the session's next DSEQ and is kept until acknowledged (R435). -/
def State.launch (s : State) (p : Nat) (m : LinkMsg) : State :=
  let x := mget Session.dflt s.sessions p
  ({ s with sessions := mset Session.dflt s.sessions p { x with txDseq := x.txDseq + 1, unacked := x.unacked ++ [{ m with dseq := x.txDseq }] } }).transmit p

/-- Send a message to a peer, once the LINK regulator of its hoop has issued its bytes (R411, R412); a forwarded record draws none (R414). -/
def State.sendMsg (s : State) (p : Nat) (m : LinkMsg) : State :=
  let x := mget Session.dflt s.sessions p
  let f := DrawFor.msg p x.tickets
  let m := { m with sentAt := s.now }
  let s := if m.ty = 9 then s else s.draw m.hoop 3 m.bytes f
  if s.drawHeld f then { s with sessions := mset Session.dflt s.sessions p { x with queued := x.queued ++ [(x.tickets, m)], tickets := x.tickets + 1 } }
  else s.launch p m

/-- The tokens of a held message have been issued. -/
def State.launchHeld (s : State) (p ticket : Nat) : State :=
  let x := mget Session.dflt s.sessions p
  match x.queued.find? fun e => decide (e.1 = ticket) with
  | some e => ({ s with sessions := mset Session.dflt s.sessions p { x with queued := x.queued.erase e } }).launch p e.2
  | none => s

/-! ## Records (R144 to R149) -/

/-- Is this a command record, which STALL holds (R143)? -/
def cmdRecType (ty : Nat) : Bool := decide (ty = 1 ∨ ty = 2 ∨ ty = 3 ∨ ty = 4 ∨ ty = 5)

/-- Commit-table entries of a unit's partition that records of commits and of ended commands keep (R20). -/
def State.entriesKept (s : State) (p : Nat) (only : Option Nat) : Nat :=
  let is := fun (e : Option (Nat × Nat)) => match e with | some x => decide (x.1 = p ∧ (only = none ∨ only = some x.2)) | none => false
  s.hoops.foldl (fun a h => a + (h.2.held.filter fun r => is r.entry).length) 0 + s.eqs.foldl (fun a q => a + (q.2.held.filter fun l => is l.2).length) 0

/-- Entries held in partition `p` of the commit table (R20, R201): begun commands by core, ranges on shuttles and codecs, camera frames
and jobs, remote moves, waiting fires, and the entries that records keep. -/
def State.ctOcc (s : State) (p : Nat) : Nat :=
  let ranges := s.moves.flatMap fun m => m.ranges
  s.entriesKept p none +
  if p = 0 then s.flights.foldl (fun a f => a + f.cores.length) 0
  else if p = 1 then (ranges.filter fun r => r.shuttle.isSome).length
  else if p = 2 then (ranges.filter fun r => r.codec.isSome).length
  else if p = 3 then s.pipes.foldl (fun a e => a + min 64 (e.2.ended.length + b2n e.2.frame.isSome + b2n e.2.mem.isSome)) 0
  else if p = 4 then (s.remotes.filter fun r => r.asked || decide (r.alloc ≠ 0)).length
  else (s.pendFires.filter fun x => x.unit.isSome).length

/-- An entry of partition `p` has been taken: HWM of CT_OCC keeps the largest count (R201). [DEDUCED, log entry 89] -/
def State.noteOcc (s : State) (p : Nat) : State :=
  let o := min 65535 (s.ctOcc p)
  if fld (s.reg (R.CT_OCC p)) 16 16 < o then s.setRegFld (R.CT_OCC p) 16 16 o else s

/-- The hoop's state. -/
def State.hoop (s : State) (h : Nat) : Hoop := mget Hoop.dflt s.hoops h

/-- Change a hoop's state. -/
def State.setHoop (s : State) (h : Nat) (x : Hoop) : State := { s with hoops := mset Hoop.dflt s.hoops h x }

/-- Send a record to its hoop's sequencer, which holds it for 256 cycles (R45). A hoop that is being reset takes no
more records (R151). [DEDUCED, log entry 49] -/
def State.post (s : State) (r : Rec) : State :=
  if (s.hoop r.hoop).phase = .resetting then s
  else s.setHoop r.hoop { s.hoop r.hoop with held := (s.hoop r.hoop).held ++ [{ r with arrived := s.now }] }

/-- The next record of a hold list: the first in arrival order whose stamp exceeds no other's by more than 4 phase
units (R45, R57). [DEDUCED, log entry 88] -/
def nextHeld (l : List Rec) : Option Rec := l.find? fun r => l.all fun r' => decide (r.stamp ≤ r'.stamp + 4)

/-- The 64 bytes of a record (R144). -/
def packRec (r : Rec) (seq : Nat) (loss phase : Bool) : Line :=
  let w0 := r.ty + r.hoop * 2 ^ 16 + r.eq * 2 ^ 20 + b2n r.fault * 2 ^ 24 + b2n loss * 2 ^ 25 + b2n r.forwarded * 2 ^ 26 + b2n phase * 2 ^ 31
  BitVec.ofNat 512 (w0 + seq % 2 ^ 32 * 2 ^ 32 + r.stamp / 65536 % 2 ^ 64 * 2 ^ 64 + r.stamp % 65536 * 2 ^ 128 +
    r.source * 2 ^ 144 + r.context * 2 ^ 160 + r.payload.toNat * 2 ^ 192)

/-- The event queue `e` of hoop `h`. -/
def State.eq (s : State) (h e : Nat) : Eq := mget Eq.dflt s.eqs (h * 16 + e)

/-- Change an event queue. -/
def State.setEq (s : State) (h e : Nat) (x : Eq) : State := { s with eqs := mset Eq.dflt s.eqs (h * 16 + e) x }

/-- Entries of an event queue (R141). -/
def State.eqSize (s : State) (h e : Nat) : Nat := 2 ^ fld (s.reg (R.EQ_CTRL h e)) 4 5

/-- Records written and not yet freed: PENDING (R148). -/
def Eq.pendingCount (q : Eq) : Nat := (q.tail + 2 ^ 32 - q.head) % 2 ^ 32

/-- Send the MSI-X message of vector `e`, or set its pending bit while the vector is masked (R148). [PRESUMED, log entry 51] -/
def State.sendMsi (s : State) (h e : Nat) : State :=
  if bit (s.reg (R.MSIX_TABLE h (4 * e + 3))) 0 then s.orReg (R.MSIX_PBA h 0) (w32 (2 ^ e))
  else { s with msiSent := mset 0 s.msiSent (h * 16 + e) (mget 0 s.msiSent (h * 16 + e) + 1) }

/-- Send the queue's message when it is ARMED and a condition of R148 holds; sending clears ARMED. -/
def State.coalesce (s : State) (h e : Nat) : State :=
  let q := s.eq h e
  let n := max 1 (fld (s.reg (R.EQ_CTRL h e)) 16 16)
  let c := (s.reg (R.EQ_COAL_STITCHES h e)).toNat
  let old := match q.pendStamps with | [] => none | x :: _ => some x
  let timed := match old with | some x => decide (c ≠ 0 ∧ x / 65536 + c ≤ s.count) | none => false
  if q.armed ∧ (n ≤ q.pendingCount ∨ (0 < q.pendingCount ∧ timed = true)) then
    (s.setEq h e { q with armed := false }).sendMsi h e
  else s

/-- A record written to a local event queue goes to the peer of every link whose mask of the hoop names the queue (R443): once
per peer, by the mapping of its lowest such link; a forwarded record is never forwarded again. [DEDUCED, log entry 61] -/
def State.forwardLine (s : State) (h e : Nat) (line : Line) : State :=
  if bit line 26 then s
  else (List.range 8).foldl (fun s n =>
    let l := mget Link.dflt s.links n
    let named := fun (k : Nat) => bit (s.reg (R.LK_FWD_MASK k h)) e && (mget Link.dflt s.links k).peerValid && decide ((mget Link.dflt s.links k).peer = l.peer)
    if named n ∧ (List.range n).all (fun k => !named k) then
      let m := s.reg (R.LK_HOOP_MAP n h)
      s.sendMsg l.peer { LinkMsg.dflt with ty := 9, hoop := h, peerHoop := fld m 0 4, aux := fld m 8 4, body := [line.toNat], bytes := 112 }
    else s) s

/-- The requests of a transfer on the host link, in the order in which they are issued (R116, R117). [DESIGN CHOICE, log entry 128] -/
def State.issueTlps (s : State) (l : List Tlp) : State := { s with pcie := { s.pcie with tlps := l } }

/-- The writes that put a record at bus address `a`: one of 64 bytes, or with SPLIT bytes 4 to 63 and bytes 0 to 3 after them (R142), never
with Relaxed Ordering (R117). [DESIGN CHOICE, log entry 128] -/
def recordTlps (h a : Nat) (split : Bool) : List Tlp :=
  if split then [⟨.recordWrite, h, a + 4, 60, false⟩, ⟨.recordWrite, h, a, 4, false⟩] else [⟨.recordWrite, h, a, 64, false⟩]

/-- Write one record into the ring entry at TAIL (R141). -/
def State.writeEntry (s : State) (h e : Nat) (line : Line) : State :=
  let q := s.eq h e
  let base := (s.reg (R.EQ_BASE_LO h e)).toNat + 2 ^ 32 * (s.reg (R.EQ_BASE_HI h e)).toNat
  let s := s.issueTlps (recordTlps h (base + 64 * (q.tail % s.eqSize h e)) (bit (s.reg (R.EQ_CTRL h e)) 1))
  let size := s.eqSize h e
  let ph := decide (q.tail / size % 2 = 0)
  let l := setBit (setBit line 31 ph) 25 q.loss
  let s := { s with eqRings := mset 0 s.eqRings ((h * 16 + e) * 65536 + q.tail % size) l }
  ((s.setEq h e { q with tail := (q.tail + 1) % 2 ^ 32, loss := false, pendStamps := q.pendStamps ++ [fld line 64 64 * 65536 + fld line 128 16] }).forwardLine h e l).coalesce h e

/-- Is the queue full (R143)? -/
def State.eqFull (s : State) (h e : Nat) : Bool := decide (s.eqSize h e ≤ (s.eq h e).pendingCount)

/-- A record with its sequence number meets its event queue: written, held under STALL, or dropped (R143). [DEDUCED, log entry 105] -/
def State.deliver (s : State) (r : Rec) (seq : Nat) : State :=
  let q := s.eq r.hoop r.eq
  let line := packRec r seq false false
  if !q.en then s.addReg (R.HOOP_DROP_COUNT r.hoop) 1
  else if !q.held.isEmpty ∨ s.eqFull r.hoop r.eq then
    if cmdRecType r.ty ∧ ¬ bit (s.reg (R.EQ_CTRL r.hoop r.eq)) 2 then
      s.setEq r.hoop r.eq { q with held := q.held ++ [(line, r.entry)] }
    else (s.setEq r.hoop r.eq { q with loss := true }).addReg (R.EQ_DROP_COUNT r.hoop r.eq) 1
  else s.writeEntry r.hoop r.eq line

/-- Held records enter the ring while there is room (R143). -/
def State.releaseHeld (s : State) (h e : Nat) : Nat → State
  | 0 => s
  | n + 1 =>
    match (s.eq h e).held with
    | [] => s
    | (l, _) :: r =>
      if s.eqFull h e then s
      else ((s.setEq h e { s.eq h e with held := r }).writeEntry h e l).releaseHeld h e n

/-! ## Faults (R110 to R114) -/

/-- Bytes of a record payload: the field of `n` bytes at record byte `i` (24 to 63) holds `x`. -/
def payAt (i n x : Nat) (p : Payload) : Payload := setBytes p (i - 24) n x

/-- A BLOCK_FAULT record of a page (R114): the fault's code, the BLOCK_STATE at which the bit was set, and its detail; an injected
fault's record carries INJECTED whenever it is posted (R113). -/
def State.faultRec (s : State) (b : Blk) (i bitNo deferred : Nat) (info : Nat × Nat × Nat × Nat) : Rec :=
  let page := pageOf b i
  let route := s.reg (R.FAULT_ROUTE page)
  { hoop := fld route 0 4, eq := fld route 8 4, ty := 0x20, fault := true, forwarded := false, stamp := s.pos,
    source := sourceId b i, context := 0, arrived := s.now, toHost := true,
    payload := payAt 24 2 info.1 (payAt 26 1 bitNo (payAt 27 1 (info.2.2.2 + deferred) (payAt 28 4 info.2.1 (payAt 32 32 info.2.2.1 0)))) }

/-- Key of a fault bit. -/
def faultKey (b : Blk) (i bitNo : Nat) : Nat := sourceId b i * 32 + bitNo

/-- An occurrence of a fault bit (R110): a change from 0 to 1 posts one BLOCK_FAULT unless masked; while the bit is
set, further occurrences post nothing. [DEDUCED, log entry 18] -/
def State.raiseWith (s : State) (b : Blk) (i bitNo code injected detail : Nat) : State :=
  let page := pageOf b i
  if bit (s.reg (R.FAULT_STATUS page)) bitNo then s
  else
    let info := (code, (s.reg (R.BLOCK_STATE page)).toNat, detail, injected)
    let s := { s with faults := mset (0, 0, 0, 0) s.faults (faultKey b i bitNo) info }
    let s := s.setReg (R.FAULT_STATUS page) (setBit (s.reg (R.FAULT_STATUS page)) bitNo true)
    if bit (s.reg (R.FAULT_MASK page)) bitNo then s else s.post (s.faultRec b i bitNo 0 info)

/-- An occurrence of a fault bit. [DEDUCED, log entry 18] -/
def State.raise (s : State) (b : Blk) (i bitNo code : Nat) : State := s.raiseWith b i bitNo code 0 0

/-- ACCESS_REFUSED of a page (R110, bit 28). -/
def State.accessRefused (s : State) (b : Blk) (i : Nat) : State := s.raise b i 28 0x2

/-- An access outside a hoop's view: count and device-global fault bit 0 (R84). -/
def State.viewViolation (s : State) : State := (s.addReg R.VIEW_VIOLATION_COUNT 1).raise .devGlobal 0 0 0x6

/-- A write of wrong size or alignment, or to a locked RWL register: count and fault bit 1 (R85). [DEDUCED, log entry 21] -/
def State.badAccess (s : State) : State := (s.addReg R.BAD_ACCESS_COUNT 1).raise .devGlobal 0 1 0x7

/-- Enter a state of the enable state machine: STATE and the stamp change together (R104). A start, and a stop that does not go on from
PENDING_ENABLE, takes at least a cycle from here (R621). -/
def State.enterState (s : State) (b : Blk) (i st : Nat) : State :=
  let p := pageOf b i
  let due := if st = 1 ∨ (st = 3 ∧ s.blkState p ≠ 4) then s.now + 1 else if st = 3 ∨ st = 4 then mget 0 s.entered p else 0
  (({ s with entered := mset 0 s.entered p due }.setRegFld (R.BLOCK_STATE p) 0 3 st).setReg (R.STAMP_LO p) (w32 (s.count % 2 ^ 32))).setReg
    (R.STAMP_HI p) (w32 (s.count / 2 ^ 32))

/-- Has the start or stop in progress taken time (R621)? -/
def State.timePassed (s : State) (b : Blk) (i : Nat) : Bool := decide (mget 0 s.entered (pageOf b i) ≤ s.now)

/-! ## Reaching a register (R84, R85, R99, R101, R109) -/

/-- The page of an address is in the view of hoop `f` (R84). [DEDUCED, log entry 25] -/
def State.inView (s : State) (f a : Nat) : Bool :=
  if f = 0 then true
  else if doorbellBase ≤ a then decide (a < doorbellBase + 0x1000000 ∧ (a - doorbellBase) / 0x100000 = f)
  else match blkAt a with
    | none => false
    | some (b, i, _) => decide (fld (s.reg (R.HOOP_OWNER (pageOf b i))) 0 4 = f) && !bit (s.reg (R.HOOP_OWNER (pageOf b i))) 9

/-- HOOP_TABLE SEALED (R531): the hoop holds a SEALED object, or zeroing of its sealed data is owed. -/
def State.hoopSealed (s : State) (h : Nat) : Bool :=
  (s.objs.any fun e => decide (e.1 / 2 ^ 20 = h) && e.2.used && e.2.homed && e.2.sealed) || s.retiring.any fun r => decide (r.hoop = h) && r.zeroing

/-- DEV_STATUS.DEBUG_LOCK (R532). -/
def State.debugLock (s : State) : Bool := bit s.rot.fuse 4 || (List.range 16).any fun h => s.hoopSealed h

/-- A write by hoop `f` to the register at `a` that reaches its block acts by `act`; a write that does not reach it has
the effect the manual gives instead: outside the view (R84), an absent unit (R9), a domain that is off (R109), a locked
expert register (R99), a debug register under the debug lock (R101). [DEDUCED, log entries 22, 93] -/
def State.reach (s : State) (f a : Nat) (act : State → State) : State :=
  if !s.inView f a then s.viewViolation
  else match blkAt a with
    | none => s
    | some (b, i, off) =>
      if !present s.part b i then s
      else if !s.domainOn (blkRow b).domain then s.addReg R.BAD_ACCESS_COUNT 1
      else if a < doorbellBase ∧ 0xF00 ≤ off % 0x1000 ∧ ¬ (b = .knot ∧ i = 0) then
        -- the first debug write after a cold reset sets DEBUG_USED (R535)
        if s.debugLock then s.raise b i 29 0x3 else act { s with rot := { s.rot with debugUsed := true } }
      else if a < doorbellBase ∧ 0x800 ≤ off % 0x1000 ∧ off % 0x1000 < 0xF00 ∧ (rowAt b i off).isSome ∧
          ¬ bit (s.reg (R.EXPERT_KEY (pageOf b i))) 16 then s.accessRefused b i
      else act s

/-- Is the block at an offset ON (R103)? -/
def State.onAt (s : State) (a : Nat) : Bool := match blkAt a with | some (b, i, _) => s.isOn b i | none => false

/-- A write by hoop `f` of a register that gives its block work: a block that is not ON accepts none (R103). -/
def State.command (s : State) (f a : Nat) (act : State → State) : State := s.reach f a fun s => if s.onAt a then act s else s

/-- Bring a written value into the range the register keeps (R49, R98). [DEDUCED, log entry 12] -/
def applyLimit : Limit → W32 → W32
  | .any, v => v
  | .whole lo hi, v => w32 (clamp lo hi v.toNat)
  | .signed m, v =>
    let x := signedOf 32 v.toNat
    w32 (signedSat 32 (if x > m then m else if x < -(m : Int) then -(m : Int) else x))
  | .fields fs, v => w32 (fs.foldl (fun acc (x : Nat × Nat × Nat × Nat) => acc + clamp x.2.2.1 x.2.2.2 (fld v x.1 x.2.1) * 2 ^ x.1) 0)

end Sys2Proof.Machine
end

