-- ==== Sys2Proof/Machine/Operands.lean ====
section
/-! DEFINITION. The operand fields of commands (R126, R130 to R135, R178, R236, R240, R398, R399), of trigger rules
(R54), fire templates (R62) and pricking entries (R74), and the checks of R128 that need no state. -/

namespace Sys2Proof.Machine

/-! ## The command header (R126) -/

def Cmd.b (c : Cmd) (i n : Nat) : Nat := bytesAt c.bits i n
def Cmd.opcode (c : Cmd) : Nat := c.b 0 1
def Cmd.ordered (c : Cmd) : Bool := bit c.bits 8
def Cmd.eventOnCommit (c : Cmd) : Bool := bit c.bits 9
def Cmd.armOnly (c : Cmd) : Bool := bit c.bits 10
def Cmd.hasContext (c : Cmd) : Bool := bit c.bits 11
def Cmd.context (c : Cmd) : Nat := fld c.bits 32 18
def Cmd.tag (c : Cmd) : Nat := c.b 8 4

/-! ## RUN_PATTERN (R130) and its ARM_ONLY form (R132) -/

def Cmd.pattern (c : Cmd) : Nat := c.b 16 4
def Cmd.stage (c : Cmd) : Nat := if c.opcode = 1 then fld c.bits 160 12 else 0
def Cmd.nslot (c : Cmd) : Nat := c.b 22 1
def Cmd.coreMask (c : Cmd) : Nat := c.b 24 8
def Cmd.slot (c : Cmd) (i : Nat) : Nat := c.b (32 + 4 * i) 4
def Cmd.armTier (c : Cmd) : Nat := fld c.bits 256 3
def Cmd.armTarget (c : Cmd) : Nat := fld c.bits 264 6
def Cmd.armDepth (c : Cmd) : Nat := c.b 36 2

/-- The cores a command selects, ascending. -/
def Cmd.cores (c : Cmd) : List Nat := (List.range 64).filter fun i => bit c.bits (192 + i)

/-! ## MOVE (R178) -/

def Cmd.mvObject (c : Cmd) : Nat := c.b 16 4
def Cmd.mvTier (c : Cmd) : Nat := fld c.bits 160 3
def Cmd.mvCodec (c : Cmd) : Nat := fld c.bits 164 2
def Cmd.mvShuttles (c : Cmd) : Nat := if c.b 21 1 = 0 then 4 else c.b 21 1
def Cmd.mvLocation (c : Cmd) : Nat := c.b 22 2
def Cmd.mvParam (c : Cmd) : Nat := c.b 24 4

/-! ## KNOT_WAIT (R398), KNOT_SIGNAL (R399) -/

def Cmd.knot (c : Cmd) : Nat := fld c.bits 128 14
def Cmd.knotOp (c : Cmd) : Nat := c.b 18 1
def Cmd.knotRemote (c : Cmd) : Bool := bit c.bits 152
def Cmd.knotValue (c : Cmd) : W32 := w32 (c.b 20 4)
def Cmd.knotTimeout (c : Cmd) : Nat := c.b 24 4
def Cmd.knotPeer (c : Cmd) : Nat := fld c.bits 192 2
def Cmd.knotPeerHoop (c : Cmd) : Nat := fld c.bits 200 4

/-! ## AT_STITCH (R133), POST_EVENT (R135), CONTEXT_OPEN (R236), CONTEXT_CLOSE (R240) -/

def Cmd.atPos (c : Cmd) : Nat := c.b 16 8 * 65536 + c.b 24 2
def Cmd.postEq (c : Cmd) : Nat := fld c.bits 128 4
def Cmd.postPayload (c : Cmd) : Payload := BitVec.ofNat 320 (c.b 24 40)
def Cmd.openIndex (c : Cmd) : Nat := fld c.bits 128 18
def Cmd.openShape (c : Cmd) : Nat := c.b 20 4
def Cmd.openPin (c : Cmd) : Bool := bit c.bits 192
def Cmd.openCold (c : Cmd) : Bool := bit c.bits 193
def Cmd.openNknot (c : Cmd) : Nat := c.b 25 1
def Cmd.openKnot (c : Cmd) (i : Nat) : Nat := c.b (32 + 4 * i) 4
def Cmd.closeDetach (c : Cmd) : Bool := bit c.bits 128

/-- Bits that must be 0 in a command of each opcode (R126, R130 to R135, R178, R236, R240, R398, R399): pairs of lowest
bit and width. -/
def reservedBits (op : Nat) (armOnly : Bool) : List (Nat × Nat) :=
  [(12, 4), (16, 16), (50, 14)] ++
  (if op = 0 then [(128, 384)]
   else if op = 1 then
     (if armOnly then [(160, 16), (184, 8), (192, 64), (259, 5), (270, 18), (304, 208)] else [(172, 4), (184, 8)])
   else if op = 2 then [(163, 1), (166, 2), (224, 288)]
   else if op = 3 then [(142, 2), (152, 8), (224, 288)]
   else if op = 4 then [(142, 2), (153, 7), (194, 6), (204, 308)]
   else if op = 5 then [(208, 304)]
   else if op = 6 then [(128, 384)]
   else if op = 7 then [(132, 60)]
   else if op = 8 then [(146, 14), (194, 6), (208, 48)]
   else if op = 9 then [(129, 383)]
   else if op = 10 then [(195, 5), (200, 8), (224, 288)]
   else [])

/-- Are all reserved fields of a command 0 (R128 step 3)? -/
def reservedZero (c : Line) (op : Nat) (armOnly : Bool) : Bool :=
  (reservedBits op armOnly).all fun (r : Nat × Nat) => decide (fld c r.1 r.2 = 0)

/-! ## Trigger rules (R54) -/

def Rule.b (r : Rule) (i n : Nat) : Nat := bytesAt r.bits i n
def Rule.actPrefetch (r : Rule) : Bool := bit r.bits 0
def Rule.actFire (r : Rule) : Bool := bit r.bits 1
def Rule.postArm (r : Rule) : Bool := bit r.bits 2
def Rule.postFire (r : Rule) : Bool := bit r.bits 3
def Rule.postDisarm (r : Rule) : Bool := bit r.bits 4
def Rule.twoSource (r : Rule) : Bool := bit r.bits 5
def Rule.below (r : Rule) : Bool := bit r.bits 6
def Rule.atEnable (r : Rule) : Bool := bit r.bits 7
def Rule.fireBase (r : Rule) : Nat := fld r.bits 8 2
def Rule.armTier (r : Rule) : Nat := fld r.bits 10 3
def Rule.armSrc (r : Rule) : Nat := r.b 4 4
def Rule.fireSrc (r : Rule) : Nat := if r.twoSource then r.b 8 4 else r.b 4 4
def Rule.armLevel (r : Rule) : W32 := w32 (r.b 12 4)
def Rule.fireLevel (r : Rule) : W32 := w32 (r.b 16 4)
def Rule.hyst (r : Rule) : W32 := w32 (r.b 20 4)
def Rule.refractory (r : Rule) : Nat := r.b 24 4
def Rule.armTimeout (r : Rule) : Nat := r.b 28 4
def Rule.fireOffset (r : Rule) : Int := signedOf 32 (r.b 32 4)
def Rule.fireQueue (r : Rule) : Nat := fld r.bits 288 6
def Rule.eventQueue (r : Rule) : Nat := fld r.bits 296 4
def Rule.prefetchDepth (r : Rule) : Nat := r.b 38 2
def Rule.pattern (r : Rule) : Nat := r.b 40 4
def Rule.template (r : Rule) : Nat := r.b 44 4
def Rule.context (r : Rule) : Nat := fld r.bits 384 18
def Rule.targetCore (r : Rule) : Nat := fld r.bits 416 6
def Rule.targetCluster (r : Rule) : Nat := fld r.bits 424 3
def Rule.indexSet (r : Rule) : Nat := r.b 56 32

/-- KIND, ID and FIELD of a source word (R54). -/
def srcKind (w : Nat) : Nat := w % 2
def srcId (w : Nat) : Nat := w / 16 % 4096
def srcField (w : Nat) : Nat := w / 65536 % 256

/-! ## Handles (R159) -/

/-- INDEX and GEN of a handle. -/
def hIndex (h : Nat) : Nat := h % 2 ^ 20
def hGen (h : Nat) : Nat := h / 2 ^ 20 % 2 ^ 12

/-- The handle of an index and generation. -/
def mkHandle (idx gen : Nat) : Nat := idx + gen * 2 ^ 20

/-! ## Prefetch list entries (R192) -/

def pfObject (e : BitVec 128) : Nat := bytesAt e 0 4
def pfLayer (e : BitVec 128) : Nat := bytesAt e 4 2
def pfTier (e : BitVec 128) : Nat := fld e 48 3
def pfCodec (e : BitVec 128) : Nat := fld e 52 2
def pfSlot (e : BitVec 128) : Nat := bytesAt e 7 1
def pfDemoteTier (e : BitVec 128) : Nat := fld e 64 3
def pfDemote (e : BitVec 128) : Bool := bit e 67

/-! ## Pricking entries (R74) -/

def prOffset (e : BitVec 256) : Nat := bytesAt e 0 8
def prAction (e : BitVec 256) : Nat := bytesAt e 8 1
def prWake (e : BitVec 256) : Bool := bit e 72
def prAux (e : BitVec 256) : Nat := bytesAt e 10 2
def prArg (e : BitVec 256) : Nat := bytesAt e 12 4
def prValue (e : BitVec 256) : Nat := bytesAt e 16 4

end Sys2Proof.Machine
end

