-- ==== Sys2Proof/Machine/Objects.lean ====
section
/-! DEFINITION. Objects, tiers, pools, eviction candidates and moves (R159 to R196), the skein write budget where a
move meets it (R214 to R217), and the release of what a command held. -/

namespace Sys2Proof.Machine

/-! ## The object table (R159, R160) -/

/-- Key of entry `idx` of hoop `h`'s table. -/
def oKey (h idx : Nat) : Nat := h * 2 ^ 20 + idx

/-- The hoop of an object key. -/
def oHoop (k : Nat) : Nat := k / 2 ^ 20

/-- The object at a key. -/
def State.obj (s : State) (k : Nat) : Obj := mget Obj.dflt s.objs k

/-- Change the object at a key. -/
def State.setObj (s : State) (k : Nat) (o : Obj) : State := { s with objs := mset Obj.dflt s.objs k o }

/-- Change the object at a key by a function. -/
def State.modObj (s : State) (k : Nat) (f : Obj → Obj) : State := s.setObj k (f (s.obj k))

/-- Entries of hoop `h`'s table. -/
def State.otEntries (s : State) (h : Nat) : Nat := (s.reg (R.OT_ENTRIES h)).toNat

/-- The key a handle names in hoop `h`, or none where it is 0, free or stale (R159). -/
def State.resolve (s : State) (h handle : Nat) : Option Nat :=
  let k := oKey h (hIndex handle)
  if hIndex handle ≠ 0 ∧ hIndex handle < s.otEntries h ∧ (s.obj k).used = true ∧ (s.obj k).gen = hGen handle then some k else none

/-- The current handle of the object at a key. -/
def State.handleOf (s : State) (k : Nat) : Nat := mkHandle (k % 2 ^ 20) (s.obj k).gen

/-- The lowest free index from `n` on, walking the listed entries of one hoop in rising key order. -/
def firstFree (base : Nat) : Nat → SMap Obj → Nat
  | n, [] => n
  | n, (k, o) :: r =>
    if k < base + n then firstFree base n r
    else if k = base + n ∧ o.used = true then firstFree base (n + 1) r
    else n

/-- A register of a set of a pipeline (R492). -/
def State.inSet (s : State) (set : SMap W32) (a : Nat) : W32 := mget (regReset s.part a) set a

/-- Outputs and taps that a set of pipeline `n` enables: the objects of one of its frames (R487). -/
def State.setObjects (s : State) (n : Nat) (set : SMap W32) : Nat :=
  ((List.range 4).filter fun o => bit (s.inSet set (R.OUT_CTRL n o)) 0).length + ((List.range 5).filter fun t => bit (s.inSet set (R.TAP_CTRL n t)) 0).length

/-- Entries of hoop `h`'s table that frames hold from their frame start to their commit (R503). -/
def State.frameEntries (s : State) (h : Nat) : Nat :=
  s.pipes.foldl (fun a e => if fld (s.reg (R.HOOP_OWNER (pageOf .pipeline e.1))) 0 4 = h then
    (e.2.frame.toList ++ e.2.ended).foldl (fun a f => a + s.setObjects e.1 f.set) a else a) 0

/-- Free entries of a hoop's object table. -/
def State.freeEntries (s : State) (h : Nat) : Nat :=
  (s.otEntries h - 1) - (s.objs.filter fun e => decide (oHoop e.1 = h) && e.2.used).length - s.frameEntries h

/-- The lowest free index of hoop `h`'s table, where one exists (R159). -/
def State.freeIndex (s : State) (h : Nat) : Option Nat :=
  let n := firstFree (oKey h 0) 1 s.objs
  if n < s.otEntries h ∧ 0 < s.freeEntries h then some n else none

/-- The generation after `g`, skipping 0 (R159). -/
def nextGen (g : Nat) : Nat := if (g + 1) % 4096 = 0 then 1 else (g + 1) % 4096

/-- Give out a table entry: the free entry with the lowest INDEX, its GEN raised (R159). [DESIGN CHOICE, log entry 31] -/
def State.newObj (s : State) (h : Nat) (o : Obj) : Option (State × Nat) :=
  match s.freeIndex h with
  | none => none
  | some i => some (s.setObj (oKey h i) { o with used := true, gen := nextGen (s.obj (oKey h i)).gen }, oKey h i)

/-- Tiles of an object (R173). -/
def Obj.ntiles (o : Obj) : Nat := ceilDiv o.size 4096

/-- Bytes an allocation of the object takes. -/
def Obj.bytes (o : Obj) : Nat := o.ntiles * 4096

/-- Bytes of its check plane (R173). -/
def Obj.planeBytes (o : Obj) : Nat := o.ntiles * 8

/-- The check entry of tile `i`. -/
def Obj.tile (o : Obj) (i : Nat) : Tile := mget o.tileDflt o.tiles i

/-- Tiles in a state: the listed ones, and the rest where the default is in that state. -/
def Obj.countTiles (o : Obj) (st : TileState) : Nat :=
  let listed := (o.tiles.filter fun e => decide (e.1 < o.ntiles ∧ e.2.st = st)).length
  let others := o.ntiles - (o.tiles.filter fun e => decide (e.1 < o.ntiles)).length
  listed + (if o.tileDflt.st = st then others else 0)

/-- Byte `i` of the object's content. [DESIGN CHOICE, log entry 91] -/
def Obj.byte (o : Obj) (i : Nat) : Byte := mget 0 o.data i

/-- The little-endian field of `n` bytes at byte `i` of the object. [DESIGN CHOICE, log entry 91] -/
def Obj.rd (o : Obj) (i n : Nat) : Nat := ((mgetList (0 : Byte) o.data i n).foldr (fun b a => b.toNat + 256 * a) 0)

/-- A packed structure of `w` bits at byte `i`. -/
def Obj.rdBits (o : Obj) (w i : Nat) : BitVec w := BitVec.ofNat w (o.rd i (w / 8))

/-- `n` bytes from byte `i`. -/
def Obj.rdList (o : Obj) (i n : Nat) : List Byte := mgetList 0 o.data i n

/-- CRC-32C over the 4,096 bytes of a tile (R173). -/
def tileCrc (data : SMap Byte) (i : Nat) : W32 := crc32c (mgetList 0 data (4096 * i) 4096)

/-- CRC of a tile of zeros. [DESIGN CHOICE, log entry 31] -/
def zeroTile : Tile := ⟨.valid, tileCrc [] 0⟩

/-- The unit of a pool that a location means (R162, R185): the core or cluster in T0 and T1. -/
def locUnit (tier loc : Nat) : Nat := if tier ≤ 1 then loc else 0

/-- Are the unused bits of a location 0 (R162)? -/
def locOk (tier loc : Nat) : Bool :=
  decide (loc < (if tier = 0 then 64 else if tier = 1 then 8 else if tier = 2 then 64 else if tier = 3 then 4 else if tier = 4 then 1 else 4))

/-- The stacks a T2 or T3 mask names; 0 names every live stack (R162). -/
def State.maskStacks (s : State) (tier loc : Nat) : List Nat :=
  let b : Blk := if tier = 2 then .dramStack else .skein
  (List.range (if tier = 2 then 6 else 2)).filter fun i => s.live b i && (decide (loc = 0) || (BitVec.ofNat 64 loc).getLsbD i)

/-- Does a location name an absent unit, or (for CREATE) a fenced one (R9, R195)? -/
def State.locAbsent (s : State) (tier loc : Nat) (orFenced : Bool) : Bool :=
  let bad := fun (b : Blk) (i : Nat) => !present s.part b i || (orFenced && decide (s.blkState (pageOf b i) = 5))
  if tier = 0 then bad .core loc
  else if tier = 1 then bad .cluster loc
  else if tier = 2 then (List.range 6).any fun i => (BitVec.ofNat 64 loc).getLsbD i && bad .dramStack i
  else if tier = 3 then (List.range 2).any fun i => (BitVec.ofNat 64 loc).getLsbD i && bad .skein i
  else false

/-! ## Pools (R185, R186) -/

/-- GiB of a live stack and the live DRAM capacity (R91). -/
def State.dramLiveGib (s : State) : Nat := 24 * ((List.range 6).filter fun i => s.live .dramStack i).length

/-- GiB of the stacks that new tiles are placed on: a stack that stops to be fenced takes none (R587). -/
def State.dramPoolGib (s : State) : Nat := 24 * ((List.range 6).filter fun i => s.live .dramStack i && decide (s.blkState (pageOf .dramStack i) ≠ 3)).length

/-- The stacks a T3 allocation made now lies on, as a mask (R205). -/
def State.placeMask (s : State) (tier loc : Nat) : Nat :=
  if tier = 3 then ((List.range 2).filter fun i => s.live .skein i && (decide (loc = 0) || (BitVec.ofNat 64 loc).getLsbD i)).foldl (fun a i => a + 2 ^ i) 0 else 0

/-- The stack that holds tile `t` of a T3 allocation (R205). -/
def Obj.tileStack (o : Obj) (t : Nat) : Nat := if o.place = 3 then t % 2 else if o.place = 2 then 1 else 0

/-- Bytes of preserved extents on the live stacks (R222). -/
def State.preservedBytes (s : State) : Nat := s.catalogue.foldl (fun a e => a + e.obj.bytes + e.obj.planeBytes) 0

/-- Capacity of a pool, or of one unit in T0 and T1, in bytes (R185, R204); that of T2 falls when a stack is FENCED (R595), and each
fenced flash die takes 64 GiB from T3 (R589). -/
def State.poolCap (s : State) (tier h : Nat) : Nat :=
  if tier = 0 then 2 * 2 ^ 20
  else if tier = 1 then 8 * 2 ^ 20
  else if tier = 2 then s.dramLiveGib * 2 ^ 30 - 1536 * 2 ^ 20
  else if tier = 3 then 2 ^ 30 * ((List.range 2).filter fun i => s.live .skein i).foldl (fun a i => a + (1024 - 64 * (mget Skein.dflt s.skeins i).fencedDies.length)) 0 - s.preservedBytes
  else (s.reg (R.HOST_POOL_PAGES h)).toNat * 4096

/-- Capacity that new allocations may use: in T2 that of the stacks which take new tiles. -/
def State.placeCap (s : State) (tier h : Nat) : Nat := if tier = 2 then s.dramPoolGib * 2 ^ 30 - 1536 * 2 ^ 20 else s.poolCap tier h

/-- Bytes one homed object holds in a pool: its tiles where it is homed, its check plane in T2 or T3 (R174). -/
def Obj.held (o : Obj) (tier unit : Nat) : Nat :=
  if o.used ∧ o.homed then
    (if o.tier = tier ∧ locUnit tier o.loc = unit then o.bytes else 0) +
    (if (tier = 2 ∧ o.tier ≤ 2) ∨ (tier = 3 ∧ o.tier = 3) then o.planeBytes else 0)
  else 0

/-- Usage of hoop `h` in a pool or unit (R186). -/
def State.usage (s : State) (h tier unit : Nat) : Nat :=
  (s.objs.foldl (fun a e => if oHoop e.1 = h then a + e.2.held tier unit else a) 0) +
  (s.allocs.foldl (fun a x => if x.hoop = h ∧ x.tier = tier ∧ x.unit = unit then a + x.bytes else a) 0) +
  (s.retiring.foldl (fun a x => if x.hoop = h ∧ x.tier = tier ∧ x.unit = unit then a + x.bytes else a) 0) +
  (if tier = 2 then s.otEntries h * 64 else 0)

/-- Bytes of hoop `h` in a pool that are pinned (R191). -/
def State.pinned (s : State) (h tier unit : Nat) : Nat :=
  (s.objs.foldl (fun a e => if oHoop e.1 = h ∧ 0 < e.2.pins ∧ e.2.homed = true ∧ e.2.tier = tier ∧ locUnit tier e.2.loc = unit then a + e.2.bytes else a) 0) +
  (if tier = 2 then s.ctxs.foldl (fun a e => if e.2.isOpen = true ∧ e.2.hoop = h ∧ 0 < e.2.pins then
    a + (e.2.objs.foldl (fun b k => b + (s.obj k).bytes) 0) else a) 0 else 0)

/-- Usage of every hoop, with the bytes that scrubbing has still to zero (R539). For T4 only the pool's own hoop counts. -/
def State.usageAll (s : State) (tier unit : Nat) : Nat :=
  (List.range 16).foldl (fun a h => a + s.usage h tier unit + (if tier = 2 then 4096 * (mget Hoop.dflt s.hoops h).scrubUnits else 0)) 0

/-- Free room of a pool or unit for hoop `h`. -/
def State.freeRoom (s : State) (h tier unit : Nat) : Nat :=
  if tier = 4 then s.poolCap 4 h - s.usage h 4 0 else s.placeCap tier h - s.usageAll tier unit

/-- A GUAR, PIN_LIMIT or FREE_TARGET value in bytes (R186, R199). -/
def State.guarBytes (s : State) (tier v : Nat) : Nat := if tier ≤ 1 then v * s.poolCap tier 0 / 256 else v * 2 ^ 20

/-! ## Who uses an object -/

/-- A begun, uncommitted command names it (R163 BUSY). [DEDUCED, log entry 107] -/
def State.busy (s : State) (k : Nat) : Bool :=
  s.flights.any fun f => (f.ins.any fun e => decide (e.1 = k)) || (f.outs.any fun o => decide (o.obj = k))

/-- A begun, uncommitted command names it as an output (R182). -/
def State.hasWriter (s : State) (k : Nat) : Bool := s.flights.any fun f => f.outs.any fun o => decide (o.obj = k)

/-- A move of it runs or waits (R163 MOVING). [DEDUCED, log entry 107] -/
def State.moving (s : State) (k : Nat) : Bool := (s.moves.any fun m => decide (m.obj = k)) || s.remotes.any fun r => decide (r.obj = k)

/-- A replaced allocation of it awaits its last reader (R171). -/
def State.isRetiring (s : State) (k : Nat) : Bool := s.retiring.any fun r => decide (r.obj = k)

/-- A begun, uncommitted MOVE names it: in its record it is BUSY too (R163). [DEDUCED, log entry 107] -/
def State.movedByCmd (s : State) (k : Nat) : Bool :=
  (s.moves.any fun m => decide (m.obj = k) && (match m.kind with | .command _ => true | _ => false)) ||
  s.remotes.any fun r => decide (r.obj = k ∧ (r.role = .pushInit ∨ r.role = .returnInit))

/-- A begun, uncommitted command names it, a MOVE included (R489). -/
def State.named (s : State) (k : Nat) : Bool := s.busy k || s.movedByCmd k

/-- Is every tile VALID? -/
def Obj.allValid (o : Obj) : Bool := decide (o.countTiles .valid = o.ntiles)

/-- The record of R163. [DEDUCED, log entry 32] -/
def State.queryRecord (s : State) (k : Nat) : BitVec 256 :=
  let o := s.obj k
  let flags := b2n o.sealed + 2 * b2n o.compressed + 4 * b2n (s.moving k) + 8 * b2n (s.busy k || s.movedByCmd k) +
    16 * b2n (decide (0 < o.countTiles .poisoned)) + 32 * b2n (decide (0 < o.countTiles .unwritten)) + 64 * b2n (s.isRetiring k) + 128 * b2n o.ctxState
  setBytes (setBytes (setBytes (setBytes (setBytes (setBytes (setBytes (setBytes (setBytes (0 : BitVec 256)
    0 4 (s.handleOf k)) 4 1 o.kind) 5 1 (o.tier + 16 * b2n o.homed)) 6 2 flags) 8 8 o.size) 16 8 (o.age / 65536)) 24 2 o.loc) 26 2 o.pins) 28 4 o.aux

/-! ## Retiring and releasing (R171) -/

/-- Begun commands that read the object. -/
def State.readersOf (s : State) (k : Nat) : List Nat :=
  (s.flights.filter fun f => f.ins.any fun e => decide (e.1 = k)).map (·.id)

/-- Release `bytes` of an object's allocation: RETIRING while a begun command reads it, or, of a SEALED object in T0 or T1, until
it is zeroed (R531); free at once otherwise. -/
def State.retire (s : State) (k h tier unit bytes : Nat) : State :=
  let rs := s.readersOf k
  if bytes = 0 ∨ (rs = [] ∧ ((s.obj k).sealed = false ∨ 2 ≤ tier)) then s
  else { s with retiring := s.retiring ++ [⟨k, h, tier, unit, bytes, rs, (s.obj k).sealed && decide (tier ≤ 1), if tier = 3 then (s.obj k).place else 0⟩] }

/-- A command has committed or ended: it reads nothing any more (R171). An allocation without readers returns to its pool by
RETIRING_RELEASE. -/
def State.dropReader (s : State) (id : Nat) : State :=
  { s with retiring := s.retiring.map fun r => { r with readers := r.readers.filter (· ≠ id) } }

/-- Free the table entry of an object and release its allocation; the entry keeps its GEN (R159, R195). -/
def State.freeObj (s : State) (k : Nat) : State :=
  let o := s.obj k
  let s := if o.homed then s.retire k (oHoop k) o.tier (locUnit o.tier o.loc) o.bytes else s
  s.setObj k { Obj.dflt with gen := o.gen }

/-! ## The write budget (R216) -/

/-- BUDGET_CAP_MB in bytes. [DEDUCED, log entry 53] -/
def State.budgetCap (s : State) (n : Nat) : Nat := (s.reg (R.BUDGET_CAP_MB n)).toNat * 1000000

/-- A skein stack, its balance risen at BUDGET_RATE_MB per 86,400 s up to now, at most to the cap (R215); the rate of a WORN stack is
taken as 0 (R211). -/
def State.sk (s : State) (n : Nat) : Skein :=
  let x := mget Skein.dflt s.skeins n
  let rise := x.frac + (if x.worn then 0 else (s.reg (R.BUDGET_RATE_MB n)).toNat) * (s.now - x.balAt)
  let b : Int := x.balance + (rise / 86400000 : Nat)
  if (s.budgetCap n : Int) < b then { x with balance := max x.balance (s.budgetCap n), frac := 0, balAt := s.now }
  else { x with balance := b, frac := rise % 86400000, balAt := s.now }

/-- Change a skein stack. -/
def State.setSk (s : State) (n : Nat) (x : Skein) : State := { s with skeins := mset Skein.dflt s.skeins n x }

/-- Tiles of an allocation of `n` tiles that fall on the `i`-th of `k` stacks (R205). -/
def shareTiles (n k i : Nat) : Nat := (n + k - 1 - i) / k

/-- Does stack `n` admit a charged write of `bytes` (R216) once `claimed` bytes have been taken from its balance? -/
def State.admits (s : State) (n bytes claimed : Nat) : Bool :=
  let x := s.sk n
  decide ((s.reg (R.BUDGET_RATE_MB n)).toNat ≠ 0) && !x.worn && decide ((min bytes (s.budgetCap n) : Int) ≤ x.balance - claimed)

/-- Powered time of stack `n` in ns, which leaves LISTEN and OFF out (R221). -/
def State.skPowered (s : State) (n : Nat) : Nat := let x := s.sk n; x.poweredBase + (match x.upAt with | some t => s.now - t | none => 0)

/-- Media traffic of stack `n`: bytes read, bytes written, and internal work as the bytes that a read of the same time takes. That of the last
millisecond is kept (R206, R213). -/
def State.media (s : State) (n rd wr internal : Nat) : State :=
  let x := s.sk n
  s.setSk n { x with recent := (x.recent.filter fun e => decide (s.now < e.1 + 1000000)) ++ [(s.now, rd, wr, internal)] }

/-- Take `bytes` from the balance of stack `n` when an allocation is admitted (R216). [DEDUCED, log entry 53] -/
def State.charge (s : State) (n bytes : Nat) : State := s.setSk n { s.sk n with balance := (s.sk n).balance - bytes }

/-- `bytes` of charged writes are programmed into stack `n` (R214); every 256 MB the balance is saved (R218). -/
def State.program (s : State) (n bytes : Nat) : State :=
  let x := s.sk n
  let x := { x with lifeCharged := x.lifeCharged + bytes, lifeProgrammed := x.lifeProgrammed + bytes, sinceSaved := x.sinceSaved + bytes, history := x.history ++ [(s.skPowered n, bytes, bytes)] }
  let x := if 256000000 ≤ x.sinceSaved then { x with savedBalance := x.balance, sinceSaved := 0 } else x
  ((s.setSk n x).media n 0 bytes 0).addPieces (R.SK_WRITE_MB n) 1000000 bytes

/-- Stacks with the bytes each receives of `tiles` tiles (R205). -/
def stackShares (st : List Nat) (tiles : Nat) : List (Nat × Nat) := (st.zipIdx).map fun (e : Nat × Nat) => (e.1, 4096 * shareTiles tiles st.length e.2)

/-- The stacks of a T3 mask with the bytes each receives of an allocation of `tiles` tiles made now. -/
def State.t3Shares (s : State) (loc tiles : Nat) : List (Nat × Nat) := stackShares (s.maskStacks 3 loc) tiles

/-- The stacks that a T3 allocation lies on (R205). -/
def placeStacks (place : Nat) : List Nat := (List.range 2).filter fun i => (BitVec.ofNat 2 place).getLsbD i

/-- Does the controller of every stack of a T3 mask take requests (R225)? -/
def State.skReady (s : State) (loc : Nat) : Bool := (s.maskStacks 3 loc).all fun n => (s.sk n).ready

/-- Every stack of the mask admits its share, beside `claims`: bytes already claimed of a stack. [DEDUCED, log entry 30] -/
def State.admitsBeside (s : State) (loc tiles : Nat) (claims : Nat → Nat) : Bool :=
  !(s.t3Shares loc tiles).isEmpty && (s.t3Shares loc tiles).all fun e => s.admits e.1 e.2 (claims e.1)
/-- [DEDUCED, log entry 30]. -/
def State.admitsAll (s : State) (loc tiles : Nat) : Bool := s.admitsBeside loc tiles fun _ => 0

/-- Count a refused request on the stacks that refuse it beside `claims` (R216). -/
def State.countRefusal (s : State) (loc tiles : Nat) (claims : Nat → Nat) : State :=
  (s.t3Shares loc tiles).foldl (fun s e => if s.admits e.1 e.2 (claims e.1) then s
    else (s.addReg (R.BUDGET_REFUSALS e.1) 1).addPieces (R.BUDGET_REFUSED_MB e.1) 1000000 e.2) s

/-- Bytes that some T3 allocations (a key, a mask, tiles) take of stack `n`. -/
def State.claimsOf (s : State) (l : List (Nat × Nat × Nat)) (n : Nat) : Nat :=
  l.foldl (fun a x => a + ((s.t3Shares x.2.1 x.2.2).filter fun e => decide (e.1 = n)).foldl (fun b e => b + e.2) 0) 0

/-- Several T3 allocations of one command, admitted one after the other (R216): those that the budget refuses, with what the earlier ones
have taken. -/
def State.t3Refusals (s : State) (l : List (Nat × Nat × Nat)) : List ((Nat × Nat × Nat) × List (Nat × Nat × Nat)) :=
  (l.foldl (fun (a : List (Nat × Nat × Nat) × List ((Nat × Nat × Nat) × List (Nat × Nat × Nat))) x =>
    if s.admitsBeside x.2.1 x.2.2 (s.claimsOf a.1) then (a.1 ++ [x], a.2) else (a.1, a.2 ++ [(x, a.1)])) ([], [])).2

/-- Charge an admitted allocation. -/
def State.chargeAll (s : State) (loc tiles : Nat) : State := (s.t3Shares loc tiles).foldl (fun s e => s.charge e.1 e.2) s

/-- The stacks of a T3 allocation with the bytes each receives of some ranges of its tiles: first tile and count (R205). -/
def pieceShares (place : Nat) (l : List (Nat × Nat)) : List (Nat × Nat) :=
  let st := placeStacks place
  (st.zipIdx).map fun (e : Nat × Nat) =>
    (e.1, 4096 * l.foldl (fun (a : Nat) (x : Nat × Nat) => a + (shareTiles (x.1 + x.2) st.length e.2 - shareTiles x.1 st.length e.2)) 0)

/-- Ranges of an admitted allocation are programmed on its stacks (R205, R214). -/
def State.programAll (s : State) (place : Nat) (l : List (Nat × Nat)) : State :=
  (pieceShares place l).foldl (fun s e => if e.2 = 0 then s else s.program e.1 e.2) s

/-- What an admitted allocation of `tiles` tiles has not programmed returns to the balance, at most to the cap (R216, R385); `l` are the
ranges it has programmed. [DEDUCED, log entry 30] -/
def State.refund (s : State) (place tiles : Nat) (l : List (Nat × Nat)) : State :=
  ((stackShares (placeStacks place) tiles).zip (pieceShares place l)).foldl (fun s e =>
    let x := s.sk e.1.1
    s.setSk e.1.1 { x with balance := max x.balance (min (s.budgetCap e.1.1 : Int) (x.balance + (e.1.2 - e.2.2 : Nat))) }) s

/-- A charged writer is killed or ends before its commit: what it programmed stays charged, the rest returns (R214, R216). -/
def State.endCharge (s : State) (place tiles : Nat) (l : List (Nat × Nat)) : State := (s.programAll place l).refund place tiles l

/-- The stacks of the T3 allocation that a move or a command holds, as a mask (R205). -/
def State.placeOf (s : State) (h : Holder) : Nat := match s.allocs.find? fun a => decide (a.holder = h ∧ a.tier = 3) with | some a => a.place | none => 0

/-! ## Moves through a codec (R369 to R371, R382 to R389) -/

/-- The layout an ENCODE uses (R382): the one its checks fixed, or before them what CODEC_PARAM now names. [DEDUCED, log entry 34] -/
def State.moveLayout (s : State) (m : Move) : Option PcLayout :=
  let size := (s.obj m.obj).size
  if m.layout.isSome then m.layout
  else if m.param = 0 then some (pcDefaultLayout size)
  else match s.resolve m.hoop m.param with
    | none => none
    | some k => if (s.obj k).kind = 8 then pcLayout (s.obj k).data (s.obj k).size size else none

/-- NSUB of a stream this part writes (R382). -/
def State.encNsub (s : State) (l : PcLayout) : Nat := if s.part.dramStacks = 6 ∧ s.part.ioDies = 2 then 16 else if l.nsub = 0 then 1 else l.nsub

/-- The content a move reads: what the host has put there for an object homed in T4 (R166). -/
def State.moveSource (s : State) (m : Move) : SMap Byte :=
  let o := s.obj m.obj
  if o.tier = 4 ∧ m.hostBytes ≠ [] then m.hostBytes else o.data

/-- NSUB of the stream that a move reads or writes (R373, R382). -/
def State.moveNsub (s : State) (m : Move) : Nat :=
  if m.codec = 1 then rdAt (s.moveSource m) 28 1 else match s.moveLayout m with | some l => s.encNsub l | none => 1

/-- Blocks of a move through a codec; tiles of one that copies (R180, R370). -/
def State.moveUnits (s : State) (m : Move) : Nat :=
  let o := s.obj m.obj
  if m.codec = 1 then (match pcParse (s.moveSource m) o.size with | .ok st => st.nblock | .error _ => 0)
  else if m.codec = 2 then (match s.moveLayout m with | some l => (pcRegions l.regions 0 0 0).foldl (fun a r => a + r.nblocks) 0 | none => 0)
  else o.ntiles

/-- Tiles a move's target allocation takes: the decoded size, the worst stream (R385), or the object's own. -/
def State.moveTiles (s : State) (m : Move) : Nat :=
  let o := s.obj m.obj
  if m.codec = 1 then (match pcParse (s.moveSource m) o.size with | .ok st => ceilDiv st.usize 4096 | .error _ => 0)
  else if m.codec = 2 then (match s.moveLayout m with | some l => ceilDiv (pcWorst (pcRegions l.regions 0 0 0)) 4096 | none => 0)
  else o.ntiles

/-- Pages of hoop `h`'s host pool in use: first page and count of each object homed or arriving there. -/
def State.t4Used (s : State) (h : Nat) : List (Nat × Nat) :=
  (s.objs.filterMap fun e => if oHoop e.1 = h ∧ e.2.used = true ∧ e.2.homed = true ∧ e.2.tier = 4 then some (e.2.aux, e.2.ntiles) else none) ++
  (s.moves.filterMap fun m => if m.started ∧ m.tier = 4 ∧ m.hoop = h ∧ (s.obj m.obj).homed then some (m.aux, s.moveTiles m) else none) ++
  (s.remotes.filterMap fun r => if r.role = .returnInit ∧ r.alloc ≠ 0 ∧ r.tier = 4 ∧ r.hoop = h then some (r.aux, (s.obj r.obj).ntiles) else none)

/-- The lowest run of `n` pages of a pool of `pages` that keeps clear of those used. -/
def lowestGap (used : List (Nat × Nat)) (pages n : Nat) : Option Nat :=
  ((0 :: used.map fun u => u.1 + u.2).filter fun p => decide (p + n ≤ pages) && used.all fun u => decide (p + n ≤ u.1 ∨ u.1 + u.2 ≤ p)).min?

/-- A contiguous run of `n` pages of the host pool (R166): the lowest one that is free. -/
def State.t4Fit (s : State) (h n : Nat) : Option Nat := lowestGap (s.t4Used h) (s.reg (R.HOST_POOL_PAGES h)).toNat n

/-- Do runs of these lengths fit in the host pool, one after the other? -/
def State.t4FitAll (s : State) (h : Nat) (l : List Nat) : Bool :=
  (l.foldl (fun (a : Option (List (Nat × Nat))) n => a.bind fun used => (lowestGap used (s.reg (R.HOST_POOL_PAGES h)).toNat n).map fun p => used ++ [(p, n)]) (some (s.t4Used h))).isSome

/-- A request's wait ends: the longest is kept (ALLOC_WAIT_STITCHES). -/
def State.endWait (s : State) (p : AllocWait → Bool) : State :=
  let s := (s.waits.filter p).foldl (fun s w => s.maxReg (R.ALLOC_WAIT_STITCHES w.hoop) (s.count - w.since)) s
  { s with waits := s.waits.filter fun w => !p w }

/-- Do two waits stand for the same asker: a queue's head, a move, or the CREATE of a hoop? -/
def AllocWait.same (x w : AllocWait) : Bool := decide (x.cq = w.cq ∧ x.move = w.move ∧ (w.create = none ∨ x.hoop = w.hoop))

/-- Is this request, for these bytes of this pool and unit, already recorded as waiting? -/
def State.waitsFor (s : State) (w : AllocWait) : Bool := s.waits.any fun x => x.same w && decide (x.tier = w.tier ∧ x.unit = w.unit ∧ x.bytes = w.bytes)

/-- Record that a request waits (R189). The need of an asker that stands in another pool or unit, or for other bytes, is a new
request. -/
def State.addWait (s : State) (w : AllocWait) : State :=
  if s.waitsFor w then s else let s := s.endWait fun x => x.same w; { s with waits := s.waits ++ [w] }

/-! ## Eviction candidates (R187, R188) -/

/-- The tier and location an eviction takes an object to (R188). -/
def evictDest (o : Obj) : Option (Nat × Nat) :=
  if o.tier = 0 then some (1, o.loc / 8)
  else if o.tier = 1 then some (2, 0)
  else if o.tier = 2 then some (3, 0)
  else if o.tier = 3 then some (4, 0)
  else none

/-- Bytes of stack `n` that evictions already picked, and not yet begun, will take from its budget. [DEDUCED, log entry 30] -/
def State.t3Claims (s : State) (n : Nat) : Nat :=
  s.moves.foldl (fun a m => if m.tier = 3 ∧ m.started = false ∧ m.kind = .evict then
    a + ((s.t3Shares m.loc (s.moveTiles m)).filter fun e => decide (e.1 = n)).foldl (fun b e => b + e.2) 0 else a) 0

/-- Lengths of the runs of hoop `h`'s host pool that evictions already picked, and not yet begun, will take. [DEDUCED, log entry 30] -/
def State.t4Claims (s : State) (h : Nat) : List Nat :=
  s.moves.filterMap fun m => if m.tier = 4 ∧ m.started = false ∧ m.kind = .evict ∧ oHoop m.obj = h then some (s.moveTiles m) else none

/-- The destination admits the object (R188): budget, seals and a run of the host pool, beside the evictions already picked. -/
def State.destAdmits (s : State) (k : Nat) : Bool :=
  let o := s.obj k
  if o.tier ≤ 1 then true
  else if o.tier = 2 then s.admitsBeside 0 o.ntiles s.t3Claims
  else if o.tier = 3 then !o.sealed && s.t4FitAll (oHoop k) (s.t4Claims (oHoop k) ++ [o.ntiles]) && o.allValid
  else false

/-- Is the object a candidate, apart from its destination (R187)? -/
def State.candidate (s : State) (k tier unit : Nat) : Bool :=
  let o := s.obj k
  o.used && o.homed && decide (o.tier = tier) && decide (locUnit tier o.loc = unit) && decide (o.pins = 0) && !s.busy k && !s.moving k && !o.ctxState &&
  decide (s.guarBytes tier (s.reg (R.GUAR tier (oHoop k))).toNat < s.usage (oHoop k) tier unit)

/-- The candidate with the lowest age, then hoop, then index, among the keys given (R187). [DEDUCED, log entry 30] -/
def State.bestOf (s : State) (l : List Nat) : Option Nat :=
  l.foldl (fun best k => match best with
    | none => some k
    | some b => if (s.obj k).age < (s.obj b).age ∨ ((s.obj k).age = (s.obj b).age ∧ k < b) then some k else some b) none

/-- Evictions and spills free room. -/
def MoveKind.isEviction : MoveKind → Bool
  | .evict => true
  | .spill _ => true
  | _ => false

/-- Bytes that running evictions out of a pool or unit will free. -/
def State.evicting (s : State) (tier unit : Nat) : Nat :=
  s.moves.foldl (fun a m =>
    let o := s.obj m.obj
    if m.kind.isEviction = true ∧ o.tier = tier ∧ locUnit tier o.loc = unit then a + o.bytes else a) 0

/-- Bytes that candidates of a pool could free. -/
def State.candidateBytes (s : State) (tier unit : Nat) : Nat :=
  ((s.objs.map (·.1)).filter fun k => s.candidate k tier unit && s.destAdmits k).foldl (fun a k => a + (s.obj k).bytes) 0

/-- Can room for `bytes` be had: free, being freed by evictions that run, or of candidates (R61, R194)? -/
def State.obtainable (s : State) (h tier unit bytes : Nat) : Bool :=
  decide (bytes ≤ s.freeRoom h tier unit + s.candidateBytes tier unit + s.evicting tier unit)

/-! ## Moves (R180 to R184) -/

/-- A fresh identifier for a command or a move. -/
def State.fresh (s : State) : State × Nat := ({ s with nextId := s.nextId + 1 }, s.nextId)

/-- Cut `tiles` tiles into `n` contiguous ranges, the first ones one longer (R180 step 3). -/
def cutRanges (tiles n : Nat) : List (Nat × Nat) :=
  (List.range n).map fun i => (i * (tiles / n) + min i (tiles % n), tiles / n + (if i < tiles % n then 1 else 0))

/-- Bytes the blocks of a move through a codec decode to or encode (R376, R382). -/
def State.blockBytes (s : State) (m : Move) : List Nat :=
  if m.codec = 1 then
    (match pcParse (s.moveSource m) (s.obj m.obj).size with
     | .ok st => (List.range st.nblock).map fun b => match st.regionOf b with | some r => (r.declared b).2 | none => 0
     | .error _ => [])
  else
    (match s.moveLayout m with
     | some l => (pcRegions l.regions 0 0 0).flatMap fun r => (List.range r.nblocks).map fun i => (r.declared (r.fblock + i)).2
     | none => [])

/-- Bytes of a range: its tiles, or the declared bytes of its blocks (R180, R370). [DEDUCED, log entry 34] -/
def State.rangeBytes (s : State) (m : Move) (r : Range) : Nat :=
  if m.codec = 0 then 4096 * r.count else (((s.blockBytes m).drop r.first).take r.count).foldl (· + ·) 0

/-- The ranges of its target's tiles that a running move has programmed: those of its finished ranges, and through a codec the same part of
the whole. [DEDUCED, log entry 30] -/
def State.programmedOf (s : State) (m : Move) (tiles : Nat) : List (Nat × Nat) :=
  let fin := m.ranges.filter fun r => r.done
  if m.codec = 0 then fin.map fun r => (r.first, r.count)
  else [(0, tiles * fin.foldl (fun a r => a + r.count) 0 / max 1 (s.moveUnits m))]

/-- Bytes queued on a shuttle, and entries of its partition that moves hold until they commit or are released (R20, R180). -/
def State.shuttleBytes (s : State) (u : Nat) : Nat :=
  s.moves.foldl (fun a m => a + m.ranges.foldl (fun b r => if r.shuttle = some u ∧ r.done = false then b + s.rangeBytes m r else b) 0) 0
def State.shuttleEntries (s : State) (u : Nat) : Nat :=
  s.moves.foldl (fun a m => a + (m.ranges.filter fun r => decide (r.shuttle = some u)).length) 0 + s.entriesKept 1 (some u)

/-- The shuttle a range is given to: ON (R586), with a free entry, fewest bytes queued, lowest number (R180 step 3). -/
def State.pickShuttle (s : State) : Option Nat :=
  ((List.range 32).filter fun u => s.isOn .shuttle u && decide (s.shuttleEntries u < 128)).foldl
    (fun best u => match best with
      | none => some u
      | some b => if s.shuttleBytes u < s.shuttleBytes b then some u else some b) none

/-- The codec a range passes through: ON, with a free entry, fewest bytes queued, lowest number (R370). -/
def State.codecBytes (s : State) (u : Nat) : Nat :=
  s.moves.foldl (fun a m => a + m.ranges.foldl (fun b r => if r.codec = some u ∧ r.done = false then b + s.rangeBytes m r else b) 0) 0
def State.codecEntries (s : State) (u : Nat) : Nat :=
  s.moves.foldl (fun a m => a + (m.ranges.filter fun r => decide (r.codec = some u)).length) 0
def State.pickCodec (s : State) : Option Nat :=
  ((List.range 4).filter fun u => s.isOn .codec u && decide (s.codecEntries u < 256)).foldl
    (fun best u => match best with
      | none => some u
      | some b => if s.codecBytes u < s.codecBytes b then some u else some b) none

/-- A step or a range ends IDLE (R555). -/
def State.awake (s : State) : State := if s.pm.mode = .idle then { s with pm := { s.pm with mode := .active } } else s

/-- Give the ranges of move `id` that have no shuttle yet to shuttles, in ascending order (R180 step 3). -/
def State.giveRanges (s : State) (id : Nat) : Nat → State
  | 0 => s
  | n + 1 =>
    match s.moves.find? fun m => decide (m.id = id) with
    | none => s
    | some m =>
      match m.ranges.findIdx? fun r => r.shuttle.isNone && !r.done with
      | none => s
      | some i =>
        match s.pickShuttle with
        | none => s
        | some u =>
          let c := if m.codec = 0 then none else s.pickCodec
          if m.codec ≠ 0 ∧ c.isNone then s
          else
            let m' := { m with ranges := m.ranges.modify i fun r => { r with shuttle := some u, codec := c } }
            ((({ s with moves := s.moves.map fun (x : Move) => if x.id = id then m' else x }).awake.noteOcc 1).noteOcc 2).giveRanges id n

/-- Remove a move and its target allocation (R184). -/
def State.dropMove (s : State) (id : Nat) : State :=
  let killed := s.moves.filter fun m => decide (m.id = id)
  let s := killed.foldl (fun s m => m.ranges.foldl (fun s r =>
    match r.shuttle with | some u => if r.done then s else s.addReg (R.SH_KILLED u) 1 | none => s) s) s
  let s := killed.foldl (fun s m =>
    if m.started = true ∧ m.tier = 3 then
      let tiles := s.allocs.foldl (fun a x => if x.holder = .move m.id then a + x.bytes / 4096 else a) 0
      s.endCharge (s.placeOf (.move m.id)) tiles (s.programmedOf m tiles)
    else s) s
  ({ s with moves := s.moves.filter (fun m => decide (m.id ≠ id)), allocs := s.allocs.filter (fun a => decide (a.holder ≠ Holder.move id)) }.endWait
    fun w => decide (w.move = some id)).cancelDraws fun f => match f with | .range i _ => decide (i = id) | _ => false

/-- Is this a MOVE command's move? MOVE commands wait for writers and for earlier moves; the others are only issued
where none runs (R182, R183). -/
def Move.isCommand (m : Move) : Bool := match m.kind with | .command _ => true | _ => false

/-- Start evictions from a pool until those running cover `need` bytes or no candidate is left (R187), in the order of R187, passing over
objects of T2 that the write budget refuses: they are counted where `count` says so (R217). `payer` is the hoop whose request they serve, 16
for evictions toward FREE_TARGET, which their own hoops pay (R190). Answers the objects that the budget refused. [DEDUCED, log entry 30] -/
def State.evictFor (s : State) (payer tier unit need : Nat) (count : Nat → Bool) (skip : List Nat) : Nat → State × List Nat
  | 0 => (s, skip)
  | n + 1 =>
    if need ≤ s.evicting tier unit then (s, skip)
    else match s.bestOf ((s.objs.map (·.1)).filter fun k => s.candidate k tier unit && !skip.contains k && (decide (tier = 2) || s.destAdmits k)) with
      | none => (s, skip)
      | some k =>
        if !s.destAdmits k then
          (if count k then (s.addReg (R.TP_BUDGET_REFUSALS 2) 1).countRefusal 0 (s.obj k).ntiles s.t3Claims else s).evictFor payer tier unit need count (k :: skip) n
        else match evictDest (s.obj k) with
        | none => (s, skip)
        | some (t, l) =>
          let (s, id) := s.fresh
          let s := { s with moves := s.moves ++ [{ Move.dflt with id := id, kind := .evict, hoop := oHoop k, obj := k, tier := t, loc := l, nshuttle := 4, ageStamp := some (s.obj k).age, payer := if payer < 16 then payer else oHoop k }] }
          s.evictFor payer tier unit need count skip n

/-- Room for `bytes`: from free room at once; otherwise evictions start and the request waits (R187, R189). -/
def State.roomFor (s : State) (h tier unit bytes : Nat) : Bool := decide (bytes ≤ s.freeRoom h tier unit)

/-- Ask the pool to make room for a request that free room does not meet. -/
def State.askRoom (s : State) (h tier unit bytes : Nat) : State :=
  (s.evictFor h tier unit (bytes - s.freeRoom h tier unit) (fun _ => true) [] (s.objs.length + 1)).1

/-- Room kept for the restore of a context (R244), and what its restore has still to obtain. -/
def State.keptFor (s : State) (i : Nat) : Nat := s.allocs.foldl (fun a x => if x.holder = .ctx i then a + x.bytes else a) 0
def State.unmet (s : State) (i : Nat) : Nat :=
  (mget Ctx.dflt s.ctxs i).objs.foldl (fun a k =>
    let o := s.obj k
    if (o.homed = true ∧ o.tier = 2) ∨ (s.moves.any fun m => decide (m.obj = k ∧ m.kind = .restore i) && m.started) = true then a else a + o.bytes) 0

/-- Give back the room kept for a context, all but `n` bytes. -/
def State.keepOnly (s : State) (i n : Nat) : State :=
  { s with allocs := s.allocs.filter (fun (x : Alloc) => decide (x.holder ≠ .ctx i)) ++ (if n = 0 then [] else [(⟨.ctx i, (mget Ctx.dflt s.ctxs i).hoop, 2, 0, n, 0⟩ : Alloc)]) }

/-- `bytes` of T2 have been freed for the restore of context `i`: as much as it still needs is kept (R244). -/
def State.keep (s : State) (i bytes : Nat) : State := s.keepOnly i (min (s.unmet i) (s.keptFor i + bytes))

/-- The context whose restore a move belongs to, where it is a restore's. -/
def Move.restores (m : Move) : Option Nat := match m.kind with | .restore i => some i | _ => none

/-- A request waits for room (R189). Answers whether the budget refused a candidate it needs (R217), which is counted once for the request. -/
def State.waitRoom (s : State) (w : AllocWait) : State × Bool :=
  let s' := s.addWait w
  let ctx := w.move.bind fun id => (s.moves.find? fun m => decide (m.id = id)).bind Move.restores
  let have_ := s'.freeRoom w.hoop w.tier w.unit + (match ctx with | some i => s.keptFor i | none => 0)
  -- a RESTORE or PIN takes no ordinary candidates (R256)
  let asked := match ctx with | some i => decide ((mget Ctx.dflt s.ctxs i).ask ≠ 0) | none => false
  let r := if asked then (s', []) else s'.evictFor w.hoop w.tier w.unit (w.bytes - have_) (fun _ => !s.waitsFor w) [] (s'.objs.length + 1)
  let r1 : State := if ctx.isNone then r.1 else { r.1 with moves := r.1.moves.map fun (m : Move) => if s'.nextId ≤ m.id then { m with forCtx := ctx } else m }
  (r1, !r.2.isEmpty)

/-! ## The checks of a move (R176, R389) -/

/-- DETAIL of a reason of R283 with its index. -/
def reasonDetail (reason idx : Nat) : BitVec 192 := setBytes (setBytes 0 8 1 reason) 12 4 idx

/-- The first tile of an object that is not VALID, with REASON 2 POISONED or 3 UNWRITTEN (R176). -/
def Obj.badTile (o : Obj) : Option (Nat × Nat) :=
  if o.allValid then none
  else ((List.range o.ntiles).find? fun i => decide ((o.tile i).st ≠ .valid)).map fun i => (i, if (o.tile i).st = .poisoned then 2 else 3)

/-- The first tile of an object that a use of it finds not VALID, or on a fenced skein stack, where every read is a mismatch (R176, R588). -/
def State.unreadTile (s : State) (o : Obj) : Option (Nat × Nat) :=
  if o.homed = true ∧ o.tier = 3 ∧ ((placeStacks o.place).all fun n => s.live .skein n) = false then
    ((List.range o.ntiles).find? fun i => decide ((o.tile i).st ≠ .valid) || !s.live .skein (o.tileStack i)).map fun i =>
      (i, if (o.tile i).st = .poisoned then 2 else if (o.tile i).st = .unwritten then 3 else 1)
  else o.badTile

/-- The code and DETAIL with which a move's checks end its command, where they fail (R175, R382, R389). A DECODE reads the first two tiles of a
stream, its header, regions and tables, before any other; an ENCODE past its checks keeps its permission (R392). [DEDUCED, log entry 34] -/
def State.moveError (s : State) (m : Move) : Option (Nat × BitVec 192) :=
  let o := s.obj m.obj
  let stream : Option (Nat × BitVec 192) :=
    if m.codec = 1 then (match pcParse (s.moveSource m) o.size with | .ok _ => none | .error e => some (0x202, reasonDetail e.1 e.2))
    else if m.codec = 2 then
      (match s.moveLayout m with
       | none => some (0x202, reasonDetail 40 0)
       | some l => if m.layout = none ∧ (l.regions.any fun r => decide (0 < r.drop)) ∧ ¬ bit (s.force R.LOSSY_ENABLE) 0 then some (0x202, reasonDetail 41 0) else none)
    else none
  -- a link codec encodes what goes to a peer (R391)
  let noCodec := decide (m.codec ≠ 0 ∧ m.tier ≠ 5) && (List.range 4).all fun u => decide (s.blkState (pageOf .codec u) = 5)
  let bad := if (m.codec ≠ 0 ∨ 4 ≤ m.tier) ∧ o.tier ≠ 4 then s.unreadTile o else none
  let tileErr := fun (t : Nat × Nat) => ((0x300, setBytes (setBytes (setBytes 0 0 4 (s.handleOf m.obj)) 4 4 t.1) 8 1 t.2) : Nat × BitVec 192)
  match bad.filter fun t => decide (m.codec ≠ 1 ∨ t.1 < 2) with
  | some t => some (tileErr t)
  | none =>
    match stream with
    | some e => some e
    | none => match bad with
      | some t => some (tileErr t)
      | none => if noCodec then some (0x202, reasonDetail 42 0) else none

/-- DETAIL of a MOVE's record (R180): bytes written at the target and the previous tier. -/
def moveDetail (bytes tier : Nat) : BitVec 192 := setBytes (setBytes 0 0 8 bytes) 8 1 tier

/-- A MOVE command's move ends without copying: its command is complete with a code and 0 bytes (R181, R217). [DEDUCED, log entry 107] -/
def State.moveEmpty (s : State) (m : Move) (id code : Nat) : State :=
  { s.endWait (fun w => decide (w.move = some m.id)) with
           moves := s.moves.filter (fun x => decide (x.id ≠ m.id))
           flights := s.flights.map fun (f : InFlight) => if f.id = id then { f with done := true, code := code, detail := moveDetail 0 (s.obj m.obj).tier } else f }

/-- A move is abandoned without a record (R176, R194): the counter of its kind rises. -/
def State.abandonMove (s : State) (m : Move) : State :=
  let s := s.dropMove m.id
  match m.kind with
  | .arm r _ => s.addReg (R.PREFETCH_DROP_COUNT (r / 512)) 1
  | .walk => s.addReg (R.WALK_DROP_COUNT m.hoop) 1
  | _ => s

/-- The moves of a spill that have not started: they start together, so a victim spills wholly or stays in T2 (R246). -/
def State.spillMoves (s : State) (i : Nat) : List Move := s.moves.filter fun x => decide (x.kind = .spill i) && !x.started

/-- The T3 allocations of a spill that has not started. -/
def State.spillGroup (s : State) (i : Nat) : List (Nat × Nat × Nat) := (s.spillMoves i).map fun x => (x.obj, x.loc, s.moveTiles x)

/-- Give up a spill that has not started: the victim stays in T2. -/
def State.dropSpill (s : State) (i : Nat) : State := (s.spillMoves i).foldl (fun s x => s.dropMove x.id) s

/-- The checks of a move fail: its command ends, or the move is abandoned (R176, R389). -/
def State.moveFailed (s : State) (m : Move) (e : Nat × BitVec 192) : State :=
  let s := if e.1 = 0x300 then s.addReg (R.TILE_CHECK_COUNT m.hoop) 1 else if bytesAt e.2 8 1 = 38 ∨ bytesAt e.2 8 1 = 39 then s.addReg (R.PC_STREAM_REFUSED 0) 1 else s
  match m.kind with
  | .command id => { s with flights := s.flights.map fun (f : InFlight) => if f.id = id then { f with fail := some e } else f }
  | .spill i => s.dropSpill i
  | _ => s.abandonMove m

/-- The budget has refused a spill that the restore of context `i` needs: cause 2 of R248, and the count of R250. -/
def State.refusedFor (s : State) (i : Nat) : State :=
  { s with ctxs := mmod Ctx.dflt s.ctxs i fun c => { c with causes := (BitVec.ofNat 8 c.causes ||| 4#8).toNat, refused := c.refused + 1 } }

/-- The write budget refuses a move into T3 (R217, R246). -/
def State.moveRefused (s : State) (m : Move) : State :=
  let s : State := match m.kind with
    | .spill i => (s.t3Refusals (s.spillGroup i)).foldl (fun (s : State) (e : (Nat × Nat × Nat) × List (Nat × Nat × Nat)) => s.countRefusal e.1.2.1 e.1.2.2 (s.claimsOf e.2)) s
    | _ => s.countRefusal m.loc (s.moveTiles m) fun _ => 0
  let s := if m.kind.isEviction then s.addReg (R.TP_BUDGET_REFUSALS 2) 1 else s
  match m.kind with
  | .command id => s.moveEmpty m id 0x301
  | .spill i =>
    -- R246: the victim stays in T2, and the wait of the restore it served has met a refusal
    let s := (s.addReg (R.SPILL_REFUSED m.hoop) 1).dropSpill i
    match m.forCtx with
    | some c => s.refusedFor c
    | none => s
  | _ => s.abandonMove m

/-- Residency moves that bring state to T2 (R243). A DECLARED state object reaches T2 by its allocation alone (R239). -/
def Move.isRestore (m : Move) : Bool := match m.kind with | .restore _ => true | _ => false

/-- Moves issued ahead of need: they are abandoned where room cannot be had (R61, R132, R194). -/
def Move.isPrefetch (m : Move) : Bool := match m.kind with | .arm _ _ => true | .walk => true | .armOnly _ => true | _ => false

/-- Forget a move that is over, with its wait. -/
def State.removeMove (s : State) (id : Nat) : State :=
  ({ s with moves := s.moves.filter fun m => decide (m.id ≠ id) }).endWait fun w => decide (w.move = some id)

/-- Room for a move's target: free room, and for a restore's move also what is kept for it (R244); for a spill's, room for every move of the spill. -/
def State.moveRoom (s : State) (m : Move) (tiles : Nat) : Bool :=
  match m.kind with
  | .spill i =>
    let g := s.spillGroup i
    decide (4096 * g.foldl (fun (a : Nat) e => a + e.2.2) 0 ≤ s.freeRoom m.hoop m.tier (locUnit m.tier m.loc)) && (decide (m.tier ≠ 4) || s.t4FitAll m.hoop (g.map fun e => e.2.2))
  | _ => decide (4096 * tiles ≤ s.freeRoom m.hoop m.tier (locUnit m.tier m.loc) + (match m.restores with | some i => s.keptFor i | none => 0))

/-- Does the write budget admit a move into T3 (R216); a spill is admitted whole (R246)? -/
def State.moveAdmitted (s : State) (m : Move) (tiles : Nat) : Bool :=
  match m.kind with
  | .spill i => (s.t3Refusals (s.spillGroup i)).isEmpty
  | _ => s.admitsAll m.loc tiles

/-- A restore's move takes its target out of the room kept for it. -/
def State.takeKept (s : State) (m : Move) (bytes : Nat) : State := match m.restores with | some i => s.keepOnly i (s.keptFor i - bytes) | none => s

/-! ## Peers (R427, R428, R437) -/

/-- The link that governs traffic to a peer: the UP one that carries it (R428, R437), or while there is none the lowest one trained to the peer.
[DEDUCED, log entry 58] -/
def State.peerLink (s : State) (p : Nat) : Option Nat :=
  match s.upLink p with
  | some n => some n
  | none => (List.range 8).find? fun n => (mget Link.dflt s.links n).peerValid && decide ((mget Link.dflt s.links n).peer = p)

/-- Package reached by a link that is UP (R428). -/
def State.peerUp (s : State) (p : Nat) : Bool := s.links.any fun e => decide (e.2.mode = .up ∧ e.2.peer = p)

/-- Has the remote move sent its first message? -/
def Remote.begun (r : Remote) : Bool := r.asked || decide (r.alloc ≠ 0)

/-- OUT_HOOP of a hoop toward a peer (R437). -/
def State.outHoop (s : State) (p h : Nat) : Nat := match s.peerLink p with | some n => fld (s.reg (R.LK_HOOP_MAP n h)) 0 4 | none => 0

/-- Change every begun command. -/
def State.setFlights (s : State) (g : InFlight → InFlight) : State := { s with flights := s.flights.map g }

/-- The remote move that the MOVE command `id` of queue `q` at ring position `pos` makes of an object (R439). -/
def State.remoteMove (s : State) (id q pos : Nat) (m : Move) : Remote :=
  let o := s.obj m.obj
  let p := if m.tier = 5 then m.loc else o.loc
  { role := if m.tier = 5 then .pushInit else .returnInit, peer := p, hoop := m.hoop, peerHoop := s.outHoop p m.hoop, obj := m.obj, peerHandle := o.aux, cmd := id, alloc := 0,
    gen := (mget Cq.dflt s.cqs (m.hoop * 64 + q)).preemptGen, pos := pos, queue := q, tier := m.tier, loc := m.loc, aux := 0, size := o.size, kind := o.kind,
    data := if o.tier = 4 then m.hostBytes else [], got := [], poison := [], compressed := false, coded := false, prepared := false, code := 0, sizeOver := 0, sizeUnder := 0 }

/-- Why a MOVE between this package and a peer, or between peers, ends: code and DETAIL (R436, R440, R441). -/
def State.remoteError (s : State) (m : Move) : Option (Nat × BitVec 192) :=
  let o := s.obj m.obj
  if m.codec = 1 ∨ (m.tier = 5 ∧ o.tier = 5) then some (0x202, 0)
  else if o.sealed then some (0x3, setBytes 0 8 1 2)
  else if !s.peerUp (if m.tier = 5 then m.loc else o.loc) then some (0x202, reasonDetail 44 0)
  else none

/-- A MOVE that has waited for another of its object concerns a peer, as the object's home now is (R183): it goes on as a remote move. -/
def State.goRemote (s : State) (m : Move) (id : Nat) : State :=
  match s.flights.find? fun f => decide (f.id = id) with
  | none => s
  | some f =>
    let s' := s.removeMove m.id
    match s.remoteError m with
    | some e => s'.setFlights fun x => if x.id = id then { x with fail := some e } else x
    | none => { s' with remotes := s'.remotes ++ [s.remoteMove id f.cmd.cq f.cmd.pos m] }

/-- Try to start one waiting move: no writer, no earlier move of the object, budget, room (R180 steps 1 to 3). -/
def State.tryStart (s : State) (id : Nat) : State :=
  match s.moves.find? fun m => decide (m.id = id) with
  | none => s
  | some m =>
    let o := s.obj m.obj
    let earlier := (s.moves.any fun x => decide (x.obj = m.obj ∧ x.id < m.id)) || s.remotes.any fun r => decide (r.obj = m.obj ∧ r.cmd < m.id)
    let failed := s.flights.any fun f => decide (m.kind = .command f.id) && f.fail.isSome
    if m.started ∨ s.hasWriter m.obj ∨ earlier ∨ failed then s
    else if m.isCommand = true ∧ m.codec = 0 ∧ m.tier = o.tier ∧ m.loc = o.loc then
      (match m.kind with | .command c => s.moveEmpty m c 0 | _ => s)
    else if m.isCommand = true ∧ o.homed = true ∧ (m.tier = 5 ∨ o.tier = 5) then (match m.kind with | .command c => s.goRemote m c | _ => s)
    else if m.isCommand = true ∧ o.homed = false then
      -- R181: of a DECLARED object only the declared tier and location change, at the commit
      { s with moves := s.moves.map (fun (x : Move) => if x.id = id then { m with started := true } else x),
               flights := s.flights.map fun (f : InFlight) => if m.kind = .command f.id then { f with done := true } else f }
    else if (m.tier = 3 ∧ ¬ s.skReady m.loc) ∨ (o.homed = true ∧ o.tier = 3 ∧ ¬ s.skReady o.loc) then s
    else match s.moveError m with
    | some e => s.moveFailed m e
    | none =>
      let m := if m.codec = 2 then { m with layout := s.moveLayout m } else m
      let s : State := if m.codec = 2 then { s with moves := s.moves.map fun (x : Move) => if x.id = id then m else x } else s
      let tiles := s.moveTiles m
      let unit := locUnit m.tier m.loc
      if s.poolCap m.tier m.hoop < 4096 * tiles ∧ m.isCommand = true then s.moveFailed m (0x202, 0)
      else if m.tier = 3 ∧ ¬ s.moveAdmitted m tiles then s.moveRefused m
      else if o.homed = false ∧ m.isRestore = true ∧ s.moveRoom m tiles = true then
        let s := s.takeKept m (4096 * tiles)
        let s := match m.restores with
          | some i => { s with ctxs := mmod Ctx.dflt s.ctxs i fun c => { c with fresh := c.fresh ++ [(m.obj, o.tier, o.loc)] } }
          | none => s
        (s.setObj m.obj { o with tier := m.tier, loc := m.loc, homed := true, age := s.pos, tileDflt := zeroTile,
                                 tiles := mset zeroTile [] 0 ⟨.valid, tileCrc o.data 0⟩ }).removeMove id
      else if s.moveRoom m tiles ∧ (m.tier ≠ 4 ∨ (s.t4Fit m.hoop tiles).isSome) then
        let s := if m.tier = 3 then s.chargeAll m.loc tiles else s
        let s := s.takeKept m (4096 * tiles)
        let n := min m.nshuttle (s.moveUnits m)
        let rs : List Range := (cutRanges (s.moveUnits m) n).map fun (e : Nat × Nat) => { shuttle := none, codec := none, first := e.1, count := e.2, done := false }
        let aux := if m.tier = 4 then (s.t4Fit m.hoop tiles).getD 0 else 0
        let s := { s with moves := s.moves.map (fun (x : Move) => if x.id = id then { m with started := true, ranges := rs, aux := aux } else x),
                          allocs := s.allocs ++ [(⟨.move id, m.hoop, m.tier, unit, 4096 * tiles, s.placeMask m.tier m.loc⟩ : Alloc)] }
        (s.endWait fun w => decide (w.move = some id)).giveRanges id (n + 1)
      else if m.isPrefetch = true ∧ s.obtainable m.hoop m.tier unit (4096 * tiles) = false then s.abandonMove m
      else (s.waitRoom ⟨m.hoop, m.tier, unit, 4096 * tiles, s.count, none, some id, none⟩).1

/-- Evictions toward FREE_TARGET (R190). A candidate that the budget refuses counts once while it stays refused (R217). [DEDUCED, log entry 30] -/
def State.freeTargets (s : State) : State :=
  let r := (List.range 4).foldl (fun (x : State × List Nat) t =>
    if (x.1.force (R.FREE_TARGET t)).toNat = 0 then x
    else (List.range (if t = 0 then 64 else if t = 1 then 8 else 1)).foldl (fun (x : State × List Nat) u =>
      let y := x.1.evictFor 16 t u (x.1.guarBytes t (x.1.force (R.FREE_TARGET t)).toNat - x.1.freeRoom 0 t u) (fun k => !s.freeRefused.contains k) [] (x.1.objs.length + 1)
      (y.1, x.2 ++ y.2)) x) (s, [])
  { r.1 with freeRefused := r.2 }

/-- Try to start every waiting move, in the order in which they began (R183). -/
def State.startPass (s : State) : State := (s.moves.map (·.id)).foldl (fun s id => (s.tryStart id).giveRanges id 32) s

/-! ## Traffic of the tiers (R166, R202, R411) -/

/-- Bus address of a hoop's host pool (R166). -/
def State.poolAddr (s : State) (h : Nat) : Nat := (s.reg (R.HOST_POOL_BASE_LO h)).toNat + 2 ^ 32 * (s.reg (R.HOST_POOL_BASE_HI h)).toNat

/-- Bytes of a piece of an object, from tile `first` on, that lie on the `i`-th of `k` stacks (R166). -/
def pieceOn (first n k i : Nat) : Nat :=
  4096 * (shareTiles (first + n / 4096) k i - shareTiles first k i) + (if (first + n / 4096) % k = i then n % 4096 else 0)

/-- Pieces of an object, each its first tile and its bytes, are read from or written to T2, every tile on its stack of the mask (R166):
DS_READ_MIB and DS_WRITE_MIB (R202). -/
def State.dramTraffic (s : State) (write : Bool) (loc : Nat) (l : List (Nat × Nat)) : State :=
  let st := s.maskStacks 2 loc
  (st.zipIdx).foldl (fun (s : State) (e : Nat × Nat) =>
    s.addPieces (if write then R.DS_WRITE_MIB e.1 else R.DS_READ_MIB e.1) (2 ^ 20) (l.foldl (fun (a : Nat) (p : Nat × Nat) => a + pieceOn p.1 p.2 st.length e.2) 0)) s

/-- A transfer of some pieces between a tier and a block for hoop `h`: the regulator of the tier, for which `f` waits (R411, R412), and the counters of
its stacks. -/
def State.transfer (s : State) (h : Nat) (write : Bool) (tier loc : Nat) (l : List (Nat × Nat)) (f : DrawFor) : State :=
  let n := l.foldl (fun (a : Nat) (p : Nat × Nat) => a + p.2) 0
  if tier = 2 then (s.draw h 0 n f).dramTraffic write loc l
  else if tier = 3 then s.draw h 1 n f
  else if tier = 4 then s.draw h 2 n f
  else s

/-- `n` bytes of the object are read from its place in the host pool, with Relaxed Ordering, where it is homed in T4 (R117, R166).
[DESIGN CHOICE, log entry 128] -/
def State.hostRead (s : State) (k n : Nat) : State :=
  let o := s.obj k
  if o.homed = true ∧ o.tier = 4 then s.issueTlps [⟨.t4Read, oHoop k, s.poolAddr (oHoop k) + 4096 * o.aux, n, true⟩] else s

/-- `n` bytes are written from page `aux` of its hoop's host pool on, without Relaxed Ordering (R117, R166). [DESIGN CHOICE, log entry 128] -/
def State.hostWrite (s : State) (k aux n : Nat) : State := s.issueTlps [⟨.t4Write, oHoop k, s.poolAddr (oHoop k) + 4096 * aux, n, false⟩]

/-! ## The start of a remote move (R436 to R441) -/
/-- Entries of a link's partition in use: the remote moves started on it, and records kept (R20). -/
def State.linkEntries (s : State) (n : Nat) : Nat :=
  (s.remotes.filter fun r => r.begun && decide (s.peerLink r.peer = some n)).length + s.entriesKept 4 (some n)

/-- Has the partition of the link to a peer no free entry? -/
def State.linkFull (s : State) (p : Nat) : Bool := match s.peerLink p with | some n => decide (128 ≤ s.linkEntries n) | none => false

/-- Change a remote move. -/
def State.setRemote (s : State) (old new : Remote) : State := { s with remotes := s.remotes.map fun (x : Remote) => if x = old then new else x }

/-- Bytes of a message whose body is so many numbers, with its header and its tag (R432): the manual gives no length to the bodies of any type but
PULL_DATA and EVENT_FWD, and each of their numbers takes eight bytes. [DESIGN CHOICE, log entry 134] -/
def msgBytes (n : Nat) : Nat := 48 + 8 * n

/-- The message of a remote move: who sends it, and the queue position that names the move; GEN is 0 for a NOTICE (R432). -/
def Remote.msg (r : Remote) (ty : Nat) (body : List Nat) : LinkMsg :=
  { LinkMsg.dflt with ty := ty, hoop := r.hoop, peerHoop := r.peerHoop, gen := if msgClass ty = 2 then 0 else r.gen, pos := r.pos, queue := r.queue, body := body,
                      bytes := msgBytes body.length }

/-- What the giver sends: its tiles, or one picot stream of them (R441); `host` is what host memory holds of an object homed in T4 (R166). -/
def State.payload (s : State) (k h codec param : Nat) (host : SMap Byte) : SMap Byte × Nat :=
  let m := { Move.dflt with hoop := h, obj := k, codec := 2, param := param, hostBytes := host }
  let o := { s.obj k with data := s.moveSource m }
  if codec = 2 then
    match s.moveLayout m with
    | some l => let e := pcEncode o.data l (s.encNsub l) [(0, s.moveUnits m)]; (e.1, e.2.1)
    | none => (o.data, o.size)
  else (o.data, o.size)

/-- Answer a pull: every tile of the giver's payload, charged to the LINK regulator of the transmitting hoop (R441), and for a
return the PREPARED that follows them. -/
def State.sendTiles (s : State) (r : Remote) : State :=
  let o := s.obj r.obj
  let s := (s.transfer r.hoop false o.tier o.loc [(0, o.size)] .other).hostRead r.obj o.size
  let s := (List.range (ceilDiv r.size 4096)).foldl (fun (s : State) t =>
    s.sendMsg r.peer { r.msg 3 ((tileCrc r.data t).toNat :: (mgetList (0 : Byte) r.data (4096 * t) 4096).map (·.toNat)) with aux := t, bytes := 4148 }) s
  let s := match r.coded, s.peerLink r.peer with
    | true, some n => (s.addPieces (R.LC_TX_IN_MIB n) (2 ^ 20) (s.obj r.obj).size).addPieces (R.LC_TX_OUT_MIB n) (2 ^ 20) r.size
    | _, _ => s
  if r.role = .lent then s.sendMsg r.peer (r.msg 4 [r.peerHandle, 0, 0, 0, r.size, b2n r.compressed]) else s

/-- Start a remote move: no writer, no earlier move of the object (R182, R183, R439). A taker also needs its allocation. `alloc`
is 1 once the start is made: MOVE_REQ sent by an initiator, the pull sent by a taker, the payload fixed by a giver. -/
def State.startRemote (s : State) (r : Remote) : State :=
  let o := s.obj r.obj
  let earlier := (s.moves.any fun x => decide (x.obj = r.obj ∧ x.id < r.cmd)) || s.remotes.any fun x => decide (x.obj = r.obj ∧ x.cmd < r.cmd)
  let failed := s.flights.any fun f => decide (f.id = r.cmd) && f.fail.isSome
  let req := fun (s : State) (r' : Remote) (aux : Nat) (body : List Nat) => ((s.setRemote r r').noteOcc 4).sendMsg r.peer { r'.msg 1 body with aux := aux }
  if r.alloc ≠ 0 ∨ s.hasWriter r.obj ∨ earlier ∨ failed ∨ (r.asked = false ∧ s.linkFull r.peer = true) then s
  else
    match r.role, s.flights.find? fun f => decide (f.id = r.cmd) with
    | .pushInit, some f =>
      let coded := decide (bytesAt f.cmd.bits 20 1 / 16 % 4 = 2)
      let e := s.payload r.obj r.hoop (if coded then 2 else 0) (bytesAt f.cmd.bits 24 4) r.data
      let r' := { r with alloc := 1, data := e.1, size := e.2, kind := o.kind, compressed := o.compressed, coded := coded }
      match s.moveError { Move.dflt with id := r.cmd, kind := .command r.cmd, hoop := r.hoop, obj := r.obj, tier := 5, loc := r.peer, codec := if coded then 2 else 0, param := bytesAt f.cmd.bits 24 4, hostBytes := r.data } with
      | some e =>
        let s := if e.1 = 0x300 then s.addReg (R.TILE_CHECK_COUNT r.hoop) 1 else s
        s.setFlights fun x => if x.id = r.cmd then { x with fail := some e } else x
      | none => req s r' 0 [s.handleOf r.obj, o.kind, e.2, b2n o.compressed + 2 * b2n coded, o.size]
    | .returnInit, some f =>
      let unit := locUnit r.tier r.loc
      let coded := decide (bytesAt f.cmd.bits 20 1 / 16 % 4 = 2)
      -- step 1 goes out before step 2 has room
      let r1 := { r with asked := true, coded := coded }
      let s := if r.asked then s else req s r1 1 [o.aux, bytesAt f.cmd.bits 24 4, b2n coded]
      let r := r1
      if r.tier = 3 ∧ s.admitsAll r.loc o.ntiles = false then
        let s := (s.countRefusal r.loc o.ntiles fun _ => 0).sendMsg r.peer (r.msg 7 [])
        { s with remotes := s.remotes.filter (fun x => decide (x ≠ r)),
                 flights := s.flights.map fun (x : InFlight) => if x.id = r.cmd then { x with done := true, code := 0x301, detail := moveDetail 0 o.tier } else x }
      else if s.poolCap r.tier r.hoop < o.bytes then s.setFlights fun x => if x.id = r.cmd then { x with fail := some (0x202, 0) } else x
      else if s.roomFor r.hoop r.tier unit o.bytes ∧ (r.tier ≠ 4 ∨ (s.t4Fit r.hoop o.ntiles).isSome) then
        let aux := if r.tier = 4 then (s.t4Fit r.hoop o.ntiles).getD 0 else 0
        let s := if r.tier = 3 then s.chargeAll r.loc o.ntiles else s
        let s := { s with allocs := s.allocs ++ [(⟨.cmd r.cmd, r.hoop, r.tier, unit, o.bytes, s.placeMask r.tier r.loc⟩ : Alloc)] }
        let s := (s.endWait fun w => decide (w.move = some r.cmd)).setRemote r { r with alloc := 1, aux := aux, place := s.placeMask r.tier r.loc, kind := o.kind, size := o.size, compressed := o.compressed }
        s.sendMsg r.peer (r.msg 2 [o.aux])
      else (s.waitRoom ⟨r.hoop, r.tier, unit, o.bytes, s.count, none, some r.cmd, none⟩).1
    | .inbound, _ =>
      if s.roomFor r.hoop 2 0 o.bytes then
        let s := { s with allocs := s.allocs ++ [(⟨.move r.cmd, r.hoop, 2, 0, o.bytes, 0⟩ : Alloc)] }
        (((s.endWait fun w => decide (w.move = some r.cmd)).setRemote r { r with alloc := 1 }).noteOcc 4).sendMsg r.peer (r.msg 2 [r.peerHandle])
      else (s.waitRoom ⟨r.hoop, 2, 0, o.bytes, s.count, none, some r.cmd, none⟩).1
    | .lent, _ =>
      match s.moveError { Move.dflt with id := r.cmd, kind := .command r.cmd, hoop := r.hoop, obj := r.obj, tier := 5, loc := r.peer, codec := if r.coded then 2 else 0, param := r.peerHandle } with
      | some e =>
        -- the giver's check failed: PREPARED carries the code, and the object is no longer lent
        let s := if e.1 = 0x300 then s.addReg (R.TILE_CHECK_COUNT r.hoop) 1 else s
        let s := { s with remotes := s.remotes.filter fun x => decide (x ≠ r) }
        let tile := decide (e.1 = 0x300)
        s.sendMsg r.peer (r.msg 4 [s.handleOf r.obj, e.1, bytesAt e.2 (if tile then 4 else 8) (if tile then 4 else 1), bytesAt e.2 (if tile then 8 else 12) (if tile then 1 else 4), 0, 0])
      | none =>
      let e := s.payload r.obj r.hoop (if r.coded then 2 else 0) r.peerHandle []
      let r' := { r with alloc := 1, data := e.1, size := e.2, kind := o.kind, compressed := o.compressed, peerHandle := s.handleOf r.obj }
      let s := (s.setRemote r r').noteOcc 4
      -- `prepared` records a pull that came before the writer committed
      if r.prepared then s.sendTiles r' else s
    | _, _ => s

/-- The head of a queue meets the write budget with its T3 allocations (R216, R217): answers whether all are admitted; each one refused
counts once while the command waits. -/
def State.meetBudget (s : State) (h q : Nat) (l : List (Nat × Nat × Nat)) : State × Bool :=
  match s.t3Refusals l with
  | [] => (l.foldl (fun s e => s.chargeAll e.2.1 e.2.2) s, true)
  | bad =>
    let key := h * 64 + q
    let x := mget Cq.dflt s.cqs key
    let s' := (bad.filter fun e => !x.t3Refused.contains e.1.1).foldl (fun (s : State) e => s.countRefusal e.1.2.1 e.1.2.2 (s.claimsOf e.2)) s
    ({ s' with cqs := mset Cq.dflt s'.cqs key { x with headDelayed := true, t3Refused := (x.t3Refused ++ bad.map fun e => e.1.1).eraseDups } }, false)

/-- Start what can start. An eviction may need room in the next tier down, and so on: five passes reach the last one. -/
def State.startMoves (s : State) : State :=
  let s := s.freeTargets.startPass.startPass.startPass.startPass.startPass
  s.remotes.foldl (fun s r => s.startRemote r) s

/-- A list of tiles' check entries for a content: VALID with their CRCs, those of `bad` POISONED. -/
def tilesOf (data : SMap Byte) (n : Nat) (bad : Nat → Bool) : SMap Tile :=
  (List.range n).foldl (fun m t => mset ⟨.unwritten, 0⟩ m t ⟨if bad t then .poisoned else .valid, tileCrc data t⟩) []

/-- What a move puts at its target: the object there, and how many blocks and which first one did not match (R388). -/
def State.moveResult (s : State) (m : Move) : Obj × Nat × BitVec 192 :=
  let o := s.obj m.obj
  let src := s.moveSource m
  -- R181: of a DECLARED object the tier and the location change, and nothing else
  if o.homed = false then ({ o with tier := m.tier, loc := m.loc }, 0, moveDetail 0 o.tier) else
  let base := { o with tier := m.tier, loc := m.loc, aux := m.aux, place := s.placeOf (.move m.id), age := (match m.ageStamp with | some a => a | none => s.pos) }
  if m.codec = 1 then
    match pcParse src o.size with
    | .error _ => (base, 0, 0)
    | .ok st =>
      let outs := (List.range st.nblock).map fun b => (b, (match st.regionOf b with | some r => r.declared b | none => (0, 0)), pcDecodeBlock src o.size st b)
      let data := outs.foldl (fun d e => msetList 0 d e.2.1.1 e.2.2.bytes) ([] : SMap Byte)
      let bad := outs.filter fun e => e.2.2.sizeOver || e.2.2.sizeUnder
      let poisoned := fun (t : Nat) => bad.any fun e => decide (e.2.1.1 / 4096 ≤ t ∧ t ≤ (e.2.1.1 + e.2.1.2 - 1) / 4096)
      let det := match bad with
        | [] => moveDetail (4096 * ceilDiv st.usize 4096) o.tier
        | e :: _ => setBytes (setBytes (setBytes (moveDetail (4096 * ceilDiv st.usize 4096) o.tier) 12 4 e.1) 16 4 (bad.filter fun e => e.2.2.sizeOver).length) 20 4 (bad.filter fun e => e.2.2.sizeUnder).length
      let code := match bad with | [] => 0 | e :: _ => if e.2.2.sizeOver then 0x500 else 0x501
      ({ base with data := data, size := st.usize, compressed := false, tileDflt := ⟨.unwritten, 0⟩, tiles := tilesOf data (ceilDiv st.usize 4096) poisoned }, code, det)
  else if m.codec = 2 then
    match s.moveLayout m with
    | none => (base, 0, 0)
    | some l =>
      let (data, size, _) := pcEncode src l (s.encNsub l) (m.ranges.map fun r => (r.first, r.count))
      ({ base with data := data, size := size, compressed := true, tileDflt := ⟨.unwritten, 0⟩, tiles := tilesOf data (ceilDiv size 4096) fun _ => false },
       0, moveDetail (4096 * ceilDiv size 4096) o.tier)
  else
    let lost := (List.range o.ntiles).filter fun t => decide (t ∈ m.bad) || (decide (o.homed = true ∧ o.tier = 3) && !s.live .skein (o.tileStack t))
    let base := { base with data := src, tiles := lost.foldl (fun l t => mset base.tileDflt l t ⟨.poisoned, (o.tile t).crc⟩) base.tiles }
    let base := if m.tier = 4 then { base with tileDflt := ⟨.valid, 0⟩, tiles := [] }
      else if o.tier = 4 then { base with tileDflt := ⟨.unwritten, 0⟩, tiles := tilesOf src o.ntiles fun _ => false } else base
    (base, 0, moveDetail o.bytes o.tier)

/-- The commit of a move (R180 step 5, R369, R385): the target becomes the home, the old allocation is released, and the
tiles an encoding did not need return to the pool and the budget. -/
def State.moveCommit (s : State) (m : Move) : State × Nat × BitVec 192 :=
  let o := s.obj m.obj
  let worst := s.moveTiles m
  let place := s.placeOf (.move m.id)
  let (o', code, det) := s.moveResult m
  let s := { s with moves := s.moves.filter (fun x => decide (x.id ≠ m.id)), allocs := s.allocs.filter (fun a => decide (a.holder ≠ Holder.move m.id)) }
  let s := if o.homed then s.retire m.obj (oHoop m.obj) o.tier (locUnit o.tier o.loc) o.bytes else s
  let s := if m.tier = 3 ∧ o.homed = true then s.programAll place [(0, o'.ntiles)] else s
  let s := if m.tier = 3 ∧ o.homed = true ∧ m.codec = 2 then s.refund place worst [(0, o'.ntiles)] else s
  let s := if m.kind.isEviction then
      (if m.kind = .evict then ((s.addReg (R.EVICT_COUNT o.tier) 1).addPieces (R.EVICT_KIB o.tier) 1024 o.bytes).addReg (R.EVICTED_COUNT (oHoop m.obj)) 1 else s)
    else s
  let s := s.setObj m.obj o'
  let s := match m.restores with | some i => { s with ctxs := mmod Ctx.dflt s.ctxs i fun c => { c with copying := true } } | none => s
  (match m.forCtx with | some i => if o.tier = 2 then s.keep i o.bytes else s | none => s, code, det)

end Sys2Proof.Machine
end

