-- ==== Sys2Proof/Machine/Header.lean ====
section
/-! DEFINITION. What a pattern's own bytes say (R277 to R279): its header, bindings, streams and steps, and the knots that its steps
name (R317, R402). -/

namespace Sys2Proof.Machine

/-! ## The header (R277), bindings (R278) and streams (R279) -/

def Obj.pNcores (p : Obj) : Nat := p.rd 6 1
def Obj.pNslot (p : Obj) : Nat := p.rd 7 1
def Obj.pNbind (p : Obj) : Nat := p.rd 8 1
def Obj.pStochastic (p : Obj) : Bool := bit (p.rdBits 8 9) 0
def Obj.pNlayers (p : Obj) : Nat := p.rd 10 2
def Obj.pStageKib (p : Obj) : Nat := p.rd 12 4
def Obj.pScratchKib (p : Obj) : Nat := p.rd 16 4
def Obj.pT1Kib (p : Obj) : Nat := p.rd 20 4
def Obj.pNdesc (p : Obj) : Nat := p.rd 32 2
def Obj.pStreamOff (p : Obj) : Nat := p.rd 36 4
def Obj.pSummaryOff (p : Obj) : Nat := p.rd 48 4
def Obj.pConstOff (p : Obj) : Nat := p.rd 52 4
def Obj.pConstSize (p : Obj) : Nat := p.rd 56 4

/-- One binding entry (R278). -/
structure Binding where
  slot : Nat
  kind : Nat
  dir : Nat
  objKind : Nat
  minKib : Nat
  deriving DecidableEq, Repr

def Obj.pBind (p : Obj) (i : Nat) : Binding :=
  let a := p.rd 24 4 + 8 * i
  ⟨p.rd a 1, p.rd (a + 1) 1, p.rd (a + 2) 1, p.rd (a + 3) 1, p.rd (a + 4) 4⟩
def Obj.pBinds (p : Obj) : List Binding := (List.range p.pNbind).map p.pBind

/-- Slots a binding takes. -/
def Binding.width (b : Binding) : Nat := if b.kind = 1 then 4 else 1

/-- Offset and length of stream `k` (R279). -/
def Obj.pStream (p : Obj) (k : Nat) : Nat × Nat := (p.rd (p.pStreamOff + 8 * k) 4, p.rd (p.pStreamOff + 8 * k + 4) 4)

/-- Step `i` of stream `k`. -/
def Obj.pStep (p : Obj) (k i : Nat) : BitVec 256 := p.rdBits 256 ((p.pStream k).1 + 32 * i)

/-- Every step with its stream and its index in it. -/
def Obj.pSteps (p : Obj) : List (Nat × Nat × BitVec 256) :=
  (List.range p.pNcores).flatMap fun k => (List.range (p.pStream k).2).map fun i => (k, i, p.pStep k i)

/-! ## Steps (R279) -/

abbrev Step := BitVec 256

def stOp (t : Step) : Nat := bytesAt t 0 1
def stLayer (t : Step) : Nat := bytesAt t 2 2
/-- A two-byte operand. -/
def st2 (t : Step) (i : Nat) : Nat := bytesAt t i 2
def st1 (t : Step) (i : Nat) : Nat := bytesAt t i 1
def st4 (t : Step) (i : Nat) : Nat := bytesAt t i 4
/-- Bit `i` of FLAGS. -/
def stFlag (t : Step) (i : Nat) : Bool := bit t (8 + i)

/-- Knots named by a pattern's halo steps, and by its knot steps (R317, R402). -/
def Obj.haloKnots (p : Obj) : List Nat :=
  (p.pSteps.flatMap fun e => if stOp e.2.2 = 0x18 ∨ stOp e.2.2 = 0x19 then [st2 e.2.2 20, st2 e.2.2 20 + 1] else []).eraseDups
def Obj.stepKnots (p : Obj) : List Nat := (p.pSteps.filterMap fun e => if stOp e.2.2 = 3 ∨ stOp e.2.2 = 4 then some (st2 e.2.2 4) else none).eraseDups

end Sys2Proof.Machine
end

