-- ==== Sys2Proof/Machine/Queues.lean ====
section
/-! DEFINITION. Command queues and what every command shares (R120 to R140, R167 to R171, R415 to R417): fetching past
marked positions, beginning, ending with a code, committing in order, the kill point, and the knots and contexts a
commit touches. -/

namespace Sys2Proof.Machine

/-! ## Queues -/

/-- The command queue `q` of hoop `h`. -/
def State.cq (s : State) (h q : Nat) : Cq := mget Cq.dflt s.cqs (h * 64 + q)

/-- Change a command queue. -/
def State.setCq (s : State) (h q : Nat) (x : Cq) : State := { s with cqs := mset Cq.dflt s.cqs (h * 64 + q) x }

/-- CQ_CTRL of a queue (R155, R156). -/
def cqCtrl (h q : Nat) : Nat := R.CQ_CTRL h (q % 32) (q / 32)

/-- Entries of a ring (R120). -/
def State.cqSize (s : State) (h q : Nat) : Nat := 2 ^ fld (s.reg (cqCtrl h q)) 4 5

/-- A ring in device memory (LOC 1)? -/
def State.cqDevice (s : State) (h q : Nat) : Bool := bit (s.reg (cqCtrl h q)) 1

/-- The event queue of a command queue. -/
def State.cqEq (s : State) (h q : Nat) : Nat := fld (s.reg (cqCtrl h q)) 12 4

/-- The object that holds a device ring. -/
def State.cqRing (s : State) (h q : Nat) : Option Nat := s.resolve h (s.reg (R.CQ_BASE_LO h (q % 32) (q / 32))).toNat

/-- The position after `p`, in 32 bits. -/
def nextPos (p : Nat) : Nat := (p + 1) % 2 ^ 32

/-- Entries between TAIL and DONE (R120). -/
def Cq.held (c : Cq) : Nat := (c.tail + 2 ^ 32 - c.done) % 2 ^ 32

/-- Positions from `a` up to `b` in modular order. -/
def posDiff (a b : Nat) : Nat := (b + 2 ^ 32 - a) % 2 ^ 32

/-- READ passes over marked positions without fetching them (R417). -/
def passMarks (marks : List Nat) (tail : Nat) : Nat → Nat → Nat
  | 0, r => r
  | n + 1, r => if r ≠ tail ∧ marks.contains r then passMarks marks tail n (nextPos r) else r

/-- DONE advances across positions that have committed or ended (R120, R417), and READ never lies behind it. -/
def advanceDone : Nat → Cq → Cq
  | 0, c => c
  | n + 1, c =>
    if c.marks.contains c.done || c.ended.contains c.done then
      advanceDone n { c with done := nextPos c.done, marks := c.marks.filter (· ≠ c.done), ended := c.ended.filter (· ≠ c.done),
                             read := if c.read = c.done then nextPos c.read else c.read }
    else c

/-- Count a position as committed, or as ended without a commit. -/
def State.markDone (s : State) (h q pos : Nat) (committed : Bool) : State :=
  let c := s.cq h q
  let c := if committed then { c with marks := c.marks ++ [pos] } else { c with ended := c.ended ++ [pos] }
  s.setCq h q (advanceDone (c.marks.length + c.ended.length + 1) c)

/-! ## Records of commands (R146) -/

/-- The record of a command (R146): type, code, flags and detail. -/
def State.cmdRec (s : State) (c : Cmd) (ty code flags : Nat) (detail : BitVec 192) : Rec :=
  { hoop := c.hoop, eq := s.cqEq c.hoop c.cq, ty := ty, fault := decide (code ≠ 0), forwarded := false, stamp := s.pos,
    source := 0x400 + 4 * c.hoop, context := if c.hasContext then c.context else 0, arrived := s.now, toHost := true,
    payload := payAt 24 4 c.tag (payAt 28 1 c.cq (payAt 29 1 c.opcode (payAt 30 2 code (payAt 32 4 c.pos (payAt 36 4 flags
      (payAt 40 24 detail.toNat 0)))))) }

/-! ## Rules and the records they are offered (R54, R55, R57, R78) -/

/-- A trigger rule. -/
def State.rule (s : State) (r : Nat) : Rule := mget Rule.dflt s.rules r

/-- BASE and COUNT of a hoop's range (R78). -/
def State.ruleBase (s : State) (h : Nat) : Nat := fld (s.reg (R.TRIG_PART h)) 0 13
def State.ruleCount (s : State) (h : Nat) : Nat := fld (s.reg (R.TRIG_PART h)) 16 14

/-- Is global rule `r` in hoop `h`'s range? -/
def State.ruleOf (s : State) (h r : Nat) : Bool := decide (s.ruleBase h ≤ r ∧ r < s.ruleBase h + s.ruleCount h)

/-- Record byte field in the payload. -/
def Rec.pay (r : Rec) (i n : Nat) : Nat := bytesAt r.payload (i - 24) n

/-- The record comes from the named source (R55): a stage number or an island detector. -/
def Rec.fromSrc (r : Rec) (w : Nat) : Bool :=
  if srcKind w = 0 then decide (r.ty = 3 ∧ r.pay 24 2 % 4096 = srcId w) else decide (r.ty = 0x10 ∧ r.pay 24 1 = srcId w)

/-- A rule is offered a record of its hoop whose ARM source, or FIRE source of a two-source rule, it names (R57). -/
def State.offered (s : State) (r : Nat) (rec : Rec) : Bool :=
  let x := s.rule r
  x.enabled && s.ruleOf rec.hoop r && (rec.fromSrc x.armSrc || (x.twoSource && rec.fromSrc x.fireSrc))

/-! ## Knots (R393 to R397) -/

/-- Key of knot `k` of hoop `h`. -/
def knotKey (h k : Nat) : Nat := h * 16384 + k

/-- The value of a knot. [DESIGN CHOICE, log entry 91] -/
def State.knot (s : State) (h k : Nat) : W32 := mget 0 s.knots (knotKey h k)

/-- Store a knot's value. -/
def State.setKnot (s : State) (h k : Nat) (v : W32) : State := { s with knots := mset 0 s.knots (knotKey h k) v }

/-- Is the knot held by a begun RUN_PATTERN (R397)? -/
def State.knotHeld (s : State) (h k : Nat) : Bool := s.heldKnots.any fun x => decide (x.knot = knotKey h k)

/-- The conditions of R395. -/
def knotCond (cond : Nat) (k n : W32) : Bool :=
  if cond = 0 then decide (n.toNat ≤ k.toNat)
  else if cond = 1 then decide (k = n)
  else decide ((k - n).toNat < 2 ^ 31)

/-- Give back the knots a command held: each is set to its base (R317, R402). -/
def State.unholdKnots (s : State) (id : Nat) : State :=
  let mine := s.heldKnots.filter fun x => decide (x.cmd = id)
  let s := { s with heldKnots := s.heldKnots.filter fun x => decide (x.cmd ≠ id) }
  { s with knots := mine.foldl (fun m x => mset 0 m x.knot x.base) s.knots }

/-! ## Contexts as commands see them (R233, R235) -/

/-- The context descriptor at an index. -/
def State.ctx (s : State) (i : Nat) : Ctx := mget Ctx.dflt s.ctxs i

/-- Change a descriptor. -/
def State.setCtx (s : State) (i : Nat) (c : Ctx) : State := { s with ctxs := mset Ctx.dflt s.ctxs i c }

/-- Is `i` an open context of hoop `h` (R231)? -/
def State.ctxOpen (s : State) (h i : Nat) : Bool := (s.ctx i).isOpen && decide ((s.ctx i).hoop = h)

/-- Every state object of the context is HOMED in T2 and its descriptor is in the active set (R234). -/
def State.resident (s : State) (i : Nat) : Bool :=
  let c := s.ctx i
  c.isOpen && c.inActive && c.objs.all fun k => (s.obj k).homed && decide ((s.obj k).tier = 2)

/-- The contexts a fetched or begun command names through its header. -/
def Cmd.ctxs (c : Cmd) : List Nat := if c.hasContext then [c.context] else []

/-! ## Releasing a begun command (R169, R416) -/

/-- A DETAIL of a record from fields (byte of the record, bytes, value). -/
def detailOf (l : List (Nat × Nat × Nat)) : BitVec 192 := l.foldl (fun d e => setBytes d (e.1 - 40) e.2.1 e.2.2) 0

/-- A RESTORE or PIN of a context that is closed ends: its index is not open (R255). [DEDUCED, log entry 43] -/
def State.endAsk (s : State) (i : Nat) : State := if (s.ctx i).ask = 0 then s else s.setReg (R.CTX_RESULT (s.ctx i).hoop) (w32 (1 + 16 * 1))

/-- An open that does not commit gives back its descriptor and new objects; attached objects stay (R239, R416). -/
def State.undoCtx (s : State) (i : Nat) : State :=
  let c := s.ctx i
  let s := (s.moves.filter fun m => decide (m.kind = .restore i)).foldl (fun s m => s.dropMove m.id) s
  let s := s.keepOnly i 0
  let s := c.objs.foldl (fun s k => if c.attached.contains k then s.modObj k fun o => { o with ctxState := false } else s.freeObj k) s
  (s.endAsk i).setCtx i Ctx.dflt

/-- Everything a begun command holds is released: fresh allocations, reservations, knots, moves, reads. Bytes not
programmed return to the write budget (R216). -/
def State.releaseFlight (s : State) (f : InFlight) : State :=
  let mine := s.moves.filter fun m => decide (m.kind = .command f.id ∨ m.kind = .armOnly f.id)
  let s := mine.foldl (fun s m => s.dropMove m.id) s
  let gone := s.remotes.filter fun r => decide (r.cmd = f.id ∧ (r.role = .pushInit ∨ r.role = .returnInit))
  let s := gone.foldl (fun s r => if r.begun then s.sendMsg r.peer (r.msg 7 []) else s) s
  let s := gone.foldl (fun s r => if r.role = .returnInit ∧ r.alloc ≠ 0 ∧ r.tier = 3 then s.endCharge r.place (s.obj r.obj).ntiles (r.got.map fun t => (t, 1)) else s) s
  let s := { s with remotes := s.remotes.filter (fun r => !(gone.contains r)) }.endWait fun w => decide (w.move = some f.id)
  let s := f.outs.foldl (fun s o => if (s.obj o.obj).tier = 3 then s.endCharge o.place (s.obj o.obj).ntiles (o.written.map fun t => (t, 1)) else s) s
  let s := s.unholdKnots f.id
  let s := (f.segs ++ f.news).foldl (fun s k => s.freeObj k) s
  let s : State := { s with
                    flights := s.flights.filter (fun x => decide (x.id ≠ f.id)), allocs := s.allocs.filter (fun a => decide (a.holder ≠ Holder.cmd f.id)),
                    walks := s.walks.filter fun w => decide (w.id ≠ f.id) }
  let s := f.cores.foldl (fun s c => s.addReg (R.KILLED_STEPS c) (f.streams.filter (fun t => decide (t.core = c ∧ t.running = true))).length) s
  let s := if f.cmd.opcode = 8 then f.ctxs.foldl (fun s i => s.undoCtx i) s else s
  let s := if f.cmd.opcode = 9 then s.setCtx f.cmd.context { s.ctx f.cmd.context with closing := false } else s
  (s.dropReader f.id).cancelDraws fun d => match d with | .step i _ => decide (i = f.id) | _ => false

/-- Kill every begun, uncommitted command that `p` selects (R416). A killed command posts no record. -/
def State.killWhere (s : State) (p : InFlight → Bool) : State := (s.flights.filter p).foldl (fun s f => s.releaseFlight f) s

/-- A CONTEXT_OPEN withdrawn from its queue's head gives back what it took. -/
def State.undoOpen (s : State) (h q : Nat) : State :=
  (s.ctxs.filter fun e => decide (e.2.opener = some (h * 64 + q))).foldl (fun s e => s.undoCtx e.1) s

/-- What the head of a queue has taken before its begin goes back: reservations, segments, a waiting request, a descriptor. -/
def State.withdrawHead (s : State) (h q : Nat) : State :=
  let s := if (s.cq h q).head.isSome then s.undoOpen h q else s
  let s := (s.cq h q).segs.foldl (fun s e => s.freeObj e.2) s
  let s := { s with allocs := s.allocs.filter fun a => decide (a.holder ≠ Holder.head (h * 64 + q)) }.endWait fun w => decide (w.cq = some (h * 64 + q))
  s.setCq h q { s.cq h q with head := none, headDelayed := false, t3Refused := [], segs := [], fenceAt := none }

/-- The kill point of one queue (R416, R417), counted in PRE_COUNT (R415, R423): its begun commands are killed, READ becomes DONE, the head is withdrawn,
PREEMPT_GEN rises, and of the positions between only those that committed stay passed over. [DEDUCED, log entries 50, 95] -/
def State.killQueue (s : State) (h q : Nat) : State :=
  let s := s.killWhere fun f => decide (f.cmd.hoop = h ∧ f.cmd.cq = q)
  let s := s.withdrawHead h q
  let c := s.cq h q
  let s := if c.mode = .running then s.addReg (R.PRE_COUNT h) 1 else s
  s.setCq h q { c with read := c.done, ended := [], preemptGen := (c.preemptGen + 1) % 65536 }

/-- Commands a kill of the queue stops: the begun ones, and a KNOT_WAIT, AT_STITCH or FENCE waiting at the head. [DEDUCED, log entry 50] -/
def State.killCount (s : State) (h q : Nat) : Nat :=
  (s.flights.filter fun f => decide (f.cmd.hoop = h ∧ f.cmd.cq = q)).length +
  (match (s.cq h q).head with | some c => if c.opcode = 3 ∨ c.opcode = 5 ∨ c.opcode = 6 then 1 else 0 | none => 0)

/-! ## Ending with a class C code (R138) -/

/-- The commit-table entry of a begun command that its record keeps: of its first core's window, of its move's first shuttle, or of the link of
its remote move (R20). [DEDUCED, log entry 112] -/
def State.entryOf (s : State) (f : InFlight) : Option (Nat × Nat) :=
  match f.cores with
  | n :: _ => some (0, n)
  | [] =>
    match s.moves.find? fun m => decide (m.kind = .command f.id) with
    | some m => (m.ranges.findSome? fun r => r.shuttle).map fun u => (1, u)
    | none => ((s.remotes.find? fun r => decide (r.cmd = f.id) && r.begun).bind fun r => s.peerLink r.peer).map fun n => (4, n)

/-- A command ends with a class C code: it commits nothing, posts COMMAND_FAULT and, with HALT_ON_FAULT, halts its queue
after killing the later begun commands. -/
def State.endCmd (s : State) (c : Cmd) (code : Nat) (detail : BitVec 192) : State :=
  let h := c.hoop
  let q := c.cq
  let ent := (s.flights.find? fun f => decide (f.cmd = c)).bind s.entryOf
  let s := s.killWhere fun f => decide (f.cmd = c)
  let s := (s.post { s.cmdRec c 2 code 0 detail with entry := ent }).addReg (R.CMD_FAULT_COUNT h) 1
  let s := if (s.cq h q).head = some c then s.withdrawHead h q else s
  if bit (s.reg (cqCtrl h q)) 2 then
    let s := s.killWhere fun f => decide (f.cmd.hoop = h ∧ f.cmd.cq = q ∧ posDiff c.pos f.cmd.pos < 2 ^ 31 ∧ f.cmd.pos ≠ c.pos)
    let s := s.withdrawHead h q
    let x := s.cq h q
    s.setCq h q { x with mode := .halted, failed := c.pos, read := nextPos c.pos, ended := x.ended.filter fun p => decide (2 ^ 31 ≤ posDiff c.pos p) }
  else s.markDone h q c.pos false

/-! ## Beginning -/

/-- A fetched command begins: it leaves the head and is held until it commits or ends (R125, R167). -/
def State.beginCmd (s : State) (f : InFlight) : State :=
  let c := f.cmd
  let x := s.cq c.hoop c.cq
  let s := s.setCq c.hoop c.cq { x with head := none, headDelayed := false, t3Refused := [], segs := [] }
  let s := s.endWait fun w => decide (w.cq = some (c.hoop * 64 + c.cq))
  { s with flights := s.flights ++ [f] }.noteOcc 0

/-- A begun command with nothing to do before its commit. -/
def InFlight.of (id : Nat) (c : Cmd) (stamp : Nat) (done : Bool) : InFlight :=
  { InFlight.dflt with id := id, cmd := c, begin_ := stamp, done := done, ctxs := c.ctxs }

/-- A command that names a context which is CLOSING or FREE when it begins (R235). -/
def State.ctxGone (s : State) (c : Cmd) : Bool := c.hasContext && (!s.ctxOpen c.hoop c.context || (s.ctx c.context).closing)

/-- A command that names a context which is gone ends (R235), and stays ended whatever is killed later (R416). -/
def State.endGone (s : State) (c : Cmd) : State :=
  let s := s.endCmd c 0x202 0
  let x := s.cq c.hoop c.cq
  if x.ended.contains c.pos then s.setCq c.hoop c.cq { x with ended := x.ended.filter fun p => decide (p ≠ c.pos), marks := x.marks ++ [c.pos] } else s

/-- Begin the head as a command that is complete at once. -/
def State.beginDone (s : State) (c : Cmd) (flags : Nat) (detail : BitVec 192) : State :=
  if s.ctxGone c then s.endGone c else
  let (s', id) := s.fresh
  s'.beginCmd { InFlight.of id c s.pos true with flags := flags, detail := detail, code := if (s.cq c.hoop c.cq).headDelayed then 0x301 else 0 }

/-- Change a begun command. -/
def State.setFlight (s : State) (f : InFlight) : State := { s with flights := s.flights.map fun (x : InFlight) => if x.id = f.id then f else x }

/-- The begun command with an identifier. -/
def State.flight (s : State) (id : Nat) : Option InFlight := s.flights.find? fun f => decide (f.id = id)

/-! ## Committing (R136, R140, R143, R168) -/

/-- Test the KNOT_WAIT heads of hoop `h` that name knot `k` against its value (R395): a satisfied one is complete. -/
def State.testWaits (s : State) (h k : Nat) : State :=
  (List.range 64).foldl (fun s q =>
    match (s.cq h q).head with
    | some c =>
      if c.opcode = 3 ∧ c.knot = k ∧ knotCond c.knotOp (s.knot h k) c.knotValue = true then
        (s.beginDone c 0 (detailOf [(40, 4, (s.knot h k).toNat)])).addReg (R.KN_WAIT_COUNT h) 1
      else s
    | none => s) s

/-- An ADD or RESET from a command, the knot window or a link (R393 to R397): discarded while the knot is held. -/
def State.knotOp (s : State) (h k : Nat) (reset : Bool) (n : W32) (counted : Bool) : State :=
  if s.knotHeld h k then s.addReg (R.KN_HELD_DISCARDS h) 1
  else
    let s := s.setKnot h k (if reset then 0 else s.knot h k + n)
    let s := if counted then s.addReg (R.KN_SIGNAL_COUNT h) 1 else s
    s.testWaits h k

/-- Every earlier command of the queue has committed or ended (R136). -/
def State.earlierDone (s : State) (c : Cmd) : Bool :=
  !(s.flights.any fun f => decide (f.cmd.hoop = c.hoop ∧ f.cmd.cq = c.cq ∧ f.cmd.pos ≠ c.pos ∧ posDiff f.cmd.pos c.pos < 2 ^ 31))

/-- Records of the hoop's sequencer bound for an event queue. -/
def State.inSequencer (s : State) (h e : Nat) : Nat := ((s.hoop h).held.filter fun r => decide (r.eq = e ∧ r.toHost = true)).length

/-- Room for `n` more command records under STALL (R143). A disabled queue and one with FULL_MODE DROP never make a
commit wait. -/
def State.eqRoom (s : State) (h e n : Nat) : Bool :=
  !(s.eq h e).en || bit (s.reg (R.EQ_CTRL h e)) 2 ||
  (decide ((s.eq h e).pendingCount + s.inSequencer h e + n ≤ s.eqSize h e) && (s.eq h e).held.isEmpty)

/-- Is the record delivered to trigger unit `u`: is an enabled rule of the unit offered it (R52, R57)? [DEDUCED, log entry 49] -/
def State.reachesUnit (s : State) (u : Nat) (r : Rec) : Bool := s.rules.any fun e => decide (e.1 / 512 = u) && s.offered e.1 r

/-- The units the record is delivered to have room for it (R58). -/
def State.unitsRoom (s : State) (r : Rec) : Bool := s.tus.all fun e => !s.reachesUnit e.1 r || decide (e.2.inq.length < 256)

/-- Does the commit of this command post a record to its queue's event queue? -/
def InFlight.posts (f : InFlight) : Bool :=
  f.cmd.eventOnCommit || decide (f.code ≠ 0) || decide (f.cmd.opcode = 6) || (decide (f.cmd.opcode = 3) && bit (w32 f.flags) 1)

/-- Records its commit writes to event queue `e`: a STAGE_RESULT and a COMMAND_DONE with a class N code (R140), one command record, and the
record of a POST_EVENT (R135). -/
def State.commitRecs (s : State) (f : InFlight) (e : Nat) : Nat :=
  (if e = s.cqEq f.cmd.hoop f.cmd.cq then
    (if f.stageRec.isSome then f.cmd.eventOnCommit.toNat + (decide (f.code ≠ 0)).toNat else f.posts.toNat) else 0) +
  (if f.cmd.opcode = 7 ∧ e = f.cmd.postEq then 1 else 0)

/-- The event queues its commit writes records to, and the units its STAGE_RESULT is delivered to, have room (R58, R143). -/
def State.commitRoom (s : State) (f : InFlight) : Bool :=
  ([s.cqEq f.cmd.hoop f.cmd.cq, f.cmd.postEq].all fun e => decide (s.commitRecs f e = 0) || s.eqRoom f.cmd.hoop e (s.commitRecs f e)) &&
  (match f.stageRec with | some r => s.unitsRoom r | none => true)

/-- Replace the tiles a command wrote in one output object (R168, R172): content, check entries, age, home. -/
def State.commitOut (s : State) (o : OutBuf) : State :=
  let p := s.obj o.obj
  let inW := fun (k : Nat) => o.written.contains (k / 4096)
  let data := mmerge (0 : Byte) inW p.data o.data
  let tiles := o.written.foldl (fun m t => mset p.tileDflt m t ⟨.valid, tileCrc data t⟩) p.tiles
  let s := if p.homed then s.retire o.obj (oHoop o.obj) p.tier (locUnit p.tier p.loc) (4096 * o.written.length) else s
  let s := if p.tier = 3 then s.programAll o.place (o.written.map fun t => (t, 1)) else s
  let s := s.transfer (oHoop o.obj) true p.tier p.loc (o.written.map fun t => (t, 4096)) .other
  s.setObj o.obj { p with data := data, tiles := tiles, homed := true, place := if p.homed = true ∧ o.written.length < p.ntiles then p.place else o.place, age := s.pos }

/-- The age stamp of an object becomes the commit stamp (R168). -/
def State.touch (s : State) (k : Nat) : State := if (s.obj k).used then s.modObj k fun o => { o with age := s.pos } else s

/-- Free an open context's descriptor (R240), and release or detach its state objects. -/
def State.closeCtx (s : State) (i : Nat) (detach : Bool) : State :=
  let c := s.ctx i
  let s := c.objs.foldl (fun s k => if detach then s.modObj k fun o => { o with ctxState := false } else s.freeObj k) s
  (s.endAsk i).setCtx i Ctx.dflt

/-- Step 4 of a remote move (R439): the initiating MOVE commits, and COMMITTED goes to the peer. A pushed object's entry
becomes T5 and its allocation is released; a returned object is homed at the target, decoded where its tiles are a stream
(R441). -/
def State.remoteCommit (s : State) (r : Remote) : State :=
  let o := s.obj r.obj
  let s := { s with remotes := s.remotes.filter fun x => decide (x ≠ r) }
  let s := s.sendMsg r.peer (r.msg 6 [])
  if r.role = .pushInit then
    (s.retire r.obj r.hoop o.tier (locUnit o.tier o.loc) o.bytes).setObj r.obj
      { o with tier := 5, loc := r.peer, aux := r.peerHandle, data := [], tiles := [], tileDflt := ⟨.valid, 0⟩, age := s.pos, compressed := o.compressed && !r.coded }
  else
    let s := s.transfer r.hoop true r.tier r.loc [(0, r.size)] .other
    let s := if r.tier = 4 then s.hostWrite r.obj r.aux r.size else s
    (if r.tier = 3 then s.programAll r.place [(0, o.ntiles)] else s).setObj r.obj { o with
      tier := r.tier, loc := r.loc, homed := true, place := r.place, aux := r.aux, data := r.data, size := r.size, compressed := r.compressed, age := s.pos,
      tileDflt := ⟨.unwritten, 0⟩, tiles := tilesOf r.data (ceilDiv r.size 4096) fun t => r.poison.contains t }

/-- What the root of trust holds of a hoop. -/
def State.hoopSec (s : State) (h : Nat) : HoopSec := mget HoopSec.dflt s.rot.hoops h

/-- Change it. -/
def State.setHoopSec (s : State) (h : Nat) (x : HoopSec) : State := { s with rot := { s.rot with hoops := mset HoopSec.dflt s.rot.hoops h x } }

/-- Extend a hoop's measurement register with a digest (R536). -/
def State.extendMr (s : State) (h : Nat) (d : BitVec 384) : State :=
  let x := s.hoopSec h
  s.setHoopSec h { x with mr := Config.sha384 (toBytes 48 x.mr ++ toBytes 48 d), extends_ := x.extends_ + 1 }

/-- A package leaves its hoop's list when the last of its objects is released (R529). -/
def State.livePkgs (s : State) (h : Nat) : List Package := (s.hoopSec h).pkgs.filter fun p => p.objs.any fun e => (s.obj e.1).used && decide ((s.obj e.1).gen = e.2)

/-- The commit of a SEAL_LOAD (R528 step 5). -/
def State.sealCommit (s : State) (h : Nat) (p : Package) (d : BitVec 384) : State :=
  let s := s.setHoopSec h { s.hoopSec h with pkgs := s.livePkgs h ++ [{ p with stamp := s.count }] }
  s.extendMr h d

/-- The commit effects that are a command's own: a knot signal (R399), a user record (R135), a context opened (R239) or
closed (R240, R241), a sealed package loaded (R528). Answers the class N code and detail the commit adds. -/
def State.commitOwn (s : State) (f : InFlight) : State × Nat × Nat × BitVec 192 :=
  let c := f.cmd
  if c.opcode = 4 then
    if c.knotRemote then
      (s.sendMsg c.knotPeer { LinkMsg.dflt with ty := 8, hoop := c.hoop, peerHoop := c.knotPeerHoop, pos := c.pos, queue := c.cq, body := [c.knot, c.knotOp, c.knotValue.toNat], bytes := msgBytes 3 }, f.code, f.flags, f.detail)
    else
      let held := s.knotHeld c.hoop c.knot
      let s' := s.knotOp c.hoop c.knot (decide (c.knotOp = 1)) c.knotValue true
      let v := if held then s.knot c.hoop c.knot else if c.knotOp = 1 then 0 else s.knot c.hoop c.knot + c.knotValue
      (s', f.code, f.flags + (if held then 4 else 0), detailOf [(40, 4, v.toNat)])
  else if c.opcode = 2 then
    match s.remotes.find? fun r => decide (r.cmd = f.id ∧ (r.role = .pushInit ∨ r.role = .returnInit)) with
    | some r => (s.remoteCommit r, f.code, f.flags, f.detail)
    | none =>
      match s.moves.find? fun m => decide (m.kind = .command f.id) with
      | some m => let (s', code, det) := s.moveCommit m; (s', code, f.flags, det)
      | none => (s, f.code, f.flags, f.detail)
  else if c.opcode = 7 then
    (s.post { s.cmdRec c 5 0 0 0 with eq := c.postEq, payload := c.postPayload, fault := false }, f.code, f.flags, f.detail)
  else if c.opcode = 8 then
    match f.ctxs with
    | i :: _ => (s.setCtx i { s.ctx i with opened := s.count, lastRun := s.count, runCount := 0, opener := none, attached := [] }, f.code, f.flags, f.detail)
    | [] => (s, f.code, f.flags, f.detail)
  else if c.opcode = 9 then
    let x := s.ctx c.context
    let leaks := (x.knots.zipIdx).filter fun (e : (Nat × W32) × Nat) => decide (s.knot c.hoop e.1.1 ≠ e.1.2)
    let s' := s.closeCtx c.context c.closeDetach
    match leaks with
    | [] => (s', f.code, f.flags, f.detail)
    | e :: _ =>
      (s', 0x600, f.flags, detailOf [(40, 1, leaks.foldl (fun a e => a + 2 ^ e.2) 0), (44, 4, e.1.1), (48, 4, e.1.2.toNat), (52, 4, (s.knot c.hoop e.1.1).toNat)])
  else if c.opcode = 10 then
    match f.package with
    | some (p, d) => (s.sealCommit c.hoop p d, f.code, f.flags, detailOf [(40, 4, p.nobj), (44, 16, p.id)])
    | none => (s, f.code, f.flags, f.detail)
  else (s, f.code, f.flags, f.detail)

/-- A record is delivered to every trigger unit that is ON (R103) with a rule it is offered to (R52, R57); a unit whose input queue it fills raises BACKPRESSURE
(R58). [DEDUCED, log entry 49] -/
def State.toUnits (s : State) (r : Rec) : State :=
  let s := { s with tus := (List.range 16).foldl (fun m u =>
    if s.isOn .triggerUnit u ∧ s.reachesUnit u r = true then mmod TrigUnit.dflt m u fun x =>
      { x with inq := x.inq ++ [r], fullAt := if 256 ≤ x.inq.length + 1 ∧ x.fullAt = none then some s.now else x.fullAt } else m) s.tus }
  (s.tus.filter fun e => s.isOn .triggerUnit e.1 && s.reachesUnit e.1 r && decide (256 ≤ e.2.inq.length)).foldl (fun (s : State) e => s.raise .triggerUnit e.1 0 0x110) s

/-- The checks made at the commit of a command that appended to KV regions or carried recurrent state, in the order of R331,
R333, R351: the code and DETAIL with which it ends instead. -/
def State.commitFail (s : State) (f : InFlight) : Option (Nat × BitVec 192) :=
  let regions := (f.appended.map (·.1)).eraseDups
  let read := fun (k : Nat) => match f.ins.find? fun e => decide (e.1 = k) with | some e => e.2 | none => Obj.dflt
  let det := fun (reason k : Nat) => setBytes (setBytes (reasonDetail reason 0xFFFFFFFF) 16 4 ((s.ctxs.find? fun e => e.2.objs.contains k).map (·.1) |>.getD 0)) 20 2 0
  let uneven := regions.find? fun k =>
    let o := read k
    let mine := f.appended.filter fun a => decide (a.1 = k)
    let n := mine.length / o.rd 6 2
    !((List.range (o.rd 6 2)).all fun l =>
      let ps := (mine.filter fun a => decide (a.2.1 = l)).map fun a => a.2.2.2
      decide (ps.length = n) && (List.range n).all fun i => ps.contains (o.rd 24 8 + i))
  let stale := regions.find? fun k => decide ((s.obj k).rd 24 8 ≠ (read k).rd 24 8)
  let ovl := f.carried.find? fun a => f.carried.any fun b => decide (a.1 = b.1 ∧ a.2.1 ≠ b.2.1 ∧ a.2.2.1 < b.2.2.1 + b.2.2.2.1 ∧ b.2.2.1 < a.2.2.1 + a.2.2.2.1)
  let recStale := f.carried.find? fun a => decide ((s.obj a.1).steps ≠ (read a.1).steps)
  match uneven with
  | some k => some (0x202, det 31 k)
  | none =>
    match stale with
    | some k => some (0x202, det 32 k)
    | none =>
      match ovl with
      | some a => some (0x202, setBytes (det 36 a.1) 20 4 (a.2.2.1 / 64))
      | none =>
        match recStale with
        | some a => some (0x202, setBytes (det 37 a.1) 20 4 (a.2.2.1 / 64))
        | none => none

/-- What a commit does to the counts its regions and states carry (R331, R351), and the DETAIL of a command that appended. -/
def State.commitCarried (s : State) (f : InFlight) : State × Option (BitVec 192) :=
  let regions := (f.appended.map (·.1)).eraseDups
  let s1 := regions.foldl (fun s k =>
    let o := s.obj k
    let n := (f.appended.filter fun a => decide (a.1 = k ∧ a.2.1 = 0)).length
    let data := msetList 0 o.data 24 ((List.range 8).map fun i => BitVec.ofNat 8 ((o.rd 24 8 + n) / 256 ^ i))
    s.setObj k { o with data := data, tiles := mset o.tileDflt o.tiles 0 ⟨.valid, tileCrc data 0⟩ }) s
  let states := (f.carried.map (·.1)).eraseDups
  let s2 := states.foldl (fun s k =>
    let t := (f.carried.filter fun a => decide (a.1 = k)).foldl (fun m a => max m a.2.2.2.2) 0
    s.modObj k fun o => { o with steps := (o.steps + t) % 2 ^ 64 }) s1
  let own := if f.cmd.hasContext then ((s.ctx f.cmd.context).objs.find? fun k => decide ((s.obj k).kind = 3)) else none
  let len := match own with | some k => if regions.contains k then (s2.obj k).rd 24 8 else 0 | none => 0
  (s2, if regions = [] then none else some (detailOf [(40, 4, regions.length), (44, 8, len)]))

/-- Commit one begun command at one stamp (R168): outputs replace their predecessors, ages are set, what it held is
released, its position counts as done, later begun commands of the queue that read its outputs see them (R170), and its
records are posted (R140, R146). -/
def State.commitWhole (s : State) (f : InFlight) : State :=
  let c := f.cmd
  let ent := s.entryOf f
  let s : State := { s with
                    flights := s.flights.filter (fun x => decide (x.id ≠ f.id)), allocs := s.allocs.filter (fun a => decide (a.holder ≠ Holder.cmd f.id)),
                    walks := s.walks.filter fun w => decide (w.id ≠ f.id) }
  let s := s.dropReader f.id
  let s := f.outs.foldl (fun s o => s.commitOut o) s
  let (s, det) := s.commitCarried f
  let f := match det with | some d => { f with detail := d } | none => f
  let s := f.ins.foldl (fun s e => s.touch e.1) s
  let s := f.segs.foldl (fun s k => s.freeObj k) s
  let mine := s.heldKnots.filter fun x => decide (x.cmd = f.id)
  let s := mine.foldl (fun s x => s.testWaits c.hoop (x.knot % 16384)) (s.unholdKnots f.id)
  let s := f.ctxs.foldl (fun s i => if (s.ctx i).isOpen then s.setCtx i { s.ctx i with lastRun := s.count, runCount := min (2 ^ 32 - 1) ((s.ctx i).runCount + 1) } else s) s
  let s := { s with flights := s.flights.map fun (g : InFlight) =>
    if g.cmd.hoop = c.hoop ∧ g.cmd.cq = c.cq ∧ posDiff c.pos g.cmd.pos < 2 ^ 31 then
      { g with ins := g.ins.map (fun (e : Nat × Obj) => if f.outs.any (fun o => decide (o.obj = e.1)) then (e.1, s.obj e.1) else e),
               outs := g.outs.map fun (w : OutBuf) => if f.outs.any (fun o => decide (o.obj = w.obj)) then
                 { w with data := mmerge (0 : Byte) (fun k => w.written.contains (k / 4096)) (s.obj w.obj).data w.data, declared := false } else w } else g }
  let (s, code, flags, detail) := s.commitOwn f
  let s := s.markDone c.hoop c.cq c.pos true
  let ev := f.posts || decide (code ≠ 0)
  let done : Rec := { s.cmdRec c (if c.opcode = 6 then 4 else 1) code flags detail with entry := ent }
  let s := match f.stageRec with
    | some r =>
      let r := { r with stamp := s.pos, arrived := s.now }
      let s := s.toUnits r
      let s := if c.eventOnCommit then s.post { r with toHost := true, entry := if code ≠ 0 then none else ent } else s
      if code ≠ 0 then s.post done else s
    | none => if ev then s.post done else s
  s.startMoves

/-- Commit one begun command, or end it with the class C code its commit checks give (R331, R333, R351). -/
def State.commitFlight (s : State) (f : InFlight) : State :=
  match s.commitFail f with
  | some e => (s.endCmd f.cmd e.1 e.2).startMoves
  | none => s.commitWhole f

/-! ## Status of contexts (R233, R235) -/

/-- Does an earlier, uncommitted command of `c`'s queue name the object as an output (R137)? -/
def State.earlierWrites (s : State) (c : Cmd) (k : Nat) : Bool :=
  s.flights.any fun g => decide (g.cmd.hoop = c.hoop ∧ g.cmd.cq = c.cq ∧ g.cmd.pos ≠ c.pos ∧ posDiff g.cmd.pos c.pos < 2 ^ 31) && g.outs.any fun o => decide (o.obj = k)

/-- Contexts that a RUN_PATTERN names through the context lists its slots bind (R235, R278); a list that an earlier command of the queue still
writes is not read yet (R137). -/
def State.listCtxs (s : State) (c : Cmd) : List Nat :=
  if c.opcode = 1 ∧ c.armOnly = false then
    match s.resolve c.hoop c.pattern with
    | none => []
    | some pk =>
      let p := s.obj pk
      (List.range (p.rd 8 1)).flatMap fun i =>
        let a := p.rd 24 4 + 8 * i
        if p.rd (a + 1) 1 = 2 then
          match s.resolve c.hoop (c.slot (p.rd a 1)) with
          | some k => if s.earlierWrites c k then [] else let o := s.obj k; (List.range (min 256 (o.rd 0 4))).map fun j => o.rd (4 + 4 * j) 4 % 2 ^ 18
          | none => []
        else []
  else []

/-- First slots of the SEGMENT bindings of a RUN_PATTERN (R131, R278). -/
def State.segSlots (s : State) (c : Cmd) : List Nat :=
  if c.opcode = 1 ∧ c.armOnly = false then
    match s.resolve c.hoop c.pattern with
    | none => []
    | some pk =>
      let p := s.obj pk
      (List.range (p.rd 8 1)).filterMap fun i => let a := p.rd 24 4 + 8 * i; if p.rd (a + 1) 1 = 1 then some (p.rd a 1) else none
  else []

/-- Is some segment of the head of its queue not made yet (R458)? -/
def State.segsMissing (s : State) (c : Cmd) : Bool := (s.segSlots c).any fun i => !((s.cq c.hoop c.cq).segs.any fun e => decide (e.1 = i))

/-- Does the head wait for the samples of a segment (R458)? One whose segment waits for room in T2 waits for an allocation. -/
def State.samplesMissing (s : State) (c : Cmd) : Bool := s.segsMissing c && !(s.waits.any fun w => decide (w.cq = some (c.hoop * 64 + c.cq)))

/-- Every context a command names. -/
def State.cmdCtxs (s : State) (c : Cmd) : List Nat := (c.ctxs ++ s.listCtxs c).eraseDups

/-- Is there a queue head of the context's hoop that names it and satisfies `p` (R231, R233)? -/
def State.headNames (s : State) (i : Nat) (p : Cmd → Bool) : Bool :=
  s.cqs.any fun e => match e.2.head with | some c => p c && decide (c.hoop = (s.ctx i).hoop) && (s.cmdCtxs c).contains i | none => false

/-- The outputs that a RUN_PATTERN binds, and the knots that it would hold (R278, R402). -/
def State.boundOuts (s : State) (c : Cmd) : List Nat :=
  match s.resolve c.hoop c.pattern with
  | none => []
  | some pk => (s.obj pk).pBinds.filterMap fun b => if b.kind = 0 ∧ b.dir ≠ 0 then s.resolve c.hoop (c.slot b.slot) else none
def State.patKnots (s : State) (c : Cmd) : List Nat :=
  match s.resolve c.hoop c.pattern with
  | none => []
  | some pk => ((s.obj pk).haloKnots ++ (s.obj pk).stepKnots).eraseDups

/-- Is the head a RUN_PATTERN that only residency, allocations or cores keep from beginning (R233)? One that waits for a segment, a held knot or
a move of its outputs waits for something else. -/
def State.runnableHead (s : State) (c : Cmd) : Bool :=
  decide (c.opcode = 1) && !c.armOnly && !s.samplesMissing c && !((s.patKnots c).any fun k => s.knotHeld c.hoop k) && !((s.boundOuts c).any s.moving)

/-- STATUS of a context (R233): the first that applies in the order of the table. -/
def State.ctxStatus (s : State) (i : Nat) : Nat :=
  let c := s.ctx i
  if !c.isOpen then 0
  else if c.closing then 6
  else if s.flights.any (fun f => decide (f.cmd.opcode ≠ 8) && f.ctxs.contains i) then 3
  else if s.headNames i s.runnableHead then 2
  else if s.headNames i (fun k => decide (k.opcode = 3)) then 4
  else if s.headNames i (fun k => decide (k.opcode = 5 ∨ k.opcode = 6) || s.samplesMissing k) then 5
  else 1

/-- Does the context wait for residency: runnable, or named by a CONTEXT_OPEN that waits? -/
def State.wanting (s : State) (i : Nat) : Bool := decide (s.ctxStatus i = 2) || (s.ctx i).opener.isSome

/-- Moves of a context's residency that run or wait. -/
def State.residencyMoves (s : State) (i : Nat) : List Move := s.moves.filter fun m => decide (m.kind = .restore i ∨ m.kind = .spill i)

/-- Does a restore of the context run or wait (R232)? -/
def State.isRestoring (s : State) (i : Nat) : Bool := (s.ctx i).restoring || ((s.wanting i || decide ((s.ctx i).ask = 1 ∨ (s.ctx i).ask = 2)) && !s.resident i)

/-- Contexts of a hoop that are pinned, and the bytes of a context's state. -/
def State.pinnedCtxs (s : State) (h : Nat) : Nat := (s.ctxs.filter fun e => e.2.isOpen && decide (e.2.hoop = h ∧ 0 < e.2.pins)).length
def State.ctxBytes (s : State) (i : Nat) : Nat := (s.ctx i).objs.foldl (fun a k => a + (s.obj k).bytes) 0

/-- May the context take one more pin (R191, R242)? -/
def State.pinAllowed (s : State) (i : Nat) : Bool :=
  let c := s.ctx i
  if 65535 ≤ c.pins then false
  else if 0 < c.pins then true
  else decide (s.pinned c.hoop 2 0 + s.ctxBytes i ≤ s.guarBytes 2 (s.reg (R.PIN_LIMIT 2 c.hoop)).toNat) && decide (s.pinnedCtxs c.hoop < (s.reg (R.ACT_GUAR c.hoop)).toNat)

/-- From the kills of an entry on, nothing new is restored or spilled until the exit (R252, R557). -/
def State.pmFrozen (s : State) : Bool := decide (s.pm.mode = .entering) && s.pm.killed

/-- Entries of the active set in use; a hoop's. -/
def State.activeUsed (s : State) : Nat := (s.ctxs.filter fun e => e.2.inActive).length
def State.activeOf (s : State) (h : Nat) : Nat := (s.ctxs.filter fun e => e.2.inActive && decide (e.2.hoop = h)).length

/-- The stacks of a SPILL mask that the part has (R9); a mask that names none of them stays as it is, and nothing is homed there.
[DESIGN CHOICE, log entry 133] -/
def State.presentMask (s : State) (b : Blk) (n mask : Nat) : Nat :=
  let m := ((List.range n).filter fun i => (BitVec.ofNat 8 mask).getLsbD i && present s.part b i).foldl (fun a i => a + 2 ^ i) 0
  if m = 0 then mask else m

/-- TIER, SKEIN_MASK and T2_MASK of SPILL (R253). -/
def State.spillTier (s : State) (h : Nat) : Nat := if fld (s.reg (R.SPILL h)) 0 3 = 4 then 4 else 3
/-- [DESIGN CHOICE, log entry 133]. -/
def State.spillLoc (s : State) (h : Nat) : Nat := if s.spillTier h = 3 then s.presentMask .skein 2 (fld (s.reg (R.SPILL h)) 8 2) else 0
/-- [DESIGN CHOICE, log entry 133]. -/
def State.t2Loc (s : State) (h : Nat) : Nat := s.presentMask .dramStack 6 (fld (s.reg (R.SPILL h)) 16 6)

/-- T2 room that the restore of context `i` may count on: free room, what is kept for it and the evictions that do not serve another restore, less what
other requests wait for. What is kept or being freed for another restore covers that one's need, and no more (R244). -/
def State.t2Avail (s : State) (i : Nat) : Nat :=
  let own := fun (w : AllocWait) => match w.move with | some id => (s.moves.find? fun m => decide (m.id = id)).bind Move.restores | none => none
  let freed := fun (p : Option Nat → Bool) => s.moves.foldl (fun (a : Nat) m => if m.kind.isEviction = true ∧ (s.obj m.obj).tier = 2 ∧ p m.forCtx = true then a + (s.obj m.obj).bytes else a) 0
  let waits := fun (p : AllocWait → Bool) => s.waits.foldl (fun (a : Nat) w => if w.tier = 2 ∧ p w = true then a + w.bytes else a) 0
  let others := ((s.ctxs.filter fun e => e.2.restoring && decide (e.1 ≠ i)).map (·.1)).foldl (fun (a : Nat) j =>
    a + (waits (fun w => decide (own w = some j)) - (s.keptFor j + freed fun c => decide (c = some j)))) 0
  s.freeRoom (s.ctx i).hoop 2 0 + s.keptFor i + freed (fun c => c.isNone || decide (c = some i)) - (waits (fun w => (own w).isNone) + others)

/-- PINNED_RESIDENT (R248): no entry is free, and every one belongs to a pinned, RUNNING or RESTORING context or to another hoop at or below its
ACT_GUAR. -/
def State.entriesStuck (s : State) (i : Nat) : Bool :=
  !(s.ctx i).inActive && decide (4096 ≤ s.activeUsed) && (s.ctxs.filter fun e => e.2.inActive).all fun e =>
    decide (0 < e.2.pins ∨ s.ctxStatus e.1 = 3) || s.isRestoring e.1 || (decide (e.2.hoop ≠ (s.ctx i).hoop) && decide (s.activeOf e.2.hoop ≤ (s.reg (R.ACT_GUAR e.2.hoop)).toNat))

/-- T2 bytes that no restore of context `i` can have (R248): pinned, or of hoops at or below their guarantees; the state of its own hoop's contexts can be
had whatever the guarantee (R245). -/
def State.t2Stuck (s : State) (i : Nat) : Nat :=
  let h := (s.ctx i).hoop
  let pinned := fun (k : Nat) => s.ctxs.any fun e => e.2.isOpen && decide (0 < e.2.pins) && e.2.objs.contains k
  let below := fun (g : Nat) => decide (s.usage g 2 0 ≤ s.guarBytes 2 (s.reg (R.GUAR 2 g)).toNat)
  s.objs.foldl (fun a e =>
    if e.2.used = true ∧ e.2.homed = true ∧ e.2.tier = 2 ∧
        (0 < e.2.pins ∨ (e.2.ctxState = true ∧ pinned e.1 = true) ∨ (below (oHoop e.1) = true ∧ ¬ (e.2.ctxState = true ∧ oHoop e.1 = h))) then a + e.2.bytes + e.2.planeBytes
    else a) ((List.range 16).foldl (fun a g => a + s.otEntries g * 64) 0)

/-- The causes of R248 that hold now for context `i`. -/
def State.stuckBits (s : State) (i : Nat) : Nat :=
  b2n (s.entriesStuck i) + 2 * b2n (decide (s.placeCap 2 0 < s.unmet i + s.t2Stuck i) || (s.maskStacks 2 (s.t2Loc (s.ctx i).hoop)).isEmpty)

/-- Record in the descriptor the causes that hold during the wait of context `i` (R248, R250). -/
def State.noteCauses (s : State) (i : Nat) : State :=
  s.setCtx i { s.ctx i with causes := (BitVec.ofNat 8 (s.ctx i).causes ||| BitVec.ofNat 8 (s.stuckBits i)).toNat }

/-- Cancel the restore of a context: its moves end, the room it obtained returns to free room, and what it has allocated for DECLARED objects
is given back (R247). -/
def State.cancelRestore (s : State) (i : Nat) : State :=
  let s := (s.moves.filter fun m => decide (m.kind = .restore i)).foldl (fun s m => s.dropMove m.id) s
  let s := (s.ctx i).fresh.foldl (fun (s : State) e => s.modObj e.1 fun o => { o with homed := false, tier := e.2.1, loc := e.2.2, tileDflt := ⟨.unwritten, 0⟩, tiles := [] }) s
  (s.setCtx i { s.ctx i with restoring := false, fresh := [], copying := false }).keepOnly i 0

/-- Bring one context up to date: its runnable episode (R233), the end of its restore or spill (R243, R246), the cancelling of
a restore whose claim is gone (R247), and a CTX_CMD that waited for it (R242, R256). -/
def State.tickCtx (s : State) (i : Nat) : State :=
  let c := s.ctx i
  if !c.isOpen then s else
  let want := s.wanting i
  -- episode
  let opens := decide (s.ctxStatus i ≠ 2)
  let ended := fun (s : State) => if c.runnableSince = none then s else s.maxReg (R.CTX_LONGEST_WAIT c.hoop) (s.count - c.runnableSince.getD 0)
  let s := if want = true ∧ (c.runnableSince = none ∨ c.openWait ≠ opens) then
      (ended s).setCtx i { c with runnableSince := some s.count, openWait := opens, causes := 0, refused := 0, starved := false }
    else if want = false ∧ c.runnableSince ≠ none then
      (ended s).setCtx i { c with runnableSince := none, openWait := false, starved := false }
    else s
  let s := if want = true ∧ s.resident i = false then s.noteCauses i else s
  let c := s.ctx i
  -- a restore whose claim is gone: it is cancelled unless one of its moves has begun to copy
  let rs := s.moves.filter fun m => decide (m.kind = .restore i)
  let s := if c.ask = 0 ∧ want = false then
      (if c.restoring = true ∧ s.resident i = false ∧ c.copying = false ∧ rs.all (fun m => m.ranges.all fun r => r.shuttle.isNone) = true then s.cancelRestore i
       else if c.restoring then s else s.keepOnly i 0)
    else s
  let c := s.ctx i
  -- a RESTORE or PIN does not wait for what a refused spill does not give (R256)
  let s := if c.restoring = true ∧ (c.ask = 1 ∨ c.ask = 2) ∧ c.copying = false ∧ rs.all (fun m => m.ranges.all fun r => r.shuttle.isNone) = true ∧ s.t2Avail i < s.unmet i then
      let s := s.cancelRestore i
      (s.setCtx i { s.ctx i with ask := 0 }).setReg (R.CTX_RESULT c.hoop) (w32 (1 + 16 * 2))
    else s
  let c := s.ctx i
  -- a restore that is complete
  let s := if c.restoring = true ∧ s.resident i = true then
      let s := ((s.setCtx i { c with restoring := false, residentSince := s.count, ask := 0, fresh := [], copying := false }).addReg (R.RESTORE_COUNT c.hoop) 1).keepOnly i 0
      let done := fun (s : State) (res : Nat) => s.setReg (R.CTX_RESULT c.hoop) (w32 (1 + 16 * res))
      if c.ask = 1 then done s 0
      else if c.ask = 2 then (if s.pinAllowed i then done (s.setCtx i { s.ctx i with pins := c.pins + 1 }) 0 else done s 3)
      else s
    else s
  let c := s.ctx i
  -- a spill that is complete or was abandoned
  if c.spilling = true ∧ (s.moves.all fun m => decide (m.kind ≠ .spill i)) = true then
    let out := c.objs.all fun k => decide ((s.obj k).tier ≠ 2) || !(s.obj k).homed
    let s := s.setCtx i { c with spilling := false, inActive := if c.ask = 4 ∧ out = true then false else c.inActive, ask := if c.ask = 4 then 0 else c.ask }
    let s := if out then s.addReg (R.SPILL_COUNT c.hoop) 1 else s
    if c.ask = 4 then s.setReg (R.CTX_RESULT c.hoop) (w32 (1 + 16 * (if out then 0 else 5))) else s
  else s

/-- A CONTEXT_CLOSE has nothing more to wait for (R240): no other begun command names its context, and no residency move of it
runs. -/
def State.closeReady (s : State) (f : InFlight) : Bool :=
  decide (f.cmd.opcode = 9) && !(s.flights.any fun g => decide (g.id ≠ f.id) && g.ctxs.contains f.cmd.context) && (s.residencyMoves f.cmd.context).isEmpty

/-- An ARM_ONLY command completes when every move of it has committed or been abandoned (R132). -/
def State.armReady (s : State) (f : InFlight) : Bool := f.cmd.armOnly && s.moves.all fun m => decide (m.kind ≠ .armOnly f.id)

/-- Bring every context up to date, and complete the commands that waited for their moves. -/
def State.tickCtxs (s : State) : State :=
  let s := (s.ctxs.map (·.1)).foldl (fun s i => s.tickCtx i) s
  { s with flights := s.flights.map fun (f : InFlight) => if s.closeReady f || s.armReady f then { f with done := true } else f }

/-- A begun command that has failed or can commit now. -/
def InFlight.ready (f : InFlight) (c : Bool) : Bool := f.fail.isSome || c

/-- Can this begun command commit now (R136, R143)? -/
def State.committable (s : State) (f : InFlight) : Bool :=
  f.done && f.fail.isNone && (!f.cmd.ordered || s.earlierDone f.cmd) && s.commitRoom f

/-- End what has failed and commit everything that can commit, in begin order, until nothing more can (R136, R172). -/
def State.settle (s : State) : Nat → State
  | 0 => s
  | n + 1 =>
    match s.flights.find? fun f => f.ready (s.committable f) with
    | none => s
    | some f =>
      match f.fail with
      | some e => ((s.endCmd f.cmd e.1 e.2).startMoves).settle n
      | none => (s.commitFlight f).settle n

/-- Enough steps for `settle`: each commits one command, and a commit makes at most one waiting head complete per queue. -/
def State.fuel (s : State) : Nat := s.flights.length + s.cqs.length + 2

/-- Test every waiting KNOT_WAIT head against the value its knot has: a kill or a class C end gives knots back (R395, R402). -/
def State.retest (s : State) : State :=
  s.cqs.foldl (fun s e => match e.2.head with | some c => if c.opcode = 3 then s.testWaits c.hoop c.knot else s | none => s) s

/-- Frames that left their rotations while begun commands named them are released when none does (R489). -/
def State.sweep (s : State) : State :=
  let free := s.gone.filter fun k => !s.named k
  free.foldl (fun s k => if (s.obj k).pins = 0 then s.freeObj k else s) { s with gone := s.gone.filter fun k => s.named k }

/-- Settle everything: contexts follow the commands that name them, and a close that becomes complete commits with the rest. -/
def State.settled (s : State) : State := (((s.settle s.fuel).tickCtxs.retest.settle s.fuel).tickCtxs).sweep

/-- The output buffer of a command for an object it writes (R167): a copy of the object's content. -/
def State.outBuf (s : State) (k : Nat) : OutBuf :=
  { obj := k, data := if (s.obj k).homed then (s.obj k).data else [], written := [], declared := !(s.obj k).homed, place := s.placeMask (s.obj k).tier (s.obj k).loc }

/-- Bytes of a fresh allocation for an output object: the whole object (R167). -/
def State.outBytes (s : State) (k : Nat) : Nat := (s.obj k).bytes

/-- Is a requester held for want of a commit-table entry (R20): a range of a started move, a remote move, a record or a force of a trigger
unit, or a RUN_PATTERN at its queue's head? -/
def State.ctHeld (s : State) : Bool :=
  s.domainOn .compute &&
  ((s.moves.any fun m => m.started && m.ranges.any fun r => r.shuttle.isNone && !r.done) ||
   (s.remotes.any fun r => !r.begun && s.linkFull r.peer) ||
   (s.tus.any fun e => (!e.2.inq.isEmpty || e.2.cur.isSome) && decide (64 ≤ (s.pendFires.filter fun p => decide (p.unit = some e.1)).length)) ||
   (s.cqs.any fun e => match e.2.head with
     | some c => decide (c.opcode = 1) && !c.armOnly && c.cores.any fun n => decide (128 ≤ (s.flights.filter fun f => f.cores.contains n).length + s.entriesKept 0 (some n))
     | none => false))

end Sys2Proof.Machine
end

