-- ==== Sys2Proof/Machine/SceneTime.lean ====
section
/-! DEFINITION. The scene-time family (R23 to R51, R619): reference edges, generated boundaries, loss of the reference,
changes of source, corrections, loads, latched reads, and the sequencing of records. -/

namespace Sys2Proof.Machine

/-- `n` cycles are about to pass: those in which a requester is held for want of a commit-table entry are counted (R20, R201). [DEDUCED, log entry 89] -/
def State.countHeld (s : State) (n : Nat) : State :=
  { s with regs := if n ≠ 0 ∧ s.ctHeld = true then (s.addReg R.CT_FULL_CYCLES n).regs else s.regs }

/-- Let `dt` timebase cycles pass. [DESIGN CHOICE, log entry 5] -/
def State.advance (s : State) (dt : Nat) : State := let s := s.countHeld dt; { s with now := s.now + dt }

/-- Let `n` sixteenths of a timebase cycle pass (R40). [DESIGN CHOICE, log entry 5] -/
def State.advance16 (s : State) (n : Nat) : State := let s := s.countHeld ((s.sub + n) / 16); { s with now := s.now + (s.sub + n) / 16, sub := (s.sub + n) % 16 }

/-- The timebase cycle `n` (at or after now) is reached. -/
def State.reachCycle (s : State) (n : Nat) : State := if s.now < n then (let s := s.countHeld (n - s.now); { s with now := n, sub := 0 }) else s

/-- The moment `t` (at or after now) is reached: the timebase cycle that begins at or after it. [DESIGN CHOICE, log entry 5] -/
def State.reachTime (s : State) (t : Rat) : State := s.reachCycle t.ceil.toNat

/-- Change the scene-time unit; the position never falls below what it was (R23). -/
def State.setTs (s : State) (t : SceneTime) : State := { s with ts := { t with floor := max t.floor s.pos } }

def State.tsMinPeriod (s : State) : Rat := ((s.reg R.TS_MIN_PERIOD).toNat : Rat)
def State.tsSrc (s : State) : Nat := fld (s.reg R.TS_SOURCE) 0 3

/-- The host period: the nominal period trimmed by TS_HOST_RATE (R37). -/
def State.hostPeriod (s : State) : Rat :=
  s.tsNominal * (1 + ((signedOf 32 (s.reg R.TS_HOST_RATE).toNat : Int) : Rat) / 4294967296)

/-- An interval lengthened to TS_MIN_PERIOD (R29). -/
def State.lengthen (s : State) (i : Rat) : Rat := if i < s.tsMinPeriod then s.tsMinPeriod else i

/-- The period a mode generates without a correction (R31). [DEDUCED, log entry 9; DESIGN CHOICE, log entry 123] -/
def State.basePeriod (s : State) : TsMode → Rat
  | .free => s.tsNominal
  | .host => s.hostPeriod
  | .slewing => if s.tsSrc = 5 then s.hostPeriod else s.estP
  | .acquiring =>
    match s.ts.prevSrc with
    | some p => if fld p 0 3 = 0 then s.tsNominal else if fld p 0 3 = 5 then s.hostPeriod else s.ts.prevPeriod
    | none => s.ts.prevPeriod
  | _ => s.estP

/-- The stitch in progress becomes a generated interval of length `iv`, or ends at once where that has passed (R50). -/
def State.due (s : State) (iv : Rat) : Rat := max iv (s.time - s.ts.baseAt)

/-- Phase units one slewing boundary absorbs (R29, R35): TS_SLEW_RATE, the remainder at the last boundary, less where
the interval would fall below TS_MIN_PERIOD; 0 or less when no interval can be shortened. -/
def State.slewStep (s : State) (c : Int) : Int :=
  let r : Int := (s.force R.TS_SLEW_RATE).toNat
  let want := min r c.natAbs
  let p := s.basePeriod .slewing
  if 0 < c ∧ p * ((65536 - want : Int) : Rat) / 65536 < s.tsMinPeriod then min want ((p - s.tsMinPeriod) * 65536 / p).floor else want

/-- The length of the slewing interval of a remaining correction `c` (R35): one that would fall below TS_MIN_PERIOD is lengthened to exactly that (R29). -/
def State.slewIval (s : State) (c : Int) : Rat :=
  let p := s.basePeriod .slewing
  let want : Int := min ((s.force R.TS_SLEW_RATE).toNat : Int) c.natAbs
  s.lengthen (if 0 < c then p * ((65536 - want : Int) : Rat) / 65536 else p * ((65536 + want : Int) : Rat) / 65536)

/-- The mode in which a correction ends: LOCKED on an edge source, HOST in host time. -/
def State.afterCorr (s : State) : TsMode := if s.tsSrc = 5 then .host else .locked

/-- Put the position at `p` phase units now; the stitch in progress began early enough for its phase, by the interval that the mode
interpolates with: P in LOCKED, the interval it generates in HOST (R32). -/
def State.placeAt (s : State) (p : Nat) (m : TsMode) (iv : Rat) : State :=
  let d := if m = .locked then s.ts.period else iv
  s.setTs { s.ts with
    mode := m, base := p / 65536 * 65536, baseAt := s.ts.resolve s.time - (p % 65536 : Nat) * d / 65536, ival := iv, corr := 0, slewAbs := 0,
    slewEnd := false }

/-- The TIME_CORRECTED record (R619), stamped before the correction. -/
def State.timeCorrected (s : State) (c : Int) (mode cause : Nat) : Rec :=
  let route := s.reg (R.FAULT_ROUTE (pageOf .sceneTime 0))
  { hoop := fld route 0 4, eq := fld route 8 4, ty := 0x21, fault := false, forwarded := false, stamp := s.pos, source := 0x10, context := 0,
    arrived := s.now, toHost := true, payload := payAt 24 8 (signedSat 64 c) (payAt 32 1 mode (payAt 33 1 cause 0)) }

/-- Begin or continue a slew with the correction `c` remaining (R35); a positive remainder that no interval can absorb is
applied at once (R29). [DESIGN CHOICE, log entries 120, 123] -/
def State.slew (s : State) (c : Int) : State :=
  if c = 0 then s.setTs { s.ts with mode := s.afterCorr, corr := 0, slewAbs := 0, ival := s.lengthen (s.basePeriod s.afterCorr) }
  else
    let a := s.slewStep c
    if 0 < c ∧ a ≤ 0 then s.placeAt (s.pos + c.toNat) s.afterCorr (s.lengthen (s.basePeriod s.afterCorr))
    else s.setTs { s.ts with mode := .slewing, corr := c, slewAbs := a, ival := s.slewIval c }

/-- One application of a correction `c` by RELOCK_MODE (R35, R37): counted and recorded once. [DEDUCED, log entry 10; DESIGN CHOICE, log entry 122] -/
def State.applyCorr (s : State) (c : Int) (cause : Nat) : State :=
  let step := bit (s.reg R.TS_SOURCE) 9
  let s := (s.post (s.timeCorrected c (b2n step) cause)).addReg R.STEP_COUNT 1
  if step then s.placeAt ((s.pos : Int) + c).toNat s.afterCorr (s.lengthen (s.basePeriod s.afterCorr))
  else
    let s := s.slew c
    s.setTs { s.ts with ival := s.due s.ts.ival }

/-- Mean of the last 8 accepted intervals (R30). [DEDUCED, log entry 9; DESIGN CHOICE, log entry 121] -/
def meanIntervals (l : List Nat) : Rat := ((l.take 8).sum : Rat) / ((l.take 8).length : Rat)

/-- The last `n` intervals each lie within ±`tol` / 1,024 of their own mean (R30). -/
def intervalsLock (l : List Nat) (n tol : Nat) : Bool :=
  let w := l.take n
  decide (n ≤ l.length) && w.all fun x => decide (((x * n : Nat) - (w.sum : Nat) : Int).natAbs * 1024 ≤ tol * w.sum)

/-- A boundary sets the count (R24, R32); a load with AT_EDGE then takes effect or is refused (R38). -/
def State.boundary (s : State) (base : Nat) (at_ : Rat) : State :=
  let t := s.ts
  let ld := t.loadVal * 65536
  let t' := if t.loadPending then
      if base < ld then { t with base := ld, baseAt := at_, loadPending := false }
      else { t with base := base, baseAt := at_, loadPending := false, loadRefused := true }
    else { t with base := base, baseAt := at_ }
  s.setTs t'

/-- An accepted edge taken as a boundary, with the period `p` of its source: the count moves on by n = max(1, round(I / P)) (R32).
The edge onto which a slew has ended is the boundary already generated for it. [DEDUCED, log entry 10; DESIGN CHOICE, log entry 117] -/
def State.edgeBoundary (s : State) (p : Rat) : State :=
  let i : Rat := (s.now : Rat) - s.ts.baseAt
  if s.ts.slewEnd ∧ 2 * i < p then s.setTs { s.ts with baseAt := (s.now : Rat), slewEnd := false }
  else
    let n := max 1 (i / p + 1 / 2).floor.toNat
    let s := (s.boundary (s.ts.base + 65536 * n) (s.now : Rat)).addReg R.MISSED_COUNT (n - 1)
    s.setTs { s.ts with slewEnd := false }

/-- The source locks at this accepted edge (R30, R35). [DEDUCED, log entry 10; DESIGN CHOICE, log entries 121, 124] -/
def State.lockNow (s : State) : State :=
  let cause := if s.ts.everLocked then 0 else 1
  let ph : Int := s.phase
  let c : Int := if 32768 ≤ ph then 65536 - ph else -ph
  let s := s.setTs { s.ts with
    period := meanIntervals s.ts.intervals, everLocked := true, holdCause := 0, prevSrc := none, ival := s.ts.interval,
    slewEnd := false }
  s.applyCorr c cause

/-- Does an edge captured at `cap` come too soon after the accepted edge `last` of its source (R28)? [DESIGN CHOICE, log entry 140] -/
def State.tooSoon (s : State) (last : Option Nat) (cap : Nat) : Bool :=
  match last with
  | some l => decide (((cap : Rat) - (l : Rat)) < s.tsMinPeriod)
  | none => false

/-- A dropped edge (R28). -/
def State.dropEdge (s : State) : State := (s.addReg R.FAST_COUNT 1).raise .sceneTime 0 0 0x100

/-- The accepted intervals of a source after an edge captured at `cap`. -/
def edgeIntervals (last : Option Nat) (l : List Nat) (cap : Nat) : List Nat :=
  match last with
  | some e => ((cap - e) :: l).take 64
  | none => l

/-- The period estimate after an accepted edge (R30): as it was where no interval is known. -/
def estimate (l : List Nat) (p : Rat) : Rat := if l = [] then p else meanIntervals l

/-- An accepted edge of the selected source captured at `cap` (R30, R32) takes effect 64 cycles later (R39).
[DEDUCED, log entry 8; DESIGN CHOICE, log entries 124, 126] -/
def State.acceptEdge (s : State) (cap : Nat) : State :=
  let t := s.ts
    let ivs := edgeIntervals t.lastEdge t.intervals cap
    let s := s.reachCycle (cap + 64)
    let s := s.setTs { t with intervals := ivs, lastEdge := some cap, lastAccepted := some cap }
    match t.mode with
    | .locked =>
      let s := s.edgeBoundary t.period
      s.setTs { s.ts with period := estimate ivs t.period }
    | .slewing => s.setTs { s.ts with period := estimate ivs t.period }
    | .acquiring =>
      if intervalsLock ivs (s.force R.TS_LOCK_EDGES).toNat (s.force R.TS_LOCK_TOL).toNat then s.lockNow else s
    | .holdover => s.setTs { s.ts with mode := .acquiring, prevSrc := none, prevPeriod := s.estP }
    | _ => s

/-- A divided edge of the selected source captured at `cap`: dropped, or accepted (R28). -/
def State.selectedEdge (s : State) (cap : Nat) : State :=
  if s.tooSoon s.ts.lastAccepted cap then s.dropEdge else s.acceptEdge cap

/-- An accepted edge, captured at `cap`, of the previous source that still gives the boundaries (R30): its own intervals go on being averaged.
[DEDUCED, log entries 8, 9] -/
def State.acceptPrevious (s : State) (cap : Nat) : State :=
  let t := s.ts
    let ivs := edgeIntervals t.prevEdge t.prevIntervals cap
    let s := s.reachCycle (cap + 64)
    let s := s.edgeBoundary t.prevPeriod
    s.setTs { s.ts with prevIntervals := ivs, prevEdge := some cap, prevPeriod := estimate ivs t.prevPeriod }

/-- A divided edge of the previous source captured at `cap`: dropped, or accepted (R28). -/
def State.previousEdge (s : State) (cap : Nat) : State := if s.tooSoon s.ts.prevEdge cap then s.dropEdge else s.acceptPrevious cap

/-- MIN_PULSE rounded up to the filter's resolution (R27). -/
def State.minPulse (s : State) : Nat :=
  let r := if s.ts.aonTimebase then 40 else 4
  ceilDiv (fld (s.reg R.TS_GLITCH) 0 16) r * r

/-- Does the source deliver edges now (R25, R36)? Every source is off in OFF; a camera is received only while its port can run. -/
def State.srcDelivers (s : State) (src : W32) : Bool :=
  let k := fld src 0 3
  if s.pm.mode = .off then false
  else if k = 1 ∨ k = 2 then true
  else if k = 3 ∨ k = 4 then
    s.live .pipeline (fld src 4 4) && decide (s.pm.mode = .active ∨ s.pm.mode = .idle ∨ (s.pm.mode = .entering ∧ s.pm.exitFrom ≠ .doze))
  else false

/-- SRC, INDEX and EDGE of a TS_SOURCE value (R50). -/
def srcKey (v : W32) : Nat × Nat × Bool := (fld v 0 3, fld v 4 4, bit v 8)

/-- The previous source, where its edges still give the boundaries (R30). -/
def State.prevEdges (s : State) : Option W32 :=
  if s.ts.mode = .acquiring then s.ts.prevSrc.filter isEdgeSrc else none

/-- A passed edge of the selected source, captured at `cap`, goes through the divider (R26). [DEDUCED, log entry 8] -/
def State.selectedPass (s : State) (cap : Nat) : State :=
  let s := s.reachCycle cap
  if s.ts.divCount + 1 ≤ fld (s.reg R.TS_DIVIDER) 0 16 then s.setTs { s.ts with divCount := s.ts.divCount + 1 }
  else (s.setTs { s.ts with divCount := 0 }).selectedEdge cap

/-- A passed edge of the previous source, captured at `cap`, goes through the divider (R26, R30). -/
def State.previousPass (s : State) (cap : Nat) : State :=
  let s := s.reachCycle cap
  if s.ts.prevDiv + 1 ≤ fld (s.reg R.TS_DIVIDER) 0 16 then s.setTs { s.ts with prevDiv := s.ts.prevDiv + 1 }
  else (s.setTs { s.ts with prevDiv := 0 }).previousEdge cap

/-- A passed edge, captured at `cap`, of a source that is both the previous and the selected one: it is one edge, which passes one divider
and is dropped once or accepted once; an accepted one is a boundary, and enters the measurement of the selected source. [DESIGN CHOICE, log entry 125] -/
def State.sharedPass (s : State) (cap : Nat) : State :=
  let s := s.reachCycle cap
  if s.ts.prevDiv + 1 ≤ fld (s.reg R.TS_DIVIDER) 0 16 then s.setTs { s.ts with prevDiv := s.ts.prevDiv + 1, divCount := s.ts.prevDiv + 1 }
  else
    let s := s.setTs { s.ts with prevDiv := 0, divCount := 0 }
    if s.tooSoon s.ts.prevEdge cap then s.dropEdge else (s.acceptPrevious cap).acceptEdge cap

/-- REFERENCE_EDGE: after `dt` cycles a level change (for `width` ns) or a packet arrives on the selected source, or on the
previous one while it still gives the boundaries (R26 to R33); one physical source that is both takes the edge as both.
[DEDUCED, log entry 8; DESIGN CHOICE, log entry 125] -/
def doReferenceEdge (dt : Nat) (falling : Bool) (width : Nat) (onPrev : Bool) (s : State) : State :=
  let s := s.advance dt
  let src := if onPrev then s.prevEdges.getD 0 else s.reg R.TS_SOURCE
  let k := fld src 0 3
  let pin := decide (k = 1 ∨ k = 2)
  let mp := s.minPulse
  if !s.srcDelivers src then s
  else if pin ∧ 0 < mp ∧ width < mp then s.addReg R.GLITCH_COUNT 1
  else if pin ∧ (bit src 8 ≠ falling) then s
  else
    let cap := s.now + (if pin then mp else 0)
    let both := decide (s.prevEdges.map srcKey = some (srcKey (s.reg R.TS_SOURCE)))
    if both then s.sharedPass cap else if onPrev then s.previousPass cap else s.selectedPass cap

/-- GENERATED_BOUNDARY: the interval I has elapsed in FREE, HOLDOVER, SLEWING or HOST (or ACQUIRING on generated
boundaries) and the unit generates a boundary (R29, R32, R35). -/
def doGeneratedBoundary (s : State) : State :=
  if !s.ts.generated ∨ s.pm.mode = .off then s
  else
    let at_ := s.ts.baseAt + s.ts.ival
    let s := s.reachTime at_
    let c := s.ts.corr
    let m := s.ts.mode
    let c' := if 0 < c then c - s.ts.slewAbs else c + s.ts.slewAbs
    let s := s.boundary (s.ts.base + 65536) at_
    if m = .slewing then
      let s := s.slew c'
      s.setTs { s.ts with slewEnd := decide (c' = 0 ∧ s.ts.mode = .locked) }
    else s.setTs { s.ts with ival := s.lengthen (s.basePeriod m) }

/-- REF_LOST: no edge for TS_LOST_PERIODS × P after the last boundary (R33). [DEDUCED, log entry 11; DESIGN CHOICE, log entry 118] -/
def doRefLost (s : State) : State :=
  let n := (s.force R.TS_LOST_PERIODS).toNat
  if s.pm.mode = .off then s else
  match s.ts.mode with
  | .locked =>
    let at_ := s.ts.baseAt + (n : Rat) * s.ts.period
    let s := s.reachTime at_
    let s := (s.raise .sceneTime 0 1 0x101).addReg R.LOST_COUNT 1
    s.setTs { s.ts with
      mode := .holdover, holdCause := 1, base := s.ts.base + 65536 * n, baseAt := at_, ival := s.lengthen s.ts.period,
      intervals := [], lastEdge := none, slewEnd := false }
  | .acquiring =>
    if s.prevEdges.isSome then
      let at_ := s.ts.baseAt + (n : Rat) * s.ts.prevPeriod
      let s := s.reachTime at_
      s.setTs { s.ts with base := s.ts.base + 65536 * n, baseAt := at_, ival := s.lengthen s.ts.prevPeriod, prevSrc := none, holdCause := 3, slewEnd := false }
    else s
  | _ => s

/-- Is a TS_SOURCE value refused (R25)? -/
def State.tsSourceRefused (s : State) (v : W32) : Bool :=
  let k := fld v 0 3
  let i := fld v 4 4
  decide (6 ≤ k) || (decide (k = 2) && decide (3 < i)) || ((decide (k = 3) || decide (k = 4)) && !present s.part .pipeline i)

/-- An accepted write of TS_SOURCE (R50). The period of a source that still gives the boundaries is kept beside the new source's.
[DEDUCED, log entry 9; DESIGN CHOICE, log entry 140] -/
def State.tsSourceAccept (s : State) (v : W32) : State :=
  let old := s.reg R.TS_SOURCE
  let k := fld v 0 3
  let s := s.setReg R.TS_SOURCE (applyLimit (.fields [(0,3,0,7), (4,4,0,15), (8,1,0,1), (9,1,0,1)]) v)
  let t := s.ts
  let clean : SceneTime :=
    { t with period := s.tsNominal, corr := 0, slewAbs := 0, slewEnd := false, intervals := [], lastEdge := none, lastAccepted := none, divCount := 0, everLocked := false }
  let acq : SceneTime := { clean with mode := .acquiring }
  if srcKey old = srcKey v then s
  else if k = 0 then
    if fld old 0 3 = 0 then s
    else s.setTs { clean with mode := .free, prevSrc := none, holdCause := 0, ival := s.due (s.lengthen s.tsNominal) }
  else if k = 5 then
    if fld old 0 3 = 5 then s
    else s.setTs { clean with mode := .host, prevSrc := none, holdCause := 0, ival := s.due (s.lengthen s.hostPeriod) }
  else
    match t.mode with
    | .locked =>
      s.setTs { acq with
        prevSrc := some old, prevDiv := t.divCount, prevPeriod := t.period, prevIntervals := t.intervals, prevEdge := t.lastEdge, holdCause := 0,
        slewEnd := t.slewEnd }
    | .free => s.setTs { acq with prevSrc := some old, holdCause := 0 }
    | .host => s.setTs { acq with prevSrc := some old, holdCause := 0 }
    | .slewing =>
      let p := if fld old 0 3 = 5 then s.hostPeriod else t.period
      s.setTs { acq with prevSrc := none, prevPeriod := p, holdCause := 3, ival := s.due (s.lengthen p) }
    | .holdover => s.setTs { acq with prevSrc := none, prevPeriod := s.estP, holdCause := 3 }
    | .acquiring => s.setTs (if t.prevSrc = none then { acq with holdCause := 3 } else acq)

/-- TS_SOURCE_WRITE (R25, R50). -/
def doTsSourceWrite (f : Nat) (v : W32) (s : State) : State :=
  s.reach f R.TS_SOURCE fun s =>
    if s.tsSourceRefused v then s.setTs { s.ts with srcRefused := true } else s.tsSourceAccept v

/-- HOST_POS_GO (R37): in HOST the written position is applied as a correction; in any other source nothing changes. -/
def doHostPosGo (f : Nat) (v : W32) (s : State) : State :=
  s.reach f R.HOST_POS_GO fun s =>
    if bit v 0 ∧ s.tsSrc = 5 then
      let p : Nat := ((s.reg R.HOST_POS_HI).toNat * 2 ^ 32 + (s.reg R.HOST_POS_LO).toNat) * 65536 + fld (s.reg R.HOST_POS_PHASE) 0 16
      s.applyCorr ((p : Int) - (s.pos : Int)) 2
    else s

/-- CAPTURE_REQ (R37): the position at the write's arrival goes to the CAPTURE registers. -/
def doCaptureReq (f : Nat) (v : W32) (s : State) : State :=
  s.reach f R.CAPTURE_REQ fun s =>
    if bit v 0 then
      ((s.setReg R.CAPTURE_LO (w32 (s.count % 2 ^ 32))).setReg R.CAPTURE_HI (w32 (s.count / 2 ^ 32))).setReg R.CAPTURE_PHASE (w32 s.phase)
    else s

/-- LOAD_GO: a write of LOAD_CTRL (R38). [DEDUCED, log entry 11; DESIGN CHOICE, log entries 119, 141] -/
def doLoadGo (f : Nat) (v : W32) (s : State) : State :=
  s.reach f R.LOAD_CTRL fun s =>
    let s := s.setReg R.LOAD_CTRL (w32 (2 * fld v 1 1))
    let ld := (s.reg R.LOAD_HI).toNat * 2 ^ 32 + (s.reg R.LOAD_LO).toNat
    if !bit v 0 then s
    else if bit v 1 then s.setTs { s.ts with loadPending := true, loadVal := ld }
    else if s.count < ld then s.setTs { s.ts with base := ld * 65536, baseAt := s.ts.resolve s.time }
    else s.setTs { s.ts with loadRefused := true }

/-- AT_STITCH heads whose target is reached, with their targets (R133). [DEDUCED, log entry 113] -/
def State.reachedAts (s : State) : List (Nat × Cmd) :=
  s.cqs.filterMap fun e => match e.2.head with
    | some c => if c.opcode = 5 ∧ c.atPos ≤ s.pos then some (c.atPos, c) else none
    | none => none

/-- A pricking engine. -/
def State.prick (s : State) (h n : Nat) : Prick := mget Prick.dflt s.pricks (h * 4 + n)

/-- The target count of entry `i` on lap `k` (R75). [DEDUCED, log entry 47] -/
def State.prickTarget (s : State) (h n k i : Nat) : Nat :=
  (s.reg (R.PRICK_START_HI h n)).toNat * 2 ^ 32 + (s.reg (R.PRICK_START_LO h n)).toNat + k * (s.reg (R.PRICK_PERIOD h n)).toNat +
  prOffset ((s.prick h n).entries.getD i 0)

/-- Has the engine, whose page is ON (R103), a next entry whose target is reached? -/
def State.prickDue (s : State) (h n : Nat) : Bool :=
  let x := s.prick h n
  s.isOn .hoopTrigger h && bit (s.reg (R.PRICK_CTRL h n)) 0 && !x.done && decide (s.prickTarget h n x.lap x.entry ≤ s.count) && decide (x.entry < x.entries.length)

/-! ## Capture windows (R44, R458) -/

/-- A ring channel of the island. -/
def State.chan (s : State) (c : Nat) : Chan := mget Chan.dflt s.island.chans c

/-- Is the listening group enabled? -/
def State.grpOn (s : State) (g : Nat) : Bool := bit (s.reg (R.GRP_CTRL g)) 0

/-- Position of sample `k` (R456). -/
def Frame.posOf (f : Frame) (k : Nat) : Nat := f.pos + k * f.delta / 256

/-- Samples of a frame that a position has reached. -/
def Frame.reached (f : Frame) (p : Nat) : Nat := ((List.range 512).filter fun k => decide (f.posOf k ≤ p)).length

/-- Channels of a listening group (R452, R478): those with a source whose GROUP names it. -/
def State.grpChans (s : State) (g : Nat) : List Nat :=
  (List.range 16).filter fun c => let v := s.reg (R.RCH c); decide (fld v 0 2 ≠ 0 ∧ fld v 28 4 = g)

/-- The group that serves a command's SEGMENT bindings (R458): none where not exactly one qualifies. -/
def State.segGroup (s : State) (c : Cmd) : Option Nat :=
  let ok := fun (g : Nat) => decide (fld (s.reg (R.GRP_CTRL g)) 4 4 = c.hoop) && (!c.hasContext || decide ((s.reg (R.GRP_CTX g)).toNat = c.context))
  match (List.range 16).filter fun g => !(s.grpChans g).isEmpty && ok g with
  | [g] => some g
  | _ => none

/-- Has the group written a sample at or above (end, 0) (R458)? -/
def State.segReached (s : State) (g stop : Nat) : Bool :=
  (s.grpChans g).any fun c => (s.chan c).frames.any fun f => (List.range f.len).any fun k => decide (65536 * stop ≤ f.posOf k ∧ f.posOf k ≤ s.pos)

/-- Ends of the capture windows of queue heads that the position has reached and whose samples are there, as positions (R44, R458): their
segments can be made. -/
def State.reachedWindows (s : State) : List Nat :=
  s.cqs.flatMap fun e => match e.2.head with
    | none => []
    | some c =>
      let open_ := (s.segSlots c).filter fun i => !(e.2.segs.any fun x => decide (x.1 = i))
      if open_ = [] ∨ s.island.clearing then [] else
      match s.segGroup c with
      | none => []
      | some g => (open_.map fun i => c.slot (i + 2) + c.slot (i + 3) * 2 ^ 32).filterMap fun stop =>
          if 65536 * stop ≤ s.pos ∧ s.segReached g stop = true then some (65536 * stop) else none

/-- Targets reached by pricking entries, by the deadlines of ARMED rules and by capture windows, as positions (R44). [DEDUCED, log entry 113] -/
def State.reachedOthers (s : State) : List Nat :=
  ((List.range 64).filterMap fun k => let x := s.prick (k / 4) (k % 4)
    if s.prickDue (k / 4) (k % 4) then some (65536 * s.prickTarget (k / 4) (k % 4) x.lap x.entry) else none) ++
  (s.rules.filterMap fun e => match e.2.deadline with
    | some d => if e.2.state = 1 ∧ d ≤ s.pos then some d else none
    | none => none) ++ s.reachedWindows

/-- Has no block that waits for a lower target reached it? Targets that one step reaches act in ascending order (R44). [DEDUCED, log entry 113] -/
def State.reachedFirst (s : State) (t : Nat) : Bool :=
  s.reachedOthers.all (fun x => decide (t ≤ x)) && s.reachedAts.all fun e => decide (t ≤ e.1)

/-- The reached AT_STITCH heads complete in ascending order of target, up to the first target of another kind (R44, R133). -/
def State.wakeAts (s : State) : State :=
  (((s.reachedAts.filter fun e => s.reachedOthers.all fun x => decide (e.1 ≤ x)).insertionSort fun a b => a.1 ≤ b.1).foldl
    (fun s e => s.beginDone e.2 0 0) s).settled

/-- RECORD_SEQUENCED: a held record's 256 cycles end and it takes the hoop's next number in stamp order (R45, R147) and meets its event queue (R143); those
of a hoop that is RESETTING take no more records (R151). [DEDUCED, log entry 88] -/
def doRecordSequenced (h : Nat) (s : State) : State :=
  match (if (s.hoop h).phase = .resetting then none else nextHeld (s.hoop h).held) with
  | none => s
  | some r =>
    let x := s.hoop h
    dev (fun s =>
      let s := s.setHoop h { x with held := x.held.erase r, seq := (x.seq + 1) % 2 ^ 32 }
      let s := s.deliver r x.seq
      s.settled) s

/-- A power state in which a selected source is not received is entered (R36): it goes to HOLDOVER with cause POWER and without
REF_LOST, and a previous source of that kind gives the boundaries no longer (R30); in LISTEN stamps resolve 40 ns (R41). Cameras are
not received in DOZE and LISTEN, and no source in OFF. [DEDUCED, log entry 11] -/
def State.tsAsleep (s : State) (listen off : Bool) : State :=
  let cam := fun (v : W32) => off || decide (fld v 0 3 = 3 ∨ fld v 0 3 = 4)
  let t := s.ts
  let prevCam := match t.prevSrc with | some p => cam p | none => false
  let t :=
    if cam (s.reg R.TS_SOURCE) then
      { t with
        mode := .holdover, holdCause := 2, prevSrc := none, corr := 0, slewAbs := 0, slewEnd := false, ival := s.due (s.lengthen s.estP),
        intervals := [], lastEdge := none }
    else if t.mode = .acquiring ∧ prevCam = true then
      { t with prevSrc := none, holdCause := 3, ival := s.due (s.lengthen t.prevPeriod) }
    else t
  s.setTs { t with aonTimebase := listen }

/-- The 1 GHz timebase runs again (R41). [DEDUCED, log entry 11] -/
def State.tsAwake (s : State) : State := if s.ts.aonTimebase then s.setTs { s.ts with aonTimebase := false } else s

/-! ## Meanings -/

def execReferenceEdge (dt : Nat) (falling : Bool) (width : Nat) (onPrev : Bool) (s : State) : Out := runTime (doReferenceEdge dt falling width onPrev) s
def execGeneratedBoundary (s : State) : Out := runTime doGeneratedBoundary s
def execRefLost (s : State) : Out := runTime doRefLost s
def execTsSourceWrite (f : Fin 16) (v : W32) (s : State) : Out := runTime (doTsSourceWrite f v) s
def execHostPosGo (f : Fin 16) (v : W32) (s : State) : Out := runTime (doHostPosGo f v) s
def execCaptureReq (f : Fin 16) (v : W32) (s : State) : Out := run (doCaptureReq f v) s
def execLoadGo (f : Fin 16) (v : W32) (s : State) : Out := runTime (doLoadGo f v) s
def execRecordSequenced (h : Fin 16) (s : State) : Out := runIn .compute (doRecordSequenced h) s

end Sys2Proof.Machine
end

