-- ==== Sys2Proof/Machine/Sleep.lean ====
section
/-! DEFINITION. What a wake does (R563 to R569), the records the island keeps and their delivery (R71), the queues marked as
pre-empted for power (R557), and the clearing of a request's result. -/

namespace Sys2Proof.Machine

/-- A record goes to the trigger units and, where it is for the host, to its event queue (R52, R452). -/
def State.offer (s : State) (r : Rec) : State :=
  let s := s.toUnits r
  if r.toHost then s.post r else s

/-- The kept record with the lowest stamp, the earliest kept on a tie. [DEDUCED, log entry 94] -/
def firstKept (l : List Rec) : Option Rec := l.find? fun r => l.all fun x => decide (r.stamp ≤ x.stamp)

/-- Deliver the kept records in stamp order (R71). [DEDUCED, log entry 94] -/
def State.deliverKept (s : State) : Nat → State
  | 0 => s
  | n + 1 =>
    match firstKept s.island.kept with
    | none => s
    | some r => (({ s with island := { s.island with kept := s.island.kept.erase r } }).offer { r with arrived := s.now }).deliverKept n

/-- The compute domain is up: the island delivers what it kept and releases its wake (R71, R468). [DEDUCED, log entry 94] -/
def State.computeIsUp (s : State) : State :=
  let s := { s with pm := { s.pm with computeUp := true } }
  let s := s.deliverKept (s.island.kept.length + 1)
  { s with island := { s.island with wakeHeld := false } }

/-- Queues marked as pre-empted for power fetch again, as RELEASE returns them (R420, R557). -/
def State.unmark (s : State) : State :=
  let s := s.pm.marked.foldl (fun (s : State) k =>
    let x := s.cq (k / 64) (k % 64)
    if x.mode = .preempted then s.setCq (k / 64) (k % 64) { x with mode := .running } else s) s
  { s with pm := { s.pm with marked := [] } }

/-- PM_REQ_RESULT: DONE with a result (R579). -/
def State.pmResult (s : State) (r : Nat) : State := s.setReg R.PM_REQ_RESULT (w32 (1 + 16 * r))

/-- A request ends without its state being reached: the device is ACTIVE and its marked queues fetch again; a request made in
DOZE ends with the exit from DOZE. -/
def State.pmBack (s : State) (res : Nat) : State :=
  if s.pm.exitFrom = .doze then
    ({ s with pm := { s.pm with mode := .exiting, exitAt := s.now, target := 0, draining := false, killed := false, pme := false, wakes := [] } }).pmResult res
  else
  let s := s.unmark
  ({ s with pm := { s.pm with mode := .active, activeAt := s.now, target := 0, draining := false, killed := false, pme := false, wakes := [] } }).computeIsUp.pmResult res

/-- The states a wake source wakes from (R566). -/
def wakesFrom (src : Nat) (m : PmMode) : Bool :=
  if src = 1 ∨ src = 6 ∨ src = 9 ∨ (2 ≤ src ∧ src ≤ 5) then decide (m = .doze ∨ m = .listen) else decide (m = .doze)

/-- Does the source wake from the state that an entry leads to (R566)? -/
def State.wakesTarget (s : State) (src : Nat) : Bool :=
  decide (src = 10) || (if s.pm.target = 6 then decide (2 ≤ src ∧ src ≤ 5) && bit (s.reg R.PM_WAKE_CTRL) (14 + src)
    else wakesFrom src (if s.pm.target = 2 then .doze else .listen))

/-- A wake from a source: it starts the exit, is latched during an entry under COMPLETE, or aborts the entry under WINDOW
(R563, R568, R569). [DEDUCED, log entry 76] -/
def State.wake (s : State) (src : Nat) : State :=
  if s.pm.mode = .entering then
    if s.wakesTarget src = false then s else
    let latched : State := { s with pm := { s.pm with wakes := s.pm.wakes ++ [src] } }
    if bit (s.reg R.PM_WAKE_CTRL) 0 then (s.addReg R.ENTRY_ABORTS 1).pmBack 7 else latched
  else if wakesFrom src s.pm.mode then
    let s := { s with pm := { s.pm with mode := .exiting, exitFrom := s.pm.mode, exitAt := s.now, wakes := [src] } }
    s.setRegFld R.PM_WAKE_STATUS 8 4 src
  else s

end Sys2Proof.Machine
end

