-- ==== Sys2Proof/Machine/Trigger.lean ====
section
/-! DEFINITION. Trigger units, rules, fire templates and prickings (R52 to R82, R620). -/

namespace Sys2Proof.Machine

/-! ## The rule store (R54, R79) -/

def State.setRule (s : State) (r : Nat) (x : Rule) : State := { s with rules := mset Rule.dflt s.rules r x }
def State.tu (s : State) (u : Nat) : TrigUnit := mget TrigUnit.dflt s.tus u
def State.setTu (s : State) (u : Nat) (x : TrigUnit) : State := { s with tus := mset TrigUnit.dflt s.tus u x }

/-- The hoop whose range holds rule `r`. -/
def State.ruleHoop (s : State) (r : Nat) : Nat := ((List.range 16).find? fun h => s.ruleOf h r).getD 0

/-! ## Values and levels (R55, R56) -/

/-- The value FIELD selects (R55). -/
def Rec.value (r : Rec) (field : Nat) : FVal :=
  if field = 0 then fp32 (w32 (r.pay 32 4))
  else if field = 1 then .fin false (r.pay 28 2 : Nat)
  else if field = 2 then .fin false (r.pay 26 2 : Nat)
  else if field ≤ 9 then fp32 (w32 (r.pay (36 + 4 * (field - 3)) 4))
  else if r.pay 25 1 = 1 then .fin false 1
  else if r.pay 25 1 = 2 then .fin false 2
  else .inf true

/-- Does the record qualify for a source of the rule (R55)? [DEDUCED, log entry 106] -/
def Rule.qualifies (x : Rule) (w : Nat) (r : Rec) : Bool :=
  r.fromSrc w && !(r.value (srcField w)).isNan &&
  (decide (srcKind w = 1) || decide (x.indexSet = 0) || (decide (r.pay 26 2 < 256) && (BitVec.ofNat 256 x.indexSet).getLsbD (r.pay 26 2)))

/-- The value a record counts as for a source (R55): a record that does not qualify counts as the far infinity. [DEDUCED, log entry 106] -/
def Rule.val (x : Rule) (w : Nat) (r : Rec) : FVal := if x.qualifies w r then r.value (srcField w) else .inf (!x.below)

/-- An island rule takes the fixed levels 1.0 and 2.0 (R56). -/
def Rule.island (x : Rule) : Bool := decide (srcKind x.armSrc = 1)
def Rule.armL (x : Rule) : FVal := if x.island then .fin false 1 else fp32 x.armLevel
def Rule.fireL (x : Rule) : FVal := if x.island then .fin false 2 else fp32 x.fireLevel

/-- `v` meets level `l` (R56). -/
def Rule.meets (x : Rule) (v l : FVal) : Bool := if x.below then FVal.le v l else FVal.le l v

/-- The rule is released by `a` (R56). -/
def Rule.released (x : Rule) (a : FVal) : Bool :=
  if x.island then true
  else if x.below then FVal.lt (x.armL.add (fp32 x.hyst)) a else FVal.lt a (x.armL.sub (fp32 x.hyst))

/-! ## Posts (R67, R72) -/

/-- What a rule's or engine's post says (R72). -/
structure PostArgs where
  rule : Nat
  cause : Nat
  flags : Nat
  stamp : Nat
  position : Nat
  value : Nat
  code : Nat
  engine : Nat
  entry : Nat
  arg : Nat
  deriving DecidableEq, Repr

/-- A record with the payload of R72. -/
def State.postRec (s : State) (h e ty source ctx : Nat) (a : PostArgs) : Rec :=
  { hoop := h, eq := e, ty := ty, fault := decide (a.code ≠ 0), forwarded := false, stamp := a.stamp, source := source, context := ctx, arrived := s.now, toHost := true,
    payload := payAt 24 2 a.rule (payAt 26 1 a.cause (payAt 27 1 a.flags (payAt 28 8 (a.stamp / 65536) (payAt 36 2 (a.stamp % 65536)
      (payAt 40 8 a.position (payAt 48 4 a.value (payAt 52 2 a.code (payAt 54 1 a.engine (payAt 55 1 a.entry (payAt 56 4 a.arg 0)))))))))) }

/-! ## Prefetch moves (R60, R132, R192) -/

/-- The prefetch list of a pattern object (R192, R277). -/
def Obj.prefetchList (o : Obj) : List (BitVec 128) :=
  (List.range (o.rd 44 2)).map fun i => o.rdBits 128 (o.rd 40 4 + 16 * i)

/-- Can the object move up to a tier now: homed below it, not pinned, no move, no writer (R60, R182, R183, R191)? -/
def State.canPrefetch (s : State) (k tier : Nat) : Bool :=
  let o := s.obj k
  o.used && o.homed && decide (tier < o.tier) && decide (o.tier ≤ 4) && decide (o.pins = 0) && !s.moving k && !s.hasWriter k && !o.ctxState

/-- Issue one prefetch move, or abandon it where room for what it writes cannot be had (R61, R194). Answers whether it was issued.
[DESIGN CHOICE, log entry 114] -/
def State.issueMove (s : State) (kind : MoveKind) (h k tier loc codec : Nat) (age : Option Nat) : State × Bool :=
  let m : Move := { Move.dflt with kind := kind, hoop := h, obj := k, tier := tier, loc := loc, codec := codec, nshuttle := 4, ageStamp := age }
  if s.obtainable h tier (locUnit tier loc) (4096 * s.moveTiles m) then
    let (s, id) := s.fresh
    (({ s with moves := s.moves ++ [{ m with id := id }] }).tryStart id, true)
  else (s, false)

/-- The moves of R60 for a pattern: every WEIGHT entry with LAYER below `depth` (all when 0), to `tier` at `loc`. Answers
the objects moved and the moves abandoned. -/
def State.prefetch (s : State) (kind : MoveKind) (h pat tier loc depth age : Nat) : State × List Nat × Nat :=
  match s.resolve h pat with
  | none => (s, [], 0)
  | some pk =>
    (s.obj pk).prefetchList.foldl (fun (acc : State × List Nat × Nat) e =>
      let (s, moved, drops) := acc
      if depth ≠ 0 ∧ depth ≤ pfLayer e then acc
      else match s.resolve h (pfObject e) with
        | none => acc
        | some k =>
          if (s.obj k).kind = 1 ∧ s.canPrefetch k tier = true then
            let codec := if (s.obj k).compressed = true ∧ (tier ≤ 1 ∨ pfCodec e = 1) then 1 else 0
            let (s', ok) := s.issueMove kind h k tier loc codec (some age)
            if ok then (s', moved ++ [k], drops) else (s', moved, drops + 1)
          else acc) (s, [], 0)

/-! ## ARM, DISARM (R60, R69) -/

/-- ARM a rule at `stamp` (R60). -/
def State.doArm (s : State) (r stamp ctx : Nat) (cause : Nat) (v : Nat) (flags : Nat) : State :=
  let x := s.rule r
  let h := s.ruleHoop r
  let u := r / 512
  let (s, id) := s.fresh
  let x' := { x with state := 1, armStamp := stamp, armCtx := ctx, armObjs := [], armId := id, deadline := if x.armTimeout = 0 then none else some (stamp + 65536 * x.armTimeout) }
  let s := (s.setRule r x').addReg (R.ARM_COUNT u) 1
  let s :=
    if x.actPrefetch then
      let loc := if x.armTier = 0 then x.targetCore else if x.armTier = 1 then x.targetCluster else 0
      let (s, moved, drops) := s.prefetch (.arm r id) h x.pattern x.armTier loc x.prefetchDepth stamp
      (s.setRule r { s.rule r with armObjs := moved }).addReg (R.PREFETCH_DROP_COUNT u) drops
    else s
  if x.postArm then
    s.post (s.postRec h x.eventQueue 0x11 (sourceId .triggerUnit u) ctx ⟨r, cause, flags, stamp, 0, v, 0, 0, 0, 0⟩)
  else s

/-- DISARM a rule (R69): the ARM's uncommitted moves are killed, and the objects it moved that nothing has used since take
age 0. -/
def State.disarm (s : State) (r stamp cause flags : Nat) : State :=
  let x := s.rule r
  let h := s.ruleHoop r
  let u := r / 512
  let s := (s.moves.filter fun m => decide (m.kind = .arm r x.armId)).foldl (fun s m => s.dropMove m.id) s
  let s := x.armObjs.foldl (fun s k => if (s.obj k).age = x.armStamp then s.modObj k fun o => { o with age := 0 } else s) s
  let s := (s.setRule r { s.rule r with state := 2, deadline := none, armObjs := [] }).addReg (R.DISARM_COUNT u) 1
  if x.postDisarm then
    s.post (s.postRec h x.eventQueue 0x13 (sourceId .triggerUnit u) 0 ⟨r, cause, flags, stamp, 0, 0, 0, 0, 0, 0⟩)
  else s

/-! ## Fire templates (R62 to R68) -/

/-- The newest frame of an output completed at or before a position, as a handle; 0 where none exists (R63, R68). -/
def State.frameAtOrBefore (s : State) (h pipe out pos : Nat) : Nat :=
  match ((mget [] s.rotations (pipe * 16 + out)).filter fun e => decide (e.2 ≤ pos ∧ oHoop e.1 = h)).getLast? with
  | some e => s.handleOf e.1
  | none => 0

/-- What a template is patched with at fire time. -/
structure FireArgs where
  hoop : Nat
  firePos : Nat
  base : Nat
  mark : Option Nat
  ctx : Option Nat
  firing : Option Rec
  deriving DecidableEq, Repr

/-- The 64-byte object holding the firing record (R63): kind RECORD, homed in T2. The manual does not say that it waits for room there, and it does not; the room
it takes may start evictions toward FREE_TARGET (R190). [DESIGN CHOICE, log entry 135] -/
def State.recordObj (s : State) (h : Nat) (r : Rec) : Option (State × Nat) :=
  let data := msetList 0 [] 0 (toBytes 64 (packRec r 0 false false))
  (fun e : State × Nat => (e.1.startMoves, e.2)) <$> s.newObj h { Obj.dflt with kind := 12, tier := 2, homed := true, size := 64, age := s.pos, data := data, tiles := mset ⟨.unwritten, 0⟩ [] 0 ⟨.valid, tileCrc data 0⟩ }

/-- One patch of a template written into its commands (R63). A RECORD patch of a force or a pricking, which have no firing record, or one that finds the
object table full, writes handle 0. [DESIGN CHOICE, log entry 135] -/
def State.applyPatch (s : State) (a : FireArgs) (cmds : List Line) (p : W64) : State × List Line :=
  let ci := fld p 0 3
  let off := bytesAt p 1 1
  let kind := bytesAt p 2 1
  let param := bytesAt p 4 4
  let put := fun (n x : Nat) => cmds.modify ci fun c => setBytes c off n x
  if kind = 0 then (s, put 8 (a.firePos / 65536))
  else if kind = 1 then
    let start := if param = 0 then (a.mark.getD a.base) / 65536 else a.firePos / 65536 - param
    (s, (put 8 start).modify ci fun c => setBytes c (off + 8) 8 (a.firePos / 65536))
  else if kind = 2 then (s, put 4 (s.frameAtOrBefore a.hoop (param % 16) (param / 16 % 4) a.base))
  else if kind = 3 then
    match a.firing with
    | some r => match s.recordObj a.hoop r with
      | some (s', k) => (s', put 4 (s'.handleOf k))
      | none => (s, put 4 0)
    | none => (s, put 4 0)
  else if kind = 4 then (s, put 4 (match a.ctx with | some c => c | none => fld (cmds.headD 0) 32 18))
  else (s, cmds)

/-- The commands of a template, patched, with their contexts and checksums (R62, R63). -/
def State.instantiate (s : State) (a : FireArgs) (o : Obj) : State × List Line :=
  let n := o.rd 0 1
  let np := o.rd 1 1
  let cmds : List Line := (List.range n).map fun i => o.rdBits 512 (64 + 64 * i)
  let had := cmds.map fun c => bit c 11
  let (s, cmds) := ((List.range np).map fun i => o.rdBits 64 (16 + 8 * i)).foldl (fun (acc : State × List Line) p => acc.1.applyPatch a acc.2 p) (s, cmds)
  let fix := fun (c : Line) (h : Bool) =>
    match a.ctx with
    | none => c
    | some x => if h then (if x = 0 then setBit (setBytes c 4 4 0) 11 false else setFld c 32 18 x) else setBytes c 4 4 0
  (s, (cmds.zip had).map fun e => withChecksum (fix e.1 e.2))

/-- A template that keeps its ranges (R62): kind, count, patches inside their command. [DEDUCED, log entry 35] -/
def Obj.templateOk (o : Obj) : Bool :=
  let n := o.rd 0 1
  let np := o.rd 1 1
  decide (1 ≤ n ∧ n ≤ 8 ∧ np ≤ 6 ∧ 64 + 64 * n ≤ o.size) &&
  ((List.range np).map fun i => o.rdBits 64 (16 + 8 * i)).all fun p =>
    let len := if bytesAt p 2 1 = 1 then 16 else if bytesAt p 2 1 = 0 then 8 else 4
    decide (fld p 0 3 < n ∧ 16 ≤ bytesAt p 1 1 ∧ bytesAt p 1 1 + len ≤ 64 ∧ bytesAt p 2 1 ≤ 4)

/-- An AT_STITCH for a position (R65, R133). -/
def atStitchCmd (pos : Nat) : Line := withChecksum (setBytes (setBytes (setBytes (0 : Line) 0 1 5) 16 8 (pos / 65536)) 24 2 (pos % 65536))

/-! ## Appending blocks (R65 to R67, R123) -/

/-- Is there room for `n` commands in a device ring that is enabled (R67, R120)? [DEDUCED, log entry 48] -/
def State.ringRoom (s : State) (h q n : Nat) : Bool :=
  decide ((s.cq h q).mode ≠ .disabled ∧ (s.cq h q).mode ≠ .stopping) && decide ((s.cq h q).held + n ≤ s.cqSize h q)

/-- Write one contiguous block of commands at TAIL of a device ring (R65, R123). -/
def State.ringAppend (s : State) (h q : Nat) (cmds : List Line) : State :=
  cmds.foldl (fun s c =>
    let x := s.cq h q
    let s := match s.cqRing h q with
      | some k => s.modObj k fun o =>
          let a := 64 * (x.tail % s.cqSize h q)
          let data := msetList 0 o.data a (toBytes 64 c)
          { o with data := data, tiles := mset o.tileDflt o.tiles (a / 4096) ⟨.valid, tileCrc data (a / 4096)⟩ }
      | none => s
    s.setCq h q { s.cq h q with tail := nextPos x.tail }) s

/-- A FIRE or APPEND is dropped (R67): the TRIGGER_FIRED record with DROPPED set, then FIRE_DROPPED to its event queue (R72), and the
unit's count. -/
def State.dropFire (s : State) (p : PendFire) : State :=
  let s := match p.fired with
    | some r => s.post { r with payload := payAt 27 1 (bytesAt r.payload 3 1 + (if bytesAt r.payload 3 1 / 2 % 2 = 1 then 0 else 2)) r.payload }
    | none => s
  let s := s.post p.drop
  match p.unit with | some u => s.addReg (R.FIRE_DROP_COUNT u) 1 | none => s

/-- Its block is in the queue: the TRIGGER_FIRED record is posted. -/
def State.fireAppended (s : State) (p : PendFire) : State :=
  let s := s.ringAppend p.hoop p.cq p.cmds
  match p.fired with | some r => s.post r | none => s

/-- Append a block, wait behind earlier ones, or drop it (R65 to R67). [DEDUCED, log entry 48] -/
def State.submitFire (s : State) (p : PendFire) : State :=
  let waiting := (s.pendFires.filter fun x => decide (x.hoop = p.hoop ∧ x.cq = p.cq)).length
  if !s.cqDevice p.hoop p.cq then s.dropFire p
  else if waiting = 0 ∧ s.ringRoom p.hoop p.cq p.cmds.length = true then s.fireAppended p
  else if waiting < (s.force (R.PENDING_FIRE_MAX p.hoop)).toNat then (if p.unit.isSome then ({ s with pendFires := s.pendFires ++ [p] }).noteOcc 5 else { s with pendFires := s.pendFires ++ [p] })
  else s.dropFire p

/-- FIRE a rule (R59, R63 to R65, R73): `rec` is the firing record, none for a force or a pricking. [DESIGN CHOICE, log entry 145] -/
def State.doFire (s : State) (r stamp cause v flags : Nat) (firing : Option Rec) : State :=
  let x := s.rule r
  let h := s.ruleHoop r
  let u := r / 512
  let mark : Option Nat := match firing with
    | some y => if y.ty = 0x10 then some (y.pay 32 8 * 65536 + y.pay 40 2) else none
    | none => none
  let base := if x.fireBase = 1 then mark.getD stamp else if x.fireBase = 2 then x.armStamp else stamp
  let fp := ((base / 65536 : Nat) + x.fireOffset : Int).toNat
  let ctx := if x.context = 0x3FFFF then (match firing with | some y => y.context | none => 0) else x.context
  let s := (s.setRule r { x with state := 2, deadline := none, refractoryEnd := stamp + 65536 * x.refractory }).addReg (R.FIRE_COUNT u) 1
  let fired := if x.postFire then some (s.postRec h x.eventQueue 0x12 (sourceId .triggerUnit u) ctx ⟨r, cause, flags, stamp, fp, v, 0, 0, 0, 0⟩) else none
  let drop := s.postRec h x.eventQueue 0x15 (sourceId .triggerUnit u) ctx ⟨r, cause, flags + 2, stamp, fp, v, 0x112, 0, 0, 0⟩
  let p0 : PendFire := { hoop := h, cq := x.fireQueue, cmds := [], since := s.pos, drop := drop, fired := fired, unit := some u }
  if x.actFire then
    match s.resolve h x.template with
    | none => s.dropFire p0
    | some k =>
      if (s.obj k).templateOk then
        let (s, cmds) := s.instantiate { hoop := h, firePos := 65536 * fp, base := base, mark := mark, ctx := some ctx, firing := firing } (s.obj k)
        s.submitFire { p0 with cmds := (if x.atEnable then [atStitchCmd (65536 * fp)] else []) ++ cmds }
      else s.dropFire p0
  else match fired with
    | some f => s.post f
    | none => s

/-! ## Evaluation (R57 to R59) -/

/-- A record stamped at or after an ARMED rule's deadline finds the rule disarmed (R70). [DEDUCED, log entry 106] -/
def State.disarmBefore (s : State) (r stamp : Nat) : State :=
  match (s.rule r).deadline with
  | some d => if (s.rule r).state = 1 ∧ d ≤ stamp then s.disarm r d 2 0 else s
  | none => s

/-- The procedure of R59 for one rule and one record; an island rule is released once its refractory time has ended (R56), so that the record
finds it IDLE. [DEDUCED, log entry 106] -/
def State.evalRule (s : State) (r : Nat) (rec : Rec) : State :=
  let u := r / 512
  let s := (s.addReg (R.EVAL_COUNT u) 1).disarmBefore r rec.stamp
  let x := s.rule r
  let a := x.val x.armSrc rec
  let f := x.val x.fireSrc rec
  let bitsOf := fun (w : Nat) => if x.qualifies w rec = false then (toFp32 (x.val w rec)).toNat
    else if srcKind w = 1 ∨ srcField w = 1 ∨ srcField w = 2 then (toFp32 (rec.value (srcField w))).toNat
    else if srcField w = 0 then rec.pay 32 4 else rec.pay (36 + 4 * (srcField w - 3)) 4
  if rec.stamp < x.refractoryEnd then
    (s.setRule r { x with suppressed := min 65535 (x.suppressed + 1) }).addReg (R.SUPPRESS_COUNT u) 1
  else if x.state = 2 ∧ x.island = false then (if x.released a then s.setRule r { x with state := 0 } else s)
  else
    let s := if x.state ≠ 1 ∧ rec.fromSrc x.armSrc = true ∧ x.meets a x.armL = true then s.doArm r rec.stamp rec.context 0 (bitsOf x.armSrc) 0 else s
    if (s.rule r).state = 1 ∧ rec.fromSrc x.fireSrc = true ∧ x.meets f x.fireL = true then s.doFire r rec.stamp 0 (bitsOf x.fireSrc) 0 (some rec)
    else s

/-- The lowest rule of unit `u` at or above `n` that the record is offered to. [DEDUCED, log entry 88] -/
def State.nextRule (s : State) (u n : Nat) (rec : Rec) : Option Nat :=
  (s.rules.map (·.1)).find? fun r => decide (n ≤ r ∧ r / 512 = u) && s.offered r rec

/-- Take the unit's next record in stamp order (R57), passing over records no rule of the unit is offered. [DEDUCED, log entry 88] -/
def State.nextOffer (s : State) (u : Nat) : Nat → State × Option (Rec × Nat)
  | 0 => (s, none)
  | n + 1 =>
    let x := s.tu u
    match x.cur with
    | some rec =>
      (match s.nextRule u x.next rec with
       | some r => (s.setTu u { x with next := r + 1 }, some (rec, r))
       | none => (s.setTu u { x with cur := none, next := 0 }).nextOffer u n)
    | none =>
      match nextHeld x.inq with
      | none => (s, none)
      | some rec =>
        let s := match x.fullAt with | some t => s.addReg (R.BACKPRESSURE_CYCLES u) (s.now - t) | none => s
        (s.setTu u { inq := x.inq.erase rec, cur := some rec, next := 0, fullAt := none }).nextOffer u n

/-- Has the unit's partition of the commit table no free entry (R20)? Its waiting blocks hold 64. -/
def State.unitFull (s : State) (u : Nat) : Bool := decide (64 ≤ (s.pendFires.filter fun p => decide (p.unit = some u)).length)

/-- RULE_EVALUATE: trigger unit `u`, which is ON (R103), offers the next held record to its next rule (R57, R59); with its partition full it holds
every evaluation (R20). [DESIGN CHOICE, log entry 130] -/
def doRuleEvaluate (u : Nat) (s : State) : State :=
  if s.unitFull u = true ∨ s.isOn .triggerUnit u = false then s else
  match s.nextOffer u (2 * (s.tu u).inq.length + 3) with
  | (s, some (rec, r)) => (s.evalRule r rec).settled
  | (s, none) => s

/-- The three forces (R73), at the current position, with a cause and flags; a unit that is not ON arms and fires nothing (R103).
[DEDUCED, log entry 47; DESIGN CHOICE, log entry 130] -/
def State.forceArm (s : State) (r cause flags : Nat) : State :=
  if (s.rule r).state = 1 ∨ s.isOn .triggerUnit (r / 512) = false then s else s.doArm r s.pos 0 cause 0 flags
/-- [DESIGN CHOICE, log entry 130]. -/
def State.forceFire (s : State) (r cause flags : Nat) : State :=
  if s.isOn .triggerUnit (r / 512) = false then s else
  let s := s.forceArm r cause flags
  s.doFire r s.pos cause 0 flags none
def State.forceDisarm (s : State) (r cause flags : Nat) : State := if (s.rule r).state = 1 then s.disarm r s.pos cause flags else s

/-- Set RULE_CMD_STATUS: DONE with a result (R81). -/
def State.ruleResult (s : State) (h res : Nat) : State := s.setReg (R.RULE_CMD_STATUS h) (w32 (1 + 16 * res))

/-- Forces that an entry of their unit's partition had held complete (R20, R81): RULE_CMD keeps the rule of a held one. -/
def State.heldForces (s : State) : State :=
  (List.range 16).foldl (fun s h =>
    let r := (s.reg (R.RULE_CMD h)).toNat
    if bit (s.reg (R.RULE_CMD_STATUS h)) 0 ∨ s.unitFull (r / 512) then s
    else if (s.rule r).enabled = false then s.ruleResult h 9 else (s.forceFire r 1 0).ruleResult h 0) s

/-- A trigger unit stops (R105): the records it holds and its waiting blocks are killed, so that it holds no entry of the commit table.
[DESIGN CHOICE, log entry 132] -/
def State.stopTrigger (s : State) (u : Nat) : State :=
  ({ s.setTu u TrigUnit.dflt with pendFires := s.pendFires.filter fun p => decide (p.unit ≠ some u) }).heldForces

/-- PENDING_FIRE_APPEND: the oldest waiting block of a queue finds room, or is dropped where the ring is no longer in device memory (R66, R67). -/
def doPendingFireAppend (h q : Nat) (s : State) : State :=
  match s.pendFires.find? fun p => decide (p.hoop = h ∧ p.cq = q) with
  | some p =>
    if !s.cqDevice h q then (({ s with pendFires := s.pendFires.erase p }).dropFire p).heldForces
    else if s.ringRoom h q p.cmds.length then (({ s with pendFires := s.pendFires.erase p }).fireAppended p).heldForces else s
  | none => s

/-- FIRE_HOLD_EXPIRY: the oldest waiting block of a queue has waited FIRE_HOLD stitches without room and is dropped (R67). -/
def doFireHoldExpiry (h q : Nat) (s : State) : State :=
  match s.pendFires.find? fun p => decide (p.hoop = h ∧ p.cq = q) with
  | some p => if p.since + 65536 * (s.reg (R.FIRE_HOLD h)).toNat ≤ s.pos ∧ s.ringRoom h q p.cmds.length = false then (({ s with pendFires := s.pendFires.erase p }).dropFire p).heldForces else s
  | none => s

/-- Does a record stamped before `d` still wait in its unit to be offered to the rule (R70)? -/
def State.recordBefore (s : State) (r d : Nat) : Bool :=
  let x := s.tu (r / 512)
  (x.inq.any fun rec => decide (rec.stamp < d) && s.offered r rec) ||
  (match x.cur with | some rec => decide (rec.stamp < d ∧ x.next ≤ r) && s.offered r rec | none => false)

/-- DISARM: an ARMED rule's deadline has been reached, and every record stamped before it has been offered (R69, R70). [DEDUCED, log entry 106] -/
def doDisarm (r : Nat) (s : State) : State :=
  let x := s.rule r
  match x.deadline with
  | some d => if x.state = 1 ∧ d ≤ s.pos ∧ s.recordBefore r d = false ∧ s.reachedFirst d = true then s.disarm r d 2 0 else s
  | none => s

/-! ## Rule commands (R73, R81) -/

/-- A RULE_CMD of hoop `h`'s page acts on the selected rule, or is OUT_OF_RANGE; while DONE is 0 it is discarded (R81). -/
def State.ruleCmd (s : State) (f h : Nat) (act : Nat → State → State) : State :=
  s.command f (R.RULE_CMD h) fun s =>
    if !bit (s.reg (R.RULE_CMD_STATUS h)) 0 then s else
    let sel := (s.reg (R.RULE_SEL h)).toNat
    if sel < s.ruleCount h then act (s.ruleBase h + sel) s else s.ruleResult h 1

def doRuleWrite (f h : Nat) (s : State) : State :=
  s.ruleCmd f h fun r s =>
    if (s.rule r).enabled then s.ruleResult h 2
    else
      let b : RuleBits := BitVec.ofNat 1024 ((s.getRegs (R.RULE_DATA h 0) 32).foldr (fun w a => w.toNat + 2 ^ 32 * a) 0)
      (s.setRule r { s.rule r with bits := b }).ruleResult h 0

def doRuleRead (f h : Nat) (s : State) : State :=
  s.ruleCmd f h fun r s =>
    (s.setRegs (R.RULE_DATA h 0) ((List.range 32).map fun i => w32 ((s.rule r).b (4 * i) 4))).ruleResult h 0

/-- Is a source word valid (R81 BAD_SOURCE)? -/
def srcBad (w : Nat) : Bool :=
  if srcKind w = 0 then decide (srcId w = 0 ∨ 9 < srcField w) else decide (2 < srcId w ∨ srcField w ≠ 10)

/-- The first reason to refuse the ENABLE of a rule, in the order of R81's results; 0 when there is none. An island rule's levels are the
fixed ones of R56, and its HYST is ignored. The checks hold whatever actions the rule has set (R66). [DEDUCED, log entry 106] -/
def State.ruleCheck (s : State) (h r : Nat) : Nat :=
  let x := s.rule r
  let hyst := !x.island && ((fp32 x.hyst).isNan || FVal.lt (fp32 x.hyst) (.fin false 0))
  if srcBad x.armSrc || (x.twoSource && srcBad x.fireSrc) then 3
  else if x.armL.isNan || x.fireL.isNan || hyst || !x.meets x.fireL x.armL then 4
  else if !s.cqDevice h x.fireQueue then 5
  else if (match s.resolve h x.template with | some k => !(decide ((s.obj k).tier = 2) && (s.obj k).homed && decide (0 < (s.obj k).pins)) | none => true)
      || (match s.resolve h x.pattern with | some k => decide ((s.obj k).kind ≠ 7) | none => true) then 6
  else if 2 < x.armTier then 7
  else if (decide (x.armTier = 0) && !s.live .core x.targetCore) || (decide (x.armTier = 1) && !s.live .cluster x.targetCluster) then 8
  else 0

/-- ENABLE: the entry is validated; the rule becomes IDLE and enabled, and its template is pinned until it is disabled (R66, R81). -/
def doRuleEnable (f h : Nat) (s : State) : State :=
  s.ruleCmd f h fun r s =>
    let c := s.ruleCheck h r
    if c ≠ 0 then s.ruleResult h c
    else
      let s := match s.resolve h (s.rule r).template with
        | some k => if (s.rule r).enabled then s else s.modObj k fun o => { o with pins := o.pins + 1 }
        | none => s
      (s.setRule r { s.rule r with enabled := true, state := 0, deadline := none, armObjs := [] }).ruleResult h 0

/-- Unpin what enabling a rule pinned (R66). -/
def State.unpinTemplate (s : State) (h r : Nat) : State :=
  match s.resolve h (s.rule r).template with
  | some k => s.modObj k fun o => { o with pins := o.pins - 1 }
  | none => s

/-- [DEDUCED, log entry 47]. -/
def doRuleDisable (f h : Nat) (s : State) : State :=
  s.ruleCmd f h fun r s =>
    if (s.rule r).enabled then
      let s := if (s.rule r).state = 1 then s.disarm r s.pos 1 0 else s
      let s := s.unpinTemplate h r
      (s.setRule r { s.rule r with enabled := false, state := 0, deadline := none }).ruleResult h 0
    else s.ruleResult h 0

def doForceArm (f h : Nat) (s : State) : State :=
  s.ruleCmd f h fun r s => if (s.rule r).enabled then (s.forceArm r 1 0).ruleResult h 0 else s.ruleResult h 9
/-- FORCE_FIRE completes, or with its unit's partition full is held with DONE 0 until an entry is free (R20, R73, R81). [DEDUCED, log entry 47] -/
def doForceFire (f h : Nat) (s : State) : State :=
  s.ruleCmd f h fun r s =>
    if (s.rule r).enabled = false then s.ruleResult h 9
    else if s.unitFull (r / 512) then (s.setReg (R.RULE_CMD_STATUS h) 0).setReg (R.RULE_CMD h) (w32 r)
    else (s.forceFire r 1 0).ruleResult h 0
def doForceDisarm (f h : Nat) (s : State) : State :=
  s.ruleCmd f h fun r s => if (s.rule r).enabled then (s.forceDisarm r 1 0).ruleResult h 0 else s.ruleResult h 9

/-- TRIG_PART_WRITE (R79). -/
def doTrigPartWrite (f h : Nat) (v : W32) (s : State) : State :=
  s.reach f (R.TRIG_PART h) fun s =>
    let b := fld v 0 13
    let n := fld v 16 14
    let overlap := (List.range 16).any fun g => decide (g ≠ h ∧ 0 < n ∧ 0 < s.ruleCount g ∧ b < s.ruleBase g + s.ruleCount g ∧ s.ruleBase g < b + n)
    let leaves := s.rules.any fun e => e.2.enabled && s.ruleOf h e.1 && !decide (b ≤ e.1 ∧ e.1 < b + n)
    if overlap ∨ 8192 < b + n ∨ leaves then s.setRegFld (R.TU_STATUS 0) 16 1 1
    else s.setReg (R.TRIG_PART h) (w32 (b + n * 2 ^ 16))

/-! ## Prickings (R74 to R77) -/

def State.setPrick (s : State) (h n : Nat) (x : Prick) : State := { s with pricks := mset Prick.dflt s.pricks (h * 4 + n) x }

/-- The entries of a table up to END or entry 255 (R74); none where the table is refused. [DESIGN CHOICE, log entry 143] -/
def Obj.pricking (o : Obj) (period : Nat) : Option (List (BitVec 256)) :=
  let n := min 256 (o.size / 32)
  let all := (List.range n).map fun i => o.rdBits 256 (32 * i)
  let es := all.takeWhile fun e => decide (prAction e ≠ 0)
  let ended := decide (es.length < n) || decide (n = 256)
  let asc := (es.zip es.tail).all fun e => decide (prOffset e.1 ≤ prOffset e.2)
  if ended && asc && es.all (fun e => decide (prAction e ≤ 6 ∧ (period = 0 ∨ prOffset e < period))) then some es else none

/-- PRICK_ENABLE: a write of PRICK_CTRL (R80, R81): enabling checks and pins the table, or sets REFUSED. -/
def doPrickEnable (f h n : Nat) (v : W32) (s : State) : State :=
  s.reach f (R.PRICK_CTRL h n) fun s =>
    let was := bit (s.reg (R.PRICK_CTRL h n)) 0
    let late := fld v 1 2
    let unpin := fun (s : State) => match (s.prick h n).table with
      | some k => s.modObj k fun o => { o with pins := o.pins - 1 }
      | none => s
    if bit v 0 then
      if was then s.setReg (R.PRICK_CTRL h n) (w32 (1 + 2 * late))
      else
        let refuse := (s.setReg (R.PRICK_CTRL h n) (w32 (2 * late))).setPrick h n { Prick.dflt with refused := true }
        match s.resolve h (s.reg (R.PRICK_TABLE h n)).toNat with
        | none => refuse
        | some k =>
          let o := s.obj k
          if o.kind = 11 ∧ o.tier = 2 ∧ o.homed = true then
            match o.pricking (s.reg (R.PRICK_PERIOD h n)).toNat with
            | none => refuse
            | some es =>
              ((s.modObj k fun o => { o with pins := o.pins + 1 }).setReg (R.PRICK_CTRL h n) (w32 (1 + 2 * late))).setPrick h n
                { entries := es, lap := 0, entry := 0, done := decide (es = [] ∧ (s.reg (R.PRICK_PERIOD h n)).toNat = 0), refused := false, table := some k }
          else refuse
    else ((unpin s).setReg (R.PRICK_CTRL h n) (w32 (2 * late))).setPrick h n { s.prick h n with entries := [], table := none }

/-- What a pricking entry does when it acts (R74, R620). [DEDUCED, log entry 47; DESIGN CHOICE, log entries 131, 144] -/
def State.prickAct (s : State) (h n i target : Nat) (late : Bool) : State :=
  let e := (s.prick h n).entries.getD i 0
  let fl := b2n late
  let src := sourceId .hoopTrigger h
  let act := prAction e
  if act = 1 then
    let drop := s.postRec h (prAux e / 256 % 16) 0x15 src 0 ⟨0xFFFF, 3, fl + 2, 65536 * target, target, 0, 0x112, n, i, 0⟩
    let p0 : PendFire := { hoop := h, cq := prAux e % 64, cmds := [], since := s.pos, drop := drop, fired := none, unit := some (s.ruleBase h / 512) }
    match s.resolve h (prArg e) with
    | none => s.dropFire p0
    | some k =>
      if (s.obj k).templateOk then
        let (s, cmds) := s.instantiate { hoop := h, firePos := 65536 * target, base := 65536 * target, mark := none, ctx := none, firing := none } (s.obj k)
        s.submitFire { p0 with cmds := cmds }
      else s.dropFire p0
  else if act = 2 ∨ act = 3 ∨ act = 4 then
    let r := s.ruleBase h + prAux e
    if prAux e < s.ruleCount h ∧ (s.rule r).enabled = true then
      (if act = 2 then s.forceArm r 3 fl else if act = 3 then s.forceFire r 3 fl else s.forceDisarm r 3 fl)
    else s
  else if act = 5 then
    s.post { (s.postRec h (prAux e % 16) 0x14 src 0 ⟨0xFFFF, 3, fl, 65536 * target, target, prValue e, 0, n, i, prArg e⟩) with stamp := s.pos }
  else if act = 6 then s.knotOp h (prArg e % 16384) false (w32 (prValue e)) false
  else s

/-- Must the entry wait for room in a trigger unit's partition (R20)? A forced FIRE takes an entry of its rule's unit, an APPEND one of the unit
at the start of the hoop's range. [DESIGN CHOICE, log entry 131] -/
def State.prickWaits (s : State) (h n i : Nat) : Bool :=
  let e := (s.prick h n).entries.getD i 0
  if prAction e = 1 then s.unitFull (s.ruleBase h / 512)
  else if prAction e = 3 ∧ prAux e < s.ruleCount h then s.unitFull ((s.ruleBase h + prAux e) / 512)
  else false

/-- PRICKING_ENTRY: engine `n` of hoop `h` reaches its next target (R44, R75, R76). -/
def doPrickingEntry (h n : Nat) (s : State) : State :=
  let x := s.prick h n
  let period := (s.reg (R.PRICK_PERIOD h n)).toNat
  let target := s.prickTarget h n x.lap x.entry
  if !s.prickDue h n ∨ s.reachedFirst (65536 * target) = false ∨ s.prickWaits h n x.entry = true then s
  else
    let late := decide (65536 * (target + (s.reg (R.PRICK_LATE_TOL h n)).toNat) < s.pos)
    let mode := fld (s.reg (R.PRICK_CTRL h n)) 1 2
    let again := decide (period ≠ 0 ∧ 65536 * (target + period + (s.reg (R.PRICK_LATE_TOL h n)).toNat) < s.pos)
    let skip := late && (decide (mode = 1) || (decide (mode = 2) && again))
    let s := if skip then s.addReg (R.PRICK_SKIP_COUNT h n) 1 else s.prickAct h n x.entry target late
    let last := decide (x.entries.length ≤ x.entry + 1)
    let x := if last then (if period = 0 then { x with entry := x.entry + 1, done := true } else { x with entry := 0, lap := x.lap + 1 })
      else { x with entry := x.entry + 1 }
    (s.setPrick h n x).settled

/-- Hoop reset: the hoop's rules and engines are disabled without actions or posts, states and counters cleared (R82). -/
def State.resetTriggers (s : State) (h : Nat) : State :=
  let s := (s.rules.map (·.1)).foldl (fun s r => if s.ruleOf h r then
    (let s := if (s.rule r).enabled then s.unpinTemplate h r else s
     s.setRule r { Rule.dflt with bits := (s.rule r).bits }) else s) s
  let s := (List.range 4).foldl (fun s n =>
    let s := if bit (s.reg (R.PRICK_CTRL h n)) 0 then
      (match (s.prick h n).table with | some k => s.modObj k (fun o => { o with pins := o.pins - 1 }) | none => s) else s
    s.setPrick h n Prick.dflt) s
  let s := if bit (s.reg (R.RULE_CMD_STATUS h)) 0 then s else s.setReg (R.RULE_CMD_STATUS h) 1
  { s with pendFires := s.pendFires.filter fun p => decide (p.hoop ≠ h) }

/-! ## Meanings -/

def execRuleEvaluate (u : Fin 16) (s : State) : Out := runIn .compute (doRuleEvaluate u) s
def execPendingFireAppend (h : Fin 16) (q : Fin 64) (s : State) : Out := runIn .compute (doPendingFireAppend h q) s
def execFireHoldExpiry (h : Fin 16) (q : Fin 64) (s : State) : Out := runIn .compute (doFireHoldExpiry h q) s
def execDisarm (r : Fin 8192) (s : State) : Out := runIn .compute (doDisarm r) s
def execRuleWrite (f h : Fin 16) (s : State) : Out := run (doRuleWrite f h) s
def execRuleRead (f h : Fin 16) (s : State) : Out := run (doRuleRead f h) s
def execRuleEnable (f h : Fin 16) (s : State) : Out := run (doRuleEnable f h) s
def execRuleDisable (f h : Fin 16) (s : State) : Out := run (doRuleDisable f h) s
def execForceArm (f h : Fin 16) (s : State) : Out := run (doForceArm f h) s
def execForceFire (f h : Fin 16) (s : State) : Out := run (doForceFire f h) s
def execForceDisarm (f h : Fin 16) (s : State) : Out := run (doForceDisarm f h) s
def execTrigPartWrite (f h : Fin 16) (v : W32) (s : State) : Out := run (doTrigPartWrite f h v) s
def execPrickEnable (f h : Fin 16) (n : Fin 4) (v : W32) (s : State) : Out := run (doPrickEnable f h n v) s
def execPrickingEntry (h : Fin 16) (n : Fin 4) (s : State) : Out := runIn .compute (doPrickingEntry h n) s

end Sys2Proof.Machine
end

