-- ==== Sys2Proof/Machine/Host.lean ====
section
/-! DEFINITION. Host rings, appends, fetching and its checks, the queue-head commands that need no other block, queue
control, event queues and interrupts (R118 to R158). -/

namespace Sys2Proof.Machine

/-- A doorbell write of function `f` on a hoop's page: discarded while the hoop is being reset (R151). It is
a wake (R566). -/
def State.doorbell (s : State) (f h a : Nat) (act : State → State) : State :=
  s.reach f a fun s => if (s.hoop h).phase = .resetting then s else (act s).wake 7

/-- Is the hoop RESETTING or SCRUBBING, so that its queues cannot be enabled (R152)? -/
def State.hoopResetting (s : State) (h : Nat) : Bool := decide ((s.hoop h).phase = .resetting ∨ (s.hoop h).phase = .scrubbing)

/-- CQ_DB_TAIL (R122). -/
def doCqDbTail (f h q : Nat) (t : W32) (s : State) : State :=
  s.doorbell f h (R.CQ_DB_TAIL h q) fun s =>
    let x := s.cq h q
    if s.cqDevice h q = false ∧ posDiff x.tail t.toNat < 2 ^ 31 ∧ posDiff x.done t.toNat ≤ s.cqSize h q then
      s.setCq h q { x with tail := t.toNat }
    else s.setCq h q { x with tailRefused := true }

/-- The 64 bytes staged in APPEND_DATA (R123). -/
def State.appendData (s : State) (h q : Nat) : Line :=
  BitVec.ofNat 512 ((s.getRegs (R.APPEND_DATA h q 0) 16).foldr (fun w a => w.toNat + 2 ^ 32 * a) 0)

/-- APPEND_GO (R123): one command appended to a device ring, or refused by the first case that holds. -/
def doAppendGo (f h q : Nat) (v : W32) (s : State) : State :=
  s.doorbell f h (R.APPEND_GO h q) fun s =>
    let res := fun (s : State) (n : Nat) => s.setReg (R.APPEND_RESULT h q) (w32 (1 + 2 * n))
    if !bit v 0 then s
    else if s.cqDevice h q = false then res s 2
    else if bit (s.reg (cqCtrl h q)) 0 = false then res s 3
    else if s.ringRoom h q 1 then res (s.ringAppend h q [s.appendData h q]) 0
    else res (s.setCq h q { s.cq h q with appendFull := true }) 1

/-! ## The checks of a fetched command (R128) -/

/-- Does a RUN_PATTERN's pattern require a context (R277)? -/
def State.needsContext (s : State) (c : Cmd) : Bool :=
  match s.resolve c.hoop c.pattern with
  | some k => bit (s.obj k |>.rdBits 8 9) 1 && decide ((s.obj k).kind = 7)
  | none => false

/-- The turn state of a cluster. -/
def State.turn (s : State) (n : Nat) : Turn := mget Turn.dflt s.turns n
def State.setTurn (s : State) (n : Nat) (t : Turn) : State := { s with turns := mset Turn.dflt s.turns n t }

/-- SHARE of a hoop as it is in force: as the running turn found it, or as written where no turn runs (R407). [DESIGN CHOICE, log entry 138] -/
def State.shareNow (s : State) (n h : Nat) : Nat :=
  if (s.turn n).active then (s.turn n).shares.getD h 0 else (s.reg (R.SHARE h n)).toNat

/-- Is cluster `n` assigned to hoop `h`, exclusively or by share (R406)? -/
def State.clusterOf (s : State) (h n : Nat) : Bool :=
  let v := s.reg (R.SCH_CLUSTER n)
  if bit v 0 then decide (0 < s.shareNow n h) else decide (fld v 4 4 = h)

/-- Has a link of this package trained to package `p` (R179, R427)? -/
def State.peerLinked (s : State) (p : Nat) : Bool := s.links.any fun e => e.2.peerValid && decide (e.2.peer = p)




/-- The code with which MOVE's operands end it (R9, R162, R179, R234, R369); 0 when there is none. [DEDUCED, log entry 34; DESIGN CHOICE, log entry 139] -/
def State.moveCheck (s : State) (c : Cmd) : Nat :=
  if 5 < c.mvTier ∨ c.mvCodec = 3 ∨ 32 < c.b 21 1 ∨ locOk c.mvTier c.mvLocation = false ∨ (c.mvCodec ≠ 2 ∧ c.mvParam ≠ 0) then 0x202
  else if s.locAbsent c.mvTier c.mvLocation false then 0x1
  else match s.resolve c.hoop c.mvObject with
    | none => 0x202
    | some k =>
      let o := s.obj k
      if 0 < o.pins ∨ o.ctxState = true ∨ (c.mvCodec ≠ 0 ∧ o.homed = false) then 0x202
      else if c.mvTier = 5 ∧ s.peerLinked c.mvLocation = false then 0x202
      else if c.mvTier = 0 ∧ s.clusterOf c.hoop (c.mvLocation / 8) = false then 0x202
      else if c.mvTier = 1 ∧ s.clusterOf c.hoop c.mvLocation = false then 0x202
      else if (c.mvCodec = 1 ∧ o.compressed = false) ∨ (c.mvCodec = 2 ∧ o.compressed = true) then 0x202
      else if c.mvTier ≤ 1 ∧ ((o.compressed = true ∧ c.mvCodec ≠ 1) ∨ c.mvCodec = 2) then 0x202
      else if o.sealed = true ∧ (c.mvTier = 4 ∨ (c.mvTier ≠ 5 ∧ c.mvCodec = 2)) then 0x3
      else 0

/-- DETAIL of a MOVE refused by its operands: the value of R530 where SEALED_ACCESS ends it. -/
def moveCheckDetail (c : Cmd) (code : Nat) : BitVec 192 := if code = 3 then setBytes 0 8 1 (if c.mvTier = 4 then 1 else 3) else 0

/-- Steps 1 to 4 of R128 and the operand ranges of step 5 that a fetch decides; 0 when the command proceeds. The cores,
bindings and steps of a RUN_PATTERN are validated at its begin (R283). [DEDUCED, log entry 93] -/
def State.fetchCheck (s : State) (c : Cmd) : Nat :=
  let op := c.opcode
  if c.b 12 4 ≠ (cmdChecksum c.bits).toNat then 0x200
  else if 10 < op then 0x201
  else if reservedZero c.bits op c.armOnly = false ∨ (c.armOnly = true ∧ op ≠ 1) ∨ (c.hasContext = false ∧ c.context ≠ 0) then 0x202
  else if c.hasContext = true ∧ s.ctxOpen c.hoop c.context = false then 0x202
  else if (op = 9 ∨ (op = 1 ∧ s.needsContext c = true)) ∧ c.hasContext = false then 0x202
  else if op = 8 ∧ c.hasContext = true then 0x202
  else if op = 1 ∧ (c.pattern = 0 ∨ 8 < c.nslot ∨ (c.armOnly = true ∧ 2 < c.armTier)) then 0x202
  else if op = 2 then s.moveCheck c
  else if op = 3 ∧ 2 < c.knotOp then 0x202
  else if op = 4 ∧ (1 < c.knotOp ∨ (c.knotOp = 1 ∧ c.knotValue ≠ 0)) then 0x202
  else 0

/-- The next position to fetch, past the marked ones (R417). -/
def State.fetchPos (s : State) (h q : Nat) : Nat :=
  let x := s.cq h q
  passMarks x.marks x.tail (x.marks.length + 1) x.read

/-- May the queue fetch: enabled and running, nothing at its head, its hoop READY with its interface ON (R119, R125), and no sleep being
entered (R557)? -/
def State.canFetch (s : State) (h q : Nat) : Bool :=
  decide ((s.cq h q).mode = .running) && (s.cq h q).head.isNone && decide ((s.hoop h).phase = .ready) && s.isOn .hostIf h &&
  decide (s.pm.mode = .active ∨ s.pm.mode = .idle) &&
  decide (s.fetchPos h q ≠ (s.cq h q).tail)

/-- Bus address of a host ring (R155). -/
def State.ringBase (s : State) (h q : Nat) : Nat :=
  (s.reg (R.CQ_BASE_LO h (q % 32) (q / 32))).toNat + 2 ^ 32 * (s.reg (R.CQ_BASE_HI h (q % 32) (q / 32))).toNat

/-- COMMAND_FETCHED: the fetch of the next ring entry completes (R125, R128), by a read with Relaxed Ordering (R117), once it has tokens (R411, R412);
one that fails is
reported as a non-fatal error (R116). A host ring's 64 bytes come from host memory
(`bits`; `err` 1 a completion error, 2 poisoned data); a device ring's come from its object. [DEDUCED, log entry 90; DESIGN CHOICE, log entry 128] -/
def doCommandFetched (h q : Nat) (bits : Line) (err : Nat) (s : State) : State :=
  if !s.canFetch h q then s
  else
    let x := s.cq h q
    let p := s.fetchPos h q
    let dv := s.cqDevice h q
    let line := if dv then (match s.cqRing h q with | some k => (s.obj k).rdBits 512 (64 * (p % s.cqSize h q)) | none => 0) else bits
    let c : Cmd := ⟨h, q, p, line⟩
    let s := if dv || x.asked then s else (s.draw h 2 64 (.fetch h q)).setCq h q { x with asked := true }
    if s.drawHeld (.fetch h q) then s else
    let s := if dv then s else s.issueTlps [⟨.ringRead, h, s.ringBase h q + 64 * (p % s.cqSize h q), 64, true⟩]
    let s := s.setCq h q { x with read := nextPos p, asked := false }
    if dv = false ∧ err ≠ 0 then (({ s with pcie := { s.pcie with nonFatal := s.pcie.nonFatal + 1 } }).endCmd c 0x200 (detailOf [(40, 1, err)])).settled
    else
      let code := s.fetchCheck c
      if code ≠ 0 then (s.endCmd c code (moveCheckDetail c code)).settled
      else
        let s := s.setCq h q { s.cq h q with head := some c, headSince := s.count, headDelayed := false }
        -- a wait whose condition holds when it is first tested is satisfied at once (R395)
        if c.opcode = 3 then (s.testWaits h c.knot).settled else s.settled

/-- The head of a queue when it has the given opcode and may begin: during an entry to sleep no queue begins a command
(R557). -/
def State.headOp (s : State) (h q op : Nat) : Option Cmd :=
  match (if s.pm.mode = .entering then none else (s.cq h q).head) with
  | some c => if c.opcode = op then some c else none
  | none => none

/-- COMMAND_COMMIT: the begun command at a position commits if it is complete, in its turn, and its event queue has room
(R136, R143, R168). -/
def doCommandCommit (h q pos : Nat) (s : State) : State :=
  match s.flights.find? fun f => decide (f.cmd.hoop = h ∧ f.cmd.cq = q ∧ f.cmd.pos = pos) with
  | some f => if s.committable f then (s.commitFlight f).settled else s
  | none => s

/-- NOP (R129): begins, completes and commits nothing. -/
def doNop (h q : Nat) (s : State) : State :=
  match s.headOp h q 0 with
  | some c => (s.beginDone c 0 0).settled
  | none => s

/-- AT_STITCH (R133). -/
def doAtStitch (h q : Nat) (s : State) : State :=
  match s.headOp h q 5 with
  | some c => if c.atPos ≤ s.pos then (s.beginDone c 0 0).settled else s
  | none => s

/-- Messages that the commit of a command sends: COMMITTED, KNOT_SIG and EVENT_FWD (R438, R442, R443). -/
def commitMsg (ty : Nat) : Bool := decide (ty = 6 ∨ ty = 8)

/-- FENCE (R134): waits for the queue's earlier commands; then takes the set of commits performed, and waits for the records that they
caused and for the link messages sent for them. [DEDUCED, log entry 116] -/
def doFence (h q : Nat) (s : State) : State :=
  match s.headOp h q 6 with
  | none => s
  | some c =>
    if !s.earlierDone c then s
    else
      let x := s.cq h q
      let t := x.fenceAt.getD (s.now, s.pos)
      let s := s.setCq h q { x with fenceAt := some t }
      let byCommit := fun (ty : Nat) => cmdRecType ty && decide (ty ≠ 2)
      let recsDone := !((s.hoop h).held.any fun r => byCommit r.ty && decide (r.arrived ≤ t.1 ∧ r.toHost = true)) &&
        (List.range 16).all fun e => !((s.eq h e).held.any fun l => byCommit (fld l.1 0 16) && decide (fld l.1 64 64 * 65536 + fld l.1 128 16 ≤ t.2))
      let sent := fun (m : LinkMsg) => decide (m.hoop = h) &&
        (if m.ty = 9 then (match m.body with | l :: _ => let l : Line := BitVec.ofNat 512 l; byCommit (fld l 0 16) && decide (fld l 64 64 * 65536 + fld l 128 16 ≤ t.2) | [] => false)
         else commitMsg m.ty && decide (m.sentAt ≤ t.1))
      let linksDone := s.sessions.all fun e => (e.2.unacked ++ e.2.queued.map (·.2)).all fun m => !sent m
      if recsDone && linksDone then
        ((s.setCq h q { s.cq h q with fenceAt := none }).beginDone c 0 0).settled
      else s

/-- POST_EVENT (R135). -/
def doPostEvent (h q : Nat) (s : State) : State :=
  match s.headOp h q 7 with
  | some c => (s.beginDone c 0 0).settled
  | none => s

/-! ## CQ_CMD (R139) -/

/-- A CQ_CMD write of function `f`. [DEDUCED, log entry 27] -/
def State.cqCmd (s : State) (f h q : Nat) (act : State → State) : State := s.reach f (R.CQ_CMD h (q % 32) (q / 32)) act

def doCqResume (f h q : Nat) (s : State) : State :=
  s.cqCmd f h q fun s =>
    if (s.cq h q).mode = .halted then
      let s := s.setCq h q { s.cq h q with mode := .running }
      s.markDone h q (s.cq h q).failed false
    else s

def doCqRetry (f h q : Nat) (s : State) : State :=
  s.cqCmd f h q fun s =>
    let x := s.cq h q
    if x.mode = .halted then s.setCq h q { x with mode := .running, read := x.failed } else s

def doCqClearFlags (f h q : Nat) (s : State) : State :=
  s.cqCmd f h q fun s => s.setCq h q { s.cq h q with tailRefused := false, appendFull := false, cfgRefused := false }

/-! ## CQ_CTRL (R121, R152, R156) -/

/-- The fields of CQ_CTRL other than EN and HALT_ON_FAULT. -/
def cqOther (v : W32) : Nat := fld v 1 1 + fld v 4 5 * 2 ^ 4 + fld v 12 4 * 2 ^ 12

/-- The value CQ_CTRL takes from a write: LOG2_SIZE at its nearest limit (R98). -/
def cqLimit (v : W32) : W32 := applyLimit (.fields [(0,1,0,1), (1,1,0,1), (2,1,0,1), (4,5,6,16), (12,4,0,15)]) v

/-- Does the ring keep R121: a host ring 4 KiB aligned, a device ring a pinned T2 RING object of the hoop that is large enough? -/
def State.ringOk (s : State) (h q : Nat) (v : W32) : Bool :=
  if bit v 1 then
    decide (s.reg (R.CQ_BASE_HI h (q % 32) (q / 32)) = 0) &&
    match s.cqRing h q with
    | some k => decide ((s.obj k).tier = 2 ∧ 0 < (s.obj k).pins ∧ 64 * 2 ^ fld v 4 5 ≤ (s.obj k).size) && (s.obj k).homed
    | none => false
  else decide (s.ringBase h q % 4096 = 0)

/-- CQ_ENABLE: a write of CQ_CTRL with EN = 1. -/
def doCqEnable (f h q : Nat) (v : W32) (s : State) : State :=
  s.reach f (cqCtrl h q) fun s =>
    let v := cqLimit (v ||| 1)
    let x := s.cq h q
    let old := s.reg (cqCtrl h q)
    if bit old 0 then
      if cqOther v ≠ cqOther old then
        (s.setReg (cqCtrl h q) (setBit old 2 (bit v 2))).setCq h q { x with cfgRefused := true }
      else s.setReg (cqCtrl h q) v
    else if s.hoopResetting h = true ∨ s.ringOk h q v = false then
      (s.setReg (cqCtrl h q) (setBit v 0 false)).setCq h q { x with cfgRefused := true }
    else
      -- the device pins a ring while its queue is enabled (R121, R191)
      let s := if bit v 1 then (match s.cqRing h q with | some k => s.modObj k fun o => { o with pins := o.pins + 1 } | none => s) else s
      let x := if x.tail = x.done then { x with tail := 0, read := 0, done := 0, marks := [], ended := [] } else { x with read := x.done }
      (s.setReg (cqCtrl h q) v).setCq h q { x with mode := .running, head := none }

/-- Stop a queue: kill, rewind, keep the positions (R156, R416, R417). It is STOPPING until the stop's time has passed (R157, R418).
[DESIGN CHOICE, log entry 74] -/
def State.stopQueue (s : State) (h q : Nat) : State :=
  let s := if bit (s.reg (cqCtrl h q)) 1 ∧ bit (s.reg (cqCtrl h q)) 0 then
    (match s.cqRing h q with | some k => s.modObj k (fun o => { o with pins := o.pins - 1 }) | none => s) else s
  let s := s.killQueue h q
  (s.setReg (cqCtrl h q) (setBit (s.reg (cqCtrl h q)) 0 false)).setCq h q { s.cq h q with mode := .stopping, fenceAt := none }

/-- Queues of the chosen hoops that were STOPPING are DISABLED (R157). [DESIGN CHOICE, log entry 74] -/
def State.stopsEnd (s : State) (p : Nat → Bool) : State :=
  (s.cqs.filter fun e => p (e.1 / 64) && decide (e.2.mode = .stopping)).foldl (fun (s : State) e => { s with cqs := mset Cq.dflt s.cqs e.1 { e.2 with mode := .disabled } }) s

/-- CQ_DISABLE: a write of CQ_CTRL with EN = 0: it configures a disabled queue and stops an enabled one. -/
def doCqDisable (f h q : Nat) (v : W32) (s : State) : State :=
  s.reach f (cqCtrl h q) fun s =>
    let v := setBit (cqLimit v) 0 false
    let old := s.reg (cqCtrl h q)
    if bit old 0 then
      let s := s.stopQueue h q
      let s := if cqOther v ≠ cqOther old then s.setCq h q { s.cq h q with cfgRefused := true } else s
      (s.setReg (cqCtrl h q) (setBit (setBit old 0 false) 2 (bit v 2))).startMoves.settled
    else s.setReg (cqCtrl h q) v

/-! ## Event queues (R148, R149, R158) -/

/-- The value EQ_CTRL takes from a write (R98). -/
def eqLimit (v : W32) : W32 := applyLimit (.fields [(0,1,0,1), (1,1,0,1), (2,1,0,1), (4,5,6,16), (16,16,0,65535)]) v

/-- A write of EQ_CTRL while the queue is enabled keeps SPLIT and LOG2_SIZE (R158). [DEDUCED, log entry 105] -/
def eqKeep (old v : W32) : W32 := setFld (setFld v 1 1 (fld old 1 1)) 4 5 (fld old 4 5)

/-- Does the write change SPLIT or LOG2_SIZE? [DEDUCED, log entry 105] -/
def eqChanges (old v : W32) : Bool := decide (fld old 1 1 ≠ fld v 1 1 ∨ fld old 4 5 ≠ fld v 4 5)

/-- EQ_ENABLE: a write of EQ_CTRL with EN = 1 sets HEAD and TAIL to 0 (R158), on an enabled queue too, where held records then find room and
a new COAL_COUNT or FULL_MODE acts at once (R143, R148). [DEDUCED, log entry 105] -/
def doEqEnable (f h e : Nat) (v : W32) (s : State) : State :=
  s.reach f (R.EQ_CTRL h e) fun s =>
    let v := eqLimit (v ||| 1)
    let old := s.reg (R.EQ_CTRL h e)
    let q := s.eq h e
    if s.hoopResetting h ∧ bit old 0 = true then s.setEq h e { q with cfgRefused := true }
    else if bit old 0 then
      let s := (s.setReg (R.EQ_CTRL h e) (eqKeep old v)).setEq h e { q with head := 0, tail := 0, pendStamps := [], cfgRefused := eqChanges old v }
      ((s.releaseHeld h e q.held.length).coalesce h e).settled
    else if s.hoopResetting h then (s.setReg (R.EQ_CTRL h e) (setBit v 0 false)).setEq h e { q with cfgRefused := true }
    else (s.setReg (R.EQ_CTRL h e) v).setEq h e { q with en := true, head := 0, tail := 0, pendStamps := [], cfgRefused := false }

/-- Commit a command whose records waited for event queue `e`: those of its records that go there are discarded as drops, and take their
numbers (R143, R147, R158). -/
def State.commitDropping (s : State) (h e : Nat) (f : InFlight) : State :=
  let n := (s.hoop h).held.length
  let s := s.commitFlight f
  let x := s.hoop h
  let gone := fun (r : Rec) => cmdRecType r.ty && r.toHost && decide (r.eq = e)
  let k := ((x.held.drop n).filter gone).length
  let s := s.setHoop h { x with held := x.held.take n ++ (x.held.drop n).filter (fun r => !gone r), seq := (x.seq + k) % 2 ^ 32 }
  if k = 0 then s else (s.setEq h e { s.eq h e with loss := true }).addReg (R.EQ_DROP_COUNT h e) k

/-- EQ_DISABLE: a write of EQ_CTRL with EN = 0: records held for the queue, and those of commits that wait for it, count as
drops (R158). -/
def doEqDisable (f h e : Nat) (v : W32) (s : State) : State :=
  s.reach f (R.EQ_CTRL h e) fun s =>
    let v := setBit (eqLimit v) 0 false
    let old := s.reg (R.EQ_CTRL h e)
    let q := s.eq h e
    let chg := bit old 0 && eqChanges old v
    let s := s.addReg (R.EQ_DROP_COUNT h e) q.held.length
    let waiting := s.flights.filter fun g => g.done && (!g.cmd.ordered || s.earlierDone g.cmd) && !s.commitRoom g && decide (g.cmd.hoop = h)
    let s := (s.setReg (R.EQ_CTRL h e) (if bit old 0 then setBit (eqKeep old v) 0 false else v)).setEq h e
      { q with en := false, held := [], loss := q.loss || !q.held.isEmpty, cfgRefused := chg }
    ((waiting.filter s.commitRoom).foldl (fun s g => s.commitDropping h e g) s).settled

/-- EQ_DB_HEAD (R149): frees entries, which lets held records in and waiting commits proceed. -/
def doEqDbHead (f h e : Nat) (v : W32) (s : State) : State :=
  s.doorbell f h (R.EQ_DB_HEAD h e) fun s =>
    let q := s.eq h e
    let d := posDiff q.head v.toNat
    if d ≤ q.pendingCount then
      let s := s.setEq h e { q with head := v.toNat, headRefused := false, pendStamps := q.pendStamps.drop d }
      (s.releaseHeld h e q.held.length).settled
    else s.setEq h e { q with headRefused := true }

/-- EQ_DB_ARM (R148): a write of 1 arms the queue; a condition that holds sends at once. -/
def doEqDbArm (f h e : Nat) (v : W32) (s : State) : State :=
  s.doorbell f h (R.EQ_DB_ARM h e) fun s =>
    if bit v 0 then (s.setEq h e { s.eq h e with armed := true }).coalesce h e else s

/-- EQ_COALESCE_EXPIRY (R148): COAL_STITCHES have passed since the oldest pending record. -/
def doEqCoalesceExpiry (h e : Nat) (s : State) : State := s.coalesce h e

/-! ## Meanings -/

def execCqDbTail (f h : Fin 16) (q : Fin 64) (t : W32) (s : State) : Out := run (doCqDbTail f h q t) s
def execAppendGo (f h : Fin 16) (q : Fin 64) (v : W32) (s : State) : Out := run (doAppendGo f h q v) s
def execCommandFetched (h : Fin 16) (q : Fin 64) (bits : Line) (err : Fin 3) (s : State) : Out := run (doCommandFetched h q bits err) s
def execCommandCommit (h : Fin 16) (q : Fin 64) (pos : W32) (s : State) : Out := run (doCommandCommit h q pos.toNat) s
def execNop (h : Fin 16) (q : Fin 64) (s : State) : Out := run (doNop h q) s
def execAtStitch (h : Fin 16) (q : Fin 64) (s : State) : Out := run (doAtStitch h q) s
def execFence (h : Fin 16) (q : Fin 64) (s : State) : Out := run (doFence h q) s
def execPostEvent (h : Fin 16) (q : Fin 64) (s : State) : Out := run (doPostEvent h q) s
def execCqResume (f h : Fin 16) (q : Fin 64) (s : State) : Out := run (doCqResume f h q) s
def execCqRetry (f h : Fin 16) (q : Fin 64) (s : State) : Out := run (doCqRetry f h q) s
def execCqClearFlags (f h : Fin 16) (q : Fin 64) (s : State) : Out := run (doCqClearFlags f h q) s
def execCqEnable (f h : Fin 16) (q : Fin 64) (v : W32) (s : State) : Out := run (doCqEnable f h q v) s
def execCqDisable (f h : Fin 16) (q : Fin 64) (v : W32) (s : State) : Out := run (doCqDisable f h q v) s
def execEqEnable (f h e : Fin 16) (v : W32) (s : State) : Out := run (doEqEnable f h e v) s
def execEqDisable (f h e : Fin 16) (v : W32) (s : State) : Out := run (doEqDisable f h e v) s
def execEqDbHead (f h e : Fin 16) (v : W32) (s : State) : Out := run (doEqDbHead f h e v) s
def execEqDbArm (f h e : Fin 16) (v : W32) (s : State) : Out := run (doEqDbArm f h e v) s
def execEqCoalesceExpiry (h e : Fin 16) (s : State) : Out := run (doEqCoalesceExpiry h e) s

end Sys2Proof.Machine
end

