-- ==== Sys2Proof/Machine/Numbers.lean ====
section
/-! DEFINITION. Number formats, conversions and the output stage (R259 to R261, R264, R268 to R270), and the FP32 operations of
the vector and rotary units (R271, R272, R334). -/

namespace Sys2Proof.Machine

/-! ## FP32 arithmetic -/

/-- Round once to FP32, to nearest, ties to even. -/
def fl (v : FVal) : FVal := fp32 (toFp32 v)

def fadd (a b : FVal) : FVal := fl (a.add b)
def fsub (a b : FVal) : FVal := fl (a.sub b)
def fmul (a b : FVal) : FVal := fl (a.mul b)
def fdiv (a b : FVal) : FVal := fl (a.div b)
/-- a × b + c with one rounding. -/
def ffma (a b c : FVal) : FVal := fl ((a.mul b).add c)

def fzero : FVal := .fin false 0
def fone : FVal := .fin false 1
/-- A number as a value. -/
def fnat (n : Nat) : FVal := .fin false n

/-- Larger of two; NaN for a NaN; max(+0, −0) = +0 (R271). -/
def fmax (a b : FVal) : FVal := if a.isNan || b.isNan then .nan else if FVal.lt a b then b else if FVal.lt b a then a else if a.sign then b else a
/-- Smaller of two; min(+0, −0) = −0. -/
def fmin (a b : FVal) : FVal := if a.isNan || b.isNan then .nan else if FVal.lt a b then a else if FVal.lt b a then b else if a.sign then a else b

/-- The sum of a list formed exactly and rounded once; infinities and NaN as in XS (R356) and G64 (R338). -/
def exactSum (l : List FVal) : FVal :=
  if l.any FVal.isNan ∨ (l.contains (.inf false) ∧ l.contains (.inf true)) then .nan
  else if l.contains (.inf false) then .inf false
  else if l.contains (.inf true) then .inf true
  else fl (FVal.ofRat (l.foldl (fun a v => a + v.num) 0))

/-! ## Formats (R259, R260) -/

def fmtE4M3 : Fmt := ⟨4, 3, 7, false⟩
def fmtE5M2 : Fmt := ⟨5, 2, 15, true⟩
def fmtE2M1 : Fmt := ⟨2, 1, 1, false⟩

/-- Bits of one element. -/
def elemBits (f : Nat) : Nat := if f = 2 ∨ f = 9 ∨ f = 10 then 4 else if f = 5 ∨ f = 6 then 16 else if f = 7 ∨ f = 11 then 32 else 8

/-- A format with a scale per block of 32. -/
def isBlockFmt (f : Nat) : Bool := decide (f = 8 ∨ f = 9 ∨ f = 10)

/-- Bytes of one block scale. -/
def scaleBytes (f : Nat) : Nat := if f = 8 then 2 else 1

/-- Integer formats (elements). -/
def isIntFmt (f : Nat) : Bool := decide (f ≤ 2 ∨ f = 11)

/-- The floating format of a code. -/
def floatOf (f : Nat) : Fmt := if f = 3 then fmtE4M3 else if f = 4 then fmtE5M2 else if f = 5 then fmtBf16 else if f = 6 then fmtFp16 else fmtFp32

/-- An integer as a value. -/
def fint (x : Int) : FVal := FVal.ofRat (x : Rat)

/-- The value of one element's bits, without its scale. -/
def decodeElem (f raw : Nat) : FVal :=
  if f = 0 ∨ f = 8 then fint (signedOf 8 raw)
  else if f = 1 then fnat (raw % 256)
  else if f = 2 ∨ f = 9 then fint (signedOf 4 raw)
  else if f = 3 then (if raw % 128 = 127 then .nan else decodeFmt fmtE4M3 raw)
  else if f = 10 then decodeFmt fmtE2M1 raw
  else if f = 11 then fint (signedOf 32 raw)
  else decodeFmt (floatOf f) raw

/-- The value of a block scale. -/
def decodeScale (f raw : Nat) : FVal :=
  if f = 8 then decodeFmt fmtFp16 raw
  else if f = 9 then decodeElem 3 raw
  else if raw % 256 = 255 then .nan else .fin false (pow2 ((raw % 256 : Nat) - 127))

/-- Largest finite magnitude of a floating format. -/
def maxFinite (f : Nat) : Rat :=
  if f = 3 then 448 else if f = 4 then 57344 else if f = 6 then 65504
  else if f = 5 then 255 * pow2 120 else 16777215 * pow2 104

/-- The spacing of a floating format at a magnitude, its exponent range taken as unbounded above. -/
def spacing (f : Fmt) (q : Rat) : Rat := pow2 (max (1 - (f.bias : Int)) (if q = 0 then 1 - (f.bias : Int) else log2Rat q) - f.mb)

/-- A magnitude rounded to nearest, ties to even, with the exponent range unbounded above (R268). -/
def roundMag (f : Fmt) (q : Rat) : Rat := (roundEven (q / spacing f q) : Rat) * spacing f q

/-- The bits of a magnitude that the format holds exactly. -/
def magBits (f : Fmt) (q : Rat) : Nat :=
  if q = 0 then 0
  else
    let emin : Int := 1 - (f.bias : Int)
    let e := max emin (log2Rat q)
    let k := (q * pow2 ((f.mb : Int) - e)).floor.toNat
    if k < 2 ^ f.mb then k else ((e - emin).toNat + 1) * 2 ^ f.mb + (k - 2 ^ f.mb)

/-- The NaN that the device writes (R260). -/
def writtenNan (f : Nat) : Nat := if f = 3 then 0x7F else if f = 4 then 0x7E else if f = 5 then 0x7FC0 else if f = 6 then 0x7E00 else 0x7FC00000

/-- Counts of a step: elements saturated or clamped, NaNs written or turned into 0 (R268, R269). -/
structure Cnt where
  sat : Nat
  nan : Nat
  deriving DecidableEq, Repr

def Cnt.add (a b : Cnt) : Cnt := ⟨a.sat + b.sat, a.nan + b.nan⟩
def Cnt.zero : Cnt := ⟨0, 0⟩

/-- Nearest integer, ties to even. -/
def roundInt (q : Rat) : Int := if q < 0 then -(roundEven (-q) : Int) else roundEven q

/-- Range of an integer format. -/
def intRange (f : Nat) : Int × Int := if f = 0 then (-128, 127) else if f = 1 then (0, 255) else if f = 2 then (-8, 7) else (-2147483648, 2147483647)

/-- The procedure mix of R270. [DEDUCED, log entry 37] -/
def mix (seed idx : W32) : W32 :=
  let x := seed ^^^ (idx * 0x9E3779B9#32)
  let x := (x ^^^ (x >>> 16)) * 0x85EBCA6B#32
  let x := (x ^^^ (x >>> 13)) * 0xC2B2AE35#32
  x ^^^ (x >>> 16)

/-- An output that rounds stochastically: seed and row-major index (R270). -/
abbrev Stoch := Option (W32 × W32)

/-- Steps 3 and 4 of R268 for a format without blocks: the bits, and what they add to the counts. -/
def convert (f : Nat) (sat : Bool) (st : Stoch) (v : FVal) : Nat × Cnt :=
  if isIntFmt f then
    let (lo, hi) := intRange f
    let put := fun (x : Int) => (x % (2 ^ elemBits f : Nat)).toNat
    match v with
    | .nan => (0, ⟨0, 1⟩)
    | .inf n => (put (if n then lo else hi), ⟨1, 0⟩)
    | v =>
      let x := roundInt v.num
      if x < lo then (put lo, ⟨1, 0⟩) else if hi < x then (put hi, ⟨1, 0⟩) else (put x, ⟨0, 0⟩)
  else
    let g := floatOf f
    let sgn := fun (n : Bool) => b2n n * 2 ^ (g.eb + g.mb)
    let big := fun (n : Bool) =>
      if f = 3 ∨ (f ≠ 7 ∧ sat = true) then (magBits g (maxFinite f) + sgn n, (⟨1, 0⟩ : Cnt)) else ((2 ^ g.eb - 1) * 2 ^ g.mb + sgn n, ⟨0, 0⟩)
    match v with
    | .nan => (writtenNan f, ⟨0, 1⟩)
    | .inf n => big n
    | .fin n q =>
      let r := match (if 3 ≤ f ∧ f ≤ 6 then st else none) with
        | none => roundMag g q
        | some (seed, idx) =>
          let u := spacing g q
          let lo := (((q / u).floor.toNat : Nat) : Rat) * u
          if lo = q then q else if ((mix seed idx).toNat : Rat) < (q - lo) / u * 4294967296 then lo + u else lo
      if maxFinite f < r then big n else (magBits g r + sgn n, ⟨0, 0⟩)

/-- R269: a block of 32 values in a block format: the scale's bits, the elements' bits, the counts. [DEDUCED, log entry 107] -/
def quantise (f : Nat) (vs : List FVal) : Nat × List Nat × Cnt :=
  let bad := vs.any fun v => match v with | .fin _ _ => false | _ => true
  if bad then ((if f = 8 then 0x7E00 else if f = 9 then 0x7F else 0xFF), vs.map fun _ => 0, ⟨0, 32⟩)
  else
    let a : Rat := vs.foldl (fun a v => max a (if v.num < 0 then -v.num else v.num)) 0
    let (sb, s) : Nat × Rat :=
      if f = 8 then (let r := min (roundMag fmtFp16 (a / 127)) 65504; (magBits fmtFp16 r, r))
      else if f = 9 then (let r := min (roundMag fmtE4M3 (a / 7)) 448; (magBits fmtE4M3 r, r))
      else (let e := if a = 0 then 0 else clamp 0 254 (log2Rat a - 2 + 127).toNat; (e, pow2 ((e : Int) - 127)))
    let one := fun (v : FVal) =>
      if s = 0 then (0, Cnt.zero)
      else
        let q := v.num / s
        if f = 10 then
          let m := roundMag fmtE2M1 (if q < 0 then -q else q)
          (magBits fmtE2M1 (min m 6) + 8 * b2n v.sign, if 6 < m then ⟨1, 0⟩ else ⟨0, 0⟩)
        else
          let (lo, hi) : Int × Int := if f = 8 then (-127, 127) else (-8, 7)
          let x := roundInt q
          let y := if x < lo then lo else if hi < x then hi else x
          ((y % (2 ^ elemBits f : Nat)).toNat, if x = y then ⟨0, 0⟩ else ⟨1, 0⟩)
    let es := vs.map one
    (sb, es.map (·.1), es.foldl (fun c e => c.add e.2) Cnt.zero)

/-! ## Enclosures of the functions the manual bounds (R271, R334) -/

/-- Fixed point of 2^−256 for the enclosures. -/
def fx : Nat := 2 ^ 256

/-- A number in fixed point. -/
def toFx (q : Rat) : Int := (q * (fx : Rat)).floor

/-- The sum of a series in fixed point: `n` terms, each from the one before it. -/
def series (next : Nat → Int → Int) : Nat → Nat → Int → Int → Int
  | 0, _, _, acc => acc
  | n + 1, k, t, acc => series next n (k + 1) (next k t) (acc + t)

/-- Square a fixed-point number `n` times. -/
def sqTimes : Nat → Int → Int
  | 0, x => x
  | n + 1, x => sqTimes n (x * x / (fx : Int))

/-- e^x for |x| ≤ 128, in fixed point (an error below 2^−90 of the value for the results FP32 can hold). -/
def expFx (q : Rat) : Int :=
  let y := toFx (q / 1024)
  sqTimes 10 (series (fun k t => t * y / ((fx : Int) * (k + 1))) 60 0 (fx : Int) 0)

/-- 2·atanh(z) for |z| ≤ 1/3. -/
def atanh2Fx (z : Rat) : Int :=
  let y := toFx z
  let z2 := y * y / (fx : Int)
  2 * ((List.range 100).foldl (fun (a : Int × Int) k => (a.1 + a.2 / (2 * k + 1), a.2 * z2 / (fx : Int))) (0, y)).1

/-- ln of a positive number. -/
def lnFx (q : Rat) : Int :=
  let e := log2Rat q
  let m := q / pow2 e
  e * atanh2Fx (1 / 3) + atanh2Fx ((m - 1) / (m + 1))

/-- arctan(1/n). -/
def atanInvFx (n : Nat) : Int :=
  ((List.range 120).foldl (fun (a : Int × Int) k => (a.1 + (if k % 2 = 0 then 1 else -1) * (a.2 / (2 * k + 1)), a.2 / (n * n))) (0, (fx : Int) / n)).1

/-- π. -/
def piFx : Int := 16 * atanInvFx 5 - 4 * atanInvFx 239

/-- sin or cos of an angle, in fixed point. -/
def trigFx (cosine : Bool) (q : Rat) : Int :=
  let two := 2 * piFx
  let x := toFx q
  let r := x - (x / two) * two
  let x2 := r * r / (fx : Int)
  series (fun k t => -(t * x2 / (fx : Int)) / (((2 * k + if cosine then 1 else 2) * (2 * k + if cosine then 2 else 3) : Nat) : Int)) 80 0 (if cosine then (fx : Int) else r) 0

/-- e^x as a number, 0 far below and bounded far above FP32's range. -/
def expRat (q : Rat) : Rat := if q < -128 then 0 else if 128 < q then pow2 180 else (expFx q : Rat) / (fx : Rat)

def tanhRat (q : Rat) : Rat :=
  if 60 < q then 1 else if q < -60 then -1 else let e := expRat (2 * q); (e - 1) / (e + 1)
def sigRat (q : Rat) : Rat := if 0 ≤ q then 1 / (1 + expRat (-q)) else let e := expRat q; e / (1 + e)

/-- The exact results that R271 bounds, by operation, for a finite argument in the operation's domain, with the width of the
bound in ulp. [DEDUCED, log entry 38] -/
def boundedFun (op : Nat) (q : Rat) : Option (Rat × Nat) :=
  if op = 15 then (if 0 < q then some (1 / ((Nat.sqrt (q * pow2 300).floor.toNat : Rat) / pow2 150), 1) else none)
  else if op = 16 then some (expRat q, 2)
  else if op = 17 then (if 0 < q then some ((lnFx q : Rat) / (fx : Rat), 2) else none)
  else if op = 18 then some (tanhRat q, 2)
  else if op = 19 then some (sigRat q, 2)
  else if op = 20 then some (q * sigRat q, 3)
  else if op = 21 then some (q / 2 * (1 + tanhRat (79788456 / 100000000 * (q + 44715 / 1000000 * q * q * q))), 4)
  else none

/-- One ulp of FP32 at a number. -/
def ulp32 (q : Rat) : Rat := spacing fmtFp32 (if q < 0 then -q else q)

/-- A value the manual bounds but does not fix (R271): the free function of the operand where it keeps the bound (for GELU, the
larger of 4 ulp and 2^−20), else the correctly rounded result; the special values are those the table states or limits
force, and SILU and GELU of −∞, for which it states none, are free. [DEDUCED, log entry 38] -/
def bounded (op : Nat) (v : FVal) : FVal :=
  match v with
  | .nan => .nan
  | .inf n =>
    if op = 15 then (if n then .nan else .fin false 0)
    else if op = 16 then (if n then .fin false 0 else .inf false)
    else if op = 17 then (if n then .nan else .inf false)
    else if op = 18 then .fin n 1
    else if op = 19 then .fin false (if n then 0 else 1)
    else if n then fp32 (Config.vecFun op (toFp32 (.inf true))) else .inf false
  | .fin n q0 =>
    if op = 15 ∧ q0 = 0 then .inf n
    else if op = 17 ∧ q0 = 0 then .inf true
    else match boundedFun op v.num with
      | none => .nan
      | some (a, k) =>
        let w := Config.vecFun op (toFp32 v)
        let tol := if op = 21 then max ((k : Rat) * ulp32 a) (pow2 (-20)) else (k : Rat) * ulp32 a
        match fp32 w with
        | .fin m x => if ((FVal.fin m x).num - a ≤ tol ∧ a - (FVal.fin m x).num ≤ tol) ∧ ¬ (maxFinite 7 < roundMag fmtFp32 (if a < 0 then -a else a)) then .fin m x else fl (FVal.ofRat a)
        | _ => fl (FVal.ofRat a)

/-- COS (`op` 32) and SIN (`op` 33) of the rotary unit (R334): absolute error at most 2^−23. [DEDUCED, log entry 38] -/
def rotary (cosine : Bool) (v : FVal) : FVal :=
  match v with
  | .fin _ _ =>
    let a : Rat := (trigFx cosine v.num : Rat) / (fx : Rat)
    match fp32 (Config.vecFun (if cosine then 32 else 33) (toFp32 v)) with
    | .fin m x => if (FVal.fin m x).num - a ≤ pow2 (-23) ∧ a - (FVal.fin m x).num ≤ pow2 (-23) then .fin m x else fl (FVal.ofRat a)
    | _ => fl (FVal.ofRat a)
  | _ => .nan

def fexp (v : FVal) : FVal := bounded 16 v
def flog (v : FVal) : FVal := bounded 17 v
def ftanh (v : FVal) : FVal := bounded 18 v
def fsigmoid (v : FVal) : FVal := bounded 19 v

/-- √X, correctly rounded; NaN below 0. -/
def fsqrt : FVal → FVal
  | .nan => .nan
  | .inf n => if n then .nan else .inf false
  | .fin n q =>
    if q = 0 then .fin n 0
    else if n then .nan
    else
      let m := Nat.sqrt (q * pow2 300).floor.toNat
      fl (.fin false (((m : Rat) + (if ((m * m : Nat) : Rat) = q * pow2 300 then 0 else 1 / 2)) / pow2 150))

/-! ## The vector operations (R271, R272) -/

/-- One element of a VECTOR operation other than ROWSUM and ROWMAX. -/
def vecOp (op : Nat) (x y z imm : FVal) : FVal :=
  if op = 0 then x
  else if op = 1 then fadd x y
  else if op = 2 then fsub x y
  else if op = 3 then fmul x y
  else if op = 4 then ffma x y z
  else if op = 5 then fmax x y
  else if op = 6 then fmin x y
  else if op = 7 then (match x with | .fin _ q => .fin false q | .inf _ => .inf false | .nan => .nan)
  else if op = 8 then x.neg
  else if op = 9 then fmul x imm
  else if op = 10 then (if FVal.lt y x then fone else fzero)
  else if op = 11 then (match z with | .fin _ 0 => y | _ => x)
  else if op = 12 then fdiv x y
  else if op = 13 then fdiv fone x
  else if op = 14 then fsqrt x
  else bounded op x

/-- Combine a row in the order of R272. -/
def rowReduce (f : FVal → FVal → FVal) (init : FVal) (xs : List FVal) : FVal :=
  let lanes := (List.range 64).map fun l => ((xs.zipIdx.filter fun e => decide (e.2 % 64 = l)).map (·.1)).foldl f init
  let halve := fun (p : List FVal) (w : Nat) => (List.range w).map fun l => f (p.getD l fzero) (p.getD (l + w) fzero)
  ([32, 16, 8, 4, 2, 1].foldl halve lanes).headD fzero

/-- ROWSUM of a row. -/
def rowSum (xs : List FVal) : FVal := rowReduce fadd fzero xs

/-- ROWMAX of a row: the largest, NaN if any is NaN. -/
def rowMax (xs : List FVal) : FVal := match xs with | [] => fzero | x :: r => r.foldl fmax x

end Sys2Proof.Machine
end

