-- ==== Sys2Proof/Machine/Pattern.lean ====
section
/-! DEFINITION. Patterns (R277 to R283): descriptors (R262, R291), the operands of steps, and the validation of a
RUN_PATTERN in the order R283 gives. -/

namespace Sys2Proof.Machine

/-! ## Descriptors of a pattern -/

/-- A descriptor's 32 bytes (R262). -/
def Obj.pDesc (p : Obj) (d : Nat) : BitVec 256 := p.rdBits 256 (p.rd 28 4 + 32 * d)

/-! ## Descriptors (R262, R291) -/

abbrev Desc := BitVec 256

def dSource (d : Desc) : Nat := bytesAt d 0 1
def dFormat (d : Desc) : Nat := bytesAt d 1 1
def dPer (d : Desc) : Bool := bit d 16
def dImage (d : Desc) : Bool := bit d 17
def dRows (d : Desc) : Nat := bytesAt d 4 4
def dCols (d : Desc) : Nat := bytesAt d 8 4
def dStride (d : Desc) : Nat := bytesAt d 12 4
def dOffset (d : Desc) : Nat := if dImage d then 64 * bytesAt d 20 4 else bytesAt d 16 8
def dScaleOff (d : Desc) : Nat := if dImage d then 64 * bytesAt d 24 4 else bytesAt d 24 4
def dN (d : Desc) : Nat := bytesAt d 4 2
def dC (d : Desc) : Nat := bytesAt d 6 2
def dH (d : Desc) : Nat := bytesAt d 8 2
def dW (d : Desc) : Nat := bytesAt d 10 2
def dPlane (d : Desc) : Nat := 64 * bytesAt d 16 4
/-- TENSOR_SCALE, 1.0 without PER_TENSOR. -/
def dScale (d : Desc) : FVal := if dPer d then fp32 (w32 (bytesAt d 28 4)) else fone

/-- Bytes of a packed row of the two-dimensional form. -/
def rowBytes (d : Desc) : Nat := (dCols d * elemBits (dFormat d) + 7) / 8

/-- Row stride of a scale plane of a Q8_32 picture (R292). -/
def scaleRow (d : Desc) : Nat := 64 * ceilDiv (2 * dW d) 64

/-- Bytes past the start of the source that the descriptor reaches, its scale plane included (R262, R292). -/
def dReach (d : Desc) : Nat :=
  if dImage d then
    let last := dOffset d + (dN d * dC d - 1) * dPlane d + (dH d - 1) * dStride d + dW d * elemBits (dFormat d) / 8
    max last (if dFormat d = 8 then dScaleOff d + ((dN d * dC d / 32) * dH d - 1) * scaleRow d + 2 * dW d else 0)
  else
    let last := dOffset d + (dRows d - 1) * dStride d + rowBytes d
    max last (if isBlockFmt (dFormat d) then dScaleOff d + dRows d * dCols d / 32 * scaleBytes (dFormat d) else 0)

/-- A pattern with the command that runs it, as validation and its steps see them. -/
structure PatRun where
  pat : Obj
  cmd : Cmd
  /-- Bound objects as read at the begin, by binding. -/
  binds : List Obj
  /-- Bindings whose segment has not been made yet (R458). -/
  unmade : List Nat
  deriving DecidableEq, Repr

/-- Bytes of a descriptor's source; none for a reserved one (R262, R276). -/
def PatRun.srcSize (r : PatRun) (src : Nat) : Option Nat :=
  if src < r.pat.pNbind then some (r.binds.getD src Obj.dflt).size
  else if src = 0x10 then some (1024 * r.pat.pScratchKib)
  else if src = 0x11 then some (1024 * r.pat.pT1Kib)
  else if src = 0x12 then some (if r.pat.pConstOff = 0 then 0 else r.pat.pConstSize)
  else none

/-- Does a descriptor keep R262 or R291? [DEDUCED, log entry 35] -/
def PatRun.descOk (r : PatRun) (d : Desc) : Bool :=
  let f := dFormat d
  let size := r.srcSize (dSource d)
  let common := size.isSome && decide (dReach d ≤ size.getD 0) && (!dPer d || decide (f ≤ 4 ∨ f = 11))
  if dImage d then
    common && decide (fld d 18 14 = 0) && [0, 1, 3, 4, 5, 6, 7, 8, 11].contains f &&
    decide (1 ≤ dN d ∧ dN d ≤ 256 ∧ 1 ≤ dC d ∧ dC d ≤ 16384 ∧ 1 ≤ dH d ∧ 1 ≤ dW d ∧ dStride d % 64 = 0 ∧ dW d * elemBits f / 8 ≤ dStride d ∧
      dH d * dStride d ≤ dPlane d) &&
    (if f = 8 then decide (dC d % 32 = 0) else decide (dScaleOff d = 0))
  else
    common && decide (fld d 17 15 = 0) && decide (f ≤ 11) &&
    decide (1 ≤ dRows d ∧ dRows d ≤ 2 ^ 24 ∧ 1 ≤ dCols d ∧ dCols d ≤ 2 ^ 24 ∧ dStride d % 64 = 0 ∧ rowBytes d ≤ dStride d ∧ dOffset d % 64 = 0) &&
    (if isBlockFmt f then decide (dCols d % 32 = 0 ∧ dScaleOff d % 64 = 0) else decide (dScaleOff d = 0))

/-- May a step write through the descriptor (R262)? -/
def PatRun.writable (r : PatRun) (d : Desc) : Bool :=
  decide (dSource d = 0x10 ∨ dSource d = 0x11) ||
  (decide (dSource d < r.pat.pNbind) && decide ((r.pat.pBind (dSource d)).dir = 1 ∨ (r.pat.pBind (dSource d)).dir = 2))

/-! ## Operands of steps (R279) -/

/-- Descriptor operands that a step reads, and those it writes: byte of the step, and whether 0xFFFF is allowed (R280, R281,
R293, R309 to R311, R315, R328, R335, R343, R353, R362). -/
def stepOperands (t : Step) : List (Nat × Bool) × List (Nat × Bool) :=
  let op := stOp t
  let d (b : Bool) (i : Nat) : List (Nat × Bool) := if b then [(i, false)] else []
  let vecUses : List (Nat × Bool) :=
    let v := st1 t 4
    [(6, false)] ++ (if (1 ≤ v ∧ v ≤ 6) ∨ v = 10 ∨ v = 11 ∨ v = 12 then [(8, false)] else []) ++ (if v = 4 ∨ v = 11 then [(10, false)] else [])
  if op = 1 then ([(4, false), (6, false)] ++ d (stFlag t 2) 10, [(8, false)])
  else if op = 2 then (vecUses, [(12, false)])
  else if op = 0x10 ∨ op = 0x11 then ([(4, false), (6, false)] ++ d (stFlag t 2) 10, [(8, false)])
  else if op = 0x12 ∨ op = 0x13 then ([(4, false)], [(8, false)])
  else if op = 0x14 then ([(4, false)], [(6, true), (8, false)])
  else if op = 0x15 then ([(4, false), (6, false), (8, false)], [(10, false)])
  else if op = 0x18 then ([(4, false)], [])
  else if op = 0x19 then ([], [(4, false)])
  else if op = 0x20 then ([(4, false), (6, false), (8, false)], [])
  else if op = 0x21 then ([(4, false), (10, false)], [(6, false), (8, true)])
  else if op = 0x22 then ([(6, false)], [(8, true), (10, true), (12, true)])
  else if op = 0x28 then
    ([(4, false), (6, false), (8, true), (10, true), (14, true)] ++ (if st1 t 18 = 0xFE then [(24, true)] else [(16, false)]) ++ [(28, true)],
     [(12, true)] ++ d (decide (st1 t 18 = 0xFE)) 26)
  else if op = 0x29 ∨ op = 0x2A then
    ([(4, false), (6, false), (8, true), (12, true)] ++ (if st1 t 16 = 0xFE then [(22, true)] else [(14, false)]),
     [(10, true)] ++ d (decide (st1 t 16 = 0xFE)) 24)
  else ([], [])

/-- Descriptor indices a step reads. -/
def stepReads (t : Step) : List Nat := ((stepOperands t).1.map fun e => st2 t e.1).filter (· ≠ 0xFFFF)

/-- Does the operand at byte `i` name a descriptor? -/
def hasOpd (t : Step) (i : Nat) : Bool := decide (st2 t i ≠ 0xFFFF)

/-- Bits of a step that must be 0, by operation. -/
def stepReserved (t : Step) : List (Nat × Nat) :=
  let op := stOp t
  if op = 1 then [(14, 2), (128, 128)]
  else if op = 2 then [(10, 6), (40, 8), (112, 16), (192, 64)]
  else if op = 3 then [(9, 7), (48, 16), (96, 160)]
  else if op = 4 then [(8, 8), (48, 16), (96, 160)]
  else if op = 0x10 then [(14, 2), (240, 16)]
  else if op = 0x11 then [(11, 1), (14, 2), (240, 16)]
  else if op = 0x12 then [(8, 4), (240, 16)]
  else if op = 0x13 then [(9, 7), (48, 16), (80, 16), (112, 48), (208, 48)]
  else if op = 0x14 then [(8, 8), (80, 176)]
  else if op = 0x15 then [(11, 5), (240, 16)]
  else if op = 0x18 ∨ op = 0x19 then [(8, 8), (88, 8), (192, 64)]
  else if op = 0x20 then [(9, 7), (136, 8), (176, 80)]
  else if op = 0x21 then [(12, 4)]
  else if op = 0x22 then [(10, 6), (112, 144)]
  else if op = 0x28 then [(12, 4), (240, 16)]
  else if op = 0x29 ∨ op = 0x2A then [(10, 6), (208, 48)]
  else []

/-- ROPE_BASE is 0 or a finite value above 1 (R328). -/
def ropeOk (w : Nat) : Bool := decide (w = 0) || (match fp32 (w32 w) with | .fin false q => decide (1 < q) | _ => false)

/-- Does an ATTN_BWD name an earlier ATTN_FWD of its stream that saves STATS (R343)? -/
def PatRun.fwdOk (r : PatRun) (k i : Nat) (t : Step) : Bool :=
  let f := st2 t 4
  decide (f < i) && decide (stOp (r.pat.pStep k f) = 0x21) && hasOpd (r.pat.pStep k f) 8

/-- Does a step break BAD_STEP apart from its layer (R279 and the chapters)? -/
def PatRun.badStep (r : PatRun) (k i : Nat) (t : Step) : Bool :=
  let op := stOp t
  let known := [1, 2, 3, 4, 0x10, 0x11, 0x12, 0x13, 0x14, 0x15, 0x18, 0x19, 0x20, 0x21, 0x22, 0x28, 0x29, 0x2A].contains op
  !known || (stepReserved t).any (fun (e : Nat × Nat) => decide (fld t e.1 e.2 ≠ 0)) ||
  (decide (op = 1) && decide (fld t 12 2 = 3)) ||
  (decide (op = 2) && decide (23 < st1 t 4)) ||
  (decide (0x10 ≤ op ∧ op ≤ 0x12) && (decide (fld t 12 2 = 3) || decide (fld t 14 2 = 3) || decide (st1 t 12 = 0 ∨ st1 t 13 = 0 ∨ st1 t 14 = 0 ∨ st1 t 15 = 0))) ||
  (decide (op = 0x12) && hasOpd t 6) ||
  (decide (op = 0x15) && (decide (st2 t 18 = 0 ∨ 512 < st2 t 18) ||
    !(match decodeFmt fmtFp16 (st2 t 16) with | .fin false q => decide (0 < q ∧ q ≤ 1) | _ => false))) ||
  (decide (op = 0x18 ∨ op = 0x19) && decide (st2 t 8 = 0 ∨ 255 < st2 t 8 ∨ st2 t 22 = 0 ∨ st4 t 12 % 64 ≠ 0 ∨ st4 t 16 % 64 ≠ 0)) ||
  (decide (op = 3 ∨ op = 4) && decide (16383 < st2 t 4)) ||
  (decide (op = 0x20) && (!ropeOk (st4 t 12) || !([8, 9, 255].contains (st1 t 18) && [8, 9, 255].contains (st1 t 19)) || decide (128 < st1 t 16 ∨ 3 < st1 t 11))) ||
  (decide (op = 0x21) && (!ropeOk (st4 t 24) || !([8, 9, 255].contains (st1 t 15) && [8, 9, 255].contains (st1 t 29)) || decide (128 < st1 t 28 ∨ 3 < st1 t 13 ∨ st1 t 14 = 0 ∨ 64 < st1 t 14) ||
    decide (st4 t 24 ≠ 0 ∧ dCols (r.pat.pDesc (st2 t 4)) / st1 t 14 / 2 < st1 t 28) ||
    !(decide (st4 t 16 = 0) || (match fp32 (w32 (st4 t 16)) with | .fin false q => decide (0 < q) | _ => false)))) ||
  (decide (op = 0x22) && !r.fwdOk k i t) ||
  (decide (op = 0x28) && stFlag t 0 && stFlag t 2)

/-- Pairs of R263: 0 none, 1 exact integer, 2 block-scaled. -/
def gemmPath (a w : Nat) : Nat :=
  if a ≤ 1 ∧ w ≤ 2 then 1
  else if [0, 1, 3, 4, 8].contains a ∧ [0, 1, 2, 3, 4, 8, 9, 10].contains w then 2
  else if (a = 5 ∨ a = 6) ∧ (w = 5 ∨ w = 6) then 2
  else 0

/-- Output rows and columns of a window step (R294); none when the output is empty (R295). -/
def windowOut (t : Step) (x : Desc) : Option (Nat × Nat × Nat) :=
  let gh := if st2 t 20 = 0 then dH x else st2 t 20
  let h := gh + st1 t 16 + st1 t 17
  let w := dW x + st1 t 18 + st1 t 19
  if h < st1 t 12 ∨ w < st1 t 13 then none
  else some (gh, (h - st1 t 12) / st1 t 14 + 1, (w - st1 t 13) / st1 t 15 + 1)

/-- The input row or column that window position `p` of an axis of `n` reads, in the whole picture; none reads the pad value
zero (R296). A reflection that falls beyond the other side, which R297 refuses, gives a place beyond the axis. -/
def borderAt (mode : Nat) (n : Nat) (p : Int) : Option Nat :=
  if 0 ≤ p ∧ p < n then some p.toNat
  else if mode = 0 then none
  else if mode = 1 then some (if p < 0 then 0 else n - 1)
  else if p < 0 then some (-p).toNat
  else let q : Int := 2 * ((n : Int) - 1) - p; some (if q < 0 then n else q.toNat)

/-- The row or column that window position `p` of an axis of `n` reads: none for a pad value, for a position that takes no part in a
pooling of MAX or AVG_EXCLUDE (R296), and for a reflection beyond the axis, which R297 refuses. -/
def windowPos (t : Step) (n : Nat) (p : Int) : Option Nat :=
  if stOp t = 0x12 ∧ fld t 14 2 ≠ 1 ∧ ¬ (0 ≤ p ∧ p < n) then none
  else (borderAt (fld t 12 2) n p).filter fun q => decide (q < n)

/-- The whole-picture rows that the windows of Y's rows reach inside the picture (R294). -/
def windowRows (t : Step) (y : Desc) (gh : Nat) : List Nat :=
  ((List.range (dH y)).flatMap fun r => (List.range (st1 t 12)).filterMap fun ky =>
    windowPos t gh (((st2 t 24 + r) * st1 t 14 + ky : Nat) - (st1 t 16 : Int))).eraseDups

/-- The shape conditions of a window step (R294), each with the byte of the operand that breaks it. An empty step's Y is open (R295). -/
def PatRun.windowShapes (t : Step) (x w y : Desc) : List (Nat × Bool) :=
  [(4, dImage x), (8, dImage y)] ++
  match windowOut t x with
  | none => []
  | some (gh, oh, ow) =>
    [(8, decide (dW y = ow ∧ st2 t 24 + dH y ≤ oh ∧ dN y = dN x ∧ dC y = (if stOp t = 0x10 then dRows w else dC x))), (4, decide (st2 t 22 + dH x ≤ gh)),
     (4, (windowRows t y gh).all fun q => decide (st2 t 22 ≤ q ∧ q < st2 t 22 + dH x))]

/-- The rows a RESIZE reaches (R309): for an output coordinate, the source positions and the fraction. -/
def resizeAt (bilinear : Bool) (d i o : Nat) : Nat × Nat × Nat :=
  if !bilinear then (let p := d * i / o; (p, p, 0))
  else
    let s : Int := (((2 * d + 1) * i : Nat) - (o : Int)) * 65536 / (2 * o : Nat)
    if s < 0 then (0, 0, 0)
    else
      let i0 := s.toNat / 65536
      if i - 1 ≤ i0 then (i - 1, i - 1, 0) else (i0, i0 + 1, s.toNat % 65536)

/-- The shape and format conditions of a step's operands beyond each descriptor by itself, in the order they are judged, each with the byte of
the operand that breaks it (R280, R281, R294, R309 to R311, R315, R328, R335, R343, R348, R353, R358 to R362). [DEDUCED, log entry 35] -/
def PatRun.shapes (r : PatRun) (k i : Nat) (t : Step) : List (Nat × Bool) :=
  let op := stOp t
  let d := fun (i : Nat) => r.pat.pDesc (st2 t i)
  let two := fun (i : Nat) => (i, !dImage (d i))
  -- a condition on an operand that may be left out
  let opt := fun (i : Nat) (b : Bool) => (i, !hasOpd t i || b)
  let fmtIn := fun (x : Desc) (lo hi : Nat) => decide (lo ≤ dFormat x ∧ dFormat x ≤ hi)
  if op = 1 then [two 4, two 6, two 8] ++ (if stFlag t 2 then [two 10] else [])
  else if op = 2 then ((stepOperands t).1.map fun e => two e.1) ++ [two 12]
  else if op = 0x10 ∨ op = 0x11 then two 6 :: PatRun.windowShapes t (d 4) (d 6) (d 8)
  else if op = 0x12 then PatRun.windowShapes t (d 4) (d 4) (d 8)
  else if op = 0x13 then
    let x := d 4
    let y := d 8
    let gh := if st2 t 20 = 0 then dH x else st2 t 20
    let go := if st2 t 12 = 0 then dH y else st2 t 12
    [(4, dImage x), (8, dImage y && decide (dN y = dN x ∧ dC y = dC x ∧ st2 t 24 + dH y ≤ go)), (4, decide (st2 t 22 + dH x ≤ gh)),
     (4, (List.range (dH y)).all fun q => let e := resizeAt (stFlag t 0) (st2 t 24 + q) gh go; decide (st2 t 22 ≤ e.1 ∧ e.2.1 < st2 t 22 + dH x))]
  else if op = 0x14 then
    let x := d 4
    let like := fun (y : Desc) => dImage y && decide (dN y = dN x ∧ dC y = 1 ∧ dH y = dH x ∧ dW y = dW x)
    [(4, dImage x), opt 6 (like (d 6)), (8, like (d 8) && decide (dFormat (d 8) = (if dC x ≤ 256 then 1 else 11)))]
  else if op = 0x15 then
    [two 4, (4, decide (dRows (d 4) ≤ 65535 ∧ dCols (d 4) ≤ 4096)), two 6, (6, decide (dRows (d 6) = dRows (d 4) ∧ dCols (d 6) = 4) && !isBlockFmt (dFormat (d 6))),
     two 8, (8, decide (dRows (d 8) = dRows (d 4) ∧ dCols (d 8) = 4 ∧ dFormat (d 8) = 7)),
     two 10, (10, decide (dFormat (d 10) = 1 ∧ dRows (d 10) = 1 ∧ 64 + 16 * st2 t 18 ≤ dCols (d 10)))]
  else if op = 0x18 ∨ op = 0x19 then [(4, dImage (d 4) && decide (st2 t 6 + st2 t 8 ≤ dH (d 4)))]
  else if op = 0x20 then
    [two 4, (4, fmtIn (d 4) 3 7), two 6, (6, fmtIn (d 6) 3 7 && decide (dRows (d 6) = dRows (d 4) ∧ dCols (d 6) = dCols (d 4))),
     two 8, (8, decide (dRows (d 8) = dRows (d 4) ∧ dCols (d 8) = 3 ∧ dFormat (d 8) = 11))]
  else if op = 0x21 then
    let q := d 4
    let n := dCols q / st1 t 14
    [two 4, (4, fmtIn q 3 5 && decide (dCols q % st1 t 14 = 0 ∧ n % 32 = 0 ∧ 0 < n ∧ n ≤ 256)),
     two 6, (6, fmtIn (d 6) 3 7 && decide (dRows (d 6) = dRows q ∧ dCols (d 6) = dCols q)),
     opt 8 (!dImage (d 8) && decide (dFormat (d 8) = 7 ∧ dRows (d 8) = dRows q ∧ dCols (d 8) = 2 * st1 t 14)),
     two 10, (10, decide (dRows (d 10) = dRows q ∧ dCols (d 10) = 3 ∧ dFormat (d 10) = 11))]
  else if op = 0x22 then
    -- without a forward step to judge them by, BAD_STEP follows
    if !r.fwdOk k i t then [] else
    let q := r.pat.pDesc (st2 (r.pat.pStep k (st2 t 4)) 4)
    let shaped := fun (x : Desc) => !dImage x && fmtIn x 5 7 && decide (dRows x = dRows q)
    [(6, shaped (d 6) && decide (dCols (d 6) = dCols q)), opt 8 (shaped (d 8) && decide (dCols (d 8) = dCols q)), opt 10 (shaped (d 10)), opt 12 (shaped (d 12))]
  else if op = 0x28 then
    let x := d 4
    let h := dCols x
    let own := decide (st1 t 18 = 0xFE)
    let rows := if own then (if hasOpd t 24 then 24 else 26) else 16
    let b := dRows (d rows)
    let like := fun (y : Desc) => !dImage y && decide (dRows y = dRows x ∧ dCols y = h)
    [two 4, (4, fmtIn x 3 6 && decide (h ≤ 16384)), two rows, (rows, decide (1 ≤ b ∧ b ≤ 256)), (4, decide (dRows x % b = 0 ∧ dRows x / b ≤ 65536)),
     two 6, (6, fmtIn (d 6) 5 7 && decide ((dRows (d 6) = dRows x ∨ dRows (d 6) = 1) ∧ h % dCols (d 6) = 0)),
     opt 8 (fmtIn (d 8) 3 6 && like (d 8)), opt 10 (fmtIn (d 10) 3 6 && like (d 10)), opt 12 (like (d 12) && fmtIn (d 12) 3 7),
     opt 14 (!dImage (d 14) && decide (dFormat (d 14) = 1 ∧ dRows (d 14) = dRows x / b ∧ dCols (d 14) = ceilDiv b 8))] ++
    (if own then [opt 24 (!dImage (d 24) && decide (dFormat (d 24) = 7 ∧ dCols (d 24) = 2 * h)), two 26, (26, decide (dFormat (d 26) = 7 ∧ dRows (d 26) = b ∧ dCols (d 26) = 2 * h))]
     else [(16, decide (dFormat (d 16) = 11 ∧ dCols (d 16) = 1))])
  else if op = 0x29 ∨ op = 0x2A then
    let gates := if op = 0x29 then 3 else 4
    let xg := d 4
    let h := dCols (d 6)
    let own := decide (st1 t 16 = 0xFE)
    let rows := if own then (if hasOpd t 22 then 22 else 24) else 14
    let b := dRows (d rows)
    [two 4, (4, fmtIn xg 5 7), two rows, (rows, decide (1 ≤ b ∧ b ≤ 256)), (4, decide (dRows xg % b = 0 ∧ dRows xg / b ≤ 65536)),
     two 6, (6, decide (h ≤ 4096 ∧ dRows (d 6) = gates * h)), (4, decide (dCols xg = gates * h)),
     opt 8 (!dImage (d 8) && decide (dFormat (d 8) = 7 ∧ dRows (d 8) = 1 ∧ dCols (d 8) = gates * h)),
     opt 10 (!dImage (d 10) && decide (dRows (d 10) = dRows xg ∧ dCols (d 10) = h) && fmtIn (d 10) 3 7),
     opt 12 (!dImage (d 12) && decide (dFormat (d 12) = 1 ∧ dRows (d 12) = dRows xg / b ∧ dCols (d 12) = ceilDiv b 8))] ++
    (if own then [opt 22 (!dImage (d 22) && decide (dFormat (d 22) = 7 ∧ dCols (d 22) = 2 * h)), two 24, (24, decide (dFormat (d 24) = 7 ∧ dRows (d 24) = b ∧ dCols (d 24) = 2 * h))]
     else [(14, decide (dFormat (d 14) = 11 ∧ dCols (d 14) = 1))])
  else []

/-- BAD_DESC of a step's operand shapes: the descriptor blamed. -/
def PatRun.shapeBad (r : PatRun) (k i : Nat) (t : Step) : Option Nat := ((r.shapes k i t).find? fun e => !e.2).map fun e => st2 t e.1

/-- Broadcast of R262: one row or one column stands for all. -/
def fits (n m : Nat) : Bool := decide (n = m ∨ n = 1)

/-- May the picture or the row at D of a CONV or DWCONV with `n` channels join Y (R300)? An empty step leaves Y's shape open (R295). -/
def PatRun.dShape (t : Step) (x y dd : Desc) (n : Nat) : Bool :=
  if dImage dd then (windowOut t x).isNone || decide (dN dd = dN y ∧ dC dd = dC y ∧ dH dd = dH y ∧ dW dd = dW y)
  else decide (dRows dd = 1 ∧ dCols dd = n)

/-- BAD_PAIR of a step (R263, R280, R281, R300, R307, R308, R362); an empty step's Y is held only against R262 and R291 (R295). [DEDUCED, log entry 35] -/
def PatRun.badPair (r : PatRun) (t : Step) : Bool :=
  let op := stOp t
  let d := fun (i : Nat) => r.pat.pDesc (st2 t i)
  let path := gemmPath (dFormat (d 4)) (dFormat (d 6))
  let made := (windowOut t (d 4)).isSome
  if op = 1 then
    decide (path = 0) || !decide (dRows (d 8) = dRows (d 4) ∧ dCols (d 8) = dRows (d 6) ∧ dCols (d 4) = dCols (d 6)) ||
    (decide (dFormat (d 8) = 11) && decide (path ≠ 1)) ||
    (stFlag t 2 && !(fits (dRows (d 10)) (dRows (d 8)) && fits (dCols (d 10)) (dCols (d 8))))
  else if op = 2 then
    let o := d 12
    decide (dFormat o = 11) ||
    (if 22 ≤ st1 t 4 then !decide (dRows o = dRows (d 6) ∧ dCols o = 1)
     else !((stepOperands t).1.all fun e => fits (dRows (d e.1)) (dRows o) && fits (dCols (d e.1)) (dCols o)))
  else if op = 0x10 then
    let cp := 32 * ceilDiv (dC (d 4)) 32
    decide (path = 0) || !decide (dCols (d 6) = st1 t 12 * st1 t 13 * cp) || (made && decide (dFormat (d 8) = 11 ∧ path ≠ 1)) ||
    (stFlag t 2 && !PatRun.dShape t (d 4) (d 8) (d 10) (dRows (d 6)))
  else if op = 0x11 then
    !([0, 1, 3, 4, 5, 6, 8].contains (dFormat (d 4)) && [0, 1, 2, 3, 4, 5, 6].contains (dFormat (d 6))) ||
    !decide (dRows (d 6) = dC (d 4) ∧ dCols (d 6) = st1 t 12 * st1 t 13) ||
    (made && decide (dFormat (d 8) = 11) && !(decide (dFormat (d 4) ≤ 1 ∧ dFormat (d 6) ≤ 2))) ||
    (stFlag t 2 && !PatRun.dShape t (d 4) (d 8) (d 10) (dC (d 4)))
  else if op = 0x12 then made && decide (dFormat (d 8) = 11)
  else if op = 0x13 then decide (dFormat (d 8) = 11)
  else if op = 0x29 ∨ op = 0x2A then
    (if stFlag t 1 then decide (gemmPath 8 (dFormat (d 6)) = 0) else !decide (dFormat (d 6) = 5 ∨ dFormat (d 6) = 6))
  else false

/-- PAD_INVALID (R297): the side of a reflect pad beyond its limit. [DEDUCED, log entry 35] -/
def PatRun.padInvalid (r : PatRun) (t : Step) : Option Nat :=
  if 0x10 ≤ stOp t ∧ stOp t ≤ 0x12 ∧ fld t 12 2 = 2 then
    let x := r.pat.pDesc (st2 t 4)
    let gh := if st2 t 20 = 0 then dH x else st2 t 20
    [(0, st1 t 16, gh), (1, st1 t 17, gh), (2, st1 t 18, dW x), (3, st1 t 19, dW x)].findSome? fun (e : Nat × Nat × Nat) => if e.2.2 - 1 < e.2.1 then some e.1 else none
  else none

/-- WINO_INVALID (R302). -/
def PatRun.winoBad (r : PatRun) (t : Step) : Bool :=
  decide (stOp t = 0x10) && stFlag t 3 &&
  (let x := dFormat (r.pat.pDesc (st2 t 4))
   let w := dFormat (r.pat.pDesc (st2 t 6))
   !decide (st1 t 12 = 3 ∧ st1 t 13 = 3 ∧ st1 t 14 = 1 ∧ st1 t 15 = 1 ∧ ((x ≤ 1 ∧ w ≤ 2) ∨ ((x = 5 ∨ x = 6) ∧ (w = 5 ∨ w = 6)))))

/-- Bytes of one slot of a halo pair (R315). -/
def haloSlot (t : Step) (img : Desc) : Nat :=
  st2 t 8 * (dN img * dC img * dStride img + (if dFormat img = 8 then dN img * dC img / 32 * scaleRow img else 0))

/-- HALO_MISMATCH of one halo step (R316). -/
def PatRun.haloBad (r : PatRun) (k i : Nat) (t : Step) : Bool :=
  let op := stOp t
  if ¬ (op = 0x18 ∨ op = 0x19) then false
  else
    let img := r.pat.pDesc (st2 t 4)
    let peer := st1 t 10
    let match_ := (List.range (r.pat.pStream peer).2).any fun j =>
      let u := r.pat.pStep peer j
      let im := r.pat.pDesc (st2 u 4)
      decide (stOp u = (if op = 0x18 then 0x19 else 0x18) ∧ st2 u 20 = st2 t 20 ∧ st2 u 22 = st2 t 22 ∧ st2 u 8 = st2 t 8 ∧ st1 u 10 = k ∧ dN im = dN img ∧ dC im = dC img ∧
        dW im = dW img ∧ dFormat im = dFormat img ∧ dStride im = dStride img)
    let earlier := ((List.range i).filter fun j => let u := r.pat.pStep k j; decide ((stOp u = 0x18 ∨ stOp u = 0x19) ∧ st2 u 20 = st2 t 20)).length
    let others := r.pat.pSteps.any fun e =>
      let u := e.2.2
      decide ((stOp u = 0x18 ∨ stOp u = 0x19) ∧ ((st2 u 20 = st2 t 20 ∧ ¬ ((e.1 = k ∧ stOp u = op) ∨ (e.1 = peer ∧ stOp u ≠ op))) ∨ st2 u 20 = st2 t 20 + 1 ∨ st2 u 20 + 1 = st2 t 20))
    (decide (op = 0x18) && (!decide (peer < r.pat.pNcores) || !match_)) || decide (st2 t 22 ≠ earlier + 1) || decide (1024 * r.pat.pT1Kib < st4 t 12 + st4 t 16 + haloSlot t img) ||
    decide (st4 t 16 < haloSlot t img) || decide (16383 < st2 t 20 + 1) || others

/-- STEP_KNOT (R402): the first step that breaks it. -/
def Obj.stepKnotBad (p : Obj) (t : Step) : Bool :=
  (decide (stOp t = 3 ∨ stOp t = 4) && p.haloKnots.contains (st2 t 4)) ||
  (decide (stOp t = 3) && !(p.pSteps.any fun e => decide (stOp e.2.2 = 4 ∧ st2 e.2.2 4 = st2 t 4)))

/-- DETAIL of a recurrence reason (R352). -/
def recDetail (reason idx ctx soff : Nat) : BitVec 192 := setBytes (setBytes (setBytes (setBytes 0 8 1 reason) 12 4 idx) 16 4 ctx) 20 4 soff

/-- The channels a SCAN list names, as read from the constant area or a binding (R358). -/
def PatRun.scanCount (r : PatRun) (t : Step) : Nat := if stOp t = 0x28 ∧ hasOpd t 28 then dCols (r.pat.pDesc (st2 t 28)) else 0

/-- The INT32 entries of a one-row descriptor that validation can read: in the constants, or in an object bound as an input. One in scratch, in
an OUT binding or in a segment not made yet is judged later. [DEDUCED, log entry 35] -/
def PatRun.listAt (r : PatRun) (d : Desc) : Option (List Nat) :=
  let src := dSource d
  if src = 0x12 then some ((List.range (dCols d)).map fun j => r.pat.rd (r.pat.pConstOff + dOffset d + 4 * j) 4)
  else if src < r.pat.pNbind ∧ (r.pat.pBind src).dir ≠ 1 ∧ src ∉ r.unmade then some ((List.range (dCols d)).map fun j => (r.binds.getD src Obj.dflt).rd (dOffset d + 4 * j) 4)
  else none

/-- SCAN_LIMIT by shape: a one-row INT32 list of 1 to 512 entries, at most 512 over the pattern (R358). -/
def PatRun.scanBad (r : PatRun) (t : Step) : Bool :=
  decide (stOp t = 0x28) && hasOpd t 28 &&
  (let d := r.pat.pDesc (st2 t 28)
   dImage d || !decide (dFormat d = 11 ∧ dRows d = 1 ∧ dCols d ≤ 512) || decide (512 < r.pat.pSteps.foldl (fun a e => a + r.scanCount e.2.2) 0) ||
   (match r.listAt d with
    | some l => !(l.zip (l.drop 1)).all (fun e => decide (e.1 < e.2)) || l.any fun c => decide (dCols (r.pat.pDesc (st2 t 4)) ≤ c)
    | none => false))

/-- BAD_HEADER: MAGIC, VERSION, ranges, reserved fields, and tables inside the object at multiples of 64 (R277). -/
def Obj.badHeader (p : Obj) : Bool :=
  let inside := fun (off len : Nat) => decide (off % 64 = 0 ∧ off + len ≤ p.size)
  !(decide (64 ≤ p.size ∧ p.rd 0 4 = 0x4D565054 ∧ p.rd 4 2 = 1 ∧ 1 ≤ p.pNcores ∧ p.pNcores ≤ 64 ∧ p.pNslot ≤ 8 ∧ p.pNbind ≤ 8 ∧ p.rd 9 1 < 4 ∧ 1 ≤ p.pNlayers ∧
      p.pStageKib % 4 = 0 ∧ p.pScratchKib % 4 = 0 ∧ p.pT1Kib % 512 = 0 ∧ p.pNdesc ≤ 65534 ∧ p.rd 34 2 = 0 ∧ p.rd 46 2 = 0 ∧ p.rd 60 4 = 0) &&
    inside (p.rd 24 4) (8 * p.pNbind) && inside (p.rd 28 4) (32 * p.pNdesc) && inside p.pStreamOff (8 * p.pNcores) &&
    (if p.rd 44 2 = 0 then decide (p.rd 40 4 = 0) else inside (p.rd 40 4) (16 * p.rd 44 2)) &&
    (decide (p.pSummaryOff = 0) || (inside p.pSummaryOff 32 && decide (p.rd (p.pSummaryOff + 6) 2 = 0 ∧ p.rd (p.pSummaryOff + 22) 10 = 0))) &&
    ((List.range (p.rd 44 2)).all fun i => decide (fld (p.rdBits 128 (p.rd 40 4 + 16 * i)) 51 1 = 0 ∧ fld (p.rdBits 128 (p.rd 40 4 + 16 * i)) 54 2 = 0 ∧
      fld (p.rdBits 128 (p.rd 40 4 + 16 * i)) 68 60 = 0)) && (decide (p.pConstOff = 0) || inside p.pConstOff p.pConstSize) &&
    (List.range p.pNcores).all fun k => inside (p.pStream k).1 (32 * (p.pStream k).2))

/-- The descriptor that a summary names against R282: beyond the table, or a score plane of a format that is not admitted. [DEDUCED, log entry 35] -/
def Obj.summaryBad (p : Obj) : Option Nat :=
  if p.pSummaryOff = 0 then none
  else
    let sc := p.rd p.pSummaryOff 2
    let bx := p.rd (p.pSummaryOff + 4) 2
    if sc ≠ 0xFFFF ∧ (p.pNdesc ≤ sc ∨ [0, 3, 4, 5, 6, 7].contains (dFormat (p.pDesc sc)) = false) then some sc
    else if bx ≠ 0xFFFF ∧ p.pNdesc ≤ bx then some bx else none

/-- SLOT_COUNT: bindings break R278, or the command gives another number of slots. -/
def Obj.badSlots (p : Obj) (c : Cmd) : Bool :=
  let used := p.pBinds.flatMap fun b => (List.range b.width).map fun i => b.slot + i
  decide (p.pNslot ≠ c.nslot) || (p.pBinds.any fun b => decide (2 < b.kind ∨ 2 < b.dir ∨ (b.kind ≠ 0 ∧ b.dir ≠ 0))) ||
  !((List.range p.pNslot).all fun i => used.contains i) || decide (used.length ≠ p.pNslot)

/-- Is the object of binding entry `i` refused, and how (R278, R283 reason 19, R165, R368, R68)? A SEGMENT binding gives an AUDIO_SEGMENT, whose
size is known once it is made. An inbound object cannot be bound (R439). [DEDUCED, log entry 136] -/
def State.bindBad (s : State) (c : Cmd) (b : Binding) (i : Nat) : Option (Nat × BitVec 192) :=
  if b.kind = 1 then
    let small := (s.cq c.hoop c.cq).segs.any fun e => decide (e.1 = b.slot ∧ (s.obj e.2).size < 1024 * b.minKib)
    if (b.objKind ≠ 0xFF ∧ b.objKind ≠ 6) ∨ small = true then some (0x202, reasonDetail 19 i) else none
  else if c.slot b.slot = 0 then some (0x113, setBytes 0 12 4 b.slot)
  else match s.resolve c.hoop (c.slot b.slot) with
    | none => some (0x202, reasonDetail 19 i)
    | some k =>
      let o := s.obj k
      let elsewhere := decide (o.tier = 0 ∧ (c.coreMask / 2 ^ o.loc) % 2 = 0) || s.remotes.any fun r => decide (r.obj = k ∧ r.role = .inbound)
      -- the arrays read no stream (R368), and only KV_APPEND writes a region (R325)
      if (b.objKind ≠ 0xFF ∧ o.kind ≠ b.objKind) ∨ o.size < 1024 * b.minKib ∨ 4 ≤ o.tier ∨ elsewhere = true ∨ (b.kind = 2 ∧ o.kind ≠ 8) ∨ o.compressed = true ∨
          (b.dir ≠ 0 ∧ o.kind = 3) then some (0x202, reasonDetail 19 i)
      else none

/-- The bound objects of a command, by binding; a segment that has not been made yet stands as an object of any size. -/
def State.boundObjs (s : State) (c : Cmd) (p : Obj) : List Obj :=
  p.pBinds.map fun b => if b.kind = 1 then (match (s.cq c.hoop c.cq).segs.find? (fun e => decide (e.1 = b.slot)) with | some e => s.obj e.2 | none => { Obj.dflt with kind := 6, size := 2 ^ 36 }) else match s.resolve c.hoop (c.slot b.slot) with | some k => s.obj k | none => Obj.dflt

/-- The first failure of R283 in its order: the code and the DETAIL. [DEDUCED, log entry 35] -/
def State.patternError (s : State) (c : Cmd) (p : Obj) : Option (Nat × BitVec 192) :=
  let steps := p.pSteps
  let r : PatRun := ⟨p, c, s.boundObjs c p, p.pBinds.zipIdx.filterMap fun (e : Binding × Nat) =>
    if e.1.kind = 1 ∧ ((s.cq c.hoop c.cq).segs.any fun x => decide (x.1 = e.1.slot)) = false then some e.2 else none⟩
  let bad := fun (reason idx : Nat) => some (0x202, reasonDetail reason idx)
  let ofStep := fun (reason : Nat) (f : Nat → Nat → Step → Bool) => (steps.find? fun e => f e.1 e.2.1 e.2.2).bind fun e => bad reason e.2.1
  let descs := fun (t : Step) => ((stepOperands t).1 ++ (stepOperands t).2).filterMap fun e => if e.2 = true ∧ st2 t e.1 = 0xFFFF then none else some (st2 t e.1)
  let badDesc : Unit → Option (Nat × BitVec 192) := fun _ =>
    match (List.range p.pNdesc).find? fun d => !r.descOk (p.pDesc d) with
    | some d => bad 20 d
    | none =>
    match p.summaryBad with
    | some d => bad 20 d
    | none => steps.findSome? fun e =>
        match (descs e.2.2).find? fun d => decide (p.pNdesc ≤ d) with
        | some d => bad 20 d
        | none =>
          match ((stepOperands e.2.2).2.filterMap fun o => if o.2 = true ∧ st2 e.2.2 o.1 = 0xFFFF then none else some (st2 e.2.2 o.1)).find? fun d => !r.writable (p.pDesc d) with
          | some d => bad 20 d
          | none => (r.shapeBad e.1 e.2.1 e.2.2).bind fun d => bad 20 d
  let layerBad := fun (k i : Nat) (t : Step) => decide (p.pNlayers ≤ stLayer t) || (decide (0 < i) && decide (stLayer t < stLayer (p.pStep k (i - 1))))
  if p.badHeader then bad 16 0
  else if c.cores.length ≠ p.pNcores then bad 17 0
  else if p.badSlots c then bad 18 0
  else match p.pBinds.zipIdx.findSome? fun e => s.bindBad c e.1 e.2 with
  | some e => some e
  | none =>
  match badDesc () with
  | some e => some e
  | none =>
  match ofStep 21 fun k i t => r.badStep k i t || layerBad k i t with
  | some e => some e
  | none =>
  match ofStep 22 fun _ _ t => r.badPair t with
  | some e => some e
  | none =>
  match steps.findSome? fun e => (r.padInvalid e.2.2).map fun side => (0x402, setBytes (setBytes (0 : BitVec 192) 8 1 side) 12 4 e.2.1) with
  | some e => some e
  | none =>
  match ofStep 26 fun _ _ t => r.winoBad t with
  | some e => some e
  | none =>
  match ofStep 27 fun k i t => r.haloBad k i t with
  | some e => some e
  | none =>
  match (steps.find? fun e => r.scanBad e.2.2).map fun e => (0x202, recDetail 34 e.2.1 (if st1 e.2.2 18 = 0xFF then c.context else 0) (st4 e.2.2 20)) with
  | some e => some e
  | none =>
  match ofStep 43 fun _ _ t => p.stepKnotBad t with
  | some e => some e
  | none =>
  if 2048 < p.pStageKib + p.pScratchKib ∨ 8192 < p.pT1Kib then bad 23 0
  else match (if p.pStochastic then c.cores.find? fun n => (s.force (R.SR_ENABLE n)).toNat % 2 = 0 else none) with
  | some n => bad 24 n
  | none => none

end Sys2Proof.Machine
end

