-- ==== Sys2Proof/Machine/Tensor.lean ====
section
/-! DEFINITION. What a running step reads and writes (R262, R274, R276), and the GEMM and VECTOR steps (R263 to R272). -/

namespace Sys2Proof.Machine

/-- A step about to run: the machine, its command, the pattern as read, the core, stream, index and the step itself. -/
structure StepRun where
  f : InFlight
  p : Obj
  core : Nat
  stream : Nat
  idx : Nat
  t : Step
  /-- Stochastic rounding is in force on the core (R270). -/
  sr : Bool
  /-- Present homes of the bound objects, by binding: tier and location (R274). -/
  homes : List (Nat × Nat)
  /-- Present home of the pattern, whose constant area steps read. -/
  patHome : Nat × Nat
  /-- Tiles of the bound objects, by binding, that lie on a skein stack which is not live, where every read fails (R588). -/
  lost : List (List Nat)
  /-- Handles of the bound objects, by binding, for a TILE_CHECK record (R176). -/
  handles : List Nat
  /-- The named contexts' state objects, by context index (R326). -/
  ctxObjs : List (Nat × List Nat)
  deriving DecidableEq, Repr

/-- A failure of a step: a class C code and its DETAIL. -/
abbrev StepErr := Nat × BitVec 192

/-- What a step does: bytes written (source, offset, bytes), counts, KV positions appended, state slots written, and the flags
it reports. -/
structure StepOut where
  patches : List (Nat × Nat × List Byte)
  /-- Bytes written into state objects by object key (KV regions and recurrent states). -/
  objPatches : List (Nat × Nat × List Byte)
  cnt : Cnt
  appended : List (Nat × Nat × Nat × Nat)
  carried : List (Nat × Nat × Nat × Nat × Nat)
  empty : Bool
  widened : Bool
  deriving DecidableEq, Repr

def StepOut.none : StepOut := ⟨[], [], Cnt.zero, [], [], false, false⟩

/-! ## Reading -/

def StepRun.bindDir (x : StepRun) (i : Nat) : Nat := (x.p.pBind i).dir

/-- The object of a binding as the command reads it (R170); an OUT binding reads the command's own writes. [DEDUCED, log entry 36] -/
def StepRun.bindObj (x : StepRun) (i : Nat) : Obj :=
  let k := x.f.binds.getD i 0
  if x.bindDir i = 1 then
    (match x.f.outs.find? fun o => decide (o.obj = k) with
     | some o => { Obj.dflt with data := o.data, size := 2 ^ 36, tileDflt := ⟨.valid, 0⟩ }
     | none => Obj.dflt)
  else (match x.f.ins.find? fun e => decide (e.1 = k) with | some e => e.2 | none => Obj.dflt)

/-- One byte of a descriptor's source (R262, R276). -/
def StepRun.byte (x : StepRun) (src off : Nat) : Byte :=
  if src = 0x10 then mget 0 x.f.scr0 (x.core * 2 ^ 21 + off)
  else if src = 0x11 then mget 0 x.f.scr1 (x.core / 8 * 2 ^ 23 + off)
  else if src = 0x12 then x.p.byte (x.p.pConstOff + off)
  else (x.bindObj src).byte off

/-- A little-endian field of `n` bytes of a source. -/
def StepRun.num (x : StepRun) (src off n : Nat) : Nat :=
  (List.range n).foldr (fun i a => (x.byte src (off + i)).toNat + 256 * a) 0

/-- Bits of element `i` of a row that begins at byte `off` (R261). -/
def StepRun.elemAt (x : StepRun) (src f off i : Nat) : Nat :=
  if elemBits f = 4 then (x.byte src (off + i / 2)).toNat / 16 ^ (i % 2) % 16
  else x.num src (off + i * (elemBits f / 8)) (elemBits f / 8)

/-- The scale of the block of element (r, c), or TENSOR_SCALE, or 1.0. -/
def StepRun.scale2 (x : StepRun) (d : Desc) (r j : Nat) : FVal :=
  if isBlockFmt (dFormat d) then
    let n := scaleBytes (dFormat d)
    decodeScale (dFormat d) (x.num (dSource d) (dScaleOff d + (r * (dCols d / 32) + j) * n) n)
  else dScale d

/-- Element (r, c) without its scale, a single row or column standing for all (R262). -/
def StepRun.raw2 (x : StepRun) (d : Desc) (r c : Nat) : FVal :=
  let r := if dRows d = 1 then 0 else r
  let c := if dCols d = 1 then 0 else c
  decodeElem (dFormat d) (x.elemAt (dSource d) (dFormat d) (dOffset d + r * dStride d) c)

/-- Element (r, c) converted to FP32 (R262). -/
def StepRun.val2 (x : StepRun) (d : Desc) (r c : Nat) : FVal :=
  let r := if dRows d = 1 then 0 else r
  let c := if dCols d = 1 then 0 else c
  let q := x.raw2 d r c
  if isBlockFmt (dFormat d) ∨ dPer d = true then fmul q (x.scale2 d r (c / 32)) else fl q

/-- The signed number of an INT32 element, and its unsigned bits. -/
def StepRun.bits2 (x : StepRun) (d : Desc) (r c : Nat) : Nat := x.elemAt (dSource d) (dFormat d) (dOffset d + r * dStride d) c

/-- The first bad tile of some byte ranges of a bound object, or an object homed in T0 of another core, the pattern for its constants (R176,
R274). -/
def StepRun.readErr (x : StepRun) (rs : List (Nat × Nat × Nat)) : Option StepErr :=
  rs.findSome? fun e =>
    let src := e.1
    if src = 0x12 ∧ x.patHome.1 = 0 ∧ x.patHome.2 ≠ x.core then some (0x202, reasonDetail 25 x.idx)
    else if 0x10 ≤ src then none
    else if (x.homes.getD src (2, 0)).1 = 0 ∧ (x.homes.getD src (2, 0)).2 ≠ x.core then some (0x202, reasonDetail 25 x.idx)
    else
      let o := x.bindObj src
      ((List.range ((e.2.1 + e.2.2 - 1) / 4096 + 1 - e.2.1 / 4096)).map (· + e.2.1 / 4096)).findSome? fun t =>
        let dead := (x.lost.getD src []).contains t
        if e.2.2 = 0 ∨ ((o.tile t).st = .valid ∧ dead = false) then none
        else some (0x300, setBytes (setBytes (setBytes 0 0 4 (x.handles.getD src 0)) 4 4 t) 8 1
          (if (o.tile t).st = .poisoned then 2 else if (o.tile t).st = .unwritten then 3 else 1))

/-- Byte ranges of a whole two-dimensional operand. -/
def ranges2 (d : Desc) : List (Nat × Nat × Nat) :=
  ((List.range (dRows d)).map fun r => (dSource d, dOffset d + r * dStride d, rowBytes d)) ++
  (if isBlockFmt (dFormat d) then [(dSource d, dScaleOff d, dRows d * dCols d / 32 * scaleBytes (dFormat d))] else [])

/-- The descriptor that the operand at byte `i` names. -/
def StepRun.desc (x : StepRun) (i : Nat) : Desc := x.p.pDesc (st2 x.t i)

/-! ## Writing (R268 to R270) -/

/-- One row of packed elements as bytes; an odd last nibble keeps the other half of its byte. -/
def StepRun.packRow (x : StepRun) (src f off : Nat) (raws : List Nat) : List Byte :=
  let n := raws.length
  if elemBits f = 4 then
    (List.range ((n + 1) / 2)).map fun i =>
      BitVec.ofNat 8 (raws.getD (2 * i) 0 % 16 + 16 * (if 2 * i + 1 < n then raws.getD (2 * i + 1) 0 % 16 else (x.byte src (off + i)).toNat / 16))
  else raws.flatMap fun r => (List.range (elemBits f / 8)).map fun i => BitVec.ofNat 8 (r / 256 ^ i)

/-- Step 2 of R268. -/
def unscale (d : Desc) (v : FVal) : FVal := if dPer d then v.div (dScale d) else v

/-- Cut a list into pieces of `n`. -/
def chunks {α : Type} (n : Nat) : Nat → List α → List (List α)
  | 0, _ => []
  | k + 1, l => match l with | [] => [] | _ => l.take n :: chunks n k (l.drop n)

/-- Write rows of values through steps 2 to 4 of R268 and R269. `seed` asks for stochastic rounding. [DEDUCED, log entry 37] -/
def StepRun.out2 (x : StepRun) (d : Desc) (sat : Bool) (seed : Option W32) (rows : List (List FVal)) : List (Nat × Nat × List Byte) × Cnt :=
  let f := dFormat d
  let one := fun (r : Nat) (vs : List FVal) =>
    let off := dOffset d + r * dStride d
    if isBlockFmt f then
      let qs := (chunks 32 (vs.length / 32 + 1) vs).map (quantise f)
      let sb := scaleBytes f
      ([(dSource d, off, x.packRow (dSource d) f off (qs.flatMap fun q => q.2.1)),
        (dSource d, dScaleOff d + r * (dCols d / 32) * sb, qs.flatMap fun q => (List.range sb).map fun i => BitVec.ofNat 8 (q.1 / 256 ^ i))],
       qs.foldl (fun c q => c.add q.2.2) Cnt.zero)
    else
      let cs := vs.zipIdx.map fun e => convert f sat (seed.map fun s => (s, w32 (r * dCols d + e.2))) (unscale d e.1)
      ([(dSource d, off, x.packRow (dSource d) f off (cs.map (·.1)))], cs.foldl (fun c e => c.add e.2) Cnt.zero)
  let done := rows.zipIdx.map fun e => one e.2 e.1
  (done.flatMap (·.1), done.foldl (fun c e => c.add e.2) Cnt.zero)

/-- The seed of stochastic rounding when the step asks for it and it is in force (R270). [DEDUCED, log entry 37] -/
def StepRun.seed (x : StepRun) (at_ : Nat) : Option W32 := if stFlag x.t 1 && x.sr then some (w32 x.f.cmd.tag ^^^ w32 (st4 x.t at_)) else none

/-! ## Accumulation (R263 to R267) -/

/-- blocksum of R265. -/
def blockSum (a w : List FVal) : FVal :=
  if (a ++ w).any FVal.isNan then .nan
  else
    let ps := (a.zip w).map fun e => e.1.mul e.2
    if ps.any FVal.isNan ∨ (ps.contains (.inf false) ∧ ps.contains (.inf true)) then .nan
    else if ps.contains (.inf false) then .inf false
    else if ps.contains (.inf true) then .inf true
    else FVal.ofRat (ps.foldl (fun s v => s + v.num) 0)

/-- One block of an operand: its scale and its 32 elements. -/
abbrev Block := FVal × List FVal

/-- The loop of R265 over blocks of both operands. -/
def blockLoop (bs : List (Block × Block)) : FVal :=
  bs.foldl (fun acc e =>
    let t := if e.1.1.isNan || e.2.1.isNan then .nan else blockSum e.1.2 e.2.2
    fadd acc (fmul (fl t) (fmul e.1.1 e.2.1))) fzero

/-- The ranges of SPLITK (R267): `s` contiguous ranges of ceil(n / s) blocks. -/
def splitBlocks (s : Nat) (bs : List (Block × Block)) : List (List (Block × Block)) :=
  (List.range s).map fun r => (bs.drop (r * ceilDiv bs.length s)).take (ceilDiv bs.length s)

/-- element() of R265 with a split (R267). -/
def gemmElem (split : Nat) (bs : List (Block × Block)) : FVal :=
  if split ≤ 1 then blockLoop bs
  else match (splitBlocks split bs).map blockLoop with
    | [] => fzero
    | a :: r => r.foldl fadd a

/-- Block `j` of row `r` of a two-dimensional operand; elements past COLS are zeros. -/
def StepRun.block2 (x : StepRun) (d : Desc) (r j : Nat) : Block :=
  let r := if dRows d = 1 then 0 else r
  (x.scale2 d r j, (List.range 32).map fun i => if 32 * j + i < dCols d then x.raw2 d r (32 * j + i) else fzero)

/-- Row `r` as blocks. -/
def StepRun.rowBlocks (x : StepRun) (d : Desc) (r : Nat) : List Block := (List.range (ceilDiv (dCols d) 32)).map fun j => x.block2 d r j

/-- The exact integer sum over two lists of elements (R264). -/
def intSum (a w : List FVal) : Int := ((a.zip w).foldl (fun s e => s + e.1.num * e.2.num) (0 : Rat)).floor

/-- What one output element is before its conversion: an exact integer that stays exact, or an FP32 value (R264, R268 step 1). -/
inductive PreOut where
  | int (x : Int)
  | val (v : FVal)
  deriving DecidableEq, Repr

/-- R264 and step 1 of R268 for an exact integer sum: `dv` is D's element as a value, `dInt` when D may join the exact path. -/
def intPath (t : Int) (sa sw : FVal) (scaled : Bool) (y : Desc) (hasD dInt : Bool) (dv : FVal) : PreOut :=
  let s := if scaled then fmul sa sw else fone
  if dFormat y = 11 ∧ dPer y = false ∧ s = fone ∧ (hasD = false ∨ dInt = true) then .int (if hasD then t + (dv.num).floor else t)
  else
    let c := fmul (fl (fint t)) s
    .val (if hasD then fadd c (fl dv) else c)

/-- The value an exact integer output converts from: saturated by the output stage like any other. -/
def PreOut.v : PreOut → FVal
  | .int x => fint x
  | .val v => v

/-- May D join the exact integer path (R264)? -/
def dIntOk (d : Desc) : Bool := decide (dFormat d ≤ 2 ∨ dFormat d = 11) && !dPer d

/-- D's element as the output stage takes it: exact on the exact path, FP32 otherwise. -/
def StepRun.dVal (x : StepRun) (d : Desc) (exact : Bool) (r c : Nat) : FVal := if exact then x.raw2 d r c else x.val2 d r c

/-- GEMM (R263 to R270, R280). -/
def StepRun.gemm (x : StepRun) : Except StepErr StepOut :=
  let a := x.desc 4
  let w := x.desc 6
  let y := x.desc 8
  let d := x.desc 10
  let hasD := stFlag x.t 2
  match x.readErr (ranges2 a ++ ranges2 w ++ if hasD then ranges2 d else []) with
  | some e => .error e
  | none =>
    let split := if fld x.t 12 2 = 0 then 1 else 2 * fld x.t 12 2
    let path := gemmPath (dFormat a) (dFormat w)
    let rowsOut := (List.range (dRows y)).map fun m => (List.range (dCols y)).map fun n =>
      if path = 1 then
        let t := intSum ((List.range (dCols a)).map fun k => x.raw2 a m k) ((List.range (dCols a)).map fun k => x.raw2 w n k)
        (intPath t (dScale a) (dScale w) (dPer a || dPer w) y hasD (dIntOk d) (x.dVal d (decide (dFormat y = 11 ∧ dIntOk d = true)) m n)).v
      else
        let c := gemmElem split ((x.rowBlocks a m).zip (x.rowBlocks w n))
        if hasD then fadd c (x.val2 d m n) else c
    let (ps, cnt) := x.out2 y (stFlag x.t 0) (x.seed 12) rowsOut
    .ok { StepOut.none with patches := ps, cnt := cnt }

/-- VECTOR (R271, R272, R281). -/
def StepRun.vector (x : StepRun) : Except StepErr StepOut :=
  let op := st1 x.t 4
  let y := x.desc 12
  let xs := x.desc 6
  let imm := fp32 (w32 (st4 x.t 16))
  match x.readErr ((stepOperands x.t).1.flatMap fun e => ranges2 (x.desc e.1)) with
  | some e => .error e
  | none =>
    let rowsOut := (List.range (dRows y)).map fun r =>
      if op = 22 then [rowSum ((List.range (dCols xs)).map fun c => x.val2 xs r c)]
      else if op = 23 then [rowMax ((List.range (dCols xs)).map fun c => x.val2 xs r c)]
      else (List.range (dCols y)).map fun c => vecOp op (x.val2 xs r c) (x.val2 (x.desc 8) r c) (x.val2 (x.desc 10) r c) imm
    let (ps, cnt) := x.out2 y (stFlag x.t 0) (x.seed 20) rowsOut
    .ok { StepOut.none with patches := ps, cnt := cnt }

end Sys2Proof.Machine
end

