-- ==== Sys2Proof/Machine/Conv.lean ====
section
/-! DEFINITION. Convolution and image steps (R291 to R318): windows and borders, direct and Winograd convolution, depthwise
convolution, pooling, resize, argmax, box decode, and the copies of the selvedge exchange. -/

namespace Sys2Proof.Machine

/-! ## Pictures (R291, R292) -/

/-- Byte of row `y` of the plane of channel `c` of picture `n`. -/
def imgRow (d : Desc) (n c y : Nat) : Nat := dOffset d + (n * dC d + c) * dPlane d + y * dStride d

/-- Byte of the scale of channel group `g` at (y, x). -/
def imgScale (d : Desc) (n g y x : Nat) : Nat := dScaleOff d + ((n * (dC d / 32) + g) * dH d + y) * scaleRow d + 2 * x

/-- An element of a picture, without its scale. -/
def StepRun.rawI (x : StepRun) (d : Desc) (n c y p : Nat) : FVal := decodeElem (dFormat d) (x.elemAt (dSource d) (dFormat d) (imgRow d n c y) p)

/-- The scale of a picture's block at a position. -/
def StepRun.scaleI (x : StepRun) (d : Desc) (n g y p : Nat) : FVal :=
  if dFormat d = 8 then decodeScale 8 (x.num (dSource d) (imgScale d n g y p) 2) else dScale d

/-- An element converted to FP32 (R262). -/
def StepRun.valI (x : StepRun) (d : Desc) (n c y p : Nat) : FVal :=
  let q := x.rawI d n c y p
  if dFormat d = 8 ∨ dPer d = true then fmul q (x.scaleI d n (c / 32) y p) else fl q

/-- Byte ranges of the elements (and scales) at some rows and columns of a picture: only what is read is staged (R298). -/
def rangesI (d : Desc) (rows cols : List Nat) : List (Nat × Nat × Nat) :=
  let eb := elemBits (dFormat d) / 8
  (List.range (dN d)).flatMap fun n =>
    ((List.range (dC d)).flatMap fun c => rows.flatMap fun y => cols.map fun p => (dSource d, imgRow d n c y + p * eb, eb)) ++
    (if dFormat d = 8 then (List.range (dC d / 32)).flatMap fun g => rows.flatMap fun y => cols.map fun p => (dSource d, imgScale d n g y p, 2) else [])

/-- A whole picture. -/
def rangesAll (d : Desc) : List (Nat × Nat × Nat) := rangesI d (List.range (dH d)) (List.range (dW d))

/-- Stochastic rounding of a CONV or DWCONV (R270, R300): the seed, and the index of the output's element in the whole picture, whose rows a band
holds from `row0` on (R303). [DEDUCED, log entry 37] -/
def imgStoch (seed : Option W32) (row0 oh : Nat) (d : Desc) (n c y p : Nat) : Stoch :=
  seed.map fun s => (s, w32 (((n * oh + row0 + y) * dW d + p) * dC d + c))

/-- Rounding to nearest everywhere. -/
def nearest (_ _ _ _ : Nat) : Stoch := none

/-- A descriptor without its per-tensor scale. -/
def noPer (d : Desc) : Desc := setBit d 16 false

/-- Write a picture: `v n c y p` are its values (R268, R269 over blocks of 32 channels), `st n c y p` how they round. -/
def StepRun.outI (x : StepRun) (d : Desc) (sat : Bool) (st : Nat → Nat → Nat → Nat → Stoch) (v : Nat → Nat → Nat → Nat → FVal) : List (Nat × Nat × List Byte) × Cnt :=
  let f := dFormat d
  let src := dSource d
  if f = 8 then
    let blocks := (List.range (dN d)).flatMap fun n => (List.range (dC d / 32)).flatMap fun g => (List.range (dH d)).flatMap fun y => (List.range (dW d)).map fun p =>
      let q := quantise 8 ((List.range 32).map fun i => v n (32 * g + i) y p)
      ((src, imgScale d n g y p, [BitVec.ofNat 8 q.1, BitVec.ofNat 8 (q.1 / 256)]) ::
        (q.2.1.zipIdx.map fun e => (src, imgRow d n (32 * g + e.2) y + p, [BitVec.ofNat 8 e.1])), q.2.2)
    (blocks.flatMap (·.1), blocks.foldl (fun c e => c.add e.2) Cnt.zero)
  else
    let rows := (List.range (dN d)).flatMap fun n => (List.range (dC d)).flatMap fun c => (List.range (dH d)).map fun y =>
      let cs := (List.range (dW d)).map fun p =>
        convert f sat (st n c y p) (unscale d (v n c y p))
      ((src, imgRow d n c y, x.packRow src f (imgRow d n c y) (cs.map (·.1))), cs.foldl (fun a e => a.add e.2) Cnt.zero)
    (rows.map (·.1), rows.foldl (fun c e => c.add e.2) Cnt.zero)

/-! ## Windows (R294, R296) -/

/-- X's row and column for a window position of output (oy, ox): `none` reads the pad value 0. Rows are X's own. -/
def StepRun.winAt (x : StepRun) (oy ox ky kx : Nat) : Option (Nat × Nat) :=
  let t := x.t
  let d := x.desc 4
  let gh := if st2 t 20 = 0 then dH d else st2 t 20
  match borderAt (fld t 12 2) gh (((st2 t 24 + oy) * st1 t 14 + ky : Nat) - (st1 t 16 : Int)), borderAt (fld t 12 2) (dW d) ((ox * st1 t 15 + kx : Nat) - (st1 t 18 : Int)) with
  | some r, some c => some (r - st2 t 22, c)
  | _, _ => none

/-- Is the window position inside the picture (R296 for pooling)? -/
def StepRun.inside (x : StepRun) (oy ox ky kx : Nat) : Bool :=
  let t := x.t
  let d := x.desc 4
  let gh := if st2 t 20 = 0 then dH d else st2 t 20
  let r : Int := ((st2 t 24 + oy) * st1 t 14 + ky : Nat) - (st1 t 16 : Int)
  let c : Int := (ox * st1 t 15 + kx : Nat) - (st1 t 18 : Int)
  decide (0 ≤ r ∧ r < gh ∧ 0 ≤ c ∧ c < dW d)

/-- Taps of the filter in ascending row, then column. -/
def taps (t : Step) : List (Nat × Nat) := (List.range (st1 t 12)).flatMap fun ky => (List.range (st1 t 13)).map fun kx => (ky, kx)

/-- Byte ranges of X that the windows read (R298). -/
def StepRun.winRanges (x : StepRun) (y : Desc) : List (Nat × Nat × Nat) :=
  let t := x.t
  let d := x.desc 4
  let gh := if st2 t 20 = 0 then dH d else st2 t 20
  let cols := ((List.range (dW y)).flatMap fun ox => (List.range (st1 t 13)).filterMap fun kx => windowPos t (dW d) ((ox * st1 t 15 + kx : Nat) - (st1 t 18 : Int))).eraseDups
  rangesI d ((windowRows t y gh).map fun r => r - st2 t 22) cols

/-- D's element for channel `k` (R300): one value per channel, or a picture. -/
def StepRun.dImg (x : StepRun) (exact : Bool) (n k oy ox : Nat) : FVal :=
  let d := x.desc 10
  if dImage d then (if exact then x.rawI d n k oy ox else x.valI d n k oy ox) else x.dVal d exact 0 k

/-- The ranges of D. -/
def StepRun.dRanges (x : StepRun) : List (Nat × Nat × Nat) := if stFlag x.t 2 then (if dImage (x.desc 10) then rangesAll (x.desc 10) else ranges2 (x.desc 10)) else []

/-! ## Direct convolution (R299, R300) -/

/-- The unrolled window of an output position as blocks, tap by tap. -/
def StepRun.winBlocks (x : StepRun) (n oy ox : Nat) : List Block :=
  let d := x.desc 4
  (taps x.t).flatMap fun k => (List.range (ceilDiv (dC d) 32)).map fun g =>
    match x.winAt oy ox k.1 k.2 with
    | none => (fone, List.replicate 32 fzero)
    | some (r, p) => (x.scaleI d n g r p, (List.range 32).map fun i => if 32 * g + i < dC d then x.rawI d n (32 * g + i) r p else fzero)

/-- The filter of output channel `k` as blocks; weights that meet no input channel are zero (R299). -/
def StepRun.filterBlocks (x : StepRun) (k : Nat) : List Block :=
  let d := x.desc 4
  let w := x.desc 6
  let groups := ceilDiv (dC d) 32
  (List.range ((taps x.t).length * groups)).map fun j =>
    let b := x.block2 w k j
    (b.1, b.2.zipIdx.map fun e => if 32 * (j % groups) + e.2 < dC d then e.1 else fzero)

/-- Output (n, k, oy, ox) of a direct convolution before its conversion (R300). -/
def StepRun.convElem (x : StepRun) (n k oy ox : Nat) : FVal :=
  let a := x.desc 4
  let w := x.desc 6
  let y := x.desc 8
  let hasD := stFlag x.t 2
  let bs := (x.winBlocks n oy ox).zip (x.filterBlocks k)
  if gemmPath (dFormat a) (dFormat w) = 1 then
    let t := intSum (bs.flatMap fun e => e.1.2) (bs.flatMap fun e => e.2.2)
    (intPath t (dScale a) (dScale w) (dPer a || dPer w) y hasD (dIntOk (x.desc 10)) (x.dImg (decide (dFormat y = 11 ∧ dIntOk (x.desc 10) = true)) n k oy ox)).v
  else
    let c := blockLoop bs
    if hasD then fadd c (x.dImg false n k oy ox) else c

/-! ## Winograd F(4 × 4, 3 × 3) (R303, R305); F(2 × 2, 3 × 3) gives the direct path's bits (R304) -/

def winoBT : List (List Int) := [[4, 0, -5, 0, 1, 0], [0, -4, -4, 1, 1, 0], [0, 4, -4, -1, 1, 0], [0, -2, -1, 2, 1, 0], [0, 2, -1, -2, 1, 0], [0, 4, 0, -5, 0, 1]]
def winoG : List (List Int) := [[6, 0, 0], [-4, -4, -4], [-4, 4, -4], [1, 2, 4], [1, -2, 4], [0, 0, 24]]
def winoAT : List (List Int) := [[1, 1, 1, 1, 1, 0], [0, 1, -1, 2, -2, 0], [0, 1, 1, 4, 4, 0], [0, 1, -1, 8, -8, 1]]

/-- An fl-sum of integer multiples in ascending order that skips zero entries. -/
def dotSkip (cs : List Int) (vs : List FVal) : FVal :=
  match (cs.zip vs).filter fun e => decide (e.1 ≠ 0) with
  | [] => fzero
  | e :: r => r.foldl (fun a e => fadd a ((fint e.1).mul e.2)) (fl ((fint e.1).mul e.2))

/-- mul(C, M) and mul(M, transpose C) for a constant matrix C. -/
def mulLeft (c : List (List Int)) (m : List (List FVal)) : List (List FVal) := c.map fun row => (List.range (m.headD []).length).map fun j => dotSkip row (m.map fun r => r.getD j fzero)
def mulRightT (m : List (List FVal)) (c : List (List Int)) : List (List FVal) := m.map fun r => c.map fun col => dotSkip col r

/-- Round to a 16-bit format, SAT clear. -/
def toFmt (f : Nat) (v : FVal) : FVal := decodeElem f (convert f false none v).1

/-- The element of the input tile at whole-picture row and column positions (R296). A row of the picture that the band does not
hold has no stated value: it is free. [DEDUCED, log entry 39] -/
def StepRun.tileAt (x : StepRun) (n c : Nat) (r p : Int) : FVal :=
  let t := x.t
  let d := x.desc 4
  let gh := if st2 t 20 = 0 then dH d else st2 t 20
  match borderAt (fld t 12 2) gh r, borderAt (fld t 12 2) (dW d) p with
  | some q, some q' =>
    if st2 t 22 ≤ q ∧ q < st2 t 22 + dH d ∧ q' < dW d then x.valI d n c (q - st2 t 22) q'
    else fp32 (Config.vecFun 64 (w32 (((n * 16384 + c) * 65536 + q) * 65536 + q')))
  | _, _ => fzero

/-- Output (n, k, oy, ox) of an F(4 × 4, 3 × 3) step before its conversion. -/
def StepRun.winoElem (x : StepRun) (n k oy ox : Nat) : FVal :=
  let t := x.t
  let d := x.desc 4
  let w := x.desc 6
  let cp := 32 * ceilDiv (dC d) 32
  let gy := st2 t 24 + oy
  let y0 := gy / 4 * 4
  let x0 := ox / 4 * 4
  let uv := (List.range (dC d)).map fun c =>
    let dd := (List.range 6).map fun i => (List.range 6).map fun j => x.tileAt n c ((y0 + i : Nat) - (st1 t 16 : Int)) ((x0 + j : Nat) - (st1 t 18 : Int))
    let g := (List.range 3).map fun i => (List.range 3).map fun j => x.val2 w k ((i * 3 + j) * cp + c)
    ((mulRightT (mulLeft winoBT dd) winoBT).map fun r => r.map (toFmt (dFormat d)), (mulRightT (mulLeft winoG g) winoG).map fun r => r.map (toFmt (dFormat w)))
  let at_ := fun (m : List (List FVal)) (i j : Nat) => (m.getD i []).getD j fzero
  let m := (List.range 6).map fun i => (List.range 6).map fun j =>
    blockLoop ((List.range (ceilDiv (dC d) 32)).map fun g =>
      ((fone, (List.range 32).map fun e => match uv[32 * g + e]? with | some q => at_ q.2 i j | none => fzero),
       (fone, (List.range 32).map fun e => match uv[32 * g + e]? with | some q => at_ q.1 i j | none => fzero)))
  let y := mulRightT (mulLeft winoAT m) winoAT
  let c := fdiv (at_ y (gy % 4) (ox % 4)) (fnat 576)
  if stFlag t 2 then fadd c (x.dImg false n k oy ox) else c

/-- CONV (R293 to R305). -/
def StepRun.conv (x : StepRun) : Except StepErr StepOut :=
  let y := x.desc 8
  match windowOut x.t (x.desc 4) with
  | none => .ok { StepOut.none with empty := true }
  | some (_, oh, _) =>
  match x.readErr (x.winRanges y ++ ranges2 (x.desc 6) ++ x.dRanges) with
  | some e => .error e
  | none =>
    let wino := stFlag x.t 3 && decide (4 < dFormat (x.desc 4))
    let (ps, cnt) := x.outI y (stFlag x.t 0) (imgStoch (x.seed 26) (st2 x.t 24) oh y) (if wino then x.winoElem else x.convElem)
    .ok { StepOut.none with patches := ps, cnt := cnt }

/-! ## Depthwise convolution (R307) -/

def StepRun.dwElem (x : StepRun) (n c oy ox : Nat) : FVal :=
  let a := x.desc 4
  let w := x.desc 6
  let y := x.desc 8
  let hasD := stFlag x.t 2
  let kw := st1 x.t 13
  if dFormat a ≤ 1 ∧ dFormat w ≤ 2 then
    let t := intSum ((taps x.t).map fun k => match x.winAt oy ox k.1 k.2 with | some (r, p) => x.rawI a n c r p | none => fzero)
      ((taps x.t).map fun k => x.raw2 w c (k.1 * kw + k.2))
    (intPath t (dScale a) (dScale w) (dPer a || dPer w) y hasD (dIntOk (x.desc 10)) (x.dImg (decide (dFormat y = 11 ∧ dIntOk (x.desc 10) = true)) n c oy ox)).v
  else
    let acc := (taps x.t).foldl (fun acc k =>
      let xv := match x.winAt oy ox k.1 k.2 with | some (r, p) => (if dFormat a = 8 then x.valI a n c r p else x.rawI a n c r p) | none => fzero
      fadd acc (fmul xv (x.raw2 w c (k.1 * kw + k.2)))) fzero
    let v := if dPer a || dPer w then fmul acc (fmul (dScale a) (dScale w)) else acc
    if hasD then fadd v (x.dImg false n c oy ox) else v

def StepRun.dwconv (x : StepRun) : Except StepErr StepOut :=
  let y := x.desc 8
  match windowOut x.t (x.desc 4) with
  | none => .ok { StepOut.none with empty := true }
  | some (_, oh, _) =>
  match x.readErr (x.winRanges y ++ ranges2 (x.desc 6) ++ x.dRanges) with
  | some e => .error e
  | none =>
    let (ps, cnt) := x.outI y (stFlag x.t 0) (imgStoch (x.seed 26) (st2 x.t 24) oh y) x.dwElem
    .ok { StepOut.none with patches := ps, cnt := cnt }

/-! ## Pooling (R308) -/

def StepRun.poolElem (x : StepRun) (n c oy ox : Nat) : FVal :=
  let a := x.desc 4
  let mode := fld x.t 14 2
  let isInt := decide (dFormat a ≤ 1 ∨ dFormat a = 11) && !dPer a
  let el := fun (r p : Nat) => if isInt then x.rawI a n c r p else x.valI a n c r p
  let here := (taps x.t).filter fun k => x.inside oy ox k.1 k.2
  if mode = 0 then
    match here.map fun k => match x.winAt oy ox k.1 k.2 with | some (r, p) => fl (el r p) | none => fzero with
    | [] => fzero
    | v :: r => r.foldl fmax v
  else
    let used := if mode = 1 then taps x.t else here
    let vs := used.map fun k => match x.winAt oy ox k.1 k.2 with | some (r, p) => el r p | none => fzero
    let s := if isInt then FVal.ofRat (vs.foldl (fun a v => a + v.num) 0) else vs.foldl fadd fzero
    let k := if mode = 1 then st1 x.t 12 * st1 x.t 13 else here.length
    if k = 0 then fzero else fdiv s (fnat k)

def StepRun.pool (x : StepRun) : Except StepErr StepOut :=
  let y := x.desc 8
  if (windowOut x.t (x.desc 4)).isNone then .ok { StepOut.none with empty := true }
  else match x.readErr (x.winRanges y) with
  | some e => .error e
  | none =>
    let (ps, cnt) := x.outI y false nearest x.poolElem
    .ok { StepOut.none with patches := ps, cnt := cnt }

/-! ## Resize (R309) -/

def lerp (a b : FVal) (f : Nat) : FVal := fadd a (fmul (FVal.ofRat ((f : Rat) / 65536)) (fsub b a))

def StepRun.resizeElem (x : StepRun) (n c oy ox : Nat) : FVal :=
  let t := x.t
  let a := x.desc 4
  let y := x.desc 8
  let bil := stFlag t 0
  let gh := if st2 t 20 = 0 then dH a else st2 t 20
  let go := if st2 t 12 = 0 then dH y else st2 t 12
  let ry := resizeAt bil (st2 t 24 + oy) gh go
  let rx := resizeAt bil ox (dW a) (dW y)
  let v := fun (r p : Nat) => x.valI a n c (r - st2 t 22) p
  if bil then lerp (lerp (v ry.1 rx.1) (v ry.1 rx.2.1) rx.2.2) (lerp (v ry.2.1 rx.1) (v ry.2.1 rx.2.1) rx.2.2) ry.2.2
  else v ry.1 rx.1

def StepRun.resize (x : StepRun) : Except StepErr StepOut :=
  let t := x.t
  let a := x.desc 4
  let y := x.desc 8
  let gh := if st2 t 20 = 0 then dH a else st2 t 20
  let go := if st2 t 12 = 0 then dH y else st2 t 12
  let rows := ((List.range (dH y)).flatMap fun q => let e := resizeAt (stFlag t 0) (st2 t 24 + q) gh go; [e.1 - st2 t 22, e.2.1 - st2 t 22]).eraseDups
  let cols := ((List.range (dW y)).flatMap fun q => let e := resizeAt (stFlag t 0) q (dW a) (dW y); [e.1, e.2.1]).eraseDups
  match x.readErr (rangesI a rows cols) with
  | some e => .error e
  | none =>
    let (ps, cnt) := x.outI y false nearest x.resizeElem
    .ok { StepOut.none with patches := ps, cnt := cnt }

/-! ## Argmax (R310) -/

/-- Index and value of the largest of a list, lowest index on a tie, NaN left out; none when all are NaN. -/
def argmaxOf (vs : List FVal) : Option (Nat × FVal) :=
  vs.zipIdx.foldl (fun best e => if e.1.isNan then best else match best with
    | none => some (e.2, e.1)
    | some b => if FVal.lt b.2 e.1 then some (e.2, e.1) else some b) none

def StepRun.argmax (x : StepRun) : Except StepErr StepOut :=
  let a := x.desc 4
  match x.readErr (rangesAll a) with
  | some e => .error e
  | none =>
    let best := fun (n y p : Nat) => argmaxOf ((List.range (dC a)).map fun c => x.valI a n c y p)
    let idx := fun (n _c y p : Nat) => fnat (match best n y p with | some b => b.1 | none => 0)
    let val := fun (n _c y p : Nat) => match best n y p with | some b => b.2 | none => FVal.nan
    let nans := ((List.range (dN a)).flatMap fun n => (List.range (dH a)).flatMap fun y => (List.range (dW a)).filter fun p => (best n y p).isNone).length
    -- Y takes the index itself, without a per-tensor scale
    let (p1, _) := x.outI (noPer (x.desc 8)) false nearest idx
    -- a position of only NaN counts once, as a NaN of V where there is a V (R310, R268)
    let (p2, c2) := if hasOpd x.t 6 then x.outI (x.desc 6) false nearest val else ([], ⟨0, nans⟩)
    .ok { StepOut.none with patches := p1 ++ p2, cnt := c2 }

/-! ## Box decode (R311 to R313) -/

/-- A box kept or considered: score, anchor, class and its corners. -/
structure Box where
  score : FVal
  anchor : Nat
  cls : Nat
  x0 : FVal
  y0 : FVal
  x1 : FVal
  y1 : FVal
  deriving DecidableEq, Repr

def half : FVal := .fin false (1 / 2)
def clip (hi v : FVal) : FVal := fmax fzero (fmin v hi)
def Box.area (b : Box) : FVal := fmul (fsub b.x1 b.x0) (fsub b.y1 b.y0)

/-- Do two boxes overlap (stage 4 of R312)? -/
def Box.overlaps (iou : FVal) (a b : Box) : Bool :=
  let iw := fmax fzero (fsub (fmin a.x1 b.x1) (fmax a.x0 b.x0))
  let ih := fmax fzero (fsub (fmin a.y1 b.y1) (fmax a.y0 b.y0))
  let i := fmul iw ih
  let u := fsub (fadd a.area b.area) i
  FVal.lt (fmul iou u) i

/-- The order of stage 3: descending score, then anchor, then class. -/
def Box.before (a b : FVal × Nat × Nat) : Bool :=
  FVal.lt b.1 a.1 || (!FVal.lt a.1 b.1 && (decide (a.2.1 < b.2.1) || (decide (a.2.1 = b.2.1) && decide (a.2.2 ≤ b.2.2))))

/-- Greedy suppression: boxes kept, in order, and whether candidates remain unexamined when `max` are kept. -/
def suppress (iou : FVal) (agnostic : Bool) (max : Nat) : List Box → List Box → List Box × Bool
  | [], kept => (kept, false)
  | b :: r, kept =>
    if max ≤ kept.length then (kept, true)
    else if kept.any fun k => (agnostic || decide (k.cls = b.cls)) && Box.overlaps iou k b then suppress iou agnostic max r kept
    else suppress iou agnostic max r (kept ++ [b])

/-- A coordinate in quarter pixels (R313). -/
def quarter (v : FVal) : Nat := match fmul (fnat 4) v with | .fin n q => if n then 0 else min 65535 (roundEven q) | .inf n => if n then 0 else 65535 | .nan => 0

def StepRun.boxdec (x : StepRun) : Except StepErr StepOut :=
  let t := x.t
  let sc := x.desc 4
  let de := x.desc 6
  let an := x.desc 8
  match x.readErr (ranges2 sc ++ ranges2 de ++ ranges2 an) with
  | some e => .error e
  | none =>
    let f16 := fun (i : Nat) => decodeFmt fmtFp16 (st2 t i)
    let pairs := (List.range (dRows sc)).flatMap fun a => (List.range (dCols sc)).filterMap fun k =>
      let s := if stFlag t 0 then fsigmoid (x.val2 sc a k) else x.val2 sc a k
      if !s.isNan && FVal.le (fp32 (w32 (st4 t 12))) s && (decide (k ≠ 0) || !stFlag t 2) then some (s, a, k) else none
    let sorted := pairs.mergeSort Box.before
    let taken := sorted.take 4096
    let boxes := taken.map fun e =>
      let av := fun (i : Nat) => x.val2 an e.2.1 i
      let dv := fun (i : Nat) => x.val2 de e.2.1 i
      let centre := fun (i : Nat) => fadd (av i) (fmul (fmul (dv i) (f16 20)) (av (i + 2)))
      let size := fun (i : Nat) => fmul (av i) (fexp (fmin (fmul (dv i) (f16 22)) (f16 28)))
      let w := size 2
      let h := size 3
      let iw := fnat (st2 t 24)
      let ih := fnat (st2 t 26)
      (⟨e.1, e.2.1, e.2.2, clip iw (fsub (centre 0) (fmul half w)), clip ih (fsub (centre 1) (fmul half h)),
        clip iw (fadd (centre 0) (fmul half w)), clip ih (fadd (centre 1) (fmul half h))⟩ : Box)
    let (kept, full) := suppress (f16 16) (stFlag t 1) (st2 t 18) boxes []
    let le := fun (n v : Nat) => (List.range n).map fun i => (BitVec.ofNat 8 (v / 256 ^ i) : Byte)
    let head := le 2 kept.length ++ le 2 (b2n (decide (4096 < pairs.length)) + 2 * b2n full) ++ le 4 (min pairs.length (2 ^ 32 - 1)) ++ List.replicate 56 0
    let entry := fun (b : Box) => le 2 (quarter b.x0) ++ le 2 (quarter b.y0) ++ le 2 (quarter b.x1) ++ le 2 (quarter b.y1) ++ le 2 b.cls ++ le 2 (encodeFmt fmtFp16 b.score) ++ le 2 b.anchor ++ le 2 0
    let body := (kept.flatMap entry) ++ List.replicate (16 * (st2 t 18 - kept.length)) 0
    .ok { StepOut.none with patches := [(dSource (x.desc 10), dOffset (x.desc 10), head ++ body)] }

/-! ## The selvedge exchange (R315, R318) -/

/-- The rows of a halo step in its image, and where each lies in the slot: (image byte, slot byte, length). -/
def haloRows (t : Step) (d : Desc) : List (Nat × Nat × Nat) :=
  let nr := st2 t 8
  let len := dW d * (elemBits (dFormat d) / 8)
  let planes := dN d * dC d
  ((List.range planes).flatMap fun p => (List.range nr).map fun r => (dOffset d + p * dPlane d + (st2 t 6 + r) * dStride d, (p * nr + r) * dStride d, len)) ++
  (if dFormat d = 8 then (List.range (planes / 32)).flatMap fun g => (List.range nr).map fun r =>
      (dScaleOff d + (g * dH d + st2 t 6 + r) * scaleRow d, planes * nr * dStride d + (g * nr + r) * scaleRow d, 2 * dW d) else [])

/-- Byte of the slot of a halo step's generation in the consumer cluster's T1 scratch. -/
def haloSlotOff (t : Step) : Nat := st4 t 12 + st2 t 22 % 2 * st4 t 16

/-- T1 scratch of cluster `n` as a place to write (256 + n), which a producer in another cluster reaches (R315). -/
def scr1Of (n : Nat) : Nat := 256 + n

/-- HALO_PUT: copy rows into the slot; `peerCluster` is the consumer's cluster. -/
def StepRun.haloPut (x : StepRun) (peerCluster : Nat) : Except StepErr StepOut :=
  let d := x.desc 4
  let rows := haloRows x.t d
  match x.readErr (rows.map fun e => (dSource d, e.1, e.2.2)) with
  | some e => .error e
  | none => .ok { StepOut.none with patches := rows.map fun e => (scr1Of peerCluster, haloSlotOff x.t + e.2.1, (List.range e.2.2).map fun i => x.byte (dSource d) (e.1 + i)) }

/-- HALO_GET: copy the slot into rows of the image. -/
def StepRun.haloGet (x : StepRun) : Except StepErr StepOut :=
  let d := x.desc 4
  .ok { StepOut.none with patches := (haloRows x.t d).map fun e => (dSource d, e.1, (List.range e.2.2).map fun i => x.byte 0x11 (haloSlotOff x.t + e.2.1 + i)) }

end Sys2Proof.Machine
end

