-- ==== Sys2Proof/Machine/Attention.lean ====
section
/-! DEFINITION. KV regions (R321 to R325), appending (R328 to R332), rotary encoding (R334), and the forward and backward
attention steps (R335 to R345). -/

namespace Sys2Proof.Machine

/-! ## KV regions (R322 to R324) -/

def Obj.kvNlayer (o : Obj) : Nat := o.rd 6 2
def Obj.kvHeads (o : Obj) : Nat := o.rd 8 1
def Obj.kvDblk (o : Obj) : Nat := o.rd 9 1
def Obj.kvD (o : Obj) : Nat := 32 * o.kvDblk
def Obj.kvFmt (o : Obj) (value : Bool) : Nat := o.rd (if value then 11 else 10) 1
def Obj.kvWindow (o : Obj) : Bool := bit (o.byte 12) 0
def Obj.kvMax (o : Obj) : Nat := o.rd 16 4
/-- [DEDUCED, log entry 32]. -/
def Obj.kvLength (o : Obj) : Nat := o.rd 24 8

/-- A value rounded up to a whole tile. -/
def pad4k (n : Nat) : Nat := 4096 * ceilDiv n 4096

/-- Shape of a region: layers, heads, DBLK, formats, window, MAX_LEN (R321). -/
structure KvShape where
  nlayer : Nat
  heads : Nat
  dblk : Nat
  kfmt : Nat
  vfmt : Nat
  window : Bool
  maxLen : Nat
  deriving DecidableEq, Repr

/-- Bytes of an element plane and of a scale plane of one layer (R322). -/
def KvShape.plane (k : KvShape) (f : Nat) : Nat := k.heads * k.maxLen * (32 * k.dblk) * elemBits f / 8
def KvShape.scales (k : KvShape) (f : Nat) : Nat := k.heads * k.maxLen * k.dblk * scaleBytes f
def KvShape.kScaleOff (k : KvShape) : Nat := pad4k (k.plane k.kfmt)
def KvShape.vOff (k : KvShape) : Nat := k.kScaleOff + pad4k (k.scales k.kfmt)
def KvShape.vScaleOff (k : KvShape) : Nat := k.vOff + pad4k (k.plane k.vfmt)
def KvShape.layerBytes (k : KvShape) : Nat := k.vScaleOff + pad4k (k.scales k.vfmt)
def KvShape.size (k : KvShape) : Nat := 4096 + k.nlayer * k.layerBytes

/-- Does a shape keep its ranges (R321)? -/
def KvShape.ok (k : KvShape) : Bool :=
  decide (1 ≤ k.nlayer ∧ k.nlayer ≤ 1024 ∧ 1 ≤ k.heads ∧ k.heads ≤ 64 ∧ 1 ≤ k.dblk ∧ k.dblk ≤ 8 ∧ (k.kfmt = 8 ∨ k.kfmt = 9) ∧ (k.vfmt = 8 ∨ k.vfmt = 9) ∧
    64 ≤ k.maxLen ∧ k.maxLen ≤ 131072 ∧ k.maxLen % 64 = 0 ∧ k.size ≤ 2 ^ 36)

/-- The shape that a region's header states. -/
def Obj.kvShape (o : Obj) : KvShape := ⟨o.kvNlayer, o.kvHeads, o.kvDblk, o.kvFmt false, o.kvFmt true, o.kvWindow, o.kvMax⟩

/-- Bytes of a number, lowest first. -/
def leBytes (n v : Nat) : List Byte := (List.range n).map fun i => BitVec.ofNat 8 (v / 256 ^ i)

/-- The header the device writes into a fresh region (R323): the first 64 bytes; the rest of the tile is 0. -/
def KvShape.header (k : KvShape) (length : Nat) : List Byte :=
  leBytes 4 0x4D564B56 ++ leBytes 2 1 ++ leBytes 2 k.nlayer ++ leBytes 1 k.heads ++ leBytes 1 k.dblk ++ leBytes 1 k.kfmt ++ leBytes 1 k.vfmt ++ leBytes 4 (b2n k.window) ++
  leBytes 8 k.maxLen ++ leBytes 8 length ++ leBytes 8 k.kScaleOff ++ leBytes 8 k.vOff ++ leBytes 8 k.vScaleOff ++ leBytes 8 k.layerBytes

/-- Does an existing object hold a header that agrees with its own derived layout and size (R323)? [DEDUCED, log entry 111] -/
def Obj.kvHeaderOk (o : Obj) : Bool :=
  let k := o.kvShape
  k.ok && decide (o.size = k.size ∧ o.rdList 0 64 = k.header o.kvLength) && (o.rdList 64 4032).all (fun b => decide (b = 0)) && (k.window || decide (o.kvLength ≤ k.maxLen))

/-- Slot of a position (R324). -/
def Obj.kvSlot (o : Obj) (p : Nat) : Nat := if o.kvWindow then p % o.kvMax else p

/-- First byte of the elements of (layer, head, position) of the key or value plane, and of the scale of its block `j`. -/
def Obj.kvElem (o : Obj) (value : Bool) (l h p : Nat) : Nat :=
  let k := o.kvShape
  4096 + l * k.layerBytes + (if value then k.vOff else 0) + (h * k.maxLen + o.kvSlot p) * o.kvD * elemBits (o.kvFmt value) / 8
def Obj.kvScale (o : Obj) (value : Bool) (l h p j : Nat) : Nat :=
  let k := o.kvShape
  4096 + l * k.layerBytes + (if value then k.vScaleOff else k.kScaleOff) + ((h * k.maxLen + o.kvSlot p) * k.dblk + j) * scaleBytes (o.kvFmt value)

/-! ## Naming a region (R326, R327) -/

/-- The context a list entry names: the header's context for CTX_SLOT 0xFF. -/
def StepRun.ctxAt (x : StepRun) (slot entry : Nat) : Option Nat :=
  if slot = 0xFF then (if entry = 0 then some x.f.cmd.context else none)
  else if slot < x.p.pNbind ∧ (x.p.pBind slot).kind = 2 then
    let l := x.bindObj slot
    if entry < l.rd 0 4 then some (l.rd (4 + 4 * entry) 4 % 2 ^ 18) else none
  else none

/-- Key of the state object of a context. -/
def StepRun.stateKey (x : StepRun) (ctx st : Nat) : Option Nat :=
  match x.ctxObjs.find? fun e => decide (e.1 = ctx) with
  | some e => e.2[st]?
  | none => none

/-- A state object as the command read it (R170). -/
def StepRun.stateObj (x : StepRun) (k : Nat) : Obj := match x.f.ins.find? fun e => decide (e.1 = k) with | some e => e.2 | none => Obj.dflt

/-- DETAIL of the reasons of R327. [DEDUCED, log entry 35] -/
def kvDetail (reason idx ctx kvl : Nat) : BitVec 192 := setBytes (setBytes (setBytes (setBytes 0 8 1 reason) 12 4 idx) 16 4 ctx) 20 2 kvl

/-- MAP's rows: context, region key and position, or the failure KV_MAP (R326, R327). -/
def StepRun.mapRows (x : StepRun) (m : Desc) (slot st kvl : Nat) : Except StepErr (List (Nat × Nat × Nat)) :=
  (List.range (dRows m)).foldl (fun acc i =>
    match acc with
    | .error e => .error e
    | .ok l =>
      match x.ctxAt slot (x.bits2 m i 0) with
      | none => .error (0x202, kvDetail 28 x.idx 0 kvl)
      | some c =>
        match x.stateKey c st with
        | some k => if (x.stateObj k).kind = 3 then .ok (l ++ [(c, k, x.bits2 m i 1 + 2 ^ 32 * x.bits2 m i 2)]) else .error (0x202, kvDetail 28 x.idx c kvl)
        | none => .error (0x202, kvDetail 28 x.idx c kvl)) (.ok [])

/-- Rows this stream has appended to a region at a layer; rows the whole command has. -/
def StepRun.ownRows (x : StepRun) (k kvl : Nat) : Nat := (x.f.appended.filter fun a => decide (a.1 = k ∧ a.2.1 = kvl ∧ a.2.2.1 = x.core)).length
def StepRun.cmdRows (x : StepRun) (k kvl : Nat) : Nat := (x.f.appended.filter fun a => decide (a.1 = k ∧ a.2.1 = kvl)).length

/-- The expected position of R329. -/
def StepRun.expected (x : StepRun) (k kvl : Nat) : Nat := (x.stateObj k).kvLength + x.ownRows k kvl

/-- FORMAT_MISMATCH (R342). -/
def mismatch (o : Obj) (dk dv idx ctx kvl : Nat) : StepErr :=
  (0x400, setBytes (setBytes (setBytes (setBytes (setBytes (setBytes (setBytes 0 8 1 (o.kvFmt false)) 9 1 (o.kvFmt true)) 10 1 dk) 11 1 dv) 12 4 idx) 16 4 ctx) 20 2 kvl)

/-! ## Rotary encoding (R334) -/

/-- rotate of R334 on a head's FP32 values; `back` negates the sine (R344). [DEDUCED, log entry 40] -/
def rotate (beta : FVal) (n : Nat) (halfPairs back : Bool) (pos : Nat) (v : List FVal) : List FVal :=
  (List.range n).foldl (fun (v : List FVal) (i : Nat) =>
    let f := fexp (fmul (flog beta) (fdiv (fint (-(i : Int))) (fnat n)))
    let a := fmul (fnat pos) f
    let c := rotary true a
    let s := if back then (rotary false a).neg else rotary false a
    let u := if halfPairs then i else 2 * i
    let w := if halfPairs then i + n else 2 * i + 1
    let xu := v.getD u fzero
    let xw := v.getD w fzero
    (v.set u (fsub (fmul xu c) (fmul xw s))).set w (fadd (fmul xu s) (fmul xw c))) v

/-- Rotated pairs: NPAIR, or half of D for 0. -/
def pairsOf (npair d : Nat) : Nat := if npair = 0 then d / 2 else npair

/-! ## KV_APPEND (R328 to R332) -/

/-- Bytes of one quantised row of a head: elements and scales, with the counts. [DEDUCED, log entry 40] -/
def quantRow (f : Nat) (v : List FVal) : List Byte × List Byte × Cnt :=
  let qs := (chunks 32 (v.length / 32 + 1) v).map (quantise f)
  let raws := qs.flatMap fun q => q.2.1
  let es := if elemBits f = 4 then (List.range (raws.length / 2)).map fun i => BitVec.ofNat 8 (raws.getD (2 * i) 0 + 16 * raws.getD (2 * i + 1) 0) else raws.map (BitVec.ofNat 8)
  (es, qs.flatMap fun q => leBytes (scaleBytes f) q.1, qs.foldl (fun c q => c.add q.2.2) Cnt.zero)

/-- KV_APPEND. -/
def StepRun.kvAppend (x : StepRun) : Except StepErr StepOut :=
  let t := x.t
  let kd := x.desc 4
  let vd := x.desc 6
  let m := x.desc 8
  let kvl := st2 t 20
  match x.readErr (ranges2 kd ++ ranges2 vd ++ ranges2 m) with
  | some e => .error e
  | none =>
  match x.mapRows m (st1 t 10) (st1 t 11) kvl with
  | .error e => .error e
  | .ok rows =>
    -- rows of a context before row i of this step
    let before := fun (i k : Nat) => ((rows.take i).filter fun e => decide (e.2.1 = k)).length
    let bad := (rows.zipIdx).findSome? fun (e : (Nat × Nat × Nat) × Nat) =>
      let c := e.1.1
      let k := e.1.2.1
      let o := x.stateObj k
      let n := (rows.filter fun r => decide (r.2.1 = k)).length
      let npair := pairsOf (st1 t 16) o.kvD
      if o.kvNlayer ≤ kvl ∨ dCols kd ≠ o.kvHeads * o.kvD ∨ dCols vd ≠ o.kvHeads * o.kvD then some ((0x202, kvDetail 29 x.idx c kvl) : StepErr)
      else if (st1 t 18 ≠ 0xFF ∧ st1 t 18 ≠ o.kvFmt false) ∨ (st1 t 19 ≠ 0xFF ∧ st1 t 19 ≠ o.kvFmt true) then some (mismatch o (st1 t 18) (st1 t 19) x.idx c kvl)
      else if e.1.2.2 ≠ x.expected k kvl + before e.2 k then some (0x202, kvDetail 30 x.idx c kvl)
      else if (o.kvWindow = false ∧ o.kvMax ≤ e.1.2.2) ∨ (o.kvWindow = true ∧ o.kvMax < x.cmdRows k kvl + n) then
        some (0x401, setBytes (setBytes (setBytes (setBytes (setBytes 0 0 8 o.kvLength) 8 4 (x.cmdRows k kvl + n)) 12 4 x.idx) 16 4 c) 20 4 o.kvMax)
      else if st4 t 12 ≠ 0 ∧ 2 ^ 24 ≤ e.1.2.2 then some (0x202, kvDetail 33 x.idx c kvl)
      else if st4 t 12 ≠ 0 ∧ o.kvD / 2 < npair then some (0x202, reasonDetail 21 x.idx)
      else none
    match bad with
    | some e => .error e
    | none =>
      let parts := (rows.zipIdx).flatMap fun (e : (Nat × Nat × Nat) × Nat) =>
        let k := e.1.2.1
        let o := x.stateObj k
        (List.range o.kvHeads).flatMap fun h =>
          let d := o.kvD
          let ks := (List.range d).map fun j => x.val2 kd e.2 (h * d + j)
          let ks := if st4 t 12 = 0 then ks else rotate (fp32 (w32 (st4 t 12))) (pairsOf (st1 t 16) d) (stFlag t 0) false e.1.2.2 ks
          let vs := (List.range d).map fun j => x.val2 vd e.2 (h * d + j)
          [(false, ks), (true, vs)].map fun (q : Bool × List FVal) =>
            let r := quantRow (o.kvFmt q.1) q.2
            ([(k, o.kvElem q.1 kvl h e.1.2.2, r.1), (k, o.kvScale q.1 kvl h e.1.2.2 0, r.2.1)], r.2.2)
      .ok { StepOut.none with objPatches := parts.flatMap (·.1), cnt := parts.foldl (fun c e => c.add e.2) Cnt.zero,
                              appended := rows.map fun (e : Nat × Nat × Nat) => (e.2.1, kvl, x.core, e.2.2) }

/-! ## The forward pass (R335 to R342) -/

/-- The parameters an attention step works with. -/
structure AttnArgs where
  q : Desc
  o : Desc
  map : Desc
  stats : Nat
  slot : Nat
  state : Nat
  nq : Nat
  kvl : Nat
  dk : Nat
  dv : Nat
  scale : Nat
  window : Nat
  rope : Nat
  npair : Nat
  widen : Bool
  causal : Bool
  ropeHalf : Bool
  deriving DecidableEq, Repr

/-- The operands of an ATTN_FWD step (R335). -/
def StepRun.attnArgs (x : StepRun) (t : Step) : AttnArgs :=
  { q := x.p.pDesc (st2 t 4), o := x.p.pDesc (st2 t 6), map := x.p.pDesc (st2 t 10), stats := st2 t 8, slot := st1 t 12, state := st1 t 13, nq := st1 t 14, kvl := st2 t 30,
    dk := st1 t 15, dv := st1 t 29, scale := st4 t 16, window := st4 t 20, rope := st4 t 24, npair := st1 t 28, widen := stFlag t 0, causal := stFlag t 1, ropeHalf := stFlag t 2 }

def AttnArgs.d (a : AttnArgs) : Nat := dCols a.q / a.nq

/-- SMS (R335, R337): SM_SCALE, or the FP32 value nearest 1/√D. -/
def AttnArgs.sms (a : AttnArgs) : FVal := if a.scale = 0 then fsqrt (.fin false (1 / (a.d : Rat))) else fp32 (w32 a.scale)

/-- The failure of an attention step on its regions (R327, R341, R342, R334), and whether some region is widened. -/
def StepRun.attnCheck (x : StepRun) (a : AttnArgs) (rows : List (Nat × Nat × Nat)) : Except StepErr Bool :=
  let bad := rows.findSome? fun (e : Nat × Nat × Nat) =>
    let c := e.1
    let o := x.stateObj e.2.1
    let fits := fun (st dec : Nat) => decide (dec = 0xFF ∨ st = dec ∨ (st = 9 ∧ dec = 8 ∧ a.widen = true))
    if o.kvNlayer ≤ a.kvl ∨ a.nq % o.kvHeads ≠ 0 ∨ a.d ≠ o.kvD then some ((0x202, kvDetail 29 x.idx c a.kvl) : StepErr)
    else if !(fits (o.kvFmt false) a.dk && fits (o.kvFmt true) a.dv) then some (mismatch o a.dk a.dv x.idx c a.kvl)
    else if a.rope ≠ 0 ∧ 2 ^ 24 ≤ e.2.2 then some (0x202, kvDetail 33 x.idx c a.kvl)
    else if a.rope ≠ 0 ∧ a.d / 2 < pairsOf a.npair a.d then some (0x202, reasonDetail 21 x.idx)
    else none
  match bad with
  | some e => .error e
  | none => .ok (rows.any fun e => let o := x.stateObj e.2.1; decide ((a.dk = 8 ∧ o.kvFmt false = 9) ∨ (a.dv = 8 ∧ o.kvFmt true = 9)))

/-- Key positions admitted for a row (R336), ascending. -/
def StepRun.admitted (x : StepRun) (a : AttnArgs) (k pos : Nat) : List Nat :=
  let o := x.stateObj k
  let vis := x.expected k a.kvl
  let lo := if o.kvWindow then vis - o.kvMax else 0
  ((List.range (vis - lo)).map (· + lo)).filter fun p =>
    (!a.causal || decide (p ≤ pos)) && (decide (a.window = 0) || decide (pos < p + a.window)) && (decide (a.window = 0) || a.causal || decide (p < pos + a.window))

/-- The object a position is read from: the region as read, or the command's own appends. -/
def StepRun.kvSrc (x : StepRun) (k p : Nat) : Obj :=
  let o := x.stateObj k
  if p < o.kvLength then o
  else match x.f.outs.find? fun e => decide (e.obj = k) with | some e => { o with data := e.data } | none => o

/-- A stored row of a head as blocks: scales and elements (R324). -/
def StepRun.kvBlocks (x : StepRun) (k : Nat) (value : Bool) (l h p : Nat) : List Block :=
  let o := x.stateObj k
  let src := x.kvSrc k p
  let f := o.kvFmt value
  let e0 := o.kvElem value l h p
  (List.range o.kvDblk).map fun j =>
    (decodeScale f (src.rd (o.kvScale value l h p j) (scaleBytes f)),
     (List.range 32).map fun i => let d := 32 * j + i
       decodeElem f (if elemBits f = 4 then (src.byte (e0 + d / 2)).toNat / 16 ^ (d % 2) % 16 else (src.byte (e0 + d)).toNat))

/-- A stored row of a head as FP32 values: each element times its block scale, exact. -/
def StepRun.kvVals (x : StepRun) (k : Nat) (value : Bool) (l h p : Nat) : List FVal :=
  (x.kvBlocks k value l h p).flatMap fun b => b.2.map fun e => fmul e b.1

/-- A query head as the arrays take it (R337): rotated by R334 and brought back to Q's format, with TENSOR_SCALE as its scale. [DEDUCED, log entry 40] -/
def StepRun.queryBlocks (x : StepRun) (a : AttnArgs) (i qh pos : Nat) : List Block :=
  let d := a.d
  let raw := (List.range d).map fun j => x.raw2 a.q i (qh * d + j)
  let els := if a.rope = 0 then raw else (rotate (fp32 (w32 a.rope)) (pairsOf a.npair d) a.ropeHalf false pos raw).map fun v => decodeElem (dFormat a.q) (convert (dFormat a.q) false none v).1
  (List.range (d / 32)).map fun j => (dScale a.q, (els.drop (32 * j)).take 32)

/-- The score of a query head against a key position (R337). -/
def StepRun.score (x : StepRun) (a : AttnArgs) (qb : List Block) (k h p : Nat) : FVal := fmul (blockLoop (qb.zip (x.kvBlocks k false a.kvl h p))) a.sms

/-- attend of R338: outputs, running maximum and log-sum-exp. -/
def StepRun.attend (x : StepRun) (a : AttnArgs) (i qh k pos : Nat) : List FVal × FVal × FVal :=
  let h := qh / (a.nq / (x.stateObj k).kvHeads)
  let adm := x.admitted a k pos
  let qb := x.queryBlocks a i qh pos
  let step := fun (acc : FVal × FVal × List FVal) (b : Nat) =>
    let (m, l, o) := acc
    let ps := adm.filter fun p => decide (p / 64 = b)
    let ss := ps.map fun p => (p, x.score a qb k h p)
    let all := (ss.map (·.2)) ++ (if ps.length < 64 then [FVal.inf true] else [])
    let mb := all.foldl fmax (all.headD (.inf true))
    let mn := fmax m mb
    let alpha := fexp (fsub m mn)
    let pb := ss.map fun e => (e.1, toFmt 5 (fexp (fsub e.2 mn)))
    let l' := fadd (fmul l alpha) (exactSum (pb.map (·.2)))
    let vs := pb.map fun e => (e.2, x.kvVals k true a.kvl h e.1)
    let o' := o.zipIdx.map fun e => fadd (fmul e.1 alpha) (exactSum (vs.map fun v => v.1.mul (v.2.getD e.2 fzero)))
    (mn, l', o')
  let (m, l, o) := ((adm.map (· / 64)).eraseDups).foldl step (FVal.inf true, fzero, List.replicate a.d fzero)
  if l = .fin false 0 ∨ l = .fin true 0 then (List.replicate a.d fzero, .inf true, .inf true)
  else (o.map fun v => fdiv v l, m, fadd m (flog l))

/-- A bad tile of a region among the admitted positions (R340). -/
def StepRun.kvTileErr (x : StepRun) (a : AttnArgs) (rows : List (Nat × Nat × Nat)) : Option StepErr :=
  rows.findSome? fun (e : Nat × Nat × Nat) =>
    let k := e.2.1
    let o := x.stateObj k
    if o.allValid then none
    else (0 :: (((x.admitted a k e.2.2).filter fun p => decide (p < o.kvLength)).flatMap fun p => (List.range o.kvHeads).flatMap fun h => [false, true].flatMap fun v =>
      [o.kvElem v a.kvl h p / 4096, (o.kvElem v a.kvl h p + o.kvD * elemBits (o.kvFmt v) / 8 - 1) / 4096, o.kvScale v a.kvl h p 0 / 4096, o.kvScale v a.kvl h p (o.kvDblk - 1) / 4096])).findSome? fun t =>
        if (o.tile t).st = .valid then none
        else some (0x300, setBytes (setBytes (setBytes 0 0 4 (mkHandle (k % 2 ^ 20) o.gen)) 4 4 t) 8 1 (if (o.tile t).st = .poisoned then 2 else 3))

/-- Bytes of its contexts' regions that the forward or backward pass of an ATTN_FWD step reads (R336), each admitted position of a region once:
object, first byte, length. [DESIGN CHOICE, log entry 4] -/
def StepRun.kvReads (x : StepRun) (fwd : Step) : List (Nat × Nat × Nat) :=
  let a := x.attnArgs fwd
  match x.mapRows a.map a.slot a.state a.kvl with
  | .error _ => []
  | .ok rows => ((rows.map (·.2.1)).eraseDups).flatMap fun k =>
    let o := x.stateObj k
    (((rows.filter fun e => decide (e.2.1 = k)).flatMap fun e => x.admitted a k e.2.2).eraseDups).flatMap fun p => (List.range o.kvHeads).flatMap fun h =>
      [false, true].flatMap fun v => [(k, o.kvElem v a.kvl h p, o.kvD * elemBits (o.kvFmt v) / 8), (k, o.kvScale v a.kvl h p 0, o.kvDblk * scaleBytes (o.kvFmt v))]

/-- ATTN_FWD. -/
def StepRun.attnFwd (x : StepRun) : Except StepErr StepOut :=
  let a := x.attnArgs x.t
  match x.readErr (ranges2 a.q ++ ranges2 a.map) with
  | some e => .error e
  | none =>
  match x.mapRows a.map a.slot a.state a.kvl with
  | .error e => .error e
  | .ok rows =>
  match x.attnCheck a rows with
  | .error e => .error e
  | .ok wide =>
  match x.kvTileErr a rows with
  | some e => .error e
  | none =>
    let res := (rows.zipIdx).map fun (e : (Nat × Nat × Nat) × Nat) => (List.range a.nq).map fun qh => x.attend a e.2 qh e.1.2.1 e.1.2.2
    let (p1, c1) := x.out2 a.o (stFlag x.t 3) none (res.map fun r => r.flatMap fun e => e.1)
    let p2 := if a.stats = 0xFFFF then [] else (x.out2 (x.p.pDesc a.stats) false none (res.map fun r => r.flatMap fun e => [e.2.1, e.2.2])).1
    .ok { StepOut.none with patches := p1 ++ p2, cnt := c1, widened := wide }

/-! ## The backward pass (R343 to R345) -/

/-- A sum in consecutive groups of 64 terms, each formed exactly and rounded once, added in order (R344). -/
def groupSum (l : List FVal) : FVal :=
  match (chunks 64 (l.length / 64 + 1) l).map exactSum with
  | [] => fzero
  | v :: r => r.foldl fadd v

/-- ATTN_BWD. -/
def StepRun.attnBwd (x : StepRun) : Except StepErr StepOut :=
  let t := x.t
  let a := x.attnArgs (x.p.pStep x.stream (st2 t 4))
  let sat := stFlag t 1
  let dO := x.desc 6
  let stats := x.p.pDesc a.stats
  match x.readErr (ranges2 a.q ++ ranges2 a.map ++ ranges2 a.o ++ ranges2 stats ++ ranges2 dO) with
  | some e => .error e
  | none =>
  match x.mapRows a.map a.slot a.state a.kvl with
  | .error e => .error e
  | .ok rows =>
  match x.attnCheck a rows with
  | .error e => .error e
  | .ok wide =>
  match (rows.zipIdx).find? (fun e => (rows.take e.2).any fun r => decide (r.2.1 = e.1.2.1 ∧ r.2.2 = e.1.2.2)) with
  | some e => .error (0x202, kvDetail 30 x.idx e.1.1 a.kvl)
  | none =>
  -- dK and dV have NKVHEAD × D columns (R343), which only the regions tell
  if rows.any fun e => let n := (x.stateObj e.2.1).kvHeads * a.d
      (hasOpd t 10 && decide (dCols (x.desc 10) ≠ n)) || (hasOpd t 12 && decide (dCols (x.desc 12) ≠ n)) then .error (0x202, reasonDetail 20 x.idx)
  else
  match x.kvTileErr a rows with
  | some e => .error e
  | none =>
    let d := a.d
    let group := fun (k : Nat) => a.nq / (x.stateObj k).kvHeads
    -- probability and score gradient of row i, head qh, position p
    let prds := fun (i qh k pos p : Nat) =>
      let h := qh / group k
      let lse := x.val2 stats i (2 * qh + 1)
      let g := (List.range d).map fun j => x.val2 dO i (qh * d + j)
      let dr := rowSum (g.zipIdx.map fun e => fmul e.1 (x.val2 a.o i (qh * d + e.2)))
      let pr := fexp (fsub (x.score a (x.queryBlocks a i qh pos) k h p) lse)
      let dp := blockLoop (((List.range (d / 32)).map fun j => ((fone, (g.drop (32 * j)).take 32) : Block)).zip (x.kvBlocks k true a.kvl h p))
      (pr, fmul pr (fsub dp dr))
    let back := fun (pos : Nat) (v : List FVal) => if stFlag t 0 ∧ a.rope ≠ 0 then rotate (fp32 (w32 a.rope)) (pairsOf a.npair d) a.ropeHalf true pos v else v
    let dq := (rows.zipIdx).map fun (e : (Nat × Nat × Nat) × Nat) => (List.range a.nq).flatMap fun qh =>
      let k := e.1.2.1
      let pos := e.1.2.2
      let ps := (x.admitted a k pos).map fun p => ((prds e.2 qh k pos p).2, x.kvVals k false a.kvl (qh / group k) p)
      back pos ((List.range d).map fun j => fmul a.sms (groupSum (ps.map fun q => q.1.mul (q.2.getD j fzero))))
    -- the rows and heads whose scores reach key position `pos` of region `k`, head `h`
    let users := fun (k pos h : Nat) => (rows.zipIdx).flatMap fun (e : (Nat × Nat × Nat) × Nat) =>
      if e.1.2.1 = k ∧ (x.admitted a k e.1.2.2).contains pos then (List.range (group k)).map fun g => (e.2, h * group k + g, e.1.2.2) else []
    let heads := match rows with | [] => 0 | r :: _ => (x.stateObj r.2.1).kvHeads
    let dkv := fun (value : Bool) => rows.map fun (e : Nat × Nat × Nat) => (List.range heads).flatMap fun h =>
      let us := (users e.2.1 e.2.2 h).map fun u =>
        let w := prds u.1 u.2.1 e.2.1 u.2.2 e.2.2
        (if value then w.1 else w.2, if value then (List.range d).map fun j => x.val2 dO u.1 (u.2.1 * d + j)
          else (x.queryBlocks a u.1 u.2.1 u.2.2).flatMap fun b => b.2.map fun q => fmul q b.1)
      let v := (List.range d).map fun j => let s := groupSum (us.map fun q => q.1.mul (q.2.getD j fzero)); if value then s else fmul a.sms s
      if value then v else back e.2.2 v
    let write := fun (i : Nat) (rs : List (List FVal)) => if hasOpd t i then x.out2 (x.desc i) sat none rs else ([], Cnt.zero)
    let (p1, c1) := write 8 dq
    let (p2, c2) := write 10 (dkv false)
    let (p3, c3) := write 12 (dkv true)
    .ok { StepOut.none with patches := p1 ++ p2 ++ p3, cnt := (c1.add c2).add c3, widened := wide }

end Sys2Proof.Machine
end

