-- ==== Sys2Proof/Machine/ObjCmds.lean ====
section
/-! DEFINITION. Object commands (R195, R196), table and guarantee registers (R160, R186), and the release of retiring
allocations (R171). -/

namespace Sys2Proof.Machine

/-- Set OBJ_RESULT: DONE with a result (R195). [DEDUCED, log entry 28] -/
def State.objResult (s : State) (h res : Nat) : State := s.setReg (R.OBJ_RESULT h) (w32 (1 + 16 * res))

/-- An OBJ_CMD write of function `f` to hoop `h`'s page: discarded while DONE is 0. [DEDUCED, log entry 27] -/
def State.objCmd (s : State) (f h : Nat) (act : State → State) : State :=
  s.command f (R.OBJ_CMD h) fun s => if bit (s.reg (R.OBJ_RESULT h)) 0 then act s else s

/-- The handle in OBJ_ARG[0]. -/
def State.objHandle (s : State) (h : Nat) : Nat := (s.reg (R.OBJ_ARG h 0)).toNat

/-- The object that CREATE's arguments describe (R196). -/
def State.createObj (s : State) (h : Nat) : Obj :=
  let a := s.reg (R.OBJ_ARG h 0)
  { Obj.dflt with kind := fld a 0 8, tier := fld a 8 3, homed := bit a 16, compressed := bit a 18, loc := fld (s.reg (R.OBJ_ARG h 1)) 0 16,
                  size := (s.reg (R.OBJ_ARG h 2)).toNat + 2 ^ 32 * fld (s.reg (R.OBJ_ARG h 3)) 0 4,
                  tileDflt := if bit a 16 && bit a 17 then zeroTile else ⟨.unwritten, 0⟩ }

/-- Kinds CREATE makes (R161). -/
def kindCreatable (k : Nat) : Bool := decide (k ≤ 2 ∨ (7 ≤ k ∧ k ≤ 11))

/-- BAD_ARG of a CREATE (R195). [DEDUCED, log entry 28] -/
def createBad (o : Obj) : Bool :=
  !kindCreatable o.kind || decide (4 < o.tier) || (decide (o.tier = 4) && !o.homed) || decide (o.size = 0 ∨ 2 ^ 36 < o.size) || !locOk o.tier o.loc

/-- Make the object of a CREATE: its age stamp is the position at DONE (R196). [DEDUCED, log entry 28] -/
def State.createNow (s : State) (h : Nat) (o : Obj) : State :=
  let aux := if o.tier = 4 then (s.t4Fit h o.ntiles).getD 0 else 0
  match s.newObj h { o with age := s.pos, aux := aux, place := if o.homed then s.placeMask o.tier o.loc else 0 } with
  | none => s.objResult h 3
  | some (s', k) => (((s'.setReg (R.OBJ_OUT h 0) (w32 (s'.handleOf k))).setReg (R.OBJ_OUT h 1) (w32 aux)).objResult h 0).startMoves

/-- Room for an allocated object now. -/
def State.createFits (s : State) (h : Nat) (o : Obj) : Bool :=
  s.roomFor h o.tier (locUnit o.tier o.loc) o.bytes && (decide (o.tier ≠ 4) || (s.t4Fit h o.ntiles).isSome)

/-- Can the room of a CREATE be reached: do the evictions that run, with those of the candidates there are, free enough (R196)? -/
def State.reachable (s : State) (h : Nat) (o : Obj) : Bool :=
  let unit := locUnit o.tier o.loc
  decide (o.tier ≠ 4) && decide (o.bytes ≤ s.freeRoom h o.tier unit + (s.askRoom h o.tier unit o.bytes).evicting o.tier unit)

/-- CREATE (R195, R196): the lowest result that applies; with room now the object is made at once, with room after
evictions it is made when they have committed. -/
def doCreate (f h : Nat) (s : State) : State :=
  s.objCmd f h fun s =>
    let o := s.createObj h
    let unit := locUnit o.tier o.loc
    if createBad o then s.objResult h 2
    else if (s.freeIndex h).isNone then s.objResult h 3
    else if !o.homed then (if s.locAbsent o.tier o.loc true then s.objResult h 8 else s.createNow h o)
    else if !s.createFits h o ∧ s.reachable h o = false then s.objResult h 4
    else if s.locAbsent o.tier o.loc true then s.objResult h 8
    else if s.createFits h o then s.createNow h o
    else
      let s := s.setReg (R.OBJ_RESULT h) 0
      ((s.addWait ⟨h, o.tier, unit, o.bytes, s.count, none, none, some o⟩).askRoom h o.tier unit o.bytes).startMoves

/-- An object command on the object its handle names, or BAD_HANDLE. -/
def State.onHandle (s : State) (f h : Nat) (act : Nat → State → State) : State :=
  s.objCmd f h fun s =>
    match s.resolve h (s.objHandle h) with
    | none => s.objResult h 1
    | some k => act k s

/-- DESTROY (R171, R195). -/
def doDestroy (f h : Nat) (s : State) : State :=
  s.onHandle f h fun k s =>
    if (s.obj k).ctxState then s.objResult h 2
    else if s.busy k ∨ s.moving k then s.objResult h 5
    else if 0 < (s.obj k).pins then s.objResult h 6
    else ((s.freeObj k).objResult h 0).startMoves

/-- PIN (R191). -/
def doPin (f h : Nat) (s : State) : State :=
  s.onHandle f h fun k s =>
    let o := s.obj k
    let unit := locUnit o.tier o.loc
    let above := decide (o.pins = 0) && decide (s.guarBytes o.tier (s.reg (R.PIN_LIMIT o.tier h)).toNat < s.pinned h o.tier unit + o.bytes)
    if !o.homed then s.objResult h 2
    else if 57343 ≤ o.pins ∨ (o.tier ≤ 4 ∧ above = true) then s.objResult h 7
    else (s.modObj k fun o => { o with pins := o.pins + 1 }).objResult h 0

/-- UNPIN (R191): with PIN_COUNT at 0 it does nothing. -/
def doUnpin (f h : Nat) (s : State) : State :=
  s.onHandle f h fun k s => ((s.modObj k fun o => { o with pins := o.pins - 1 }).objResult h 0).startMoves

/-- QUERY (R163). -/
def doQuery (f h : Nat) (s : State) : State :=
  s.onHandle f h fun k s =>
    let r := s.queryRecord k
    (s.setRegs (R.OBJ_OUT h 0) ((List.range 8).map fun i => w32 (bytesAt r (4 * i) 4))).objResult h 0

/-- The highest INDEX in use of hoop `h` (R160). -/
def State.highIndex (s : State) (h : Nat) : Nat :=
  s.objs.foldl (fun a e => if oHoop e.1 = h ∧ e.2.used = true then max a (e.1 % 2 ^ 20) else a) 0

/-- OT_ENTRIES_WRITE (R160); a table that takes room of T2 may start evictions (R190). -/
def doOtEntriesWrite (f h : Nat) (v : W32) (s : State) : State :=
  s.reach f (R.OT_ENTRIES h) fun s =>
    let v := applyLimit (.whole 0 1048576) v
    let old := s.otEntries h
    if (0 < s.highIndex h ∧ v.toNat < s.highIndex h + 1) ∨ s.freeRoom h 2 0 < (v.toNat - old) * 64 then s.orReg (R.POOL_STATUS 2) 2
    else (s.setReg (R.OT_ENTRIES h) v).startMoves

/-- GUAR_WRITE (R186): read-only 0 on the T4 page (R199). New candidates may be evicted toward FREE_TARGET (R190). -/
def doGuarWrite (f tier h : Nat) (v : W32) (s : State) : State :=
  s.reach f (R.GUAR tier h) fun s =>
    let sum := (List.range 16).foldl (fun a g => a + if g = h then v.toNat else (s.reg (R.GUAR tier g)).toNat) 0
    if tier = 4 then s
    else if (tier ≤ 1 ∧ 256 < sum) ∨ (2 ≤ tier ∧ s.poolCap tier 0 < sum * 2 ^ 20) then s.orReg (R.POOL_STATUS tier) 1
    else (s.setReg (R.GUAR tier h) v).startMoves

/-- RETIRING_RELEASE: the allocations of an object that no begun command reads any more return to their pools, zeroed where they
held sealed data in T0 or T1 (R171, R531). -/
def doRetiringRelease (h idx : Nat) (s : State) : State :=
  ({ s with retiring := s.retiring.filter fun r => decide (r.obj ≠ oKey h idx) || !r.readers.isEmpty }).startMoves

/-! ## Meanings -/

def execCreate (f h : Fin 16) (s : State) : Out := run (doCreate f h) s
def execDestroy (f h : Fin 16) (s : State) : Out := run (doDestroy f h) s
def execPin (f h : Fin 16) (s : State) : Out := run (doPin f h) s
def execUnpin (f h : Fin 16) (s : State) : Out := run (doUnpin f h) s
def execQuery (f h : Fin 16) (s : State) : Out := run (doQuery f h) s
def execOtEntriesWrite (f h : Fin 16) (v : W32) (s : State) : Out := run (doOtEntriesWrite f h v) s
def execGuarWrite (f : Fin 16) (tier : Fin 5) (h : Fin 16) (v : W32) (s : State) : Out := run (doGuarWrite f tier h v) s
def execRetiringRelease (h : Fin 16) (idx : Fin 1048576) (s : State) : Out := run (doRetiringRelease h idx) s

end Sys2Proof.Machine
end

