-- ==== Sys2Proof/Machine/Contexts.lean ====
section
/-! DEFINITION. Contexts (R231 to R256): opening and closing, residency, restores, victims and spills, starvation, and the
commands of the context manager's pages. -/

namespace Sys2Proof.Machine

/-! ## Opening (R236 to R239) -/

/-- One entry of a shape object (R237). -/
structure ShapeEntry where
  kind : Nat
  attach : Bool
  size : Nat
  handle : Nat
  kv : KvShape
  deriving DecidableEq, Repr

/-- Entry `i` of a shape object. -/
def Obj.shapeEntry (o : Obj) (i : Nat) : ShapeEntry :=
  let a := 32 + 32 * i
  { kind := o.rd a 1, attach := bit (o.byte (a + 1)) 0, size := o.rd (a + 4) 8, handle := o.rd (a + 12) 4,
    kv := ⟨o.rd (a + 12) 2, o.rd (a + 14) 1, o.rd (a + 15) 1, o.rd (a + 16) 1, o.rd (a + 17) 1, bit (o.byte (a + 18)) 0, o.rd (a + 20) 4⟩ }

/-- Does entry `i` break R237 or R321 by itself? An attached object's own conditions are included. [DEDUCED, log entry 111] -/
def State.entryBad (s : State) (h : Nat) (o : Obj) (i : Nat) : Bool :=
  let a := 32 + 32 * i
  let e := o.shapeEntry i
  let reserved := decide (o.rd (a + 1) 1 < 2 ∧ o.rd (a + 2) 2 = 0)
  if e.kind ≠ 3 ∧ e.kind ≠ 4 then true
  else if reserved = false then true
  else if e.attach then
    decide (e.size ≠ 0 ∨ o.rd (a + 16) 8 ≠ 0 ∨ o.rd (a + 24) 8 ≠ 0) ||
    match s.resolve h e.handle with
    | none => true
    | some k =>
      let x := s.obj k
      !decide (x.kind = e.kind ∧ 2 ≤ x.tier ∧ x.tier ≤ 4 ∧ x.pins = 0) || x.ctxState || x.sealed || s.busy k || s.moving k || (decide (e.kind = 3) && !x.kvHeaderOk)
  else if e.kind = 3 then !e.kv.ok || decide (e.size ≠ e.kv.size ∨ 1 < o.rd (a + 18) 1 ∨ o.rd (a + 19) 1 ≠ 0 ∨ o.rd (a + 24) 8 ≠ 0)
  else decide (e.size = 0 ∨ 2 ^ 36 < e.size ∨ o.rd (a + 12) 8 ≠ 0 ∨ o.rd (a + 20) 8 ≠ 0 ∨ o.rd (a + 28) 4 ≠ 0)

/-- The shape object of a CONTEXT_OPEN, where it keeps R237 (an object may be attached once). -/
def State.openShapeOf (s : State) (c : Cmd) : Option (List ShapeEntry) :=
  match s.resolve c.hoop c.openShape with
  | none => none
  | some k =>
    let o := s.obj k
    let n := o.rd 0 1
    let es := (List.range n).map o.shapeEntry
    let handles := (es.filter fun e => e.attach).map (·.handle)
    if o.kind = 8 ∧ 1 ≤ n ∧ n ≤ 4 ∧ (List.range 31).all (fun i => decide (o.rd (1 + i) 1 = 0)) = true ∧ 32 + 32 * n ≤ o.size ∧
        (List.range n).all (fun i => !s.entryBad c.hoop o i) = true ∧ handles.eraseDups.length = handles.length then some es else none

/-- Open contexts of a hoop. -/
def State.openCount (s : State) (h : Nat) : Nat := (s.ctxs.filter fun e => e.2.isOpen && decide (e.2.hoop = h)).length

/-- The lowest index not open, from `n` on, walking the listed contexts in rising order. -/
def firstClosed : Nat → SMap Ctx → Nat
  | n, [] => n
  | n, (k, c) :: r => if k < n then firstClosed n r else if k = n ∧ c.isOpen = true then firstClosed (n + 1) r else n

/-- The index a CONTEXT_OPEN takes. -/
def State.openIndexOf (s : State) (c : Cmd) : Nat := if c.openIndex = 0 then firstClosed 1 s.ctxs else c.openIndex

/-- The reason of R238 that holds first, 0 for none. [DEDUCED, log entries 43, 111] -/
def State.openReason (s : State) (c : Cmd) : Nat :=
  let badKnot := decide (8 < c.openNknot) || (List.range 8).any fun i => if i < c.openNknot then decide (16383 < c.openKnot i) else decide (c.openKnot i ≠ 0)
  if c.openIndex ≠ 0 ∧ (s.ctx c.openIndex).isOpen = true then 1
  else if c.openIndex = 0x3FFFF then 2
  else match s.openShapeOf c with
    | none => 3
    | some es =>
      if badKnot then 4
      else if (s.reg (R.CTX_QUOTA c.hoop)).toNat ≤ s.openCount c.hoop then 5
      else if 0x3FFFF ≤ s.openIndexOf c then 6
      else if s.freeEntries c.hoop < (es.filter fun e => !e.attach).length then 7
      else 0

/-- The state object an entry makes: DECLARED, with what its first allocation will hold: the KV header (R239, R323). -/
def State.stateObjOf (s : State) (c : Cmd) (e : ShapeEntry) : Obj :=
  { Obj.dflt with
    kind := e.kind, ctxState := true, size := e.size, age := s.pos, tier := if c.openCold then s.spillTier c.hoop else 2,
    loc := if c.openCold then s.spillLoc c.hoop else s.t2Loc c.hoop,
    data := if e.kind = 3 then msetList 0 [] 0 (e.kv.header 0) else [] }

/-- Steps 1 to 3 of R239: the descriptor, its state objects, its knots. -/
def State.takeCtx (s : State) (c : Cmd) (es : List ShapeEntry) : State × Nat :=
  let i := s.openIndexOf c
  let r := es.foldl (fun (a : State × List Nat × List Nat) e =>
    if e.attach then
      match a.1.resolve c.hoop e.handle with
      | some k => (a.1.modObj k fun o => { o with ctxState := true }, a.2.1 ++ [k], a.2.2 ++ [k])
      | none => a
    else match a.1.newObj c.hoop (a.1.stateObjOf c e) with
      | some (s', k) => (s', a.2.1 ++ [k], a.2.2)
      | none => a) (s, [], [])
  (r.1.setCtx i { Ctx.dflt with
    isOpen := true, hoop := c.hoop, objs := r.2.1, attached := r.2.2,
    knots := (List.range c.openNknot).map fun j => (c.openKnot j, s.knot c.hoop (c.openKnot j)) }, i)

/-- Steps 4 and 5 of R239: a CONTEXT_OPEN whose context needs no residency, or has it, begins and is complete. A pin that the
limits of R242 do not allow is left out. [DEDUCED, log entry 43] -/
def State.openDone (s : State) (c : Cmd) (i : Nat) : State :=
  let s := s.setCtx i { s.ctx i with opener := none, pins := if c.openPin = true ∧ s.pinAllowed i = true then (s.ctx i).pins + 1 else (s.ctx i).pins }
  let (s', id) := s.fresh
  let hs := (s.ctx i).objs.map s.handleOf
  let det := (hs.zipIdx).foldl (fun d e => setBytes d (4 + 4 * e.2) 4 e.1) (detailOf [(40, 4, i)])
  s'.beginCmd { InFlight.of id c s.pos true with ctxs := [i], detail := det, code := if (s.cq c.hoop c.cq).headDelayed then 0x301 else 0 }

/-- CONTEXT_OPEN at the head of a queue (R236 to R239). While it waits for residency it has its descriptor already. -/
def doContextOpen (h q : Nat) (s : State) : State :=
  match s.headOp h q 8 with
  | none => s
  | some c =>
    match s.ctxs.find? fun e => decide (e.2.opener = some (h * 64 + q)) with
    | some e => if s.resident e.1 then (s.openDone c e.1).settled else s
    | none =>
      let r := s.openReason c
      if r ≠ 0 then (s.endCmd c 0x202 (detailOf [(48, 1, r)])).settled
      else
        let (s, i) := s.takeCtx c ((s.openShapeOf c).getD [])
        if c.openCold = true ∧ c.openPin = false then (s.openDone c i).settled
        else (s.setCtx i { s.ctx i with opener := some (h * 64 + q) }).settled

/-- CONTEXT_CLOSE begins at once (R240); it commits when nothing it waits for is left. -/
def doContextClose (h q : Nat) (s : State) : State :=
  match s.headOp h q 9 with
  | none => s
  | some c =>
    if s.ctxGone c then (s.endGone c).settled
    else
      let (s, id) := s.fresh
      let s := s.beginCmd { InFlight.of id c s.pos false with code := if (s.cq h q).headDelayed then 0x301 else 0 }
      (s.setCtx c.context { s.ctx c.context with closing := true }).settled

/-! ## Making room (R243 to R248) -/

/-- State objects not homed in T2. -/
def State.lacking (s : State) (i : Nat) : List Nat := (s.ctx i).objs.filter fun k => !(s.obj k).homed || decide ((s.obj k).tier ≠ 2)

/-- Class A of R245 (1), class B against a context that became runnable at `since` (2), or neither (0), with the conditions on
every victim but the one that names what is taken. [DEDUCED, log entry 111] -/
def State.victimClass (s : State) (h since i : Nat) : Nat :=
  let c := s.ctx i
  let st := s.ctxStatus i
  if !c.isOpen ∨ 0 < c.pins ∨ s.isRestoring i ∨ c.spilling ∨ c.closing ∨ c.opener.isSome ∨
      (c.hoop ≠ h ∧ s.usage c.hoop 2 0 ≤ s.guarBytes 2 (s.reg (R.GUAR 2 c.hoop)).toNat) then 0
  else if st = 1 ∨ st = 4 ∨ st = 5 then 1
  else if st = 2 ∧ s.resident i = true ∧ (s.force R.CTX_QUANTUM).toNat ≤ s.count - c.residentSince ∧ since < c.runnableSince.getD 0 then 2
  else 0

/-- The context with the lowest LAST_RUN, then hoop, then index. -/
def State.oldestCtx (s : State) (l : List Nat) : Option Nat :=
  l.foldl (fun best i => match best with
    | none => some i
    | some b =>
      let x := s.ctx i
      let y := s.ctx b
      if x.lastRun < y.lastRun ∨ (x.lastRun = y.lastRun ∧ (x.hoop < y.hoop ∨ (x.hoop = y.hoop ∧ i < b))) then some i else some b) none

/-- The first victim among `l` by class and order (R245). -/
def State.pickCtxVictim (s : State) (h since : Nat) (classB : Bool) (l : List Nat) : Option Nat :=
  match s.oldestCtx (l.filter fun i => decide (s.victimClass h since i = 1)) with
  | some i => some i
  | none => if classB then s.oldestCtx (l.filter fun i => decide (s.victimClass h since i = 2)) else none

/-- The descriptor that gives up its entry to a restore of hoop `h` (R244): none where no entry can be taken. -/
def State.entryVictim (s : State) (h since : Nat) (classB : Bool) : Option Nat :=
  let l := (s.ctxs.filter fun e => e.2.inActive && (decide (e.2.hoop = h) || decide ((s.reg (R.ACT_GUAR e.2.hoop)).toNat < s.activeOf e.2.hoop))).map (·.1)
  match s.oldestCtx (l.filter fun i => !s.resident i && !s.isRestoring i && decide (s.ctxStatus i ≠ 2)) with
  | some i => some i
  | none => s.pickCtxVictim h since classB l

/-- Can an entry be had for context `i`? -/
def State.entryFor (s : State) (i : Nat) (classB : Bool) : Bool :=
  (s.ctx i).inActive || decide (s.activeUsed < 4096) || (s.entryVictim (s.ctx i).hoop ((s.ctx i).runnableSince.getD s.count) classB).isSome

/-- Take an entry for context `i`: a free one, or a victim's, whose descriptor is written back (R244). -/
def State.takeEntry (s : State) (i : Nat) (classB : Bool) : State :=
  let c := s.ctx i
  if c.inActive then s
  else
    if s.activeUsed < 4096 then s.setCtx i { c with inActive := true } else
      match s.entryVictim c.hoop (c.runnableSince.getD s.count) classB with
      | some v =>
        let s := (s.setCtx v { s.ctx v with inActive := false }).addReg (R.DESC_SWAP_COUNT (s.ctx v).hoop) 1
        s.setCtx i { s.ctx i with inActive := true }
      | none => s

/-- Objects of a context homed in T2. -/
def State.inT2 (s : State) (i : Nat) : List Nat := (s.ctx i).objs.filter fun k => (s.obj k).homed && decide ((s.obj k).tier = 2)

/-- The T3 allocations that the spill of a context makes. -/
def State.spillT3 (s : State) (i : Nat) : List (Nat × Nat × Nat) := (s.inT2 i).map fun k => (k, s.spillLoc (s.ctx i).hoop, (s.obj k).ntiles)

/-- Does the spill tier admit every object of the context (R246): the budget one after the other, or runs of the host pool? -/
def State.spillAdmitted (s : State) (i : Nat) : Bool :=
  let h := (s.ctx i).hoop
  if s.spillTier h = 3 then (s.t3Refusals (s.spillT3 i)).isEmpty
  else s.t4FitAll h ((s.inT2 i).map fun k => (s.obj k).ntiles) && (s.inT2 i).all fun k => !(s.obj k).sealed && (s.obj k).allValid

/-- Count a refused spill (R246). -/
def State.refuseSpill (s : State) (i : Nat) : State :=
  let h := (s.ctx i).hoop
  let s := (s.addReg (R.SPILL_REFUSED h) 1).addReg (R.TP_BUDGET_REFUSALS 2) 1
  if s.spillTier h = 3 then (s.t3Refusals (s.spillT3 i)).foldl (fun (s : State) e => s.countRefusal e.1.2.1 e.1.2.2 (s.claimsOf e.2)) s else s

/-- Begin the spill of a context (R246): one move on 4 shuttles for each of its objects in T2, paid by `payer`, and for the restore of `ctx`. -/
def State.spillCtx (s : State) (i payer : Nat) (ctx : Option Nat) : State :=
  let h := (s.ctx i).hoop
  let s' := s.setCtx i { s.ctx i with spilling := true }
  let s' := (s.inT2 i).foldl (fun (s : State) k =>
    let (s, id) := s.fresh
    { s with moves := s.moves ++ [{ Move.dflt with id := id, kind := .spill i, hoop := h, obj := k, tier := s.spillTier h, loc := s.spillLoc h, nshuttle := 4, payer := payer, forCtx := ctx }] }) s'
  ((s'.moves.filter fun m => decide (m.kind = .spill i)).map (·.id)).foldl (fun (s : State) id => s.tryStart id) s'

/-- Evict victims until room for context `i` is covered (R244 to R246): the refused ones are passed over, and answered. -/
def State.spillFor (s : State) (i : Nat) (classB : Bool) : Nat → List Nat → State × List Nat
  | 0, _ => (s, [])
  | n + 1, l =>
    let c := s.ctx i
    if s.unmet i ≤ s.t2Avail i then (s, [])
    else match s.pickCtxVictim c.hoop (c.runnableSince.getD s.count) classB (l.filter fun v => decide (v ≠ i) && !(s.inT2 v).isEmpty) with
      | none => (s, [])
      | some v =>
        let l' := l.filter fun x => decide (x ≠ v)
        if s.spillAdmitted v then (s.spillCtx v c.hoop (some i)).spillFor i classB n l'
        else let r := s.spillFor i classB n l'; (r.1, v :: r.2)

/-- Count the spills that the restore of context `i` was refused (R246, R248). -/
def State.refuseSpills (s : State) (i : Nat) (l : List Nat) : State := l.foldl (fun (s : State) v => (s.refuseSpill v).refusedFor i) s

/-- Is the room of context `i` covered, counting ordinary candidates where they may be taken (R244, R256)? [DEDUCED, log entry 44] -/
def State.covered (s : State) (i : Nat) (ordinary : Bool) : Bool :=
  decide (s.unmet i ≤ s.t2Avail i + (if ordinary then s.candidateBytes 2 0 else 0))

/-- Begin the restore of context `i` (R243): its moves start, or wait for the room that is on its way. A T2_MASK that names only absent stacks takes
none (R9). -/
def State.restoreCtx (s : State) (i : Nat) : State :=
  let h := (s.ctx i).hoop
  let s' := s.setCtx i { s.ctx i with restoring := true, fresh := [], copying := false }
  ((s.lacking i).foldl (fun s k =>
    let (s, id) := s.fresh
    ({ s with moves := s.moves ++ [{ Move.dflt with id := id, kind := .restore i, hoop := h, obj := k, tier := 2, loc := s.t2Loc h, nshuttle := 4, payer := h }] }).tryStart id) s').settled

/-- Try to restore context `i` (R243): its entry, then its room, then its moves. Answers whether the restore has begun; otherwise the cause that holds is
recorded in the descriptor. [DEDUCED, log entry 44; DESIGN CHOICE, log entry 133] -/
def State.tryRestore (s : State) (i : Nat) (classB : Bool) : State × Bool :=
  if s.maskStacks 2 (s.t2Loc (s.ctx i).hoop) = [] then (s.noteCauses i, false) else if !s.entryFor i classB then (s.noteCauses i, false)
  else
    let s := s.takeEntry i classB
    let r := s.spillFor i classB (s.ctxs.length + 1) (s.ctxs.map (·.1))
    let s := r.1.refuseSpills i r.2
    if s.covered i classB then (s.restoreCtx i, true) else (s.noteCauses i, false)

/-- A restore that a page command asks for (R256): free room and class A only, and nothing begins unless it is covered. [DEDUCED, log entry 44] -/
def State.tryAsked (s : State) (i : Nat) : State × Bool :=
  let t := s.takeEntry i false
  let r := t.spillFor i false (t.ctxs.length + 1) (t.ctxs.map (·.1))
  if s.maskStacks 2 (s.t2Loc (s.ctx i).hoop) ≠ [] ∧ s.entryFor i false = true ∧ r.1.covered i false = true then ((r.1.refuseSpills i r.2).restoreCtx i, true)
  else (s.refuseSpills i r.2, false)

/-- A restore that has begun, one of whose spills was refused when its allocation was made, takes the next victims (R246). [DEDUCED, log entry 44] -/
def State.nextVictims (s : State) (i : Nat) : State :=
  if (s.ctx i).restoring = true ∧ s.resident i = false then
    let r := s.spillFor i (decide ((s.ctx i).ask = 0)) (s.ctxs.length + 1) (s.ctxs.map (·.1))
    r.1.refuseSpills i r.2
  else s

/-- Restores of a hoop that run. -/
def State.restoresOf (s : State) (h : Nat) : Nat := (s.ctxs.filter fun e => e.2.restoring && decide (e.2.hoop = h)).length

/-- Insert a context in ascending RUNNABLE_SINCE, then index. -/
def State.insertWaiting (s : State) (i : Nat) : List Nat → List Nat
  | [] => [i]
  | x :: r => if (s.ctx i).runnableSince.getD s.count < (s.ctx x).runnableSince.getD s.count then i :: x :: r else x :: s.insertWaiting i r

/-- The hoop's runnable, non-resident contexts in the order of R243. One that is being spilled waits for the spill's commit (R247). -/
def State.waitingCtxs (s : State) (h : Nat) : List Nat :=
  ((s.ctxs.filter fun e => decide (e.2.hoop = h) && s.wanting e.1 && !s.resident e.1 && !e.2.restoring && !e.2.spilling).map (·.1)).foldl (fun l i => s.insertWaiting i l) []

/-- A CTX_CMD whose restore or spill a spill in progress or a sleep has put off goes on (R247, R252, R256). [DEDUCED, log entry 43] -/
def State.resumeAsk (s : State) (i : Nat) : State :=
  let c := s.ctx i
  if c.isOpen = false ∨ c.spilling = true ∨ c.restoring = true ∨ s.pmFrozen = true then s
  else if c.ask = 4 then (s.spillCtx i c.hoop none).settled
  else if c.ask = 1 ∨ c.ask = 2 then
    let r := s.tryAsked i
    if r.2 then r.1 else (r.1.setCtx i { r.1.ctx i with ask := 0 }).setReg (R.CTX_RESULT c.hoop) (w32 (1 + 16 * 2))
  else s

/-- RESTORE_START: the context manager starts the hoop's next restore: the first in the order of R243 that need not wait (R243 to R246).
[DEDUCED, log entry 44] -/
def doRestoreStart (h : Nat) (s : State) : State :=
  if s.pmFrozen then s else
  let s := ((s.ctxs.filter fun e => decide (e.2.hoop = h)).map (·.1)).foldl (fun (s : State) i => s.nextVictims i) s
  let s := ((s.ctxs.filter fun e => decide (e.2.hoop = h)).map (·.1)).foldl (fun (s : State) i => s.resumeAsk i) s
  if (s.force R.RESTORE_PARALLEL).toNat ≤ s.restoresOf h then s
  else ((s.waitingCtxs h).foldl (fun (x : State × Bool) i => if x.2 then x else x.1.tryRestore i true) (s, false)).1

/-- CTX_QUANTUM_ELAPSED: a resident RUNNABLE context has become a class B victim; the restores that wait are tried again (R245). -/
def doCtxQuantumElapsed (i : Nat) (s : State) : State :=
  if s.ctxStatus i = 2 ∧ s.resident i = true ∧ (s.force R.CTX_QUANTUM).toNat ≤ s.count - (s.ctx i).residentSince then
    (List.range 16).foldl (fun s h => doRestoreStart h s) s
  else s

/-- Causes of R248 that hold now for context `i`, with those recorded during its wait. -/
def State.causesOf (s : State) (i : Nat) : Nat := (BitVec.ofNat 8 (s.ctx i).causes ||| BitVec.ofNat 8 (s.stuckBits i)).toNat

/-- RESIDENCY_STARVED: a runnable episode of a non-resident context has lasted STARVE_BOUND (R250). -/
def doResidencyStarved (i : Nat) (s : State) : State :=
  let c := s.ctx i
  let bound := (s.reg (R.STARVE_BOUND c.hoop)).toNat
  match c.runnableSince with
  | none => s
  | some t =>
    if s.wanting i = false ∨ s.resident i = true ∨ c.starved = true ∨ s.count < t + bound then s
    else
      let ahead := (s.ctxs.filter fun e => decide (e.1 ≠ i ∧ e.2.hoop = c.hoop) && s.wanting e.1 && !s.resident e.1 && decide (e.2.runnableSince.getD s.count ≤ t)).length
      let free := s.freeRoom c.hoop 2 0
      let r : Rec := { Rec.dflt with
        hoop := c.hoop, eq := fld (s.reg (R.STARVE_EQ c.hoop)) 0 4, ty := 0x30, stamp := s.pos, source := 0xF0 + c.hoop, context := i, arrived := s.now,
        payload := payAt 24 8 t (payAt 32 4 bound (payAt 36 1 (s.causesOf i) (payAt 40 4 (ceilDiv (s.unmet i - s.keptFor i - free) 1024) (payAt 44 4 (free / 1024)
          (payAt 48 4 (s.pinnedCtxs c.hoop) (payAt 52 4 (ceilDiv (s.pinned c.hoop 2 0) 1024) (payAt 56 4 c.refused (payAt 60 4 ahead 0)))))))) }
      ((s.setCtx i { c with starved := true }).addReg (R.STARVED_COUNT c.hoop) 1).post r

/-! ## The context-manager pages (R251 to R256) -/

/-- Set CTX_RESULT: DONE with a result (R255). -/
def State.ctxResult (s : State) (h res : Nat) : State := s.setReg (R.CTX_RESULT h) (w32 (1 + 16 * res))

/-- A CTX_CMD write of function `f` to hoop `h`'s page: discarded while DONE is 0. [DEDUCED, log entry 27] -/
def State.ctxCmd (s : State) (f h : Nat) (act : State → State) : State :=
  s.command f (R.CTX_CMD h) fun s => if bit (s.reg (R.CTX_RESULT h)) 0 then act s else s

/-- A CTX_CMD on the context CTX_ARG[0] names, or NOT_OPEN. -/
def State.onCtx (s : State) (f h : Nat) (act : Nat → State → State) : State :=
  s.ctxCmd f h fun s =>
    let i := fld (s.reg (R.CTX_ARG0 h)) 0 18
    if s.ctxOpen h i then act i s else s.ctxResult h 1

/-- Descriptor bytes 0 to 127 (R232). -/
def State.ctxDesc (s : State) (i : Nat) : BitVec 1024 :=
  let c := s.ctx i
  let flags := b2n (s.resident i) + 2 * b2n c.inActive + 4 * b2n (s.isRestoring i) + 8 * b2n c.spilling + 16 * b2n c.starved + 32 * b2n (c.objs.any fun k => !(s.obj k).homed)
  let d := [(0, 1, s.ctxStatus i + 16 * c.hoop), (1, 1, flags), (2, 2, c.pins), (4, 4, i), (8, 8, c.lastRun), (16, 8, if s.ctxStatus i = 2 then c.runnableSince.getD 0 else 0), (24, 8, c.opened), (32, 4, c.runCount),
    (36, 1, c.objs.length), (37, 1, c.knots.length), (56, 4, ceilDiv (c.objs.foldl (fun a k => a + (s.obj k).size) 0) 1024)] ++
    (c.objs.zipIdx.map fun (e : Nat × Nat) => (40 + 4 * e.2, 4, s.handleOf e.1)) ++
    (c.knots.zipIdx.flatMap fun (e : (Nat × W32) × Nat) => [(64 + 4 * e.2, 4, e.1.1), (96 + 4 * e.2, 4, e.1.2.toNat)])
  d.foldl (fun v (e : Nat × Nat × Nat) => setBytes v e.1 e.2.1 e.2.2) 0

/-- CTX_CMD QUERY. -/
def doCtxQuery (f h : Nat) (s : State) : State :=
  s.onCtx f h fun i s =>
    let d := s.ctxDesc i
    (s.setRegs (R.CTX_OUT h 0) ((List.range 32).map fun j => w32 (bytesAt d (4 * j) 4))).ctxResult h 0

/-- A restore asked for by a page command (R242, R256): it waits for no cause of R248, but for a spill of the context in progress (R247).
[DEDUCED, log entry 43] -/
def State.askRestore (s : State) (h i ask : Nat) : State :=
  let c := s.ctx i
  let asked := fun (s : State) => (s.setCtx i { s.ctx i with ask := ask }).setReg (R.CTX_RESULT h) 0
  if c.spilling ∨ c.restoring ∨ s.pmFrozen then asked s
  else
    let r := (asked s).tryAsked i
    if r.2 then r.1 else (r.1.setCtx i { r.1.ctx i with ask := 0 }).ctxResult h 2

/-- CTX_CMD PIN (R242). [DEDUCED, log entry 43] -/
def doCtxPin (f h : Nat) (s : State) : State :=
  s.onCtx f h fun i s =>
    if !s.pinAllowed i then s.ctxResult h 3
    else if s.resident i then (s.setCtx i { s.ctx i with pins := (s.ctx i).pins + 1 }).ctxResult h 0
    else s.askRestore h i 2

/-- CTX_CMD UNPIN (R242): at PIN_COUNT 0 it does nothing. -/
def doCtxUnpin (f h : Nat) (s : State) : State :=
  s.onCtx f h fun i s => (s.setCtx i { s.ctx i with pins := (s.ctx i).pins - 1 }).ctxResult h 0

/-- CTX_CMD RESTORE (R256). -/
def doCtxRestore (f h : Nat) (s : State) : State :=
  s.onCtx f h fun i s => if s.resident i then s.ctxResult h 0 else s.askRestore h i 1

/-- CTX_CMD PARK (R256): BUSY before PINNED before BUDGET. [DEDUCED, log entry 43] -/
def doPark (f h : Nat) (s : State) : State :=
  s.onCtx f h fun i s =>
    let c := s.ctx i
    if s.ctxStatus i = 3 ∨ s.ctxStatus i = 6 ∨ s.isRestoring i = true ∨ c.spilling = true then s.ctxResult h 4
    else if 0 < c.pins then s.ctxResult h 6
    else if (s.inT2 i).isEmpty then (s.setCtx i { c with inActive := false }).ctxResult h 0
    else if !s.spillAdmitted i then (s.refuseSpill i).ctxResult h 5
    else if s.pmFrozen then (s.setCtx i { c with ask := 4 }).setReg (R.CTX_RESULT h) 0
    else (((s.setCtx i { c with ask := 4 }).spillCtx i h none).setReg (R.CTX_RESULT h) 0).settled

/-- CTX_CMD LIST. -/
def doCtxList (f h : Nat) (s : State) : State :=
  s.ctxCmd f h fun s =>
    let from_ := fld (s.reg (R.CTX_ARG1 h)) 0 18
    let n := match s.ctxs.find? fun e => e.2.isOpen && decide (e.2.hoop = h ∧ from_ ≤ e.1) with | some e => e.1 | none => 0
    (s.setReg (R.CTX_OUT h 0) (w32 n)).ctxResult h 0

/-- ACT_GUAR_WRITE (R251). -/
def doActGuarWrite (f h : Nat) (v : W32) (s : State) : State :=
  s.reach f (R.ACT_GUAR h) fun s =>
    let sum := (List.range 16).foldl (fun a g => a + if g = h then v.toNat else (s.reg (R.ACT_GUAR g)).toNat) 0
    if 4096 < sum then s.orReg R.CM_FLAGS 1 else s.setReg (R.ACT_GUAR h) v

/-! ## Meanings -/

def execContextOpen (h : Fin 16) (q : Fin 64) (s : State) : Out := run (doContextOpen h q) s
def execContextClose (h : Fin 16) (q : Fin 64) (s : State) : Out := run (doContextClose h q) s
def execRestoreStart (h : Fin 16) (s : State) : Out := runIn .compute (doRestoreStart h) s
def execResidencyStarved (i : Fin 262144) (s : State) : Out := runIn .compute (doResidencyStarved i) s
def execCtxQuery (f h : Fin 16) (s : State) : Out := run (doCtxQuery f h) s
def execCtxPin (f h : Fin 16) (s : State) : Out := run (doCtxPin f h) s
def execCtxUnpin (f h : Fin 16) (s : State) : Out := run (doCtxUnpin f h) s
def execCtxRestore (f h : Fin 16) (s : State) : Out := run (doCtxRestore f h) s
def execPark (f h : Fin 16) (s : State) : Out := run (doPark f h) s
def execCtxList (f h : Fin 16) (s : State) : Out := run (doCtxList f h) s
def execActGuarWrite (f h : Fin 16) (v : W32) (s : State) : Out := run (doActGuarWrite f h v) s
def execCtxQuantumElapsed (i : Fin 262144) (s : State) : Out := runIn .compute (doCtxQuantumElapsed i) s

end Sys2Proof.Machine
end

