-- ==== Sys2Proof/Machine/Moves.lean ====
section
/-! DEFINITION. MOVE (R178 to R184, R369, R439), the ARM_ONLY form of RUN_PATTERN (R132), and the ends of shuttle and codec
ranges (R180, R386). -/

namespace Sys2Proof.Machine

/-- The hoop that pays for a move (R187, R246, R411). -/
def Move.payHoop (m : Move) : Nat := if m.kind.isEviction then m.payer else m.hoop

/-- Range `i` of a move crosses the regulators and stacks of its source and target tiers (R202, R411): `rd` bytes read, `wr` bytes
written. T4 is read with Relaxed Ordering and written without (R117). [DEDUCED, log entry 46] -/
def State.drawMove (s : State) (m : Move) (i rd wr : Nat) : State :=
  let o := s.obj m.obj
  let first := if m.codec = 0 then (match m.ranges[i]? with | some r => r.first | none => 0) else 0
  let s := (s.transfer m.payHoop false o.tier o.loc [(first, rd)] (.range m.id i)).transfer m.payHoop true m.tier m.loc [(first, wr)] (.range m.id i)
  let s := { s with moves := s.moves.map fun (x : Move) => if x.id = m.id then { x with ranges := x.ranges.modify i fun r => { r with drawn := true } } else x }
  if m.tier = 4 then s.hostWrite m.obj m.aux wr else s.hostRead m.obj rd

/-- MOVE at the head of a queue. It begins at once; `host` is what host memory holds where the object is homed in T4 (R166). -/
def doMove (h q : Nat) (host : List Byte) (s : State) : State :=
  match s.headOp h q 2 with
  | none => s
  | some c =>
    let code := s.moveCheck c
    if s.ctxGone c then (s.endGone c).settled
    else if code ≠ 0 then (s.endCmd c code (moveCheckDetail c code)).settled
    else match s.resolve h c.mvObject with
    | none => s
    | some k =>
      let o := s.obj k
      let remote := decide (o.homed = true ∧ (c.mvTier = 5 ∨ o.tier = 5))
      let (s1, id) := s.fresh
      let f := { InFlight.of id c s.pos false with code := if (s.cq h q).headDelayed then 0x301 else 0 }
      let mv : Move := { Move.dflt with
        id := id, kind := .command id, hoop := h, obj := k, tier := c.mvTier, loc := c.mvLocation, codec := c.mvCodec, param := c.mvParam, nshuttle := c.mvShuttles,
        payer := h, hostBytes := if o.tier = 4 then msetList 0 [] 0 host else [] }
      -- what waits for another move of the object is local or remote by the home it then has (R183)
      if remote = false ∨ s.moving k = true then ({ s1.beginCmd f with moves := s1.moves ++ [mv] }).startMoves.settled
      else if c.mvTier = 5 ∧ o.tier = 5 ∧ c.mvLocation = o.loc ∧ c.mvCodec = 0 then (s1.beginCmd { f with done := true, detail := moveDetail 0 5 }).settled
      else match s.remoteError mv with
        | some e => (s.endCmd c e.1 e.2).settled
        | none => ({ s1.beginCmd f with remotes := s1.remotes ++ [s.remoteMove id q c.pos mv] }).startMoves.settled

/-- RUN_PATTERN with ARM_ONLY (R132): the prefetch moves of its pattern, at its begin stamp. -/
def doRunPatternArmOnly (h q : Nat) (s : State) : State :=
  match s.headOp h q 1 with
  | none => s
  | some c =>
    if !c.armOnly then s
    else if s.ctxGone c then (s.endGone c).settled
    else match s.resolve h c.pattern with
    | none => (s.endCmd c 0x202 0).settled
    | some k =>
      if s.earlierWrites c k then s
      -- its pattern lies where a command that runs on no core reads (R165)
      else if (s.obj k).kind ≠ 7 ∨ (s.obj k).homed = false ∨ (s.obj k).tier = 0 ∨ 4 ≤ (s.obj k).tier ∨ c.nslot ≠ (s.obj k).pNslot ∨ locOk c.armTier (if c.armTier ≤ 1 then c.armTarget else 0) = false then (s.endCmd c 0x202 0).settled
      else if c.armTier ≤ 1 ∧ s.locAbsent c.armTier c.armTarget false = true then (s.endCmd c 0x1 0).settled
      else
        let (s1, id) := s.fresh
        let s2 := s1.beginCmd { InFlight.of id c s.pos false with code := if (s.cq h q).headDelayed then 0x301 else 0 }
        (s2.prefetch (.armOnly id) h c.pattern c.armTier (if c.armTier ≤ 1 then c.armTarget else 0) c.armDepth s.pos).1.settled

/-- Every range of a move is done: a MOVE command is complete and commits in its turn; any other move commits (R180). -/
def State.moveDone (s : State) (m : Move) : State :=
  match m.kind with
  | .command id => { s with flights := s.flights.map fun (f : InFlight) => if f.id = id then { f with done := true } else f }
  | _ => (s.moveCommit m).1.startMoves

/-- A move with range `i` done, and with what the host supplied of an object in T4 (`old` is the object's content). -/
def Move.endRange (m : Move) (i : Nat) (host : List Byte) (old : SMap Byte) : Move :=
  let first := match m.ranges[i]? with | some r => r.first | none => 0
  { m with ranges := m.ranges.modify i (fun r => { r with done := true }),
           hostBytes := if host = [] then m.hostBytes else msetList 0 (if m.hostBytes = [] then old else m.hostBytes) (4096 * first) host }

/-- Mark range `i` of move `id` done, and give the freed entry out. -/
def State.rangeDone (s : State) (id i : Nat) (host : List Byte) : State :=
  let s1 : State := { s with moves := s.moves.map fun (m : Move) => if m.id = id then m.endRange i host (s.obj m.obj).data else m }
  let s2 := (s1.moves.map (·.id)).foldl (fun (t : State) j => t.giveRanges j 32) s1
  match s2.moves.find? fun m => decide (m.id = id) with
  | some m => if m.ranges.all (fun r => r.done) then (s2.moveDone m).settled else s2
  | none => s2

/-- The oldest move with an unfinished range that `p` selects and no request holds back (R412), and the range. -/
def State.rangeOf (s : State) (p : Range → Bool) : Option (Move × Nat) :=
  s.moves.findSome? fun m => (m.ranges.zipIdx.find? fun e => !e.1.done && p e.1 && !s.drawHeld (.range m.id e.2)).map fun e => (m, e.2)

/-- Has range `i` of the move made its requests (R412)? -/
def Move.drew (m : Move) (i : Nat) : Bool := match m.ranges[i]? with | some r => r.drawn | none => false

/-- SHUTTLE_RANGE_DONE: shuttle `u` finishes its oldest range that copies (R180); one whose requests find no tokens is finished by a later one
(R412). `cyc` fabric cycles passed. [DEDUCED, log entry 46] -/
def doShuttleRangeDone (u cyc : Nat) (host : List Byte) (s : State) : State :=
  match s.rangeOf fun r => decide (r.shuttle = some u) && r.codec.isNone with
  | none => s
  | some (m, i) =>
    let bytes := 4096 * ((m.ranges[i]?).map (·.count) |>.getD 0)
    let t4 := decide ((s.obj m.obj).tier = 4)
    let s := if m.drew i then s else s.drawMove m i bytes bytes
    if s.drawHeld (.range m.id i) then s
    else
      let s := ((s.addReg (R.SH_RANGES u) 1).addPieces (R.SH_MIB u) (2 ^ 20) bytes).addReg (R.SH_BUSY_CYCLES u) cyc
      s.rangeDone m.id i (if t4 then host else [])

/-- What a codec did in one range: blocks by kind, malformed, over, under, and the bytes read and written. -/
structure CodecWork where
  coded : Nat
  raw : Nat
  zero : Nat
  malformed : Nat
  over_ : Nat
  under_ : Nat
  inBytes : Nat
  outBytes : Nat
  deriving DecidableEq, Repr

/-- The work of a range of blocks (R384, R386). -/
def State.codecWork (s : State) (m : Move) (first count : Nat) : CodecWork :=
  let o := s.obj m.obj
  if m.codec = 1 then
    match pcParse (s.moveSource m) o.size with
    | .error _ => ⟨0, 0, 0, 0, 0, 0, 0, 0⟩
    | .ok st => (List.range count).foldl (fun (w : CodecWork) j =>
        let b := first + j
        let x := pcDecodeBlock (s.moveSource m) o.size st b
        let a := rdAt (s.moveSource m) (8192 + 8 * b) 5
        let good := !x.malformed
        { coded := w.coded + b2n (good && decide (x.kind = 0)), raw := w.raw + b2n (good && decide (x.kind = 1)), zero := w.zero + b2n (good && decide (x.kind = 2)),
          malformed := w.malformed + b2n x.malformed, over_ := w.over_ + b2n x.sizeOver, under_ := w.under_ + b2n x.sizeUnder,
          inBytes := w.inBytes + (if good then rdAt (s.moveSource m) (a + 8) 4 else 0), outBytes := w.outBytes + x.bytes.length }) ⟨0, 0, 0, 0, 0, 0, 0, 0⟩
  else
    match s.moveLayout m with
    | none => ⟨0, 0, 0, 0, 0, 0, 0, 0⟩
    | some l =>
      let bs := ((pcEncode (s.moveSource m) l (s.encNsub l) (m.ranges.map fun r => (r.first, r.count))).2.2.drop first).take count
      let decl := (((pcRegions l.regions 0 0 0).flatMap fun r => (List.range r.nblocks).map fun i => (r.declared (r.fblock + i)).2).drop first).take count
      { coded := (bs.filter fun b => decide (b.1 = 0)).length, raw := (bs.filter fun b => decide (b.1 = 1)).length, zero := (bs.filter fun b => decide (b.1 = 2)).length,
        -- the source is read in two passes (R383, R384)
        malformed := 0, over_ := 0, under_ := 0, inBytes := 2 * decl.foldl (· + ·) 0, outBytes := bs.foldl (fun a b => a + b.2) 0 }

/-- CODEC_RANGE_DONE: codec `u` finishes its oldest range of blocks (R370, R384, R386, R388); one whose requests find no tokens is finished by a
later one (R412). `cyc` and `stall` fabric cycles passed. [DEDUCED, log entry 46] -/
def doCodecRangeDone (u cyc stall : Nat) (host : List Byte) (s : State) : State :=
  match s.rangeOf fun r => decide (r.codec = some u) with
  | none => s
  | some (m, i) =>
    let r := (m.ranges[i]?).getD ⟨none, none, 0, 0, true, true⟩
    let s := if (s.obj m.obj).tier = 4 ∧ host ≠ [] then
      { s with moves := s.moves.map fun (x : Move) => if x.id = m.id then { x with hostBytes := msetList 0 [] 0 host } else x } else s
    let m := (s.moves.find? fun x => decide (x.id = m.id)).getD m
    let w := s.codecWork m r.first r.count
    let s := if r.drawn then s else s.drawMove m i w.inBytes w.outBytes
    if s.drawHeld (.range m.id i) then s
    else
    let s := (s.addPieces (R.PC_IN_MIB u) (2 ^ 20) w.inBytes).addPieces (R.PC_OUT_MIB u) (2 ^ 20) w.outBytes
    let s := ((s.addReg (R.PC_BLOCKS_CODED u) w.coded).addReg (R.PC_BLOCKS_RAW u) w.raw).addReg (R.PC_BLOCKS_ZERO u) w.zero
    let s := ((s.addReg (R.PC_SIZE_OVER u) w.over_).addReg (R.PC_SIZE_UNDER u) w.under_).addReg (R.PC_MALFORMED u) w.malformed
    let s := (s.addReg (R.PC_BUSY_CYCLES u) cyc).addReg (R.PC_OUT_STALL_CYCLES u) stall
    let s := (s.setReg (R.PC_LAST_BLOCK u) (w32 (r.first + r.count - 1))).setReg (R.PC_LAST_OBJECT u) (w32 (s.handleOf m.obj))
    let s := match r.shuttle with
      | some v => ((s.addReg (R.SH_RANGES v) 1).addPieces (R.SH_MIB v) (2 ^ 20) w.outBytes).addReg (R.SH_BUSY_CYCLES v) cyc
      | none => s
    s.rangeDone m.id i []

/-! ## Meanings -/

def execMove (h : Fin 16) (q : Fin 64) (host : List Byte) (s : State) : Out := run (doMove h q host) s
def execRunPatternArmOnly (h : Fin 16) (q : Fin 64) (s : State) : Out := run (doRunPatternArmOnly h q) s
def execShuttleRangeDone (u : Fin 32) (cyc : W32) (host : List Byte) (s : State) : Out := run (doShuttleRangeDone u cyc.toNat host) s
def execCodecRangeDone (u : Fin 4) (cyc stall : W32) (host : List Byte) (s : State) : Out := run (doCodecRangeDone u cyc.toNat stall.toNat host) s

end Sys2Proof.Machine
end

