-- ==== Sys2Proof/Machine/Recurrent.lean ====
section
/-! DEFINITION. Recurrence steps (R347 to R363): state slots, resets, the linear recurrence in serial, chunked and scan mode,
and the gated units. -/

namespace Sys2Proof.Machine

/-! ## Slots (R349, R350) -/

/-- Where a recurrence step keeps its operands, by operation: MAP, CTX_SLOT, STATE, SOFF, H0, HN. -/
structure RecArgs where
  map : Nat
  slot : Nat
  state : Nat
  soff : Nat
  h0 : Nat
  hn : Nat
  reset : Nat
  h : Nat
  b : Nat
  t : Nat
  deriving DecidableEq, Repr

def StepRun.recArgs (x : StepRun) : RecArgs :=
  let t := x.t
  let lin := decide (stOp t = 0x28)
  let slot := if lin then st1 t 18 else st1 t 16
  let map := if lin then st2 t 16 else st2 t 14
  let h0 := if lin then st2 t 24 else st2 t 22
  let hn := if lin then st2 t 26 else st2 t 24
  let h := if lin then dCols (x.desc 4) else dCols (x.desc 6)
  let b := if slot = 0xFE then (if h0 = 0xFFFF then dRows (x.p.pDesc hn) else dRows (x.p.pDesc h0)) else dRows (x.p.pDesc map)
  { map := map, slot := slot, state := if lin then st1 t 19 else st1 t 17, soff := if lin then st4 t 20 else st4 t 18, h0 := h0, hn := hn,
    reset := if lin then st2 t 14 else st2 t 12, h := h, b := b, t := dRows (x.desc 4) / b }



/-- The state object of each batch row, or REC_SLOT (R352); none for H0 and HN. -/
def StepRun.recSlots (x : StepRun) (a : RecArgs) : Except StepErr (List (Option Nat)) :=
  if a.slot = 0xFE then .ok (List.replicate a.b none)
  else (List.range a.b).foldl (fun acc i =>
    match acc with
    | .error e => .error e
    | .ok l =>
      match x.ctxAt a.slot (x.bits2 (x.p.pDesc a.map) i 0) with
      | none => .error (0x202, recDetail 35 x.idx 0 a.soff)
      | some c =>
        match x.stateKey c a.state with
        | some k => if (x.stateObj k).kind = 4 ∧ 64 * a.soff + 8 * a.h ≤ (x.stateObj k).size then .ok (l ++ [some k]) else .error (0x202, recDetail 35 x.idx c a.soff)
        | none => .error (0x202, recDetail 35 x.idx c a.soff)) (.ok [])

/-- A bad tile of a slot (R175, R176). -/
def StepRun.recTileErr (x : StepRun) (a : RecArgs) (slots : List (Option Nat)) : Option StepErr :=
  slots.findSome? fun k? => match k? with
    | none => none
    | some k =>
      let o := x.stateObj k
      let lo := 64 * a.soff / 4096
      ((List.range ((64 * a.soff + 8 * a.h - 1) / 4096 + 1 - lo)).map (· + lo)).findSome? fun t =>
        if (o.tile t).st = .valid then none
        else some (0x300, setBytes (setBytes (setBytes 0 0 4 (mkHandle (k % 2 ^ 20) o.gen)) 4 4 t) 8 1 (if (o.tile t).st = .poisoned then 2 else 3))

/-- Word `j` of batch row `b`'s slot (R350): as the stream's last writer left it, else as the command read it. -/
def StepRun.slotWord (x : StepRun) (a : RecArgs) (slots : List (Option Nat)) (b j : Nat) : FVal :=
  match (slots[b]?).getD none with
  | none => if a.h0 = 0xFFFF then fzero else x.raw2 (x.p.pDesc a.h0) b j
  | some k =>
    let at_ := 64 * a.soff + 4 * j
    let own := x.f.carried.any fun c => decide (c.1 = k ∧ c.2.1 = x.core ∧ c.2.2.1 ≤ at_ ∧ at_ < c.2.2.1 + c.2.2.2.1)
    let o := if own then (match x.f.outs.find? fun e => decide (e.obj = k) with | some e => { Obj.dflt with data := e.data } | none => x.stateObj k) else x.stateObj k
    fp32 (w32 (o.rd at_ 4))

/-- The reset bit of row `b` at step `t` (R359). -/
def StepRun.resetAt (x : StepRun) (a : RecArgs) (b t : Nat) : Bool :=
  if a.reset = 0xFFFF then false
  else let d := x.p.pDesc a.reset
    (x.byte (dSource d) (dOffset d + t * dStride d + b / 8)).getLsbD (b % 8)

/-- Write the final slots: `v b` is the 2H words of row `b`. -/
def StepRun.writeSlots (x : StepRun) (a : RecArgs) (slots : List (Option Nat)) (v : Nat → List FVal) : StepOut :=
  if a.slot = 0xFE then
    let d := x.p.pDesc a.hn
    { StepOut.none with patches := (List.range a.b).map fun b => (dSource d, dOffset d + b * dStride d, (v b).flatMap fun w => leBytes 4 (toFp32 w).toNat) }
  else
    { StepOut.none with
      objPatches := slots.zipIdx.filterMap fun e => e.1.map fun k => (k, 64 * a.soff, (v e.2).flatMap fun w => leBytes 4 (toFp32 w).toNat)
      carried := slots.filterMap fun k? => k?.map fun k => (k, x.core, 64 * a.soff, 8 * a.h, a.t) }



/-! ## The linear recurrence (R353 to R358) -/

/-- comp_step of R355. -/
def compStep (a h e u : FVal) : FVal × FVal :=
  let p := fmul a h
  let ep := ffma a h p.neg
  let s := fadd p u
  let z := fsub s p
  let es := fadd (fsub p (fsub s z)) (fsub u z)
  let t := ffma a e (fadd ep es)
  let h2 := fadd s t
  (h2, fsub t (fsub h2 s))

/-- Serial mode over the steps: outputs newest last, and the state at the end. -/
def serialRun (comp : Bool) (steps : List (Bool × FVal × FVal)) (h e : FVal) : List FVal × FVal × FVal :=
  steps.foldl (fun acc st =>
    let (ys, h, e) := acc
    let (r, a, u) := st
    let (h', e') := if r then (u, fzero) else if comp then compStep a h e u else (ffma a h u, fzero)
    (ys ++ [h'], h', e')) ([], h, e)

/-- wexp of R356. -/
def wexp (l : FVal) : FVal := match l with | .fin _ 0 => fone | .inf true => fzero | l => fexp l

/-- A weighted term of R357: an exact +0 where the weight is +0, whatever it weighs. [DEDUCED, log entry 137] -/
def weigh (l u : FVal) : FVal := if l = .inf true ∨ wexp l = .fin false 0 then fzero else (wexp l).mul u

/-- One chunk of R357: the states at its steps, each given as its reset bit, λ and u. What lies before the last reset at or before a step does
not enter it, whatever λ and the state were there (R360, R361). [DEDUCED, log entry 137] -/
def chunkRun (steps : List (Bool × FVal × FVal)) (h : FVal) : List FVal :=
  (List.range steps.length).map fun t =>
    let upto := steps.take (t + 1)
    let r := upto.zipIdx.foldl (fun (a : Option Nat) (e : (Bool × FVal × FVal) × Nat) => if e.1.1 then some e.2 else a) none
    let own := upto.drop (r.getD 0)
    let carry := if r.isSome then fzero else
      let lc := exactSum (upto.map (·.2.1))
      if lc = .inf true then fzero else fmul (wexp lc) h
    let ws := own.zipIdx.map fun e => weigh (exactSum ((own.drop (e.2 + 1)).map (·.2.1))) e.1.2.2
    exactSum (carry :: ws)

/-- Chunked mode: outputs and the state at the end. -/
def chunkedRun (steps : List (Bool × FVal × FVal)) (h : FVal) : List FVal × FVal :=
  (chunks 64 (steps.length / 64 + 1) steps).foldl (fun acc c =>
    let hs := chunkRun c acc.2
    (acc.1 ++ hs, hs.getLastD acc.2)) ([], h)

/-- One round of the scan at distance `d` (R358): `none` marks DONE. -/
def scanRound (d : Nat) (l : List (Option FVal × FVal)) : List (Option FVal × FVal) :=
  l.zipIdx.map fun e =>
    match e.1.1 with
    | none => e.1
    | some a =>
      if e.2 < d then e.1
      else match l[e.2 - d]? with
        | none => e.1
        | some q => ((match q.1 with | none => none | some b => some (fmul a b)), ffma a q.2 e.1.2)

/-- Scan mode: outputs, the last of which is the state at the end. -/
def scanRun (steps : List (Bool × FVal × FVal)) (h : FVal) : List FVal :=
  let l : List (Option FVal × FVal) := steps.map fun s => (if s.1 then none else some s.2.1, s.2.2)
  let l := match l with
    | (some a, u) :: r => (none, ffma a h u) :: r
    | (none, u) :: r => (none, u) :: r
    | [] => []
  (((List.range 17).map fun i => 2 ^ i).foldl (fun l d => if d < l.length then scanRound d l else l) l).map (·.2)

/-- REC_LINEAR. -/
def StepRun.recLinear (x : StepRun) : Except StepErr StepOut :=
  let t := x.t
  let a := x.recArgs
  let xd := x.desc 4
  let ad := x.desc 6
  let reads := [4, 6].flatMap (fun i => ranges2 (x.desc i)) ++ ([8, 10, 14, 28].filter (hasOpd t)).flatMap (fun i => ranges2 (x.desc i)) ++
    (if a.slot = 0xFE then (if a.h0 = 0xFFFF then [] else ranges2 (x.p.pDesc a.h0)) else ranges2 (x.p.pDesc a.map))
  match x.readErr reads with
  | some e => .error e
  | none =>
  match x.recSlots a with
  | .error e => .error e
  | .ok slots =>
  match x.recTileErr a slots with
  | some e => .error e
  | none =>
    let scan := if hasOpd t 28 then (List.range (dCols (x.desc 28))).map fun j => x.bits2 (x.desc 28) 0 j else []
    if !((scan.zip (scan.drop 1)).all fun e => decide (e.1 < e.2)) || (scan.any fun c => decide (a.h ≤ c)) then .error (0x202, recDetail 34 x.idx (if a.slot = 0xFF then x.f.cmd.context else 0) a.soff)
    else
    let aVal := fun (row j : Nat) => x.val2 ad row (j * dCols ad / a.h)
    let dec := fun (row j : Nat) => if stFlag t 1 then fexp (aVal row j) else aVal row j
    let lam := fun (row j : Nat) => if stFlag t 1 then aVal row j else flog (aVal row j)
    let u := fun (row j : Nat) => if hasOpd t 8 then fmul (x.val2 (x.desc 8) row j) (x.val2 xd row j) else x.val2 xd row j
    -- outputs and final (h, e) of channel j of row b
    let chan := fun (b j : Nat) =>
      let h0 := x.slotWord a slots b j
      let e0 := x.slotWord a slots b (a.h + j)
      let rows := (List.range a.t).map fun s => s * a.b + b
      if scan.contains j then
        let ys := scanRun ((rows.zipIdx).map fun r => (x.resetAt a b r.2, dec r.1 j, u r.1 j)) h0
        (ys, ys.getLastD h0, fzero)
      else if stFlag t 0 then
        let (ys, h) := chunkedRun ((rows.zipIdx).map fun r => (x.resetAt a b r.2, lam r.1 j, u r.1 j)) h0
        (ys, h, fzero)
      else
        let (ys, h, e) := serialRun (stFlag t 2) ((rows.zipIdx).map fun r => (x.resetAt a b r.2, dec r.1 j, u r.1 j)) h0 (if stFlag t 2 then e0 else fzero)
        (ys, h, e)
    let all := (List.range a.b).map fun b => (List.range a.h).map fun j => chan b j
    let at_ := fun (b j : Nat) => ((all.getD b []).getD j ([], fzero, fzero))
    let outs := (List.range (a.t * a.b)).map fun row => (List.range a.h).map fun j =>
      let h := (at_ (row % a.b) j).1.getD (row / a.b) fzero
      if hasOpd t 10 then fmul (x.val2 (x.desc 10) row j) h else h
    let (p1, c1) := if hasOpd t 12 then x.out2 (noPer (x.desc 12)) (stFlag t 3) none outs else ([], Cnt.zero)
    let w := x.writeSlots a slots fun b => ((List.range a.h).map fun j => (at_ b j).2.1) ++ ((List.range a.h).map fun j => (at_ b j).2.2)
    .ok { w with patches := p1 ++ w.patches, cnt := c1 }

/-! ## Gated units (R362, R363) -/

/-- The state as it is streamed into the arrays: BF16, or quantised to Q8_32. -/
def streamState (q8 : Bool) (h : List FVal) : List Block :=
  (chunks 32 (h.length / 32 + 1) h).map fun c =>
    let c32 := (List.range 32).map fun i => c.getD i fzero
    if q8 then (let q := quantise 8 c32; (decodeScale 8 q.1, q.2.1.map (decodeElem 8))) else (fone, c32.map (toFmt 5))

/-- One step of a GRU or LSTM row: new h and c. -/
def gateStep (lstm q8 : Bool) (n : Nat) (weights : List (List Block)) (xg br h c : List FVal) (reset : Bool) : List FVal × List FVal :=
  let h := if reset then List.replicate n fzero else h
  let c := if reset then List.replicate n fzero else c
  let s := streamState q8 h
  let r := weights.map fun w => if reset then fzero else blockLoop (s.zip w)
  let g := fun (l : List FVal) (i j : Nat) => l.getD (i * n + j) fzero
  let rb := fun (i j : Nat) => fadd (g r i j) (g br i j)
  let pre := fun (i j : Nat) => fadd (g xg i j) (rb i j)
  let one := fun (j : Nat) =>
    if lstm then
      let c' := ffma (fsigmoid (pre 1 j)) (c.getD j fzero) (fmul (fsigmoid (pre 0 j)) (ftanh (pre 2 j)))
      (fmul (fsigmoid (pre 3 j)) (ftanh c'), c')
    else
      let nn := ftanh (fadd (g xg 2 j) (fmul (fsigmoid (pre 0 j)) (rb 2 j)))
      (ffma (fsigmoid (pre 1 j)) (fsub (h.getD j fzero) nn) nn, fzero)
  let res := (List.range n).map one
  (res.map (·.1), res.map (·.2))

/-- REC_GRU and REC_LSTM. -/
def StepRun.recGated (x : StepRun) (lstm : Bool) : Except StepErr StepOut :=
  let t := x.t
  let a := x.recArgs
  let xd := x.desc 4
  let wd := x.desc 6
  let gates := if lstm then 4 else 3
  let reads := [4, 6].flatMap (fun i => ranges2 (x.desc i)) ++ ([8, 12].filter (hasOpd t)).flatMap (fun i => ranges2 (x.desc i)) ++
    (if a.slot = 0xFE then (if a.h0 = 0xFFFF then [] else ranges2 (x.p.pDesc a.h0)) else ranges2 (x.p.pDesc a.map))
  match x.readErr reads with
  | some e => .error e
  | none =>
  match x.recSlots a with
  | .error e => .error e
  | .ok slots =>
  match x.recTileErr a slots with
  | some e => .error e
  | none =>
    let weights := (List.range (gates * a.h)).map fun q => x.rowBlocks wd q
    let br := (List.range (gates * a.h)).map fun q => if hasOpd t 8 then x.val2 (x.desc 8) 0 q else fzero
    let row := fun (b : Nat) =>
      let h := (List.range a.h).map fun j => x.slotWord a slots b j
      let c := if lstm then (List.range a.h).map fun j => x.slotWord a slots b (a.h + j) else List.replicate a.h fzero
      (List.range a.t).foldl (fun (acc : List (List FVal) × List FVal × List FVal) s =>
        let xg := (List.range (gates * a.h)).map fun q => x.val2 xd (s * a.b + b) q
        let (h', c') := gateStep lstm (stFlag t 1) a.h weights xg br acc.2.1 acc.2.2 (x.resetAt a b s)
        (acc.1 ++ [h'], h', c')) ([], h, c)
    let all := (List.range a.b).map row
    let at_ := fun (b : Nat) => all.getD b ([], [], [])
    let outs := (List.range (a.t * a.b)).map fun r => (at_ (r % a.b)).1.getD (r / a.b) []
    let (p1, c1) := if hasOpd t 10 then x.out2 (noPer (x.desc 10)) (stFlag t 0) none outs else ([], Cnt.zero)
    let w := x.writeSlots a slots fun b => (at_ b).2.1 ++ (if lstm then (at_ b).2.2 else List.replicate a.h fzero)
    .ok { w with patches := p1 ++ w.patches, cnt := c1 }

/-! ## What a step reads of state objects -/

/-- Bytes of state objects that a step reads (R336, R350): object, first byte, length. [DESIGN CHOICE, log entry 4] -/
def StepRun.stateReads (x : StepRun) : List (Nat × Nat × Nat) :=
  let op := stOp x.t
  if op = 0x21 then x.kvReads x.t
  else if op = 0x22 then x.kvReads (x.p.pStep x.stream (st2 x.t 4))
  else if op = 0x28 ∨ op = 0x29 ∨ op = 0x2A then
    let a := x.recArgs
    match x.recSlots a with
    | .ok slots => slots.filterMap fun k? => k?.map fun k => (k, 64 * a.soff, 8 * a.h)
    | .error _ => []
  else []

end Sys2Proof.Machine
end

