-- ==== Sys2Proof/Machine/RunPattern.lean ====
section
/-! DEFINITION. RUN_PATTERN: its begin (R131, R284, R317, R402), prefetch walks (R193), the choice of the next step on a core
(R285, R408), each kind of step, the end of a step and of the command (R286, R287, R282). -/

namespace Sys2Proof.Machine

/-! ## Streams of a begun command -/

/-- The pattern of a begun command, as it read it. -/
def InFlight.patObj (f : InFlight) : Obj := match f.ins.find? fun e => decide (e.1 = f.pat) with | some e => e.2 | none => Obj.dflt

/-- The next step of stream `k`, where there is one. -/
def InFlight.nextStep (f : InFlight) (k : Nat) : Option Step :=
  match f.streams[k]? with
  | some st => if st.done then none else some (f.patObj.pStep k st.step)
  | none => none

/-- Clusters of a command's cores, ascending. -/
def Cmd.clusters (c : Cmd) : List Nat := (List.range 8).filter fun n => c.cores.any fun k => decide (k / 8 = n)

/-! ## Walks (R193, R194) -/

/-- The location a walker entry names: the SLOT-th selected core, or its cluster. -/
def walkLoc (coreMask : Nat) (e : BitVec 128) : Nat :=
  let core := (((List.range 64).filter fun i => coreMask.testBit i)[pfSlot e]?).getD 0
  if pfTier e = 0 then core else if pfTier e = 1 then core / 8 else 0

/-- Issue the entries a walk owes when its pattern begins layer `l` (R193). -/
def State.walkBegin (s : State) (id l : Nat) : State :=
  match s.walks.find? fun w => decide (w.id = id) with
  | none => s
  | some w =>
    let depth := (s.reg (R.WALK_DEPTH w.hoop)).toNat
    let due := (w.entries.zipIdx).filter fun e => decide (pfLayer e.1 ≤ l + depth) && !w.issued.contains e.2
    let s := { s with walks := s.walks.map fun (x : Walk) => if x.id = id then { x with layer := max x.layer l } else x }
    due.foldl (fun s e =>
      match s.resolve w.hoop (pfObject e.1) with
      | none => s
      | some k =>
        let tier := pfTier e.1
        if (s.obj k).kind = 1 ∧ tier ≤ 2 ∧ s.canPrefetch k tier = true then
          let codec := if (s.obj k).compressed = true ∧ (tier ≤ 1 ∨ pfCodec e.1 = 1) then 1 else 0
          let s := { s with walks := s.walks.map fun (x : Walk) => if x.id = id then { x with issued := x.issued ++ [e.2] } else x }
          let (s', ok) := s.issueMove .walk w.hoop k tier (walkLoc w.coreMask e.1) codec none
          if ok then s' else s'.addReg (R.WALK_DROP_COUNT w.hoop) 1
        else s) s

/-- Demote the entries of layer `l` when the pattern has completed it (R193), decoding as R371 gives. -/
def State.walkEnd (s : State) (id l : Nat) : State :=
  match s.walks.find? fun w => decide (w.id = id) with
  | none => s
  | some w =>
    (w.entries.filter fun e => decide (pfLayer e = l) && pfDemote e).foldl (fun s e =>
      match s.resolve w.hoop (pfObject e) with
      | none => s
      | some k =>
        let o := s.obj k
        let there := decide (o.kind = 1 ∧ o.ctxState = false ∧ o.homed = true ∧ o.tier = pfTier e ∧ locUnit o.tier o.loc = locUnit (pfTier e) (walkLoc w.coreMask e) ∧ o.pins = 0)
        let others := s.flights.any fun g => decide (g.id ≠ id) && ((g.ins.any fun x => decide (x.1 = k)) || g.outs.any fun x => decide (x.obj = k))
        if there && !others && !s.moving k && !s.hasWriter k then
          let t := pfDemoteTier e
          let loc := if t = 1 then walkLoc w.coreMask (setFld e 48 3 1) else 0
          let codec := if o.compressed = true ∧ (t ≤ 1 ∨ pfCodec e = 1) then 1 else 0
          let (s', ok) := s.issueMove .walk w.hoop k t loc codec none
          if ok then s' else s'.addReg (R.WALK_DROP_COUNT w.hoop) 1
        else s) s

/-! ## Beginning (R131, R284) -/

/-- The context lists and headers that a RUN_PATTERN names are open and not closing (R235). -/
def State.ctxsGone (s : State) (c : Cmd) : Bool := (s.cmdCtxs c).any fun i => !s.ctxOpen c.hoop i || (s.ctx i).closing

/-- Key of each bound object, by binding. -/
def State.bindKeys (s : State) (c : Cmd) (p : Obj) : List Nat :=
  p.pBinds.map fun b => if b.kind = 1 then (match (s.cq c.hoop c.cq).segs.find? (fun e => decide (e.1 = b.slot)) with | some e => e.2 | none => 0)
    else (s.resolve c.hoop (c.slot b.slot)).getD 0

/-- Keys of the state objects of every context named. -/
def State.stateKeys (s : State) (c : Cmd) : List Nat := ((s.cmdCtxs c).flatMap fun i => (s.ctx i).objs).eraseDups

/-- Keys of a command's outputs: objects bound OUT or INOUT. -/
def State.outKeys (s : State) (c : Cmd) (p : Obj) : List Nat :=
  (((p.pBinds.zip (s.bindKeys c p)).filter fun e => decide (e.1.kind = 0 ∧ e.1.dir ≠ 0)).map (·.2)).eraseDups

/-- What a RUN_PATTERN reserves, in the order of R284: T1 by cluster, T0 by core, then its outputs, `st` tiles of its contexts' state objects
among them (R167, R330). Tier, location, bytes. -/
def State.patternNeeds (s : State) (c : Cmd) (p : Obj) (st : Nat) : List (Nat × Nat × Nat) :=
  (if p.pT1Kib = 0 then [] else c.clusters.map fun n => (1, n, 1024 * p.pT1Kib)) ++
  (if p.pStageKib + p.pScratchKib = 0 then [] else c.cores.map fun n => (0, n, 1024 * (p.pStageKib + p.pScratchKib))) ++
  ((s.outKeys c p).map fun k => ((s.obj k).tier, (s.obj k).loc, s.outBytes k)) ++
  (if st = 0 then [] else [(2, 0, 4096 * st)])

/-- How many of its reservations are scratch and staging (R276, R284). -/
def Cmd.scratchCount (c : Cmd) (p : Obj) : Nat := (if p.pT1Kib = 0 then 0 else c.clusters.length) + (if p.pStageKib + p.pScratchKib = 0 then 0 else c.cores.length)

/-- Bytes of T0 staging and scratch reserved on a core, for begun commands and for heads that still wait (R284, R289). -/
def State.coreReserved (s : State) (core : Nat) : Nat :=
  let begun := s.flights.foldl (fun a f => if f.cores.contains core then a + 1024 * (f.patObj.pStageKib + f.patObj.pScratchKib) else a) 0
  let waiting := (s.cqs.filterMap fun e => e.2.head).foldl (fun a c =>
    match (if c.opcode = 1 then s.resolve c.hoop c.pattern else none) with
    | none => a
    | some pk =>
      (((s.allocs.filter fun x => decide (x.holder = Holder.head (c.hoop * 64 + c.cq))).take (c.scratchCount (s.obj pk))).filter fun x =>
        decide (x.tier = 0 ∧ x.unit = core)).foldl (fun a x => a + x.bytes) a) 0
  begun + waiting

/-- Bytes of T1 scratch that begun commands hold in a cluster (R276, R290). -/
def State.clusterHeld (s : State) (n : Nat) : Nat :=
  s.flights.foldl (fun a f => if f.cores.any fun c => decide (c / 8 = n) then a + 1024 * f.patObj.pT1Kib else a) 0

/-- Seek the reservations of a head one after the other, holding those obtained (R189, R284). Answers whether it has them all. [DEDUCED, log entry 30] -/
def State.reserve (s : State) (c : Cmd) (needs : List (Nat × Nat × Nat)) : State × Bool :=
  let key := c.hoop * 64 + c.cq
  let held := s.allocs.filter fun a => decide (a.holder = Holder.head key)
  let same := decide (held.map (fun a => (a.tier, a.unit, a.bytes)) = (needs.take held.length).map fun e => (e.1, locUnit e.1 e.2.1, e.2.2))
  let s := if same then s else { s with allocs := s.allocs.filter fun a => decide (a.holder ≠ Holder.head key) }
  (if same then needs.drop held.length else needs).foldl (fun (a : State × Bool) e =>
    let (s, ok) := a
    let unit := locUnit e.1 e.2.1
    if !ok then (s, false)
    else if s.roomFor c.hoop e.1 unit e.2.2 then
      -- the wait for this need, if there was one, is over (R189)
      let s := s.endWait fun w => decide (w.cq = some key)
      ({ s with allocs := s.allocs ++ [(⟨.head key, c.hoop, e.1, unit, e.2.2, s.placeMask e.1 e.2.1⟩ : Alloc)] }, true)
    else
      let (s, delayed) := s.waitRoom ⟨c.hoop, e.1, unit, e.2.2, s.count, some key, none, none⟩
      (if delayed then s.setCq c.hoop c.cq { s.cq c.hoop c.cq with headDelayed := true } else s, false)) (s, true)

/-- Cores of a command that are absent, fenced or not assigned to its hoop, with the code that ends it (R9, R131). -/
def State.coreCheck (s : State) (c : Cmd) : Nat :=
  if c.cores.any fun n => !present s.part .core n then 0x1
  else if c.cores.any fun n => decide (s.blkState (pageOf .core n) = 5 ∨ s.blkState (pageOf .cluster (n / 8)) = 5) || factoryFenced s.part .core n then 0x202
  else if c.cores.any fun n => !s.clusterOf c.hoop (n / 8) then 0x202
  else 0

/-- STATE of a core and of its cluster. -/
def State.coreStates (s : State) (n : Nat) : List Nat := [s.blkState (pageOf .core n), s.blkState (pageOf .cluster (n / 8))]

/-- The begun command of a RUN_PATTERN: its inputs as read now (R170), its outputs beside the old ones (R167). -/
def State.patternFlight (s : State) (id : Nat) (c : Cmd) (pk : Nat) : InFlight :=
  let p := s.obj pk
  let keys := s.bindKeys c p
  let outs := s.outKeys c p ++ s.stateKeys c
  let ins := (pk :: ((p.pBinds.zip keys).filter fun e => decide (e.1.dir ≠ 1)).map (·.2) ++ s.stateKeys c).eraseDups
  { InFlight.of id c s.pos false with
    code := if (s.cq c.hoop c.cq).headDelayed then 0x301 else 0
    ctxs := s.cmdCtxs c
    cores := c.cores
    streams := (c.cores.zipIdx).map fun (e : Nat × Nat) => { core := e.1, step := 0, running := false, done := decide ((p.pStream e.2).2 = 0) }
    pat := pk
    binds := keys
    segs := (s.cq c.hoop c.cq).segs.map (·.2)
    ins := ins.map fun k => (k, s.obj k)
    outs := outs.eraseDups.map s.outBuf }

/-- A step's view of a command's sources, for reading outside any step. -/
def State.viewOf (s : State) (f : InFlight) (core stream idx : Nat) (t : Step) : StepRun :=
  { f := f, p := f.patObj, core := core, stream := stream, idx := idx, t := t,
    sr := bit (s.force (R.SR_ENABLE core)) 0,
    homes := f.binds.map fun k => ((s.obj k).tier, (s.obj k).loc),
    patHome := ((s.obj f.pat).tier, (s.obj f.pat).loc),
    lost := f.binds.map fun k => if (s.obj k).tier = 3 ∧ ((placeStacks (s.obj k).place).all fun n => s.live .skein n) = false then
      (List.range (s.obj k).ntiles).filter fun t => !s.live .skein ((s.obj k).tileStack t) else [],
    handles := f.binds.map s.handleOf,
    ctxObjs := f.ctxs.map fun i => (i, (s.ctx i).objs) }

/-- Write bytes into one output buffer. -/
def OutBuf.write (o : OutBuf) (off : Nat) (bs : List Byte) : OutBuf :=
  if bs = [] then o else
  { o with data := msetList 0 o.data off bs,
           written := (o.written ++ (List.range ((off + bs.length - 1) / 4096 + 1 - off / 4096)).map (· + off / 4096)).eraseDups }

/-- Apply what a step wrote. -/
def InFlight.applyOut (f : InFlight) (core : Nat) (x : StepOut) : InFlight :=
  let put := fun (f : InFlight) (k off : Nat) (bs : List Byte) => { f with outs := f.outs.map fun (o : OutBuf) => if o.obj = k then o.write off bs else o }
  let f := x.patches.foldl (fun (f : InFlight) (e : Nat × Nat × List Byte) =>
    if e.1 = 0x10 then { f with scr0 := msetList 0 f.scr0 (core * 2 ^ 21 + e.2.1) e.2.2 }
    else if e.1 = 0x11 then { f with scr1 := msetList 0 f.scr1 (core / 8 * 2 ^ 23 + e.2.1) e.2.2 }
    else if 256 ≤ e.1 then { f with scr1 := msetList 0 f.scr1 ((e.1 - 256) * 2 ^ 23 + e.2.1) e.2.2 }
    else put f (f.binds.getD e.1 0) e.2.1 e.2.2) f
  let f := x.objPatches.foldl (fun (f : InFlight) (e : Nat × Nat × List Byte) => put f e.1 e.2.1 e.2.2) f
  -- tile 0 of a region that it appends to is in the fresh allocation, as a copy (R330)
  let f := { f with outs := f.outs.map fun (o : OutBuf) => if x.appended.any fun e => decide (e.1 = o.obj) then { o with written := (o.written ++ [0]).eraseDups } else o }
  let flags := setBit (setBit (w32 f.flags) 0 (bit (w32 f.flags) 0 || x.empty)) 1 (bit (w32 f.flags) 1 || x.widened)
  { f with appended := f.appended ++ x.appended, carried := f.carried ++ x.carried, flags := flags.toNat }

/-- Tiles that hold some bytes. -/
def tilesAt (off len : Nat) : List Nat := if len = 0 then [] else (List.range ((off + len - 1) / 4096 + 1 - off / 4096)).map (· + off / 4096)

/-- Can what a descriptor names be read at the begin: in the constants, or in an object bound as an input that no earlier command of the queue still
writes (R137, R170)? -/
def State.readableNow (s : State) (c : Cmd) (p : Obj) (d : Desc) : Bool :=
  decide (dSource d = 0x12) ||
  (decide (dSource d < p.pNbind ∧ (p.pBind (dSource d)).dir ≠ 1) && !((s.bindKeys c p)[dSource d]?.any (s.earlierWrites c)))

/-- Tiles of its contexts' state objects that a step will write, as object and tile (R330, R350): found by its MAP where that can be read at the
begin, and else only how many at most. [DESIGN CHOICE, log entry 31] -/
def State.stepTiles (s : State) (c : Cmd) (p : Obj) (x : StepRun) : List (Nat × Nat) × Nat :=
  let t := x.t
  let inside := fun (k : Nat) (l : List Nat) => (l.filter fun i => decide (i < (x.stateObj k).ntiles)).map fun i => (k, i)
  if stOp t = 0x20 then
    let kvl := st2 t 20
    if s.readableNow c p (x.desc 8) then
      match x.mapRows (x.desc 8) (st1 t 10) (st1 t 11) kvl with
      | .error _ => ([], 0)
      | .ok rows => (rows.flatMap fun (e : Nat × Nat × Nat) =>
          let o := x.stateObj e.2.1
          inside e.2.1 (0 :: (List.range o.kvHeads).flatMap fun h => [false, true].flatMap fun v =>
            tilesAt (o.kvElem v kvl h e.2.2) (o.kvD * elemBits (o.kvFmt v) / 8) ++ tilesAt (o.kvScale v kvl h e.2.2 0) (o.kvDblk * scaleBytes (o.kvFmt v))), 0)
    else
      let heads := x.ctxObjs.foldl (fun a e => e.2.foldl (fun a k => max a (x.stateObj k).kvHeads) a) 0
      ([], dRows (x.desc 8) * 8 * heads + x.ctxObjs.length)
  else if stOp t = 0x28 ∨ stOp t = 0x29 ∨ stOp t = 0x2A then
    let a := x.recArgs
    if a.slot = 0xFE then ([], 0)
    else if s.readableNow c p (p.pDesc a.map) then
      match x.recSlots a with
      | .error _ => ([], 0)
      | .ok slots => (slots.flatMap fun k? => match k? with | some k => inside k (tilesAt (64 * a.soff) (8 * a.h)) | none => [], 0)
    else ([], a.b * (8 * a.h / 4096 + 2))
  else ([], 0)

/-- Tiles of its contexts' state objects in a command's fresh allocation (R167, R330): those its steps will write, each once. [DESIGN CHOICE, log entry 31] -/
def State.stateTiles (s : State) (c : Cmd) (pk : Nat) : Nat :=
  if s.stateKeys c = [] then 0
  else
    let p := s.obj pk
    let f := s.patternFlight 0 c pk
    let parts := p.pSteps.map fun e => s.stepTiles c p (s.viewOf f (c.cores.getD e.1 0) e.1 e.2.1 e.2.2)
    min (((parts.flatMap (·.1)).eraseDups).length + parts.foldl (fun a e => a + e.2) 0) ((s.stateKeys c).foldl (fun a k => a + (s.obj k).ntiles) 0)

/-! ## The summary and the end of a command (R282, R287) -/

/-- The STAGE_RESULT record of R52, from the summary descriptor of R282; an element that the row lacks has no stated value. [DESIGN CHOICE, log entry 115] -/
def State.stageRecord (s : State) (f : InFlight) : Rec :=
  let p := f.patObj
  let a := p.pSummaryOff
  let x0 := s.viewOf f (f.cores.headD 0) 0 0 0
  -- a bound object that the command wrote is read as written
  let x : StepRun := { x0 with f := { f with ins := f.ins.map fun (e : Nat × Obj) => match f.outs.find? (fun o => decide (o.obj = e.1)) with
    | some o => (e.1, { e.2 with data := o.data }) | none => e } }
  let sd := p.pDesc (p.rd a 2)
  let cols := if dImage sd then dW sd else dCols sd
  let n := min (p.rd (a + 2) 2) cols
  let score := fun (i : Nat) => if dImage sd then x.valI sd 0 0 0 i else x.val2 sd 0 i
  let has := decide (a ≠ 0 ∧ p.rd a 2 ≠ 0xFFFF)
  let vals := if has then (List.range n).map score else []
  let best := argmaxOf vals
  let nan := vals.any (·.isNan)
  let bd := p.pDesc (p.rd (a + 4) 2)
  let boxes := if a ≠ 0 ∧ p.rd (a + 4) 2 ≠ 0xFFFF then x.num (dSource bd) (dOffset bd) 2 else 0
  let w := fun (v : FVal) => (toFp32 v).toNat
  let picks := (List.range 7).map fun i =>
    let k := p.rd (a + 8 + 2 * i) 2
    if !has then 0 else if k = 0xFFFF then w .nan else if k < cols then w (score k) else (Config.free32 ((s.freeCtr * 2 ^ 64 + s.now) * 2 ^ 27 + k)).toNat
  let pay := payAt 24 2 f.cmd.stage (payAt 26 2 (match best with | some e => e.1 | none => 0) (payAt 28 2 boxes
    (payAt 30 2 (f.flags % 2 + 2 * b2n nan) (payAt 32 4 (if has then (match best with | some e => w e.2 | none => w .nan) else 0) 0))))
  { Rec.dflt with
    hoop := f.cmd.hoop, eq := s.cqEq f.cmd.hoop f.cmd.cq, ty := 3, stamp := s.pos, source := 0x400 + 4 * f.cmd.hoop, context := if f.cmd.hasContext then f.cmd.context else 0,
    arrived := s.now, toHost := false, payload := (picks.zipIdx).foldl (fun q (e : Nat × Nat) => payAt (36 + 4 * e.2) 4 e.1 q) pay }

/-- A command all of whose streams are finished is complete (R287). -/
def State.finish (s : State) (id : Nat) : State :=
  match s.flight id with
  | none => s
  | some f =>
    if f.streams.all (fun t => t.done) then
      (s.setFlight { f with done := true, stageRec := if f.cmd.stage = 0 then none else some (s.stageRecord f) }).settled
    else s

/-- The value with which a bound SEALED object refuses the command (R530): 4 where the pattern is not SEALED or comes from another
package, 5 where it is bound OUT or INOUT. [DEDUCED, log entry 71] -/
def State.sealError (s : State) (c : Cmd) (pk : Nat) (p : Obj) : Option Nat :=
  let samePkg := fun (k : Nat) => p.sealed && (s.hoopSec c.hoop).pkgs.any fun x => x.objs.contains (pk, p.gen) && x.objs.contains (k, (s.obj k).gen)
  (p.pBinds.zip (s.bindKeys c p)).findSome? fun e =>
    if !(s.obj e.2).sealed then none else if !samePkg e.2 then some 4 else if e.1.dir ≠ 0 then some 5 else none

/-- Objects whose content the checks before a begin read: the bound context lists, and what a SCAN list lies in (R235, R358). -/
def State.listObjs (s : State) (c : Cmd) (p : Obj) : List Nat :=
  let keys := s.bindKeys c p
  (p.pBinds.zip keys).filterMap (fun e => if e.1.kind = 2 then some e.2 else none) ++
  p.pSteps.filterMap fun e => if stOp e.2.2 = 0x28 ∧ hasOpd e.2.2 28 ∧ (p.pBind (dSource (p.pDesc (st2 e.2.2 28)))).dir ≠ 1 then keys[dSource (p.pDesc (st2 e.2.2 28))]? else none

/-- RUN_PATTERN at the head of a queue begins when everything it waits for is there (R131, R284); what its checks read it reads once no earlier
command of the queue still writes it (R137). -/
def State.beginPattern (s : State) (c : Cmd) : State :=
  match s.resolve c.hoop c.pattern with
  | none => (s.endCmd c 0x202 0).settled
  | some pk =>
    let p := s.obj pk
    let core := s.coreCheck c
    if s.earlierWrites c pk then s
    else if p.kind = 7 ∧ ((s.listObjs c p).any (s.earlierWrites c)) = true then s
    else if s.ctxsGone c then (s.endGone c).settled
    else if p.kind ≠ 7 ∨ p.homed = false ∨ 4 ≤ p.tier ∨ (p.tier = 0 ∧ c.cores.contains p.loc = false) then (s.endCmd c 0x202 0).settled
    else if core ≠ 0 then (s.endCmd c core 0).settled
    else match p.badTile with
    | some t => ((s.endCmd c 0x300 (setBytes (setBytes (setBytes 0 0 4 c.pattern) 4 4 t.1) 8 1 t.2)).addReg (R.TILE_CHECK_COUNT c.hoop) 1).settled
    | none =>
    match s.patternError c p with
    | some e => (s.endCmd c e.1 e.2).settled
    | none =>
    match s.sealError c pk p with
    | some v => (s.endCmd c 0x3 (setBytes 0 8 1 v)).settled
    | none =>
    if s.segSlots c ≠ [] ∧ (s.segGroup c).isNone then (s.endCmd c 0x202 (reasonDetail 47 0)).settled
    else if s.segsMissing c then s
    else if c.cores.any fun n => (s.coreStates n).any fun x => decide (x = 1 ∨ x = 4) then s
    else match c.cores.find? fun n => (s.coreStates n).any fun x => decide (x ≠ 2) with
    | some n => (s.endCmd c 0x202 (reasonDetail 56 n)).settled
    | none =>
      let outs := s.outKeys c p
      let knots := (p.haloKnots ++ p.stepKnots).eraseDups
      let st := s.stateTiles c pk
      if (s.patternNeeds c p st).any fun e => decide (s.poolCap e.1 c.hoop < e.2.2) then (s.endCmd c 0x202 0).settled
      else if c.cores.any fun n => decide (128 ≤ (s.flights.filter fun f => f.cores.contains n).length + s.entriesKept 0 (some n)) then s
      else if !(s.cmdCtxs c).all s.resident then s.settled
      else if knots.any fun k => s.knotHeld c.hoop k then s
      else if (outs ++ s.stateKeys c).any s.moving then s
      else
        let (s, ok) := s.reserve c (s.patternNeeds c p st)
        if !ok then s.startMoves
        else
          let (s, ok) := s.meetBudget c.hoop c.cq ((outs.filter fun k => decide ((s.obj k).tier = 3)).map fun k => (k, (s.obj k).loc, (s.obj k).ntiles))
          if !ok then s
          else
            let (s, id) := s.fresh
            let f := s.patternFlight id c pk
            let key := c.hoop * 64 + c.cq
            let s : State := { s with
              allocs := s.allocs.map (fun (a : Alloc) => if a.holder = Holder.head key then { a with holder := .cmd id } else a),
              heldKnots := s.heldKnots ++ knots.map fun k => (⟨knotKey c.hoop k, s.knot c.hoop k, c.cq, id⟩ : HeldKnot) }
            let s : State := s.beginCmd f
            let entries := p.prefetchList
            let s :=
              if (s.reg (R.WALK_DEPTH c.hoop)).toNat = 0 ∨ entries = [] then s
              else if 256 ≤ s.walks.length then s.addReg (R.WALK_SKIP_COUNT c.hoop) 1
              else ({ s with walks := s.walks ++ [(⟨id, c.hoop, c.coreMask, entries, [], 0⟩ : Walk)] }).walkBegin id 0
            (s.startMoves.settled).finish id

/-- RUN_PATTERN: the pattern at the head of a queue begins, or waits, or ends. -/
def doRunPattern (h q : Nat) (s : State) : State :=
  match s.headOp h q 1 with
  | some c => if c.armOnly then s else s.beginPattern c
  | none => s

/-! ## Choosing a step (R137, R285, R318, R401) -/

/-- Base of a held knot (R402). -/
def State.knotBase (s : State) (id h k : Nat) : W32 :=
  match s.heldKnots.find? fun x => decide (x.cmd = id ∧ x.knot = knotKey h k) with | some x => x.base | none => 0

/-- Progress of a held knot since its base. -/
def State.knotGain (s : State) (f : InFlight) (k : Nat) : Nat := (s.knot f.cmd.hoop k - s.knotBase f.id f.cmd.hoop k).toNat

/-- Objects a step may read: its bound sources, and every state object for attention and recurrence steps. [DEDUCED, log entry 110] -/
def InFlight.stepObjs (f : InFlight) (t : Step) : List Nat :=
  let srcs := (stepReads t).map fun d => dSource (f.patObj.pDesc d)
  (srcs.filterMap fun i => f.binds[i]?) ++ (if 0x20 ≤ stOp t then (f.outs.map (·.obj)).filter fun k => !f.binds.contains k else [])

/-- Does an earlier, uncommitted command of the same queue still write something the step reads (R137)? [DEDUCED, log entries 33, 110] -/
def State.readsPending (s : State) (f : InFlight) (t : Step) : Bool :=
  (f.stepObjs t).any (s.earlierWrites f.cmd)

/-- Is the next step of stream `k` able to start, turns aside? [DEDUCED, log entry 110] -/
def State.able (s : State) (f : InFlight) (k : Nat) : Bool :=
  match f.nextStep k with
  | none => false
  | some t =>
    f.fail.isNone && !s.readsPending f t &&
    (if stOp t = 3 then (if stFlag t 0 then decide (s.knotGain f (st2 t 4) = st4 t 8) else decide (st4 t 8 ≤ s.knotGain f (st2 t 4)))
     else if stOp t = 0x18 then decide (st2 t 22 ≤ s.knotGain f (st2 t 20 + 1) + 2)
     else if stOp t = 0x19 then decide (st2 t 22 ≤ s.knotGain f (st2 t 20))
     else true)

/-- The stream of a command on a core. -/
def InFlight.streamOn (f : InFlight) (core : Nat) : Option Nat := f.streams.findIdx? fun t => decide (t.core = core)

/-- Does a step run on the core? -/
def State.coreBusy (s : State) (core : Nat) : Bool := s.flights.any fun f => f.streams.any fun t => decide (t.core = core) && t.running

/-- The earliest-begun command of a hoop in the core's window with a step able to start (R285). -/
def State.nextOn (s : State) (core : Nat) (hoops : Nat → Bool) : Option (InFlight × Nat) :=
  s.flights.findSome? fun f => if hoops f.cmd.hoop then (f.streamOn core).bind fun k => if s.able f k then some (f, k) else none else none

/-! ## Turns on a shared cluster (R408) -/

/-- Has the hoop a step able to start on some core of the cluster? -/
def State.hoopAble (s : State) (n h : Nat) : Bool :=
  s.flights.any fun f => decide (f.cmd.hoop = h) && f.streams.zipIdx.any fun e => decide (e.1.core / 8 = n) && !e.1.running && s.able f e.2

/-- Has the hoop a step running or able to start on the cluster? -/
def State.hoopHasWork (s : State) (n h : Nat) : Bool :=
  s.hoopAble n h || s.flights.any fun f => decide (f.cmd.hoop = h) && f.streams.any fun t => decide (t.core / 8 = n) && t.running

/-- Share of a hoop on a cluster; 1 for one whose share fell to 0 while it has a begun command there (R407). -/
def State.shareOf (s : State) (n h : Nat) : Nat :=
  let v := s.shareNow n h
  if v ≠ 0 then v else b2n (s.flights.any fun f => decide (f.cmd.hoop = h) && f.cores.any fun c => decide (c / 8 = n))



/-- Pass turns on from hoop `h` until one opens: hoops without share or without a step able to start are passed over, a deficit of a whole turn is worked
off (R408). -/
def State.passTurn (s : State) (n h : Nat) : Nat → State
  | 0 => s
  | fuel + 1 =>
    let g := (h + 1) % 16
    let t := s.turn n
    let full := (s.force R.SCH_TURN_US).toNat * 1000 * s.shareOf n g
    let d := mget 0 t.deficit g
    if s.shareOf n g = 0 ∨ s.hoopAble n g = false then s.passTurn n g fuel
    else if full ≤ d then (s.setTurn n { t with deficit := mset 0 t.deficit g (d - full) }).passTurn n g fuel
    else (s.setTurn n { t with active := true, hoop := g, start := s.now, limit := full - d, deficit := mset 0 t.deficit g 0,
                                  shares := (List.range 16).map fun h => (s.reg (R.SHARE h n)).toNat }).setReg (R.SCH_TURN_HOOP n) (w32 (g + 256))

/-- Enough passes: each works off a whole turn of some hoop's deficit, or passes over one hoop. -/
def State.turnFuel (s : State) (n : Nat) : Nat := 16 * ((s.turn n).deficit.foldl (fun a e => max a e.2) 0 / 1000 + 2)

/-- Open a turn on a shared cluster that runs none. -/
def State.openTurn (s : State) (n : Nat) : State :=
  if bit (s.reg (R.SCH_CLUSTER n)) 0 ∧ (s.turn n).active = false ∧ (List.range 16).any (fun h => s.hoopAble n h) = true then
    s.passTurn n (s.turn n).hoop (s.turnFuel n) else s

/-- TURN_END: the turn of a shared cluster ends, at its limit or when its hoop has nothing to run, and the next opens (R408). -/
def doTurnEnd (n : Nat) (s : State) : State :=
  let t := s.turn n
  if t.active = false ∨ (s.now < t.start + t.limit ∧ s.hoopHasWork n t.hoop = true) then s
  else
    let s := (s.setTurn n { t with active := false, ends := mset 0 t.ends t.hoop (min s.now (t.start + t.limit)) }).setReg (R.SCH_TURN_HOOP n) 0
    s.openTurn n

/-- May a step of the hoop start on the core now: any on an exclusive cluster, the turn's hoop on a shared one? -/
def State.turnAdmits (s : State) (core h : Nat) : Bool :=
  let n := core / 8
  !bit (s.reg (R.SCH_CLUSTER n)) 0 || ((s.turn n).active && decide ((s.turn n).hoop = h ∧ s.now < (s.turn n).start + (s.turn n).limit))

/-! ## Running a step -/



/-- Bytes of the elements and scales that a descriptor lays out (R261, R292). -/
def dBytes (d : Desc) : Nat :=
  if dImage d then dN d * dC d * dH d * dW d * elemBits (dFormat d) / 8 + (if dFormat d = 8 then dN d * dC d / 32 * dH d * dW d * 2 else 0)
  else dRows d * rowBytes d + (if isBlockFmt (dFormat d) then dRows d * dCols d / 32 * scaleBytes (dFormat d) else 0)

/-- Object a step's source names, as the command holds it: a binding's, or the pattern for its constant area. -/
def InFlight.sourceObj (f : InFlight) (src : Nat) : Option Nat := if src = 0x12 then some f.pat else if 0x10 ≤ src then none else f.binds[src]?

/-- `n` bytes between a core and a place: those outside its own SRAM and its cluster's ground buffer pass through the cluster's port (R15),
counted by direction as the cluster sees it (R290). [DESIGN CHOICE, log entry 4] -/
def State.portBytes (s : State) (core tier loc n : Nat) (write : Bool) : State :=
  let u := core / 8
  if tier = 0 ∨ (tier = 1 ∧ loc = u) then s else s.addPieces (if write then R.CL_PORT_WR_MIB u else R.CL_PORT_RD_MIB u) (2 ^ 20) n

/-- What a step reads and writes outside its core, as traffic: its cluster's port (R290), and for what it reads, state objects included, the
counters of the DRAM stacks and the tokens of its hoop (R202, R206, R411); what it wrote is drawn at the commit.
[DESIGN CHOICE, log entry 4; DEDUCED, log entry 46] -/
def State.stepTraffic (s : State) (f : InFlight) (core k idx : Nat) (t : Step) (x : StepOut) : State :=
  let own := (s.viewOf f core k idx t).stateReads
  let s := ((own.map (·.1)).eraseDups).foldl (fun (s : State) j =>
    let l := (own.filter fun e => decide (e.1 = j)).map fun e => (e.2.1 / 4096, e.2.2)
    (s.portBytes core (s.obj j).tier (s.obj j).loc (l.foldl (fun (a : Nat) e => a + e.2) 0) false).transfer f.cmd.hoop false (s.obj j).tier (s.obj j).loc l (.step f.id k)) s
  let s := if x.empty then s else (stepReads t).foldl (fun (s : State) d =>
    let d := f.patObj.pDesc d
    match f.sourceObj (dSource d) with
    | none => s
    | some j => let o := s.obj j; (s.portBytes core o.tier o.loc (dBytes d) false).transfer f.cmd.hoop false o.tier o.loc [(dOffset d / 4096, dBytes d)] (.step f.id k)) s
  let s := x.patches.foldl (fun (s : State) (e : Nat × Nat × List Byte) =>
    if 256 ≤ e.1 then s.portBytes core 1 (e.1 - 256) e.2.2.length true
    else match f.sourceObj e.1 with
    | none => s
    | some k => s.portBytes core (s.obj k).tier (s.obj k).loc e.2.2.length true) s
  x.objPatches.foldl (fun (s : State) (e : Nat × Nat × List Byte) => s.portBytes core (s.obj e.1).tier (s.obj e.1).loc e.2.2.length true) s

/-- Does a step write an operand that lies in T0 of another core (R274)? -/
def State.outElsewhere (s : State) (f : InFlight) (core : Nat) (t : Step) : Bool :=
  (stepOperands t).2.any fun e =>
    !(e.2 && !hasOpd t e.1) && (match f.sourceObj (dSource (f.patObj.pDesc (st2 t e.1))) with
      | some k => decide ((s.obj k).tier = 0 ∧ (s.obj k).loc ≠ core)
      | none => false)

/-- A step starts on a core: its layer begins (R286), it is running. [DEDUCED, log entry 36] -/
def State.startStep (s : State) (f : InFlight) (k : Nat) (t : Step) : State :=
  let l := stLayer t
  let turn := s.turn ((f.streams[k]?.map (·.core)).getD 0 / 8)
  let f' := { f with streams := f.streams.modify k (fun x => { x with running := true, due := turn.start + turn.limit }), layersBegun := if l ∈ f.layersBegun then f.layersBegun else l :: f.layersBegun }
  let s := (s.setFlight f').awake
  if l ∈ f.layersBegun then s else s.walkBegin f.id l

/-- Run the next step of a core when it is one that `op` selects: `act` gives what it writes. A failure ends the command. [DEDUCED, log entry 36] -/
def State.runStep (s : State) (core : Nat) (op : Nat → Bool) (act : StepRun → Except StepErr StepOut) : State :=
  let s := s.openTurn (core / 8)
  if s.coreBusy core ∨ s.isOn .core core = false then s
  else match s.nextOn core (s.turnAdmits core) with
  | none => s
  | some (f, k) =>
    match f.nextStep k with
    | none => s
    | some t =>
      if !op (stOp t) then s
      else
        let idx := (f.streams[k]?.map (·.step)).getD 0
        let out := match act (s.viewOf f core k idx t) with
          | .error e => Except.error e
          | .ok x => if !x.empty && s.outElsewhere f core t then .error (0x202, reasonDetail 25 idx) else .ok x
        match out with
        | .error e =>
          let s := if e.1 = 0x300 then s.addReg (R.TILE_CHECK_COUNT f.cmd.hoop) 1 else s
          (s.setFlight { f with fail := some e, streams := f.streams.modify k (fun x => { x with running := true }) }).settled
        | .ok x =>
          let f' := f.applyOut core x
          let s := ((s.addReg (R.SAT_COUNT core) x.cnt.sat).addReg (R.NAN_OUT_COUNT core) x.cnt.nan).stepTraffic f core k idx t x
          
          s.startStep f' k t

/-- Layers that every stream of a command has finished. -/
def InFlight.layersOver (f : InFlight) : Nat :=
  (f.streams.zipIdx).foldl (fun m (e : Stream × Nat) => min m (if e.1.done then f.patObj.pNlayers else stLayer (f.patObj.pStep e.2 e.1.step))) f.patObj.pNlayers

/-- The command with the running step of stream `k` done: the stream stands at its next step, or is finished. -/
def InFlight.advance (f : InFlight) (k : Nat) : InFlight :=
  let g := { f with streams := f.streams.modify k fun x => { x with step := x.step + 1, running := false, done := decide ((f.patObj.pStream k).2 ≤ x.step + 1) } }
  { g with layersDone := g.layersOver }

/-- The step of stream `k` on a core is done: the core's counters (R289) and its cluster's (R290) rise; a step that outlasts its hoop's turn becomes
the hoop's deficit (R408). [DESIGN CHOICE, log entry 4] -/
def State.countStep (s : State) (core slots vec bank stage knot port : Nat) (f : InFlight) (k : Nat) : State :=
  let s := s.setFlight (f.advance k)
  let s := (s.addReg (R.STEPS_DONE core) 1).addReg (R.ARRAY_ISSUE_SLOTS core) slots
  let s := (s.addReg (R.VECTOR_BUSY_CYCLES core) vec).addReg (R.BANK_STALL_CYCLES core) bank
  let s := ((s.addReg (R.STAGE_STALL_CYCLES core) stage).addReg (R.KNOT_STALL_CYCLES core) knot).addReg (R.CL_PORT_WAIT_CYCLES (core / 8)) port
  let n := core / 8
  let t := s.turn n
  let due := (f.streams[k]?.map (·.due)).getD 0
  if bit (s.reg (R.SCH_CLUSTER n)) 0 ∧ due < s.now then s.setTurn n { t with deficit := mset 0 t.deficit f.cmd.hoop (s.now - due) } else s

/-- What follows a step: the walks of the layers it completed (`done` to `upto`), and the command's completion when it was the last (R193, R286, R287). -/
def State.afterStep (s : State) (id done upto : Nat) : State := ((List.range (upto - done)).foldl (fun (s : State) i => s.walkEnd id (done + i)) s).finish id

/-- The step running on a core ends (R285 to R287); `mid` follows its count. [DEDUCED, log entry 36] -/
def State.endStep (s : State) (core slots vec bank stage knot port : Nat) (mid : State → State) : State :=
  match s.flights.find? fun f => f.streams.any fun t => decide (t.core = core) && t.running with
  | none => s
  | some f =>
    match f.streams.findIdx? fun t => decide (t.core = core) && t.running with
    | none => s
    | some k => (mid (s.countStep core slots vec bank stage knot port f k)).afterStep f.id f.layersDone (f.advance k).layersDone

/-- Does the core's running step wait for requests that found no tokens (R412)? -/
def State.stepHeld (s : State) (core : Nat) : Bool :=
  s.flights.any fun f => f.streams.zipIdx.any fun e => decide (e.1.core = core) && e.1.running && s.drawHeld (.step f.id e.2)

/-- STEP_COMPLETE: a core's step ends, once its requests have been issued (R412). The operands are what the core, and its cluster's port for it, counted during it.
[DEDUCED, log entry 42] -/
def doStepComplete (core slots vec bank stage knot port : Nat) (s : State) : State := if s.stepHeld core then s else (s.endStep core slots vec bank stage knot port id).startMoves

/-! ## The kinds of step -/

def doGemm (core : Nat) (s : State) : State := s.runStep core (fun o => decide (o = 1)) StepRun.gemm
def doVector (core : Nat) (s : State) : State := s.runStep core (fun o => decide (o = 2)) StepRun.vector
def doConv (core : Nat) (s : State) : State := s.runStep core (fun o => decide (o = 0x10)) StepRun.conv
def doDwconv (core : Nat) (s : State) : State := s.runStep core (fun o => decide (o = 0x11)) StepRun.dwconv
def doPool (core : Nat) (s : State) : State := s.runStep core (fun o => decide (o = 0x12)) StepRun.pool
def doResize (core : Nat) (s : State) : State := s.runStep core (fun o => decide (o = 0x13)) StepRun.resize
def doArgmax (core : Nat) (s : State) : State := s.runStep core (fun o => decide (o = 0x14)) StepRun.argmax
def doBoxdec (core : Nat) (s : State) : State := s.runStep core (fun o => decide (o = 0x15)) StepRun.boxdec
def doKvAppend (core : Nat) (s : State) : State := s.runStep core (fun o => decide (o = 0x20)) StepRun.kvAppend
def doAttnFwd (core : Nat) (s : State) : State := s.runStep core (fun o => decide (o = 0x21)) StepRun.attnFwd
def doAttnBwd (core : Nat) (s : State) : State := s.runStep core (fun o => decide (o = 0x22)) StepRun.attnBwd
def doRecLinear (core : Nat) (s : State) : State := s.runStep core (fun o => decide (o = 0x28)) StepRun.recLinear
def doRecGru (core : Nat) (s : State) : State := s.runStep core (fun o => decide (o = 0x29)) (StepRun.recGated · false)
def doRecLstm (core : Nat) (s : State) : State := s.runStep core (fun o => decide (o = 0x2A)) (StepRun.recGated · true)

/-- The command whose step runs on a core, with the step. -/
def State.running (s : State) (core : Nat) : Option (InFlight × Step) :=
  s.flights.findSome? fun f => (f.streams.findIdx? fun t => decide (t.core = core) && t.running).bind fun k => (f.nextStep k).map fun t => (f, t)

/-- Add to a held knot from a step of its own command (R318, R401). -/
def State.stepAdd (s : State) (f : InFlight) (k : Nat) (n : W32) : State :=
  ((s.setKnot f.cmd.hoop k (s.knot f.cmd.hoop k + n)).testWaits f.cmd.hoop k).settled

/-- KNOT_WAIT step: satisfied, it starts and ends (R285, R401). `cyc` cycles passed with no step able to start. [DEDUCED, log entry 42] -/
def doKnotWaitStep (core cyc : Nat) (s : State) : State :=
  let s' := s.runStep core (fun o => decide (o = 3)) fun _ => .ok StepOut.none
  match s'.running core with
  | some (_, t) => if stOp t = 3 then s'.endStep core 0 0 0 0 cyc 0 id else s'
  | none => s'

/-- KNOT_SIGNAL step: it performs its ADD when it ends (R401). [DEDUCED, log entry 42] -/
def doKnotSignalStep (core : Nat) (s : State) : State :=
  let s' := s.runStep core (fun o => decide (o = 4)) fun _ => .ok StepOut.none
  match s'.running core with
  | some (f, t) => if stOp t = 4 then (s'.setKnot f.cmd.hoop (st2 t 4) (s'.knot f.cmd.hoop (st2 t 4) + w32 (st4 t 8))).endStep core 0 0 0 0 0 0 fun u => (u.testWaits f.cmd.hoop (st2 t 4)).settled
    else s'
  | none => s'

/-- HALO_PUT: the rows go to the consumer's slot; when every byte is written READY rises by 1 (R318). [DEDUCED, log entry 42] -/
def doHaloPut (core : Nat) (s : State) : State :=
  if s.coreBusy core then s else
  let s' := s.runStep core (fun o => decide (o = 0x18)) fun x => x.haloPut ((x.f.cores.getD (st1 x.t 10) 0) / 8)
  match s'.running core with
  | some (f, t) => if stOp t = 0x18 ∧ f.fail = none then s'.stepAdd f (st2 t 20) 1 else s'
  | none => s'

/-- HALO_GET: the slot's rows go into the image; when the copy is complete FREE rises by 1 (R318). [DEDUCED, log entry 42] -/
def doHaloGet (core : Nat) (s : State) : State :=
  if s.coreBusy core then s else
  let s' := s.runStep core (fun o => decide (o = 0x19)) StepRun.haloGet
  match s'.running core with
  | some (f, t) => if stOp t = 0x19 ∧ f.fail = none then s'.stepAdd f (st2 t 20 + 1) 1 else s'
  | none => s'

/-! ## Meanings -/

def execRunPattern (h : Fin 16) (q : Fin 64) (s : State) : Out := run (doRunPattern h q) s
def execGemm (core : Fin 64) (s : State) : Out := run (doGemm core) s
def execVector (core : Fin 64) (s : State) : Out := run (doVector core) s
def execKnotWaitStep (core : Fin 64) (cyc : W32) (s : State) : Out := run (doKnotWaitStep core cyc.toNat) s
def execKnotSignalStep (core : Fin 64) (s : State) : Out := run (doKnotSignalStep core) s
def execConv (core : Fin 64) (s : State) : Out := run (doConv core) s
def execDwconv (core : Fin 64) (s : State) : Out := run (doDwconv core) s
def execPool (core : Fin 64) (s : State) : Out := run (doPool core) s
def execResize (core : Fin 64) (s : State) : Out := run (doResize core) s
def execArgmax (core : Fin 64) (s : State) : Out := run (doArgmax core) s
def execBoxdec (core : Fin 64) (s : State) : Out := run (doBoxdec core) s
def execHaloPut (core : Fin 64) (s : State) : Out := run (doHaloPut core) s
def execHaloGet (core : Fin 64) (s : State) : Out := run (doHaloGet core) s
def execKvAppend (core : Fin 64) (s : State) : Out := run (doKvAppend core) s
def execAttnFwd (core : Fin 64) (s : State) : Out := run (doAttnFwd core) s
def execAttnBwd (core : Fin 64) (s : State) : Out := run (doAttnBwd core) s
def execRecLinear (core : Fin 64) (s : State) : Out := run (doRecLinear core) s
def execRecGru (core : Fin 64) (s : State) : Out := run (doRecGru core) s
def execRecLstm (core : Fin 64) (s : State) : Out := run (doRecLstm core) s
def execStepComplete (core : Fin 64) (slots vec bank stage knot port : W32) (s : State) : Out :=
  run (doStepComplete core slots.toNat vec.toNat bank.toNat stage.toNat knot.toNat port.toNat) s
def execTurnEnd (n : Fin 8) (s : State) : Out := run (doTurnEnd n) s

end Sys2Proof.Machine
end

