-- ==== Sys2Proof/Machine/Sched.lean ====
section
/-! DEFINITION. Knots as commands and windows reach them (R393 to R405), clusters and shares (R406, R407), regulators (R411,
R412), pre-emption (R415 to R420). -/

namespace Sys2Proof.Machine

/-! ## Knot commands (R398, R399) -/

/-- KNOT_WAIT at the head of a queue: satisfied, it is complete (R395, R398). -/
def doKnotWait (h q : Nat) (s : State) : State :=
  match s.headOp h q 3 with
  | none => s
  | some c =>
    let v := s.knot h c.knot
    if knotCond c.knotOp v c.knotValue then ((s.beginDone c 0 (detailOf [(40, 4, v.toNat)])).addReg (R.KN_WAIT_COUNT h) 1).settled else s

/-- KNOT_WAIT_TIMEOUT: the position has reached the head's count plus TIMEOUT (R398). -/
def doKnotWaitTimeout (h q : Nat) (s : State) : State :=
  match s.headOp h q 3 with
  | none => s
  | some c =>
    let v := s.knot h c.knot
    if c.knotTimeout = 0 ∨ s.count < (s.cq h q).headSince + c.knotTimeout ∨ knotCond c.knotOp v c.knotValue = true then s
    else ((s.beginDone c 2 (detailOf [(40, 4, v.toNat)])).addReg (R.KN_TIMEOUT_COUNT h) 1).settled

/-- KNOT_SIGNAL begins at once; its operation is applied at its commit (R399, R400). -/
def doKnotSignal (h q : Nat) (s : State) : State :=
  match s.headOp h q 4 with
  | some c => if c.knotRemote = true ∧ s.peerUp c.knotPeer = false then (s.endCmd c 0x202 (reasonDetail 44 0)).settled else (s.beginDone c 0 0).settled
  | none => s

/-! ## The knot window and the knot pages (R396, R404, R405) -/

/-- A write of function `f` to hoop `h`'s region of the knot window (R84, R109). -/
def State.knotWindow (s : State) (f h : Nat) (act : State → State) : State :=
  if f ≠ 0 ∧ f ≠ h then s.viewViolation
  else if !s.domainOn .compute then s.addReg R.BAD_ACCESS_COUNT 1
  else act s

/-- KW_ADD (R396). -/
def doKwAdd (f h k : Nat) (v : W32) (s : State) : State := s.knotWindow f h fun s => (s.knotOp h k false v true).settled

/-- KW_RESET (R396): any write. -/
def doKwReset (f h k : Nat) (s : State) : State := s.knotWindow f h fun s => (s.knotOp h k true 0 true).settled

/-- Enabled entries of a knot check: entry and knot. -/
def State.chkEntries (s : State) (h : Nat) : List (Nat × Nat) :=
  (List.range 16).filterMap fun i => let v := s.reg (R.CHK_KNOT h i); if bit v 31 then some (i, fld v 0 31) else none

/-- CHK_RESULT: DONE, RESULT, LEAK_MASK. -/
def State.chkResult (s : State) (h res mask : Nat) : State := s.setReg (R.CHK_RESULT h) (w32 (1 + 16 * res + 2 ^ 16 * mask))

/-- Is hoop `h`'s check open? -/
def State.chkIsOpen (s : State) (h : Nat) : Bool := mget false s.chkOpen h

/-- CHK_CMD OPEN (R404, R421). -/
def doChkOpen (f h : Nat) (s : State) : State :=
  s.command f (R.CHK_CMD h) fun s =>
    let es := s.chkEntries h
    if s.chkIsOpen h then s.chkResult h 3 0
    else if es.any fun e => decide (16383 < e.2) then s.chkResult h 4 0
    else
      let s := es.foldl (fun s e => s.setReg (R.CHK_OPEN_VAL h e.1) (s.knot h e.2)) s
      ({ s with chkOpen := mset false s.chkOpen h true }).chkResult h 0 0

/-- CHK_CMD CLOSE (R404, R421). -/
def doChkClose (f h : Nat) (s : State) : State :=
  s.command f (R.CHK_CMD h) fun s =>
    let es := s.chkEntries h
    if !s.chkIsOpen h then s.chkResult h 2 0
    else if es.any fun e => decide (16383 < e.2) then s.chkResult h 4 0
    else
      let mask : Nat := es.foldl (fun (a : Nat) (e : Nat × Nat) => if s.knot h e.2 = s.reg (R.CHK_OPEN_VAL h e.1) then a else a + 2 ^ e.1) 0
      let s := es.foldl (fun s e => s.setReg (R.CHK_CLOSE_VAL h e.1) (s.knot h e.2)) s
      let s := { s with chkOpen := mset false s.chkOpen h false }
      if mask = 0 then s.chkResult h 0 0 else (s.addReg (R.KN_LEAK_COUNT h) 1).chkResult h 1 mask

/-- KDBG_SET: a hand-set of the knot KDBG_SEL selects (R405, R422). [DEDUCED, log entry 45] -/
def doKdbgSet (f : Nat) (v : W32) (s : State) : State :=
  s.reach f R.KDBG_SET fun s =>
    let sel := s.reg R.KDBG_SEL
    let k := fld sel 0 14
    let h := fld sel 16 4
    let held := s.knotHeld h k
    let e : KdbgLog := ⟨s.count, h, k, s.knot h k, v, held⟩
    let s := ({ s with kdbg := (e :: s.kdbg).take 16 }).addReg R.KDBG_SET_COUNT 1
    if held then s.addReg (R.KN_HELD_DISCARDS h) 1
    else ((((s.orReg R.DEV_STATUS 2).orReg (R.KN_STATUS h) 1).setKnot h k v).testWaits h k).settled

/-! ## Clusters, shares, regulators (R406, R407, R412, R424) -/

/-- HOOP_OWNER of a cluster and its cores follows its mode (R406). -/
def State.ownCluster (s : State) (n : Nat) (v : W32) : State :=
  let own := if bit v 0 then w32 (2 ^ 9) else w32 (fld v 4 4)
  let s := s.setReg (R.HOOP_OWNER (pageOf .cluster n)) own
  -- the core pages read FIXED = 1 (R86)
  (List.range 8).foldl (fun s i => s.setReg (R.HOOP_OWNER (pageOf .core (8 * n + i))) (own ||| 0x100)) s

/-- Assign cluster `n` (R406, R407): only while it is OFF or FENCED. The expert unlock of its pages closes, their faults go to
hoop 0, those of the core pages to their owner (R97, R112), and a change of owner leaves their storage to be zeroed (R540). [DEDUCED, log entry 23] -/
def State.assignCluster (s : State) (n : Nat) (v : W32) : State :=
  let st := s.blkState (pageOf .cluster n)
  if st ≠ 0 ∧ st ≠ 5 then s.orReg R.SCH_FLAGS 1
  else
    let old := s.reg (R.HOOP_OWNER (pageOf .cluster n))
    let s := (s.setReg (R.SCH_CLUSTER n) v).ownCluster n v
    let own := fun (k : Nat) => s.reg (R.HOOP_OWNER (pageOf .cluster k))
    let pages := pageOf .cluster n :: (List.range 8).map fun i => pageOf .core (8 * n + i)
    let changed := decide (own n ≠ old)
    -- on a page with FIXED = 1 the fault route's hoop is the owner (R112)
    let s := pages.foldl (fun s p => (s.setReg (R.EXPERT_KEY p) 0).setReg (R.FAULT_ROUTE p) (if bit (s.reg (R.HOOP_OWNER p)) 8 then w32 (fld (s.reg (R.HOOP_OWNER p)) 0 4) else 0)) s
    let s := if changed then { s with zeroOwed := pages.foldl (fun m p => mset false m p true) s.zeroOwed } else s
    (s.setTurn n { s.turn n with active := false }).setReg (R.SCH_TURN_HOOP n) 0

/-- SCH_CLUSTER_WRITE. -/
def doSchClusterWrite (f n : Nat) (v : W32) (s : State) : State :=
  s.reach f (R.SCH_CLUSTER n) fun s => s.assignCluster n (applyLimit (.fields [(0,1,0,1), (4,4,0,15)]) v)

/-- SHARE_WRITE: in force at the cluster's next turn boundary (R407), at once where it runs no turn. [DESIGN CHOICE, log entry 138] -/
def doShareWrite (f n h : Nat) (v : W32) (s : State) : State :=
  s.reach f (R.SHARE h n) fun s => s.setReg (R.SHARE h n) (applyLimit (.whole 0 255) v)

/-- REGULATOR_WRITE of REG_RATE (0), REG_BURST (1) or REG_WEIGHT (2): the tokens rise at the old rate up to now and are cut to a
lowered BURST (R424). -/
def doRegulatorWrite (f h r which : Nat) (v : W32) (s : State) : State :=
  let a := if which = 0 then R.REG_RATE r h else if which = 1 then R.REG_BURST r h else R.REG_WEIGHT r h
  s.reach f a fun s =>
    let s := s.setBucket h r (s.bucket h r)
    let s := s.setReg a (if which = 0 then v else if which = 1 then applyLimit (.whole 4 1048576) v else applyLimit (.whole 0 255) v)
    s.setBucket h r (s.bucket h r)

/-- Bytes that one unit of weight gives a turn at a port. -/
def quantum : Nat := 4096

/-- The hoop that the port of resource `r` serves now, with the bytes left of its turn (R17, R413): the one whose turn it is while it asks and has
bytes left; else the next hoop of non-zero weight that asks, in cyclic order, less what its last turn overdrew; a hoop of weight 0 only where no
other asks. [DEDUCED, log entry 46] -/
def State.portTurn (s : State) (r : Nat) : Option (Nat × Int) :=
  let cur := mget (0, 0) s.turnsOf r
  let order := (List.range 16).map fun k => (cur.1 + 1 + k) % 16
  if 0 < cur.2 ∧ s.portAsks r cur.1 = true ∧ 0 < s.weight r cur.1 then some cur
  else match order.find? fun h => s.portAsks r h && decide (0 < s.weight r h) with
    | some h => some (h, (s.weight r h * quantum : Nat) + (mget (0, 0) s.turnsOf (4 + 16 * r + h)).2)
    | none => (order.find? fun h => s.portAsks r h).map fun h => (h, 1)

/-- A request of `n` bytes is issued in hoop `h`'s turn at resource `r`: what overdraws the turn counts against the hoop's next one. [DEDUCED, log entry 46] -/
def State.spendTurn (s : State) (r h n : Nat) (left : Int) : State :=
  let left := left - n
  { s with turnsOf := mset (0, 0) (mset (0, 0) s.turnsOf r (h, left)) (4 + 16 * r + h) (0, min left 0) }

/-- TOKEN_ISSUE: in its hoop's turn, the oldest request held for tokens, of at most 4,096 bytes, is issued once its bucket holds some again
(R412, R413); a message all of whose bytes are issued goes out. [DEDUCED, log entry 46] -/
def doTokenIssue (h r : Nat) (s : State) : State :=
  let b := s.bucket h r
  match b.waiting, s.portTurn r with
  | (n, since, f) :: rest, some turn =>
    if turn.1 = h then
      let k := min n 4096
      let b' := { b with waiting := if k < n then (n - k, since, f) :: rest else rest, tokens := if s.noBucket h r then b.tokens else b.tokens - k }
      let s := (((s.spendTurn r h k turn.2).setBucket h r b')).addReg (R.OWN_THROTTLE h r) (s.now - since)
      match f with
      | .msg p ticket => if k < n then s else s.launchHeld p ticket
      | _ => s
    else s
  | _, _ => s

/-- Bytes of T1 scratch that commands hold in a cluster: begun ones, and heads that have obtained it and still wait (R276, R284, R290). -/
def State.clusterReserved (s : State) (n : Nat) : Nat :=
  s.clusterHeld n + (s.cqs.filterMap fun e => e.2.head).foldl (fun a c =>
    match (if c.opcode = 1 then s.resolve c.hoop c.pattern else none) with
    | none => a
    | some pk =>
      (((s.allocs.filter fun x => decide (x.holder = Holder.head (c.hoop * 64 + c.cq))).take (c.scratchCount (s.obj pk))).filter fun x =>
        decide (x.tier = 1 ∧ x.unit = n)).foldl (fun a x => a + x.bytes) a) 0

/-- CL_GB_HASH_WRITE (R290): only while no command holds T1 scratch in the cluster and no object is homed in its ground buffer. -/
def doClGbHashWrite (f n : Nat) (v : W32) (s : State) : State :=
  s.reach f (R.CL_GB_HASH n) fun s =>
    let homed := s.objs.any fun e => e.2.used && e.2.homed && decide (e.2.tier = 1 ∧ e.2.loc = n)
    if s.clusterReserved n ≠ 0 ∨ homed = true then s.accessRefused .cluster n else s.setReg (R.CL_GB_HASH n) (applyLimit (.fields [(0,1,0,1)]) v)

/-! ## Pre-emption (R415 to R420, R423) -/

/-- The hoop a scheduler page serves. -/
def State.preHoop (s : State) (h : Nat) : Nat := if h = 0 then fld (s.reg (R.PRE_HOOP 0)) 0 4 else h

/-- Queues selected by PRE_MASK. -/
def State.preMask (s : State) (h : Nat) : List Nat :=
  (List.range 64).filter fun q => if q < 32 then bit (s.reg (R.PRE_MASK_LO h)) q else bit (s.reg (R.PRE_MASK_HI h)) (q - 32)

/-- PRE_RESULT: DONE, RESULT, KILLED. -/
def State.preResult (s : State) (h res killed : Nat) : State := s.setReg (R.PRE_RESULT h) (w32 (1 + 16 * res + 2 ^ 16 * killed))

/-- A PRE_CMD write of function `f` on page `h`: discarded while DONE is 0; BAD_HOOP where the hoop served is not READY. -/
def State.preCmd (s : State) (f h : Nat) (act : Nat → State → State) : State :=
  s.command f (R.PRE_CMD h) fun s =>
    if !bit (s.reg (R.PRE_RESULT h)) 0 then s
    else if (s.hoop (s.preHoop h)).phase ≠ .ready then s.preResult h 2 0
    else act (s.preHoop h) s

/-- PREEMPT (R415 to R418); `cyc` fabric cycles from the request to the last release. [DEDUCED, log entry 108] -/
def doPreempt (f h cyc : Nat) (s : State) : State :=
  s.preCmd f h fun g s =>
    let qs := (s.preMask h).filter fun q => decide ((s.cq g q).mode = .running)
    let killed := qs.foldl (fun a q => a + s.killCount g q) 0
    let s := qs.foldl (fun s q => let s := s.killQueue g q; s.setCq g q { s.cq g q with mode := .preempted }) s
    let s := s.maxReg (R.PRE_LATENCY_MAX g) cyc
    (s.preResult h 0 killed).startMoves.settled

/-- RELEASE (R420). -/
def doRelease (f h : Nat) (s : State) : State :=
  s.preCmd f h fun g s =>
    let qs := s.preMask h
    let other := qs.any fun q => decide ((s.cq g q).mode ≠ .preempted)
    let s := qs.foldl (fun s q => if (s.cq g q).mode = .preempted then s.setCq g q { s.cq g q with mode := .running } else s) s
    s.preResult h (b2n other) 0

/-! ## Meanings -/

def execKnotWait (h : Fin 16) (q : Fin 64) (s : State) : Out := run (doKnotWait h q) s
def execKnotWaitTimeout (h : Fin 16) (q : Fin 64) (s : State) : Out := run (doKnotWaitTimeout h q) s
def execKnotSignal (h : Fin 16) (q : Fin 64) (s : State) : Out := run (doKnotSignal h q) s
def execClGbHashWrite (f : Fin 16) (n : Fin 8) (v : W32) (s : State) : Out := run (doClGbHashWrite f n v) s
def execKwAdd (f h : Fin 16) (k : Fin 16384) (v : W32) (s : State) : Out := run (doKwAdd f h k v) s
def execKwReset (f h : Fin 16) (k : Fin 16384) (s : State) : Out := run (doKwReset f h k) s
def execChkOpen (f h : Fin 16) (s : State) : Out := run (doChkOpen f h) s
def execChkClose (f h : Fin 16) (s : State) : Out := run (doChkClose f h) s
def execKdbgSet (f : Fin 16) (v : W32) (s : State) : Out := run (doKdbgSet f v) s
def execSchClusterWrite (f : Fin 16) (n : Fin 8) (v : W32) (s : State) : Out := run (doSchClusterWrite f n v) s
def execShareWrite (f : Fin 16) (n : Fin 8) (h : Fin 16) (v : W32) (s : State) : Out := run (doShareWrite f n h v) s
def execRegulatorWrite (f h : Fin 16) (r : Fin 4) (which : Fin 3) (v : W32) (s : State) : Out := run (doRegulatorWrite f h r which v) s
def execTokenIssue (h : Fin 16) (r : Fin 4) (s : State) : Out := run (doTokenIssue h r) s
def execPreempt (f h : Fin 16) (cyc : W32) (s : State) : Out := run (doPreempt f h cyc.toNat) s
def execRelease (f h : Fin 16) (s : State) : Out := run (doRelease f h) s

end Sys2Proof.Machine
end

