-- ==== Sys2Proof/Machine/Fsm.lean ====
section
/-! DEFINITION. The moves of the enable state machine that every block shares (R103 to R108): what a request, a completed
start, a completed stop and a failed start do to the page's header. What a unit does with its own work is in the unit's file. -/

namespace Sys2Proof.Machine

/-- EN of a page (R94). -/
def State.en (s : State) (b : Blk) (i : Nat) : Bool := bit (s.reg (R.BLOCK_CTRL (pageOf b i))) 0

/-- A fence is requested and FENCED is not yet reached (R96). -/
def State.fencePending (s : State) (b : Blk) (i : Nat) : Bool := bit (s.reg (R.BLOCK_STATE (pageOf b i))) 7

/-- The state of instance `i` of a block (R103). -/
def State.stOf (s : State) (b : Blk) (i : Nat) : Nat := s.blkState (pageOf b i)

/-- FENCED is entered with a cause; any pending enable and the request are discarded there (R94, R108). -/
def State.enterFenced (s : State) (b : Blk) (i cause : Nat) : State :=
  let p := pageOf b i
  let s := ((s.setRegFld (R.BLOCK_STATE p) 7 1 0).setRegFld (R.BLOCK_STATE p) 4 1 0).setRegFld (R.BLOCK_STATE p) 8 3 cause
  let s := { s.setRegFld (R.BLOCK_CTRL p) 8 1 0 with fatal := mset 0 s.fatal p 0 }
  s.enterState b i 5

/-- May the block start? A host interface only while its hoop is READY (R119). -/
def State.mayStart (s : State) (b : Blk) (i : Nat) : Bool := decide (b ≠ .hostIf ∨ (s.hoop i).phase = .ready)

/-- FENCED is left for OFF or STARTING by an accepted return (R104): the cause goes and RETURN_REFUSED is cleared. [DEDUCED, log entry 15] -/
def State.leaveFenced (s : State) (b : Blk) (i : Nat) : State :=
  let p := pageOf b i
  let s := ((s.setRegFld (R.BLOCK_STATE p) 8 3 0).setRegFld (R.BLOCK_STATE p) 12 1 0).setRegFld (R.BLOCK_CTRL p) 9 1 0
  s.enterState b i (if s.en b i = true ∧ s.mayStart b i = true then 1 else 0)

/-- A return request is refused (R104): STATE and the stamp stay. [DEDUCED, log entry 15] -/
def State.refuseReturn (s : State) (b : Blk) (i : Nat) : State :=
  let p := pageOf b i
  (s.setRegFld (R.BLOCK_STATE p) 12 1 1).setRegFld (R.BLOCK_CTRL p) 9 1 0

/-- A start completes (R104, R107): ON, or STOPPING where EN is 0 or a fence is pending. It held no work. -/
def State.startDone (s : State) (b : Blk) (i : Nat) : State :=
  if s.stOf b i ≠ 1 then s
  else
    let s := s.setRegFld (R.BLOCK_STATE (pageOf b i)) 4 1 0
    if s.en b i ∧ s.fencePending b i = false then s.enterState b i 2 else s.enterState b i 3

/-- A start fails (R104): FENCED with cause 4, and START_FAIL. -/
def State.startFail (s : State) (b : Blk) (i : Nat) : State :=
  if s.stOf b i ≠ 1 then s else (s.enterFenced b i 4).raise b i 30 0x4

/-- A stop completes (R104): FENCED where a fence is pending, STARTING from PENDING_ENABLE where the block may start (R119), OFF otherwise. -/
def State.stopDone (s : State) (b : Blk) (i : Nat) : State :=
  if s.stOf b i = 4 then s.enterState b i (if s.mayStart b i then 1 else 0)
  else if s.stOf b i ≠ 3 then s
  else if s.fencePending b i then s.enterFenced b i (max 1 (mget 0 s.fatal (pageOf b i)))
  else s.enterState b i 0

/-- A block enters STOPPING from ON (R104). -/
def State.enterStopping (s : State) (b : Blk) (i : Nat) : State := s.enterState b i 3

/-- A block kills the commands of a queue (R105): a kill point of R416 without PREEMPTED; the queue fetches again at once. -/
def State.blockKill (s : State) (p : InFlight → Bool) : State :=
  (((s.flights.filter p).map fun f => (f.cmd.hoop, f.cmd.cq)).eraseDups).foldl (fun (s : State) (e : Nat × Nat) => s.killQueue e.1 e.2) s

end Sys2Proof.Machine
end

