-- ==== Sys2Proof/Machine/Links.lean ====
section
/-! DEFINITION. Package links (R425 to R446): training, flits and replay, message protection, sessions, remote moves as this
package answers them, knot signals and forwarded records from a peer. -/

namespace Sys2Proof.Machine

/-- The link `n`. -/
def State.lk (s : State) (n : Nat) : Link := mget Link.dflt s.links n

/-- Change a link. -/
def State.setLk (s : State) (n : Nat) (l : Link) : State := { s with links := mset Link.dflt s.links n l }

/-- The session with a peer. -/
def State.session (s : State) (p : Nat) : Session := mget Session.dflt s.sessions p

/-- Change a session. -/
def State.setSession (s : State) (p : Nat) (x : Session) : State := { s with sessions := mset Session.dflt s.sessions p x }

/-! ## Training, keys, takeover (R426 to R428, R433) -/

/-- Lanes MIN_WIDTH asks for (R445). [DEDUCED, log entry 55] -/
def State.minWidth (s : State) (n : Nat) : Nat := 2 ^ (1 + min 2 (fld (s.reg (R.LK_CTRL n)) 4 2))

/-- Is every lane of `w` among the lanes `m`? -/
def hasLanes (m w : Nat) : Bool := decide (BitVec.ofNat 8 m &&& BitVec.ofNat 8 w = BitVec.ofNat 8 w)

/-- The widest width of R425 whose lanes are all among the lanes `m`, 0 where none is (R426). -/
def laneWidth (m : Nat) : Nat :=
  if hasLanes m 0xFF then 8 else if hasLanes m 0x0F || hasLanes m 0xF0 then 4
  else if hasLanes m 0x03 || hasLanes m 0x0C || hasLanes m 0x30 || hasLanes m 0xC0 then 2 else 0

/-- A new key: the next epoch, CTR from 0 in both directions (R433). The first key of a link is no rekey. [DEDUCED, log entry 56] -/
def State.newKey (s : State) (n : Nat) : State :=
  let l := s.lk n
  let s := s.setLk n { l.rekey with rxCtr := none, rxNew := false }
  let s := s.setReg (R.LK_KEY_EPOCH n) (w32 ((l.epoch + 1) % 2 ^ 31))
  if l.epoch = 0 then s else s.addReg (R.LK_REKEY_COUNT n) 1

/-- A link begins to carry a session's traffic, with full credits (R431): its unacknowledged flits are replayed (R426), and messages that have gone out before
wait for the exchange of the highest delivered DSEQ (R435). [DEDUCED, log entries 57, 58] -/
def State.carry (s : State) (n : Nat) : State :=
  let l := s.lk n
  let x := s.session l.peer
  let s := s.setLk n { l with mode := .up, credits := [256, 256, 256], replays := 0 }
  let s := if l.ackSeq = l.txSeq then s else s.addReg (R.LK_RETRY_COUNT n) 1
  (s.setSession l.peer { x with lostSince := none, resync := x.resync || x.unacked.any (·.sent) }).transmit l.peer

/-- The two sides have exchanged their highest delivered DSEQ, none where nothing has been delivered: each message after it is sent again (R435).
[DEDUCED, log entry 57] -/
def State.exchange (s : State) (p : Nat) (d : Option Nat) : State :=
  let x := s.session p
  let left := x.unacked.filter fun m => match d with | some k => decide (k < m.dseq) | none => true
  (s.setSession p { x with resync := false, unacked := left.map fun (m : LinkMsg) => { m with sent := false } }).transmit p

/-- A link stops carrying traffic: the lowest STANDBY link to its peer becomes UP, or the peer becomes unreachable (R428). [DEDUCED, log entry 58] -/
def State.lostLink (s : State) (n : Nat) (mode : LinkMode) : State :=
  let l := s.lk n
  let s := s.setLk n { l with mode := mode, width := 0 }
  if l.mode ≠ .up then s
  else
    match (List.range 8).find? fun k => decide ((s.lk k).mode = .standby ∧ (s.lk k).peer = l.peer) with
    | some k => s.carry k
    | none => s.setSession l.peer { s.session l.peer with lostSince := some s.count }

/-- A retrain begins (R426, R430, R434). [DEDUCED, log entry 57] -/
def State.retrain (s : State) (n : Nat) : State := (s.lostLink n .training).addReg (R.LK_RETRAIN_COUNT n) 1

/-- The link's part of entering STARTING: it trains (R445). [DEDUCED, log entry 55] -/
def linkStart (n : Nat) (s : State) : State := s.setLk n { s.lk n with mode := .training, authAt := [], without := 0 }

/-- The link's part of entering STOPPING: nothing new is sent, and the session is kept (R445, R586). -/
def linkStop (n : Nat) (s : State) : State := s.lostLink n .down

/-- LINK_TRAINING_COMPLETE: training of link `n` ends with the lanes that meet the bit-error target and the far end's identity: the widest width of them that leaves out the lanes
in fault is taken (R426 to R428); `keyOk` says
whether both roots of trust verify each other, without which the link stays in KEYING (R523). [DEDUCED, log entry 55] -/
def doLinkTrainingComplete (n lanes peer : Nat) (keyOk : Bool) (s : State) : State :=
  let l := s.lk n
  if l.mode ≠ .training ∨ s.timePassed .link n = false then s
  else
    let good := (BitVec.ofNat 8 lanes &&& ~~~(BitVec.ofNat 8 (l.lanesOut ||| l.without))).toNat
    let w := laneWidth good
    if w < s.minWidth n then (s.setLk n { l with mode := .down, width := 0, without := 0 }).startDone .link n
    else if peer = fld (s.reg (R.LK_PKG_ID)) 0 2 ∨ peer ≠ fld (s.reg (R.LK_CTRL n)) 0 2 then
      (s.setLk n { l with mode := .down, width := 0, without := 0 }).startFail .link n
    else if !keyOk then (s.setLk n { l with mode := .keying, width := w, without := 0 }).raise .link n 0 0x700
    else
      let s := s.setLk n { l with mode := .standby, width := w, peer := peer, peerValid := true, without := 0,
                                  laneFault := (BitVec.ofNat 8 l.laneFault &&& ~~~(BitVec.ofNat 8 good)).toNat }
      let s := (s.newKey n).startDone .link n
      if s.stOf .link n ≠ 2 then s.setLk n { s.lk n with mode := .down, width := 0 }
      else if (s.upLink peer).isSome then s else s.carry n

/-- LINK_DOWN: link `n` goes down (R428). -/
def doLinkDown (n : Nat) (s : State) : State :=
  if (s.lk n).mode = .up ∨ (s.lk n).mode = .standby then s.lostLink n .down else s

/-- LINK_REKEY: a new key is taken while traffic goes on (R433). [DEDUCED, log entry 56] -/
def doLinkRekey (n : Nat) (s : State) : State :=
  if (s.lk n).mode = .up ∨ (s.lk n).mode = .standby then
    ((s.setLk n (s.lk n).rekey).setReg (R.LK_KEY_EPOCH n) (w32 (s.lk n).rekey.epoch)).addReg (R.LK_REKEY_COUNT n) 1
  else s

/-- LANE_FAULT: a lane's corrected-error rate exceeds its limit while the link is UP (R426). [DEDUCED, log entry 103] -/
def doLaneFault (n lane : Nat) (s : State) : State :=
  let l := s.lk n
  if l.mode ≠ .up then s
  else (s.setLk n { l with laneFault := l.laneFault ||| 2 ^ lane, without := l.without ||| 2 ^ lane }).retrain n

/-! ## Flits, replay, protection (R429 to R434) -/

/-- Distance from `a` to `b` in flit sequence numbers. -/
def seqDiff (a b : Nat) : Nat := (b + 4096 - a) % 4096

/-- An acknowledgment of every flit up to `a` (R429): the replay buffer gives up what it covers. -/
def ackFlits (l : Link) (a : Nat) : Link :=
  if seqDiff l.ackSeq ((a + 1) % 4096) ≤ seqDiff l.ackSeq l.txSeq ∧ (a + 1) % 4096 ≠ l.ackSeq then { l with ackSeq := (a + 1) % 4096, replays := 0 } else l

/-- Credits returned for a class (R431). -/
def addCredits (l : Link) (c n : Nat) : Link := { l with credits := l.credits.modify c (fun x => min 256 (x + n)) }

/-- A LINK_AUTH finding (R434): the fault, the count, and a retrain with new keys, or AUTH_HOLD. -/
def State.linkAuth (s : State) (n : Nat) : State :=
  let l := s.lk n
  let recent := (l.authAt.filter fun t => decide (s.now < t + 1000000000)) ++ [s.now]
  let s := ((s.setLk n { l with authAt := recent }).raise .link n 0 0x700).addReg (R.LK_AUTH_COUNT n) 1
  if (s.force (R.LK_AUTH_LIMIT n)).toNat ≤ recent.length then s.lostLink n .authHold else s.retrain n

/-- The checks of a message that a flit completes (R434): `tag` 1 its tag matches, 2 it does not or the type is reserved. [DEDUCED, log entry 101] -/
def State.checkMsg (s : State) (n tag ctr : Nat) : State :=
  let l := s.lk n
  -- the first message of a new epoch has CTR 0 (R433)
  let next := if l.rxNew = true ∧ ctr = 0 then 0 else match l.rxCtr with | none => 0 | some c => c + 1
  if ctr < next then (s.raise .link n 1 0x701).addReg (R.LK_REPLAY_COUNT n) 1
  else if next < ctr ∨ tag ≠ 1 then s.linkAuth n
  else s.setLk n { l with rxCtr := some ctr, rxNew := l.rxNew && decide (ctr ≠ 0) }

/-- The sender replays from the flit a NAK names (R430). -/
def State.replay (s : State) (n f : Nat) : State :=
  let l := s.lk n
  let l := if f = l.ackSeq then l else ackFlits l ((f + 4095) % 4096)
  if l.ackSeq ≠ f ∨ f = l.txSeq then s.setLk n l
  else
    let s := (s.setLk n { l with replays := l.replays + 1 }).addReg (R.LK_RETRY_COUNT n) 1
    if (s.force (R.LK_RETRY_LIMIT n)).toNat ≤ l.replays + 1 then (s.setLk n { s.lk n with replays := 0 }).retrain n else s

/-- NAK: the peer names the flit it expects (R430). -/
def doNak (n f : Nat) (s : State) : State :=
  if (s.lk n).mode = .up ∨ (s.lk n).mode = .standby then s.replay n f else s

/-- The peer's cumulative acknowledgment of the session: the highest DSEQ it has delivered (R435). -/
def State.ackSession (s : State) (p d : Nat) : State :=
  let x := s.session p
  (s.setSession p { x with unacked := x.unacked.filter fun m => decide (d < m.dseq) }).transmit p

/-- FLIT_RECEIVED (R429 to R435): `tag` is 0 where the flit completes no message; `delivered` is the session acknowledgment it
carries, if any. [DEDUCED, log entry 101] -/
def doFlitReceived (n ftype : Nat) (crcOk : Bool) (fseq ack cls credits tag ctr : Nat) (delivered : Option W64) (s : State) : State :=
  let l := s.lk n
  if (l.mode ≠ .up ∧ l.mode ≠ .standby) ∨ 3 < ftype then s
  else if !crcOk then
    if ftype = 1 ∨ ftype = 3 then s.setLk n { l with nakSent := some l.rxSeq } else s
  -- a flit that is not the next one is discarded whole (R430)
  else if (ftype = 1 ∨ ftype = 3) ∧ fseq ≠ l.rxSeq then s.setLk n { l with nakSent := some l.rxSeq }
  else
    let s := s.setLk n (addCredits (ackFlits l ack) cls credits)
    let s := if ftype = 3 ∧ (s.session l.peer).resync = true then s.exchange l.peer (delivered.map (·.toNat))
      else match delivered with | some d => s.ackSession l.peer d.toNat | none => s.transmit l.peer
    if ftype = 0 then s
    else if ftype = 2 then s.replay n fseq
    else
      let s := s.setLk n { s.lk n with rxSeq := (fseq + 1) % 4096, nakSent := none }
      if tag = 0 then s else s.checkMsg n tag ctr

/-! ## The loss of a session (R436) -/

/-- End every begun command with a remote operation outstanding to a peer: reason 44 PEER_UNREACHABLE. [DEDUCED, log entry 95] -/
def State.endRemote (s : State) (p : Nat) : State :=
  let cmds := s.flights.filter fun f => s.remotes.any fun r => decide (r.cmd = f.id ∧ r.peer = p ∧ (r.role = .pushInit ∨ r.role = .returnInit))
  -- the end of one may have killed another of its queue (R138)
  cmds.foldl (fun (s : State) f => if s.flights.any (fun x => decide (x.cmd = f.cmd)) then s.endCmd f.cmd 0x202 (reasonDetail 44 0) else s) s

/-- The remote knot signals that wait for their commit while their peer stays unreachable end as well (R436). -/
def State.endSignals (s : State) (p : Nat) : State :=
  (s.flights.filter fun f => decide (f.cmd.opcode = 4 ∧ f.cmd.knotPeer = p) && f.cmd.knotRemote).foldl (fun (s : State) f =>
    if s.flights.any (fun x => decide (x.cmd = f.cmd)) then s.endCmd f.cmd 0x202 (reasonDetail 44 0) else s) s

/-- A remote move this package answered is over without a commit: an inbound object and its allocation go, a lent one is no
longer lent (R439). -/
def State.dropAnswer (s : State) (r : Remote) : State :=
  let s := { s with remotes := s.remotes.filter (fun x => decide (x ≠ r)), allocs := s.allocs.filter (fun a => decide (a.holder ≠ Holder.move r.cmd)) }
  if r.role = .inbound then (s.endWait fun w => decide (w.move = some r.cmd)).freeObj r.obj else s

/-- PEER_NEW_SESSION: the peer begins a new session (R433, R436). [DEDUCED, log entry 60] -/
def doPeerNewSession (p : Nat) (s : State) : State :=
  match s.peerLink p with
  | none => s
  | some n =>
    let x := s.session p
    let s := s.endRemote p
    let s := s.addReg (R.LK_LOST_MSGS n) x.unacked.length
    let s := (s.remotes.filter fun r => decide (r.peer = p ∧ (r.role = .inbound ∨ r.role = .lent))).foldl (fun s r => s.dropAnswer r) s
    let s := (s.setSession p { Session.dflt with lostSince := x.lostSince }).cancelDraws fun f => match f with | .msg k _ => decide (k = p) | _ => false
    let s := s.setLk n { s.lk n with sessionNew := true }
    (s.newKey n).startMoves.settled

/-- PEER_UNREACHABLE_TIMEOUT: a peer has stayed unreachable for LK_DOWN_HOLD stitches (R436). -/
def doPeerUnreachableTimeout (p : Nat) (s : State) : State :=
  match (s.session p).lostSince, s.peerLink p with
  | some c, some n => if c + (s.force (R.LK_DOWN_HOLD n)).toNat ≤ s.count then ((s.endRemote p).endSignals p).startMoves.settled else s
  | _, _ => s

/-! ## Delivery (R435, R437, R438) -/

/-- Answer a request REFUSED: the object named is not present (`why` 1), or the request is refused (0). [DEDUCED, log entry 60] -/
def State.refuse (s : State) (p : Nat) (m : MsgHdr) (why : Nat) : State :=
  s.sendMsg p { LinkMsg.dflt with ty := 5, hoop := m.receiver, peerHoop := m.sender, gen := m.gen.toNat, pos := m.pos.toNat, queue := m.queue, body := [why], bytes := msgBytes 1 }

/-- Deliver a message: it must be the session's next (R435), and its receiving hoop must admit its sending hoop and be READY
(R437). A refused request is answered REFUSED, and `bad` says what else that is for this package. It is a wake, and in DOZE it is delivered once the
compute domain is up (R566). -/
def State.receive (s : State) (m : MsgHdr) (bytes : Nat) (request : Bool) (act : State → Nat → State) (bad : State → Nat → State := fun s _ => s) : State :=
  let l := s.lk m.link
  let x := s.session l.peer
  if l.mode ≠ .up ∨ m.dseq.toNat ≠ x.rxDseq then s
  else if !s.domainOn .compute then s.wake 8
  else
    let s := s.wake 8
    let s := (s.setSession l.peer { x with rxDseq := x.rxDseq + 1 }).addPieces (R.LK_RX_MB m.link) 1000000 bytes
    if bit (s.reg (R.LK_HOOP_MAP m.link m.receiver)) (16 + m.sender) = true ∧ (s.hoop m.receiver).phase = .ready then act s l.peer
    else
      let s := s.addReg (R.LK_IN_REFUSED m.link) 1
      if request then bad (s.refuse l.peer m 0) l.peer else s

/-- The header of a NOTICE, whose GEN is 0, names the remote move (R432). -/
def Remote.noticed (r : Remote) (p : Nat) (m : MsgHdr) : Bool :=
  decide (r.peer = p ∧ r.hoop = m.receiver.val ∧ r.peerHoop = m.sender.val ∧ r.pos = m.pos.toNat ∧ r.queue = m.queue.val)

/-- The remote move this package answered that a COMMITTED or CANCEL names. -/
def State.noticedRemote (s : State) (p : Nat) (m : MsgHdr) : Option Remote :=
  s.remotes.find? fun r => r.noticed p m && decide (r.role = .inbound ∨ r.role = .lent)

/-- The tag of a header names the remote move. -/
def Remote.tagged (r : Remote) (p : Nat) (m : MsgHdr) : Bool :=
  decide (r.peer = p ∧ r.hoop = m.receiver.val ∧ r.peerHoop = m.sender.val ∧ r.gen = m.gen.toNat ∧ r.pos = m.pos.toNat ∧ r.queue = m.queue.val)

/-- The remote move of a role that a header names. -/
def State.taggedRemote (s : State) (p : Nat) (m : MsgHdr) (roles : List RemoteRole) : Option Remote :=
  s.remotes.find? fun r => r.tagged p m && roles.contains r.role

/-- The begun command a reply answers: its tag's generation is the queue's and the command is begun (R419). -/
def State.replyTo (s : State) (p : Nat) (m : MsgHdr) : Option Remote :=
  if (s.cq m.receiver m.queue).preemptGen = m.gen.toNat then
    (s.taggedRemote p m [.pushInit, .returnInit]).filter fun r => s.flights.any fun f => decide (f.id = r.cmd)
  else none

/-- A reply too late: dropped and counted (R419). -/
def State.lateReply (s : State) (m : MsgHdr) : State := s.addReg (R.LATE_REPLY_DROPS m.receiver) 1

/-- The command of a remote move ends with a class C code. -/
def State.failRemote (s : State) (r : Remote) (code : Nat) (det : BitVec 192) : State :=
  match s.flights.find? fun f => decide (f.id = r.cmd) with
  | some f => ((s.endCmd f.cmd code det).startMoves).settled
  | none => s

/-- A remote move as a message of a peer opens it. -/
def remoteOf (m : MsgHdr) (p cmd obj peerHandle : Nat) (role : RemoteRole) : Remote :=
  { role := role, peer := p, hoop := m.receiver, peerHoop := m.sender, obj := obj, peerHandle := peerHandle, cmd := cmd, alloc := 0, gen := m.gen.toNat, pos := m.pos.toNat,
    queue := m.queue, tier := 2, loc := 0, aux := 0, size := 0, kind := 0, data := [], got := [], poison := [], compressed := false, coded := false, prepared := false,
    code := 0, sizeOver := 0, sizeUnder := 0 }

/-- A MOVE_REQ of a push: an inbound entry for the receiving hoop, its allocation in T2, then the pull (R439 step 2). [DEDUCED, log entry 60] -/
def State.openInbound (s : State) (p : Nat) (m : MsgHdr) (handle kind size objSize : Nat) (compressed coded : Bool) : State :=
  let n := if coded then objSize else size
  if size = 0 ∨ s.poolCap 2 m.receiver < 4096 * ceilDiv n 4096 then s.refuse p m 0
  else
    let (s, id) := s.fresh
    match s.newObj m.receiver { Obj.dflt with kind := kind, tier := 2, size := n, compressed := compressed && !coded } with
    | none => s.refuse p m 0
    | some (s, k) =>
      let r := { remoteOf m p id k handle .inbound with size := size, kind := kind, compressed := compressed, coded := coded }
      ({ s with remotes := s.remotes ++ [r] }).startMoves.settled

/-- A MOVE_REQ of a return: the object becomes lent (R439 step 1). [DEDUCED, log entry 34] -/
def State.openLent (s : State) (p : Nat) (m : MsgHdr) (handle param : Nat) (coded : Bool) : State :=
  match s.resolve m.receiver handle with
  | none => s.refuse p m 1
  | some k =>
    let o := s.obj k
    if o.homed = false ∨ o.tier = 5 then s.refuse p m 1
    -- a MOVE moves neither a CONTEXT_STATE nor a pinned object (R191, R234)
    else if o.ctxState = true ∨ 0 < o.pins then s.refuse p m 0
    else if o.sealed then s.sendMsg p ((remoteOf m p 0 k handle .lent).msg 4 [handle, 0x3, 0, 0, 0, 0])
    else
      let (s, id) := s.fresh
      ({ s with remotes := s.remotes ++ [{ remoteOf m p id k param .lent with coded := coded, compressed := o.compressed }] }).startMoves

/-- MOVE_REQ received: `ret` is AUX bit 0 (R438, R439). -/
def doMoveReq (m : MsgHdr) (ret : Bool) (handle kind size objSize param : Nat) (compressed coded : Bool) (s : State) : State :=
  s.receive m (msgBytes (if ret then 3 else 5)) true fun s p => if ret then s.openLent p m handle param coded else s.openInbound p m handle kind size objSize compressed coded

/-- PULL_REQ received: the giver sends its tiles (R438, R441). The pull of a return whose object still has a writer is
remembered. A pull of a push that is refused ends the MOVE of this package that began it (R437). -/
def doPullReq (m : MsgHdr) (s : State) : State :=
  s.receive m (msgBytes 1) true (fun s p =>
    match s.taggedRemote p m [.pushInit, .lent] with
    | none => s.refuse p m 1
    | some r => if r.alloc = 0 then s.setRemote r { r with prepared := true } else s.sendTiles r)
    fun s p => match s.taggedRemote p m [.pushInit] with | some r => s.failRemote r 0x202 (reasonDetail 45 0) | none => s

/-- What a taker makes of the tiles it has: the content, its size, the poisoned tiles, code, over, under; or the refusal of a
stream (R386 to R389, R391), with the first block that did not match. -/
def Remote.decode (r : Remote) : Except (Nat × Nat) (SMap Byte × Nat × List Nat × Nat × Nat × Nat × Nat) :=
  if !r.coded then .ok (r.data, r.size, r.poison, 0, 0, 0, 0)
  else match pcParse r.data r.size with
    | .error e => .error e
    | .ok st =>
      let outs := (List.range st.nblock).map fun b => ((match st.regionOf b with | some x => x.declared b | none => (0, 0)), pcDecodeBlock r.data r.size st b)
      let data := outs.foldl (fun d e => msetList 0 d e.1.1 e.2.bytes) ([] : SMap Byte)
      let bad := outs.filter fun e => e.2.sizeOver || e.2.sizeUnder
      let poison := bad.flatMap fun e => (List.range (ceilDiv st.usize 4096)).filter fun t => decide (e.1.1 / 4096 ≤ t ∧ t ≤ (e.1.1 + e.1.2 - 1) / 4096)
      let code := match bad with | [] => 0 | e :: _ => if e.2.sizeOver then 0x500 else 0x501
      .ok (data, st.usize, poison.eraseDups, code, (bad.filter fun e => e.2.sizeOver).length, (bad.filter fun e => e.2.sizeUnder).length,
        (outs.findIdx? fun e => e.2.sizeOver || e.2.sizeUnder).getD 0)

/-- A taker has every tile (and, in a return, PREPARED): it decodes, and the move can commit (R439 step 3, R441). -/
def State.takerReady (s : State) (r : Remote) : State :=
  let n := (s.peerLink r.peer).getD 0
  if r.got.length < ceilDiv r.size 4096 ∨ (r.role = .returnInit ∧ r.prepared = false) ∨ (r.role = .inbound ∧ r.prepared = true) then s
  else match r.decode with
    | .error e =>
      let s := s.addReg (R.LC_STREAM_REFUSED n) 1
      if r.role = .returnInit then s.failRemote r 0x202 (reasonDetail e.1 e.2)
      else s.sendMsg r.peer (r.msg 4 [s.handleOf r.obj, 0x202, e.1, e.2, 0, 0])
    | .ok (data, size, poison, code, over_, under_, first) =>
      let s := if r.coded then ((((s.addPieces (R.LC_RX_IN_MIB n) (2 ^ 20) r.size).addPieces (R.LC_RX_OUT_MIB n) (2 ^ 20) size).addReg (R.LC_SIZE_OVER n) over_).addReg (R.LC_SIZE_UNDER n) under_) else s
      let r' := { r with data := data, size := size, poison := poison, prepared := true, code := code, sizeOver := over_, sizeUnder := under_, compressed := r.compressed && !r.coded }
      let s := s.setRemote r r'
      if r.role = .inbound then s.sendMsg r.peer (r.msg 4 [s.handleOf r.obj, code, over_, under_, size, 0])
      else
        let det := setBytes (setBytes (setBytes (moveDetail (4096 * ceilDiv size 4096) 5) 12 4 first) 16 4 over_) 20 4 under_
        ({ s with flights := s.flights.map fun (f : InFlight) => if f.id = r.cmd then { f with done := true, code := code, detail := det } else f }).settled

/-- PULL_DATA received: one tile, verified against its CRC at the taker (R438, R441). -/
def doPullData (m : MsgHdr) (tile : Nat) (crc : W32) (bytes : List Byte) (s : State) : State :=
  s.receive m 4148 false fun s p =>
    let take := fun (s : State) (r : Remote) =>
      if r.got.contains tile ∨ ceilDiv r.size 4096 ≤ tile then s
      else if crc32c bytes = crc then
        let r' := { r with data := msetList 0 r.data (4096 * tile) (bytes.take (r.size - 4096 * tile)), got := r.got ++ [tile] }
        (s.setRemote r r').takerReady r'
      else if r.role = .returnInit then (s.addReg (R.TILE_CHECK_COUNT r.hoop) 1).failRemote r 0x300 (setBytes (setBytes (setBytes 0 0 4 (s.handleOf r.obj)) 4 4 tile) 8 1 1)
      else s.sendMsg r.peer (r.msg 4 [s.handleOf r.obj, 0x300, tile, 1, 0, 0])
    match s.taggedRemote p m [.inbound] with
    | some r => take s r
    | none => match s.replyTo p m with
      | some r => if r.role = .returnInit then take s r else s
      | none => s.lateReply m

/-- PREPARED received: the other side is ready, or reports why it cannot be (R438, R439, R441). [DEDUCED, log entry 60] -/
def doPrepared (m : MsgHdr) (handle code over_ under_ size : Nat) (compressed : Bool) (s : State) : State :=
  s.receive m (msgBytes 6) false fun s p =>
    match s.replyTo p m with
    | none => s.lateReply m
    | some r =>
      if code = 0x300 then (s.addReg (R.TILE_CHECK_COUNT r.hoop) 1).failRemote r 0x300 (setBytes (setBytes (setBytes 0 0 4 (s.handleOf r.obj)) 4 4 over_) 8 1 under_)
      else if code = 0x202 then s.failRemote r 0x202 (reasonDetail over_ under_)
      else if code = 0x3 then s.failRemote r 0x3 0
      else if r.role = .pushInit then
        let o := s.obj r.obj
        let det := setBytes (setBytes (setBytes (moveDetail (4096 * ceilDiv size 4096) o.tier) 12 4 handle) 16 4 over_) 20 4 under_
        let s := s.setRemote r { r with prepared := true, peerHandle := handle, code := code }
        ({ s with flights := s.flights.map fun (f : InFlight) => if f.id = r.cmd then { f with done := true, code := code, detail := det } else f }).settled
      else
        let r' := { r with prepared := true, size := size, compressed := compressed }
        (s.setRemote r r').takerReady r'

/-- REFUSED received: the initiating command ends, reason 45 PEER_REFUSED, or 46 PEER_OBJECT_GONE where the object of a return
is not present (R437, R440). The pull of an inbound object refused: nothing comes of it. -/
def doRefused (m : MsgHdr) (gone : Bool) (s : State) : State :=
  s.receive m (msgBytes 1) false fun s p =>
    match s.replyTo p m with
    | none => (match s.taggedRemote p m [.inbound] with | some r => (s.dropAnswer r).startMoves.settled | none => s.lateReply m)
    | some r => s.failRemote r 0x202 (reasonDetail (if gone ∧ r.role = .returnInit then 46 else 45) 0)

/-- COMMITTED received: the taker's object becomes HOMED and bindable, or the giver's is released (R439 step 5). -/
def doCommitted (m : MsgHdr) (s : State) : State :=
  s.receive m (msgBytes 0) false fun s p =>
    match s.noticedRemote p m with
    | none => s
    | some r =>
      let s := { s with remotes := s.remotes.filter (fun x => decide (x ≠ r)), allocs := s.allocs.filter (fun a => decide (a.holder ≠ Holder.move r.cmd)) }
      let s := if r.role = .lent then s.freeObj r.obj
        else (s.transfer r.hoop true 2 0 [(0, r.size)] .other).modObj r.obj fun o => { o with
          homed := true, tier := 2, loc := 0, data := r.data, size := r.size, kind := r.kind, compressed := r.compressed, age := s.pos,
          tileDflt := ⟨.unwritten, 0⟩, tiles := tilesOf r.data (ceilDiv r.size 4096) fun t => r.poison.contains t }
      s.startMoves.settled

/-- CANCEL received: the initiating command was killed or ended (R419, R439). -/
def doCancel (m : MsgHdr) (s : State) : State :=
  s.receive m (msgBytes 0) false fun s p => match s.noticedRemote p m with | none => s | some r => (s.dropAnswer r).startMoves.settled

/-- KNOT_SIG received: the signal is applied at delivery (R442). A knot outside the hoop's, or a reserved operation, does nothing. [DEDUCED, log entry 59] -/
def doKnotSig (m : MsgHdr) (knot op : Nat) (v : W32) (s : State) : State :=
  s.receive m (msgBytes 3) false fun s _ => if 1 < op then s else (s.knotOp m.receiver knot (decide (op = 1)) v false).settled

/-- A forwarded record as the receiving hoop writes it: the sender's stamp, source, context and payload, FORWARDED set (R443). [DEDUCED, log entry 61] -/
def forwardedRec (h e now : Nat) (l : Line) : Rec :=
  { hoop := h, eq := e, ty := fld l 0 16, fault := bit l 24, forwarded := true, stamp := fld l 64 64 * 65536 + fld l 128 16, source := fld l 144 16, context := fld l 160 32,
    payload := BitVec.ofNat 320 (l.toNat / 2 ^ 192), arrived := now, toHost := true }

/-- EVENT_FWD received: the record takes the receiving hoop's next SEQ in order of delivery (R443). [DEDUCED, log entry 61] -/
def doEventFwd (m : MsgHdr) (fwdEq : Nat) (line : Line) (s : State) : State :=
  s.receive m 112 false fun s _ =>
    let h := m.receiver
    let x := s.hoop h
    (s.setHoop h { x with seq := (x.seq + 1) % 2 ^ 32 }).deliver (forwardedRec h fwdEq s.now line) x.seq

/-- LK_PKG_ID_WRITE by hoop `f` (R427): accepted only while every link of the package is OFF. -/
def doLkPkgIdWrite (f v : Nat) (s : State) : State :=
  s.reach f R.LK_PKG_ID fun s =>
    if (List.range 8).all fun n => !present s.part .link n || decide (s.stOf .link n = 0) then s.setReg R.LK_PKG_ID (w32 (v % 4))
    else s.accessRefused .link 0

/-! ## Meanings -/

def execLinkTrainingComplete (n : Fin 8) (lanes : BitVec 8) (peer : Fin 4) (keyOk : Bool) (s : State) : Out := run (doLinkTrainingComplete n lanes.toNat peer keyOk) s
def execLinkDown (n : Fin 8) (s : State) : Out := run (doLinkDown n) s
def execFlitReceived (n : Fin 8) (ftype : Byte) (crcOk : Bool) (fseq ack : Fin 4096) (cls : Fin 3) (credits : BitVec 16) (tag : Fin 3) (ctr : W64) (delivered : Option W64)
    (s : State) : Out := run (doFlitReceived n ftype.toNat crcOk fseq ack cls credits.toNat tag ctr.toNat delivered) s
def execNak (n : Fin 8) (fseq : Fin 4096) (s : State) : Out := run (doNak n fseq) s
def execLinkRekey (n : Fin 8) (s : State) : Out := run (doLinkRekey n) s
def execPeerNewSession (p : Fin 4) (s : State) : Out := run (doPeerNewSession p) s
def execPeerUnreachableTimeout (p : Fin 4) (s : State) : Out := run (doPeerUnreachableTimeout p) s
def execMoveReq (m : MsgHdr) (ret : Bool) (handle : W32) (kind : Fin 16) (size objSize : Fin 68719476737) (param : W32) (compressed coded : Bool) (s : State) : Out :=
  run (doMoveReq m ret handle.toNat kind size objSize param.toNat compressed coded) s
def execPullReq (m : MsgHdr) (s : State) : Out := run (doPullReq m) s
def execPullData (m : MsgHdr) (tile : Fin 16777216) (crc : W32) (bytes : List Byte) (s : State) : Out := runIf (decide (bytes.length = 4096)) (doPullData m tile crc bytes) s
def execPrepared (m : MsgHdr) (handle code over_ under_ : W32) (size : Fin 68719476737) (compressed : Bool) (s : State) : Out :=
  run (doPrepared m handle.toNat code.toNat over_.toNat under_.toNat size compressed) s
def execRefused (m : MsgHdr) (gone : Bool) (s : State) : Out := run (doRefused m gone) s
def execCommitted (m : MsgHdr) (s : State) : Out := run (doCommitted m) s
def execCancel (m : MsgHdr) (s : State) : Out := run (doCancel m) s
def execKnotSig (m : MsgHdr) (knot : Fin 16384) (op : Fin 2) (v : W32) (s : State) : Out := run (doKnotSig m knot op v) s
def execEventFwd (m : MsgHdr) (fwdEq : Fin 16) (line : Line) (s : State) : Out := run (doEventFwd m fwdEq line) s
def execLkPkgIdWrite (f : Fin 16) (v : W32) (s : State) : Out := run (doLkPkgIdWrite f v.toNat) s
def execLaneFault (n : Fin 8) (lane : Fin 8) (s : State) : Out := run (doLaneFault n lane) s

end Sys2Proof.Machine
end

