-- ==== Sys2Proof/Machine/Island.lean ====
section
/-! DEFINITION. The eyelet island (R447 to R481): inputs, the filet codec and the pre-roll ring, segments, the three stage-0
detectors and their models, wakes, and the mute switch. -/

namespace Sys2Proof.Machine

/-! ## Small operations -/

def State.setChan (s : State) (c : Nat) (x : Chan) : State := { s with island := { s.island with chans := mset Chan.dflt s.island.chans c x } }
def State.group (s : State) (g : Nat) : Group := mget Group.dflt s.island.groups g
def State.setGroup (s : State) (g : Nat) (x : Group) : State := { s with island := { s.island with groups := mset Group.dflt s.island.groups g x } }
def State.det (s : State) (g d : Nat) : Det := mget Det.dflt s.island.dets (4 * g + d)
def State.setDet (s : State) (g d : Nat) (x : Det) : State := { s with island := { s.island with dets := mset Det.dflt s.island.dets (4 * g + d) x } }
def State.model (s : State) (d : Nat) : Model := mget Model.dflt s.island.models d
def State.setModel (s : State) (d : Nat) (x : Model) : State := { s with island := { s.island with models := mset Model.dflt s.island.models d x } }

/-- Is the island ON, in a power state that keeps it (R469)? -/
def State.islandOn (s : State) : Bool := s.isOn .island 0 && s.domainOn .aon

/-- Is ring channel `c` muted by the switch or by software (R472, R473)? [DEDUCED, log entry 63] -/
def State.chanMuted (s : State) (c : Nat) : Bool := s.island.hwMuted || bit (s.reg R.ISL_SW_MUTE) c || bit (s.reg R.ISL_SW_MUTE) 16

/-- Is the channel's source STUCK or LOST (R450), or a TDM port at 8 kHz, which is no ring source (R449)? [DEDUCED, log entry 63] -/
def State.chanGap (s : State) (c : Nat) : Bool :=
  let v := s.reg (R.RCH c)
  if fld v 0 2 = 1 then bit (s.reg R.PDM_STATUS) (fld v 4 4)
  else if fld v 0 2 = 2 then decide (fld (s.reg (R.TDM_STATUS (fld v 4 2))) 0 2 ≠ 1 ∨ fld (s.reg (R.TDM_CTRL (fld v 4 2))) 4 2 = 0)
  else false

/-- Does PDM clock `k` run (R447): the island is ON, a line of the clock feeds a channel of an enabled group, and neither mute holds it? -/
def State.pdmClock (s : State) (k : Nat) : Bool :=
  s.islandOn && !s.island.hwMuted && !bit (s.reg R.ISL_SW_MUTE) 16 &&
  (List.range 16).any fun c => let v := s.reg (R.RCH c); decide (fld v 0 2 = 1 ∧ fld v 4 4 / 4 = k) && s.grpOn (fld v 28 4)

/-- `n` samples of 62.5 µs in phase units (R456: from the period estimate at 16 kHz), rounded down. -/
def State.sampleSpan (s : State) (n : Nat) : Nat := ratFloor ((n : Rat) * 62500 * 65536 / s.estP)

/-! ## The filet codec (R453, R454) -/

def filetStep (i : Nat) : Int := (([16, 19, 22, 26].getD (i % 4) 16) * 2 ^ (i / 4) : Nat)

/-- The decoder's update: the predicted value and step index after a code. -/
def filetUpdate (p : Int) (i code : Nat) : Int × Nat :=
  let m := code % 8
  let delta : Int := ((2 * m + 1 : Nat) : Int) * filetStep i / 8
  let v := if 8 ≤ code then p - delta else p + delta
  let adj : Int := [-1, -1, 0, 0, 1, 2, 3, 4].getD m 0
  (max (-32768) (min 32767 v), (max 0 (min 47 ((i : Int) + adj))).toNat)

/-- The code of a sample. -/
def filetCode (p : Int) (i : Nat) (x : Int) : Nat :=
  let d := x - p
  (if d < 0 then 8 else 0) + (min 7 (4 * (d.natAbs : Int) / filetStep i)).toNat

/-- Encode samples from a state: codes in order, and the state after. -/
def filetEncode : Int → Nat → List Int → List Nat × Int × Nat
  | p, i, [] => ([], p, i)
  | p, i, x :: xs =>
    let c := filetCode p i x
    let (p', i') := filetUpdate p i c
    let (cs, r) := filetEncode p' i' xs
    (c :: cs, r)

/-- Decode codes from a state. -/
def filetDecode : Int → Nat → List Nat → List Int
  | _, _, [] => []
  | p, i, c :: cs => let (p', i') := filetUpdate p i c; p' :: filetDecode p' i' cs

/-- Code `k` of a frame. -/
def Frame.code (f : Frame) (k : Nat) : Nat := fld f.codes (4 * k) 4

/-- A MUTED or GAP frame: it decodes to zeros. -/
def Frame.silent (f : Frame) : Bool := decide (f.flags % 4 ≠ 0)

/-- The 512 samples of a frame: zeros from the one on from which its channel is quiet (R457). -/
def Frame.samples (f : Frame) : List Int :=
  if f.silent then List.replicate 512 0
  else (filetDecode f.p0 f.i0 ((List.range 512).map f.code)).zipIdx.map fun e => if e.2 < f.quiet then e.1 else 0

/-- A magnitude multiplied by 10^(g/20), rounded to nearest even and saturated beyond `top`: the largest `y` with
(2 y − 1)^20 ≤ (2 x)^20 × 10^g, searched bit by bit. A tie needs g to be a multiple of 20, where the product is whole. -/
def gainMag (x g top : Nat) : Nat :=
  (List.range 17).foldl (fun y b =>
    let z := y + 2 ^ (16 - b)
    if z ≤ top + 1 ∧ (2 * z - 1) ^ 20 ≤ (2 * x) ^ 20 * 10 ^ g then z else y) 0

/-- A sample after GAIN, and whether it saturated (R449). -/
def gainSample (g : Nat) (x : Int) : Int × Bool :=
  if x < 0 then
    let y := gainMag x.natAbs g 32768
    (-(min y 32768 : Nat), decide (32768 < y))
  else
    let y := gainMag x.natAbs g 32767
    ((min y 32767 : Nat), decide (32767 < y))

/-- One source word as a 16-bit sample at 16 kHz, and whether its rounding saturated (R449). A TDM slot at 16 kHz is rounded from its width; every other source comes
to the model after its decimation filter, and one with HPF set after that filter too, in the low 16 bits. [DEDUCED, log entry 62] -/
def State.sourceSample (s : State) (c : Nat) (w : W32) : Int × Bool :=
  let v := s.reg (R.RCH c)
  let t := s.reg (R.TDM_CTRL (fld v 4 2))
  let width := 16 + 8 * min 2 (fld t 8 2)
  if fld v 0 2 = 2 ∧ fld t 4 2 = 1 ∧ 16 < width ∧ bit v 24 = false then
    let x := signedOf width w.toNat
    let n : Int := 2 ^ (width - 16)
    let q := x / n
    let r := 2 * (x - q * n)
    let y := if r < n then q else if n < r then q + 1 else if q % 2 = 0 then q else q + 1
    (max (-32768) (min 32767 y), decide (32767 < y))
  else (signedOf 16 w.toNat, false)

/-- The newest frame of a channel, where it is still being written, becomes `g` of it. -/
def State.modRunning (s : State) (c : Nat) (g : Frame → Frame) : State :=
  let x := s.chan c
  match x.frames.getLast? with
  | some f => if f.reached s.pos < 512 then s.setChan c { x with frames := x.frames.dropLast ++ [g f], cont := false } else s
  | none => s

/-- Channels that have become muted, or lost their source: the rest of the frame in progress is quiet (R450, R457, R473). [DESIGN CHOICE, log entry 129] -/
def State.hushFrames (s : State) : State :=
  (List.range 16).foldl (fun (s : State) c =>
    if s.chanMuted c || s.chanGap c then
      s.modRunning c fun f => if f.reached s.pos < f.quiet then { f with quiet := f.reached s.pos, why := b2n (s.chanMuted c) + 2 * b2n (s.chanGap c) } else f
    else s) s

/-- Channels that stop writing: the frame in progress ends where it is (R457). [DESIGN CHOICE, log entry 129] -/
def State.cutFrames (s : State) (cs : List Nat) : State :=
  cs.foldl (fun (s : State) c => s.modRunning c fun f => { f with len := min f.len (f.reached s.pos) }) s

/-! ## Inputs (R450) -/

/-- PDM_LINE_STUCK: line `l` is out of bounds for 100 ms. -/
def doPdmLineStuck (l : Nat) (s : State) : State :=
  if !s.islandOn ∨ bit (s.reg R.PDM_STATUS) l then s
  else ((s.setRegFld R.PDM_STATUS l 1 1).addReg R.PDM_STUCK_COUNT 1).hushFrames

/-- PDM_LINE_RECOVER. -/
def doPdmLineRecover (l : Nat) (s : State) : State := if s.islandOn then s.setRegFld R.PDM_STATUS l 1 0 else s

/-- TDM_PORT_LOST: no WS edge for 4 word periods, or, with `counts`, a wrong BCLK count in 8 consecutive frames. -/
def doTdmPortLost (p : Nat) (counts : Bool) (s : State) : State :=
  let s := if counts ∧ bit (s.reg (R.TDM_CTRL p)) 0 then s.addReg (R.TDM_FRAME_ERR p) 8 else s
  if fld (s.reg (R.TDM_STATUS p)) 0 2 ≠ 1 then s else ((s.setReg (R.TDM_STATUS p) 2).addReg (R.TDM_LOST_COUNT p) 1).hushFrames

/-- TDM_PORT_LOCKED: 16 consecutive good frames. [DEDUCED, log entry 64] -/
def doTdmPortLocked (p : Nat) (s : State) : State :=
  if bit (s.reg (R.TDM_CTRL p)) 0 then s.setReg (R.TDM_STATUS p) 1 else s

/-- A write of TDM_CTRL (R477): while EN is 1 only EN may change. A port that is enabled is LOST, which is counted (R450), until it locks.
[DEDUCED, log entry 64] -/
def State.writeTdm (s : State) (p : Nat) (v : W32) : State :=
  let old := s.reg (R.TDM_CTRL p)
  let v := applyLimit (.fields [(0,1,0,1), (1,1,0,1), (4,2,0,3), (8,2,0,2), (12,4,0,15), (16,1,0,1), (17,1,0,1), (18,1,0,1)]) v
  if bit old 0 ∧ setBit v 0 true ≠ old then s.accessRefused .island 0
  else
    let s := s.setReg (R.TDM_CTRL p) v
    if bit v 0 = bit old 0 then s
    else if bit v 0 then ((s.setReg (R.TDM_STATUS p) 2).addReg (R.TDM_LOST_COUNT p) 1).hushFrames
    else (s.setReg (R.TDM_STATUS p) 0).hushFrames

/-! ## The ring (R454 to R457) -/

/-- RING_FRAME: channel `c` begins a frame at the position now; `words` are its 512 source words, whose codes become readable as
the position reaches them. [DEDUCED, log entries 62, 63] -/
def doRingFrame (c : Nat) (words : List W32) (s : State) : State :=
  let v := s.reg (R.RCH c)
  if !s.islandOn ∨ !bit (s.reg R.ISL_CTRL) 0 ∨ fld v 0 2 = 0 ∨ !s.grpOn (fld v 28 4) ∨ (s.reg R.RING_NCH).toNat ≤ c then s
  else
    let x := s.chan c
    let muted := s.chanMuted c
    let gap := s.chanGap c
    let cont := x.cont
    let p0 : Int := if cont then x.p else 0
    let i0 := if cont then x.i else 16
    let gained := words.map fun w => let x := s.sourceSample c w; let y := gainSample (fld v 16 5) x.1; (y.1, x.2 || y.2)
    let sat := if muted || gap then 0 else (gained.filter fun e => e.2).length
    let (codes, p1, i1) := if muted || gap then ([], 0, 16) else filetEncode p0 i0 (gained.map (·.1))
    let delta := match x.runs, x.frames.getLast? with | true, some f => (s.pos - f.pos) / 2 | _, _ => s.sampleSpan 256
    let f : Frame := {
      pos := s.pos, delta := delta, p0 := p0, i0 := i0, fseq := x.fseq,
      flags := b2n muted + 2 * b2n gap + 4 * b2n (decide (0 < sat)) + 8 * b2n x.srcChanged + 16 * b2n (!cont),
      codes := BitVec.ofNat 2048 (codes.foldr (fun c a => c + 16 * a) 0), len := 512, quiet := 512, why := 0 }
    let share := (s.reg R.RING_FRAMES).toNat
    let fs := x.frames ++ [f]
    (s.setChan c { x with frames := fs.drop (fs.length - share), fseq := (x.fseq + 1) % 65536, p := p1, i := i1, cont := !(muted || gap), runs := true, srcChanged := false }).addReg (R.RCH_SAT c) sat

/-- The frames of channels become unreadable and are zeroed (R472, R473). -/
def State.clearChans (s : State) (cs : List Nat) : State :=
  let s := cs.foldl (fun s c => s.setChan c { s.chan c with frames := [], cont := false, runs := false }) s
  if cs = [] then s else { s with island := { s.island with clearing := true } }

/-- The channels' runs of frames end: the ring or the island stops (R456, R457). -/
def State.endRuns (s : State) : State :=
  let s := s.cutFrames (List.range 16)
  { s with island := { s.island with chans := s.island.chans.foldl (fun m e => mset Chan.dflt m e.1 { e.2 with runs := false }) [] } }

/-- A write of ISL_CTRL (R475): with RING_EN 0 no frames are written (R457). -/
def State.writeIsl (s : State) (v : W32) : State :=
  let v := applyLimit (.fields [(0,1,0,1), (1,1,0,1), (4,2,0,2)]) v
  let s := s.setReg R.ISL_CTRL v
  if bit v 0 then s else s.endRuns

/-- RING_CLEAR_COMPLETE (R472). -/
def doRingClearComplete (s : State) : State := { s with island := { s.island with clearing := false } }

/-- RING_NCH_WRITE by hoop `f` (R455). -/
def doRingNchWrite (f : Nat) (v : W32) (s : State) : State :=
  s.reach f R.RING_NCH fun s =>
    if bit (s.reg R.ISL_CTRL) 0 then s.accessRefused .island 0
    else
      let n := clamp 1 16 v.toNat
      ((s.setReg R.RING_NCH (w32 n)).setReg R.RING_FRAMES (w32 (11397 / n))).clearChans (List.range 16)

/-- RCH_WRITE by hoop `f` (R451, R478): refused while the channel's group, or the one it would join, is enabled. -/
def doRchWrite (f c : Nat) (v : W32) (s : State) : State :=
  s.reach f (R.RCH c) fun s =>
    let old := s.reg (R.RCH c)
    let v := applyLimit (.fields [(0,2,0,2), (4,4,0,15), (8,4,0,15), (16,5,0,30), (24,1,0,1), (28,4,0,15)]) v
    let on := fun (x : W32) => decide (fld x 0 2 ≠ 0) && s.grpOn (fld x 28 4)
    if on old || on v then s.accessRefused .island 0
    else
      let s := s.setReg (R.RCH c) v
      if fld v 0 2 ≠ fld old 0 2 ∨ fld v 4 8 ≠ fld old 4 8 then s.setChan c { s.chan c with srcChanged := true } else s

/-! ## Groups (R452, R479) -/

/-- Clock domain of a channel's source: PDM, or one TDM port. -/
def State.clockOf (s : State) (c : Nat) : Nat := let v := s.reg (R.RCH c); if fld v 0 2 = 1 then 4 else fld v 4 2

/-- May the group be enabled (R452)? [DEDUCED, log entry 66] -/
def State.grpOk (s : State) (g : Nat) : Bool :=
  let cs := s.grpChans g
  -- a TDM port at 8 kHz is no ring source (R449)
  !cs.isEmpty && cs.all (fun c => let v := s.reg (R.RCH c); decide (c < (s.reg R.RING_NCH).toNat) && !decide (fld v 0 2 = 2 ∧ fld (s.reg (R.TDM_CTRL (fld v 4 2))) 4 2 = 0)) && bit (s.reg R.ISL_CTRL) 0 &&
  cs.all fun c => decide (s.clockOf c = s.clockOf (cs.headD 0))

/-- A write of GRP_CTRL with its fields in range (R452, R479). [DEDUCED, log entry 66] -/
def State.storeGrp (s : State) (g : Nat) (v : W32) : State :=
  let a := R.GRP_CTRL g
  let old := s.reg a
  if bit old 0 ∧ fld v 4 4 ≠ fld old 4 4 then s.accessRefused .island 0
  else if bit old 0 ∧ bit v 0 = false then (s.setReg a v).cutFrames (s.grpChans g)
  else if bit old 0 ∨ !bit v 0 then s.setReg a v
  else if s.grpOk g then
    let s := s.setReg a v
    let s := (s.grpChans g).foldl (fun s c => s.setChan c { s.chan c with cont := false, runs := false }) s
    let s := (List.range 3).foldl (fun s d => s.setDet g d Det.dflt) s
    s.setGroup g { Group.dflt with ctrl := v, mark := s.reg (R.GRP_MARK g) }
  else (s.setReg a (setBit v 0 false)).orReg R.ISL_STATUS (w32 (2 ^ 10))

/-! ## Segments (R458 to R461) -/

/-- A decoded sample of a channel: its position, value, and its frame's flags. -/
structure RingSample where
  pos : Nat
  val : Int
  flags : Nat
  deriving DecidableEq, Repr

/-- Readable samples of a channel in position order: those the position has reached. -/
def State.ringSamples (s : State) (c : Nat) : List RingSample :=
  (s.chan c).frames.flatMap fun f => (f.samples.zipIdx.filter fun e => decide (e.2 < f.len ∧ f.posOf e.2 ≤ s.pos)).map fun e =>
    ⟨f.posOf e.2, e.1, if e.2 < f.quiet then f.flags else f.flags + f.why⟩

/-- Has the wait for a segment's end ended without it (R458)? -/
def State.segWaitOver (s : State) (g : Nat) : Bool := !s.grpOn g || !bit (s.reg R.ISL_CTRL) 0 || !s.islandOn

/-- The bytes of an AUDIO_SEGMENT object (R459, R460): size and content. [DEDUCED, log entry 63] -/
def State.segBytes (s : State) (g start stop minKib : Nat) : Nat × SMap Byte :=
  let cs := s.grpChans g
  let held := cs.map fun c => s.ringSamples c
  let cap := (s.reg R.SEG_MAX_SAMPLES).toNat
  let inSeg := held.map fun l => l.filter fun x => decide (65536 * start ≤ x.pos ∧ x.pos < 65536 * stop)
  let recent := inSeg.map fun l => l.drop (l.length - cap)
  let first := recent.foldl (fun (a l : List RingSample) => if a.length < l.length then l else a) []
  let n := first.length
  -- the channels write in lockstep, so one whose frames were cleared apart lacks the earliest samples
  let kept := recent.map fun l => (first.take (n - l.length)).map (fun x => { x with val := 0, flags := 0 }) ++ l
  let row0 := max (4 * n) (ceilDiv (minKib * 1024 - 64) (max 1 cs.length))
  let row := 64 * ceilDiv row0 64
  let truncStart := held.all fun l => match l with | [] => true | x :: _ => decide (65536 * start < x.pos)
  let truncEnd := !s.segReached g stop
  let all := kept.flatten
  let flags := b2n truncStart + 2 * b2n truncEnd + 4 * b2n (inSeg.any fun l => decide (cap < l.length)) + 8 * b2n (all.any fun x => bit (w32 x.flags) 0) +
    16 * b2n (all.any fun x => bit (w32 x.flags) 1) + 32 * b2n (all.any fun x => bit (w32 x.flags) 2)
  let p := match first with | [] => 0 | x :: _ => x.pos
  -- a sample counts where any plane's is of a MUTED or GAP frame
  let zeros := ((List.range n).filter fun i => kept.any fun l => match l[i]? with | some x => decide (x.flags % 4 ≠ 0) | none => false).length
  let le := fun (n x : Nat) => (List.range n).map fun i => BitVec.ofNat 8 (x / 256 ^ i)
  let chans := (List.range 16).map fun i => BitVec.ofNat 8 (cs.getD i 255)
  let head := le 4 0x4D564153 ++ le 2 1 ++ le 1 cs.length ++ le 1 flags ++ le 4 n ++ le 4 row ++ le 8 start ++ le 8 stop ++ le 8 (p / 65536) ++ le 2 (p % 65536) ++ le 1 g ++ le 1 0 ++ le 4 zeros ++ chans
  let planes := kept.zipIdx
  (64 + cs.length * row, planes.foldl (fun d e =>
    msetList 0 d (64 + e.2 * row) ((e.1.take n).flatMap fun x => le 4 (toFp32 (FVal.ofRat ((x.val : Rat) / 32768))).toNat)) (msetList 0 [] 0 head))

/-- MIN_KIB of the SEGMENT binding whose first slot is `slot` (R278). -/
def State.segMinKib (s : State) (c : Cmd) (slot : Nat) : Nat :=
  match s.resolve c.hoop c.pattern with
  | none => 0
  | some pk =>
    let p := s.obj pk
    ((List.range (p.rd 8 1)).find? fun i => decide (p.rd (p.rd 24 4 + 8 * i) 1 = slot)).elim 0 fun i => p.rd (p.rd 24 4 + 8 * i + 4) 4

/-- Make the object of one SEGMENT binding of the head of a queue, where its wait is over and T2 has room (R458). -/
def State.makeSegment (s : State) (c : Cmd) (slot : Nat) : State :=
  let q := s.cq c.hoop c.cq
  if !(s.segSlots c).contains slot ∨ q.segs.any (fun e => decide (e.1 = slot)) then s
  else match s.segGroup c with
  | none => (s.endCmd c 0x202 (reasonDetail 47 0)).settled
  | some g =>
    let start := c.slot slot + c.slot (slot + 1) * 2 ^ 32
    let stop := c.slot (slot + 2) + c.slot (slot + 3) * 2 ^ 32
    if !(s.segReached g stop || s.segWaitOver g) ∨ s.island.clearing then s
    else
      let (size, data) := s.segBytes g start stop (s.segMinKib c slot)
      let bytes := 4096 * ceilDiv size 4096
      if s.roomFor c.hoop 2 0 (bytes + 8 * ceilDiv size 4096) then
        match s.newObj c.hoop { Obj.dflt with kind := 6, tier := 2, homed := true, size := size, age := s.pos, data := data, tileDflt := zeroTile,
                                              tiles := (tilesOf data (ceilDiv size 4096) fun _ => false).filter fun e => decide (e.2 ≠ zeroTile) } with
        | none => s
        | some (s, k) =>
          let s := s.endWait fun w => decide (w.cq = some (c.hoop * 64 + c.cq))
          (s.setCq c.hoop c.cq { s.cq c.hoop c.cq with segs := (s.cq c.hoop c.cq).segs ++ [(slot, k)] }).addReg R.SEG_COUNT 1
      else (s.waitRoom ⟨c.hoop, 2, 0, bytes + 8 * ceilDiv size 4096, s.count, some (c.hoop * 64 + c.cq), none, none⟩).1

/-- SEGMENT_READY: the segment of slot `slot` of the head of a queue can be made (R458). -/
def doSegmentReady (h q slot : Nat) (s : State) : State :=
  match (s.cq h q).head with
  | none => s
  | some c =>
    -- what a forward step reaches at once acts in ascending order (R44)
    if s.reachedFirst (65536 * (c.slot (slot + 2) + c.slot (slot + 3) * 2 ^ 32)) then (s.makeSegment c slot).startMoves.settled else s

/-! ## Models (R466, R467) -/

/-- One layer of a model image. -/
structure Layer where
  op : Nat
  act : Nat
  k : Nat
  stride : Nat
  inCh : Nat
  outCh : Nat
  w : Nat
  b : Nat
  scale : W32
  deriving DecidableEq, Repr

/-- The layers of an image. -/
def modelLayers (d : SMap Byte) : List Layer :=
  (List.range (rdAt d 7 1)).map fun l =>
    let a := 64 + 32 * l
    ⟨rdAt d a 1, rdAt d (a + 1) 1, rdAt d (a + 2) 1, rdAt d (a + 3) 1, rdAt d (a + 4) 2, rdAt d (a + 6) 2, rdAt d (a + 8) 4, rdAt d (a + 12) 4, w32 (rdAt d (a + 16) 4)⟩

/-- Output frames of a layer over `f` frames; none where it cannot run over them. -/
def Layer.frames (l : Layer) (f : Nat) : Option Nat :=
  if l.op = 0 ∨ l.op = 3 then some 1 else if l.k ≤ f then some ((f - l.k) / l.stride + 1) else none

/-- Products one output of the layer sums over `f` frames. [DEDUCED, log entry 66] -/
def Layer.products (l : Layer) (f : Nat) : Nat :=
  if l.op = 0 then f * l.inCh else if l.op = 1 then l.k * l.inCh else if l.op = 2 then l.k else f

/-- Weights of the layer over `f` frames. -/
def Layer.weights (l : Layer) (f : Nat) : Nat := if l.op = 3 then 0 else l.outCh * l.products f

/-- The shapes of a chain of layers: frames and channels after it, and its multiply-accumulates; none where it does not chain. -/
def chainShape (size : Nat) : List Layer → Nat → Nat → Nat → Option (Nat × Nat × Nat)
  | [], f, c, macs => some (f, c, macs)
  | l :: ls, f, c, macs =>
    match l.frames f with
    | none => none
    | some f' =>
      if l.inCh ≠ c ∨ l.outCh = 0 ∨ ((l.op = 2 ∨ l.op = 3) ∧ l.outCh ≠ l.inCh) ∨ 65536 < l.products f ∨ size < l.w + l.weights f ∨ (l.op ≠ 3 ∧ size < l.b + 4 * l.outCh) then none
      else chainShape size ls f' l.outCh (macs + (if l.op = 3 then 0 else f' * l.outCh * l.products f))

/-- Is the image in the first `len` bytes of `d` good for detector `det` (R466, R481)? [DEDUCED, log entry 66] -/
def modelOk (d : SMap Byte) (len det : Nat) : Bool :=
  let size := rdAt d 12 4
  let ls := modelLayers d
  decide (rdAt d 0 4 = 0x4D56454D ∧ rdAt d 4 2 = 1 ∧ rdAt d 6 1 = det ∧ 1 ≤ rdAt d 7 1 ∧ rdAt d 7 1 ≤ 16 ∧ 16 ≤ rdAt d 8 1 ∧ rdAt d 8 1 ≤ 64 ∧ rdAt d 9 1 = 0 ∧
    1 ≤ rdAt d 10 2 ∧ rdAt d 10 2 ≤ 150 ∧ 64 + 32 * rdAt d 7 1 ≤ size ∧ size ≤ len) &&
  (List.range 36).all (fun i => decide (rdAt d (28 + i) 1 = 0)) &&
  (List.range (rdAt d 7 1)).all (fun l => (List.range 12).all fun i => decide (rdAt d (64 + 32 * l + 20 + i) 1 = 0)) &&
  ls.all (fun l => decide (l.op ≤ 3 ∧ l.act ≤ 1 ∧ 1 ≤ l.k ∧ l.k ≤ 16 ∧ 1 ≤ l.stride ∧ l.stride ≤ 4)) &&
  (match chainShape size ls (rdAt d 10 2) (rdAt d 8 1) 0 with
   | some (f, c, macs) => decide (f = 1 ∧ c = 1 ∧ macs = rdAt d 24 4 ∧ macs ≤ 4194304)
   | none => false)

/-- clamp(round-even(v), −128, 127). -/
def toInt8 (v : FVal) : Int :=
  let q := v.num
  let m : Int := roundEven (if q < 0 then -q else q)
  max (-128) (min 127 (if q < 0 then -m else m))

/-- One layer over frames of channels (R466). -/
def Layer.run (d : SMap Byte) (l : Layer) (x : List (List Int)) : List (List Int) :=
  let f := x.length
  let n := (l.frames f).getD 0
  let wt := fun (i : Nat) => signedOf 8 (rdAt d (l.w + i) 1)
  let at_ := fun (t c : Nat) => (x.getD t []).getD c 0
  (List.range n).map fun t => (List.range l.outCh).map fun o =>
    let y : Int :=
      if l.op = 3 then
        let sum : Int := (List.range f).foldl (fun a i => a + at_ i o) 0
        toInt8 (FVal.ofRat ((sum : Rat) / (f : Rat)))
      else
        let bias := signedOf 32 (rdAt d (l.b + 4 * o) 4)
        let acc : Int :=
          if l.op = 2 then (List.range l.k).foldl (fun a k => a + wt (o * l.k + k) * at_ (t * l.stride + k) o) bias
          else
            let taps := if l.op = 0 then f else l.k
            let t0 := if l.op = 0 then 0 else t * l.stride
            (List.range taps).foldl (fun a k => (List.range l.inCh).foldl (fun b c => b + wt ((o * taps + k) * l.inCh + c) * at_ (t0 + k) c) a) bias
        toInt8 (fp32 (toFp32 ((fp32 (toFp32 (FVal.ofRat acc))).mul (fp32 l.scale))))
    if l.act = 1 then max 0 y else y

/-- Features of the frame that ends at sample `stop` of the mix (R462, R466). -/
def modelFrame (d : SMap Byte) (mix : List (BitVec 16)) (stop : Nat) : List Int :=
  let win := (mix.take stop).drop (stop - 400)
  let nb := rdAt d 8 1
  (List.range nb).map fun b => toInt8 (fp32 (toFp32 ((fp32 (Config.melBand (rdAt d 6 1) nb b win)).mul (fp32 (w32 (rdAt d 16 4))))))

/-- The score of a model on a mix (R462, R466): SIGMOID of the scaled output. [DEDUCED, log entry 65] -/
def modelScore (d : SMap Byte) (mix : List (BitVec 16)) : W32 :=
  let nf := rdAt d 10 2
  let frames := (List.range nf).map fun i => modelFrame d mix (mix.length - 160 * (nf - 1 - i))
  let y := (modelLayers d).foldl (fun x l => l.run d x) frames
  let v : Int := (y.headD []).headD 0
  toFp32 (fsigmoid (fp32 (toFp32 ((FVal.ofRat v).mul (fp32 (w32 (rdAt d 20 4)))))))

/-- MODEL_RESULT: DONE with a result (R481). [DEDUCED, log entry 66] -/
def State.modelResult (s : State) (r : Nat) : State := s.setReg R.MODEL_RESULT (w32 (1 + 16 * r))

/-- Enabled groups. -/
def State.liveGroups (s : State) : List Nat := (List.range 16).filter fun g => s.grpOn g

/-- Every enabled group has passed a hop boundary: the new image, or the stop, is in force and DONE is set (R467). -/
def State.modelTurn (s : State) (d : Nat) : State :=
  let m := s.model d
  if (m.next.isNone ∧ m.unload = false) ∨ s.islandOn && (s.liveGroups.any fun g => !m.passed.contains g) then s
  else
    let m' := match m.next with
      | some i => { m with loaded := true, buf := !m.buf, image := i, next := none, unload := false, passed := [] }
      | none => { m with loaded := false, image := [], unload := false, passed := [] }
    (s.setModel d m').modelResult 0

/-- A write of GRP_CTRL (R452, R479). A group that is disabled no longer holds up a change of model (R467). [DEDUCED, log entry 66] -/
def State.writeGrp (s : State) (g : Nat) (v : W32) : State :=
  let s := s.storeGrp g (applyLimit (.fields [(0,1,0,1), (4,4,0,15), (8,4,0,15), (12,3,0,7), (16,3,0,7), (20,2,0,2), (22,2,0,2), (24,2,0,2)]) v)
  (List.range 2).foldl (fun (s : State) d => s.modelTurn d) s

/-- GROUP_ENABLE: a write of GRP_CTRL with EN = 1 by hoop `f`. -/
def doGroupEnable (f g : Nat) (v : W32) (s : State) : State := s.reach f (R.GRP_CTRL g) fun s => s.writeGrp g (setBit v 0 true)

/-- A write of MODEL_CMD by hoop `f`: discarded while DONE is 0 (R481), and by an island that is not ON (R103). [DEDUCED, log entry 66] -/
def State.modelCmd (s : State) (f : Nat) (act : Nat → State → State) : State :=
  s.command f R.MODEL_CMD fun s =>
    if !bit (s.reg R.MODEL_RESULT) 0 then s
    else
      let d := (s.reg R.MODEL_DET).toNat
      if 2 ≤ d then s.modelResult 4 else act d s

/-- MODEL_LOAD (R467, R481). -/
def doModelLoad (f : Nat) (s : State) : State :=
  s.modelCmd f fun d s =>
    if !s.domainOn .compute then s.modelResult 5
    else match s.resolve 0 (s.reg R.MODEL_HANDLE).toNat with
    | none => s.modelResult 1
    | some k =>
      let o := s.obj k
      if !o.homed ∨ !o.allValid ∨ !modelOk o.data o.size d then s.modelResult 2
      else if (if d = 0 then 320 else 96) * 1024 < rdAt o.data 12 4 then s.modelResult 3
      else ((s.setReg R.MODEL_RESULT 0).setModel d { s.model d with next := some (o.data.filter fun e => decide (e.1 < rdAt o.data 12 4)), passed := [] }).modelTurn d

/-- MODEL_UNLOAD (R467). -/
def doModelUnload (f : Nat) (s : State) : State :=
  s.modelCmd f fun d s => ((s.setReg R.MODEL_RESULT 0).setModel d { s.model d with unload := true, passed := [] }).modelTurn d

/-- The image that gives group `g` its score: the new one once the group has passed its boundary. -/
def State.imageOf (s : State) (g d : Nat) : Option (SMap Byte) :=
  let m := s.model d
  if m.passed.contains g ∧ m.unload then none
  else if m.passed.contains g ∧ m.next.isSome then m.next
  else if m.loaded then some m.image else none

/-! ## Detectors (R462 to R465) -/

/-- Bounds of a temporal pattern in hops: ON, OFF between pulses, pulses, OFF after the cycle (R464). -/
structure Pattern where
  onLo : Nat
  onHi : Nat
  offLo : Nat
  offHi : Nat
  pulses : Nat
  endLo : Nat
  endHi : Nat
  deriving DecidableEq, Repr

def temporalThree : Pattern := ⟨45, 55, 45, 55, 3, 135, 165⟩
def temporalFour : Pattern := ⟨9, 11, 9, 11, 4, 450, 550⟩

/-- A run ends (`on`, its length, the position where it began) or goes on (`ended` false): one pattern's state after it. [DEDUCED, log entry 65] -/
def Alarm.step (p : Pattern) (a : Alarm) (on ended : Bool) (len pos : Nat) : Alarm :=
  let reset := { a with pulses := 0, score := 0, closing := false }
  if on then
    if !ended then (if p.onHi < len then reset else a)
    else if len < p.onLo ∨ p.onHi < len then reset
    else { a with pulses := a.pulses + 1, closing := false, cur := if a.pulses = 0 then pos else a.cur }
  else if a.pulses = p.pulses then
    if p.endLo ≤ len then { a with pulses := 0, closing := true, score := a.score + 1, first := if a.score = 0 then a.cur else a.first }
    else if ended then reset
    else a
  else if a.closing then (if p.endHi < len then reset else if ended then { a with closing := false } else a)
  else if a.pulses = 0 then a
  else if p.offHi < len ∨ (ended && decide (len < p.offLo)) then reset
  else a

/-- The tone state of a group after a hop with (`t`) or without a tone. -/
def Group.tone (x : Group) (t : Bool) (pos : Nat) : Group :=
  if t = x.toneOn then
    { x with run := x.run + 1, three := x.three.step temporalThree t false (x.run + 1) x.runPos, four := x.four.step temporalFour t false (x.run + 1) x.runPos }
  else
    let three := x.three.step temporalThree x.toneOn true x.run x.runPos
    let four := x.four.step temporalFour x.toneOn true x.run x.runPos
    { x with toneOn := t, run := 1, runPos := pos, three := three.step temporalThree t false 1 pos, four := four.step temporalFour t false 1 pos }

/-- The mix of a hop: floor of the mean of the group's channels, silent ones as zeros (R457, R465). -/
def State.mixHop (s : State) (g : Nat) (chans : List (List (BitVec 16))) : List (BitVec 16) :=
  let cs := s.grpChans g
  let at_ := fun (j c i : Nat) => if s.chanMuted c || s.chanGap c then (0 : Int) else signedOf 16 ((chans.getD j []).getD i 0).toNat
  (List.range 160).map fun i =>
    let sum : Int := cs.zipIdx.foldl (fun a e => a + at_ e.2 e.1 i) 0
    BitVec.ofInt 16 (sum / (max 1 cs.length : Nat))

/-- Energy of a hop. [DEDUCED, log entry 65] -/
def hopEnergy (x : List (BitVec 16)) : Nat := x.foldl (fun a v => a + (signedOf 16 v.toNat).natAbs ^ 2) 0

/-- Does energy `e` exceed `floor` by `db` dB? -/
def exceedsDb (e floor db : Nat) : Bool := decide (floor ^ 10 * 10 ^ db < e ^ 10)

/-- Is the hop an onset, given the hops before it (R463)? -/
def State.isOnset (s : State) (prev : List Hop) (e : Nat) : Bool :=
  let floor := ((prev.take 199).map (·.energy)).foldl min e
  let db := (s.force R.ONSET_DB).toNat
  let quiet := (prev.takeWhile fun h => !exceedsDb h.energy floor db).length
  exceedsDb e floor db && decide ((s.force R.ONSET_QUIET_MS).toNat ≤ 10 * quiet)

/-- The position of the oldest sample that the group's channels hold. -/
def State.oldestHeld (s : State) (g : Nat) : Nat :=
  match ((s.grpChans g).filterMap fun c => ((s.chan c).frames.head?).map (·.pos)).min? with
  | some p => p
  | none => 0

/-- Start mark of an ARM crossing (R462, R463). `hops` are the group's, this one first. [DEDUCED, log entry 65] -/
def State.startMark (s : State) (g d : Nat) (x : Group) : Nat :=
  let here := (x.hops.head?.map (·.pos)).getD 0
  let nf := match s.imageOf g d with | some i => rdAt i 10 2 | none => 0
  if d = 0 then
    let mark := match (x.hops.take 300).find? (·.onset) with
      | some h => h.pos - s.sampleSpan (16 * fld x.mark 0 10)
      | none => here - s.sampleSpan (160 * nf)
    max mark (s.oldestHeld g)
  else if d = 1 then
    let n := x.mix.length
    let e := fun (i : Nat) => Config.bandEnergy ((x.mix.drop (n - 160 * (i + 1))).take 160)
    -- the oldest hop held has no predecessor
    let rise := fun (i : Nat) => if i + 1 < x.hops.length then (e i : Int) - (e (i + 1) : Int) else 0
    let best := (List.range (min nf x.hops.length)).foldl (fun b i => if rise b < rise i then i else b) 0
    ((x.hops[best]?).map (·.pos)).getD here
  else
    let on := fld (s.reg R.ALARM_CTRL) 8 2
    let three := if on % 2 = 1 then x.three.score else 0
    let four := if 2 ≤ on then x.four.score else 0
    if four < three then x.three.first else if four = 0 then here else x.four.first

/-- The score of a detector at a hop (R462, R464). -/
def State.detScore (s : State) (g d : Nat) (x : Group) : W32 :=
  if d = 2 then
    let on := fld (s.reg R.ALARM_CTRL) 8 2
    toFp32 (FVal.ofRat (max (if on % 2 = 1 then x.three.score else 0) (if 2 ≤ on then x.four.score else 0) : Nat))
  else match s.imageOf g d with
    | some i => modelScore i x.mix
    | none => 0

/-- Post a crossing (R465, R468): its record is offered or kept, it is counted, and it may wake the device. -/
def State.crossing (s : State) (g d level : Nat) (score : W32) (mark : Nat) (ctrl : W32) : State :=
  let r : Rec := {
    hoop := fld ctrl 4 4, eq := fld ctrl 8 4, ty := 0x10, fault := false, forwarded := false, stamp := s.pos, source := 0x190, context := (s.reg (R.GRP_CTX g)).toNat, arrived := s.now,
    toHost := bit ctrl (16 + d), payload := payAt 24 1 d (payAt 25 1 level (payAt 28 4 score.toNat (payAt 32 8 (mark / 65536) (payAt 40 2 (mark % 65536) 0)))) }
  let s := s.addReg (R.DET_XCOUNT d) 1
  let awake := s.pm.computeUp && !(decide (s.pm.mode = .entering) && s.pm.killed)
  if awake then s.offer r
  else
    let lost := decide (16 ≤ s.island.kept.length)
    let s := { s with island := { s.island with kept := (if lost then s.island.kept.drop 1 else s.island.kept) ++ [r] } }
    let s := if lost then s.addReg R.PENDING_LOST 1 else s
    if fld ctrl (20 + 2 * d) 2 = level then ({ s with island := { s.island with wakeHeld := true } }).wake 1 else s

/-- One hop of one detector (R465). -/
def State.hopDet (s : State) (g d : Nat) : State :=
  let x := s.group g
  let y := s.det g d
  let score := s.detScore g d x
  let v := fun (a : Nat) => fp32 (s.reg a)
  let arm := v (R.DET_ARM d)
  let low := arm.sub (v (R.DET_HYST d))
  let sv := fp32 score
  let refr := s.pos + 65536 * (s.reg (R.DET_REFRACTORY d)).toNat
  let s := s.setDet g d { y with score := score }
  if y.st = 2 then
    (if y.refractoryEnd ≤ s.pos ∧ sv.lt low then s.setDet g d { y with st := 0, score := score } else s)
  else
    let arms := decide (y.st = 0) && arm.le sv
    let mark := if arms then s.startMark g d x else y.mark
    let s := if arms then s.crossing g d 1 score mark x.ctrl else s
    if !arms ∧ y.st = 0 then s
    else if (v (R.DET_FIRE d)).le sv then (s.crossing g d 2 score mark x.ctrl).setDet g d { y with st := 2, score := score, mark := mark, refractoryEnd := refr }
    else s.setDet g d { y with st := if sv.lt low then 0 else 1, score := score, mark := mark }

/-- DETECTOR_HOP: a 10 ms hop of group `g` ends now; `chans` are its channels' samples, 160 each, in ascending channel order. [DEDUCED, log entry 66] -/
def doDetectorHop (g : Nat) (chans : List (List (BitVec 16))) (s : State) : State :=
  if !s.islandOn ∨ !s.grpOn g then s
  else
    let pass := fun (m : Model) => if (m.next.isSome || m.unload) && !m.passed.contains g then { m with passed := m.passed ++ [g] } else m
    let s := (List.range 2).foldl (fun s d => (s.setModel d (pass (s.model d))).modelTurn d) s
    let x := s.group g
    let hop := s.mixHop g chans
    let first := s.pos - s.sampleSpan 159
    let e := hopEnergy hop
    let mix := x.mix ++ hop
    let band := s.reg R.ALARM_BAND
    let t := Config.toneTest (fld band 0 16) (fld band 16 16) (fld (s.reg R.ALARM_CTRL) 0 8) hop
    let now : Hop := ⟨first, e, s.isOnset x.hops e⟩
    let x := { x with ctrl := s.reg (R.GRP_CTRL g), mark := s.reg (R.GRP_MARK g), mix := mix.drop (mix.length - 24400), hops := (now :: x.hops).take 300 }
    let s := s.setGroup g (x.tone t first)
    ((List.range 3).filter fun d => bit x.ctrl (12 + d)).foldl (fun s d => s.hopDet g d) s

/-! ## Mute (R471 to R473) -/

/-- Every group's detectors become IDLE and what they have heard is discarded (R472). -/
def State.deafen (s : State) : State :=
  { s with island := { s.island with
      dets := s.island.dets.foldl (fun m e => mset Det.dflt m e.1 { e.2 with st := 0 }) [],
      groups := s.island.groups.foldl (fun m e => mset Group.dflt m e.1 { Group.dflt with ctrl := e.2.ctrl, mark := e.2.mark }) [] } }

/-- HW_MUTE_ASSERT: two consecutive low samples of MUTE_N. While muted, a low sample that restarts the release count (R471, R472). [DEDUCED, log entry 67] -/
def doHwMuteAssert (s : State) : State :=
  if !s.domainOn .aon then s
  else
    let s := { s with island := { s.island with muteHigh := false } }
    if s.island.hwMuted then s.addReg R.MUTE_TOGGLE_COUNT 1
    else
      let s := (s.clearChans (List.range 16)).deafen
      let s := { s with island := { s.island with hwMuted := true } }
      ((s.addReg R.MUTE_COUNT 1).setReg R.MUTE_STAMP_LO (w32 (s.count % 2 ^ 32))).setReg R.MUTE_STAMP_HI (w32 (s.count / 2 ^ 32))

/-- HW_MUTE_RELEASE: 20 consecutive high samples (R471). [DEDUCED, log entry 67] -/
def doHwMuteRelease (s : State) : State :=
  if s.domainOn .aon then { s with island := { s.island with hwMuted := false, muteHigh := true } } else s

/-- ISL_SW_MUTE_WRITE (R473). -/
def doIslSwMuteWrite (f : Nat) (v : W32) (s : State) : State := s.reach f R.ISL_SW_MUTE fun s => (s.setReg R.ISL_SW_MUTE (w32 (v.toNat % 2 ^ 17))).hushFrames

/-- ISL_CLEAR (R473). -/
def doIslClear (f : Nat) (v : W32) (s : State) : State := s.reach f R.ISL_CLEAR fun s => s.clearChans ((List.range 16).filter fun c => bit v c)

/-- A per-block reset of the island (R108, R470): the ring is cleared and its models and groups go; the mute switch, kept records
and an asserted wake stay (R472). [DEDUCED, log entry 66] -/
def islandReset (s : State) : State :=
  { s with island := { Island.dflt with hwMuted := s.island.hwMuted, muteHigh := s.island.muteHigh, kept := s.island.kept, wakeHeld := s.island.wakeHeld, clearing := true } }

/-! ## Meanings -/

def execPdmLineStuck (l : Fin 16) (s : State) : Out := run (doPdmLineStuck l) s
def execPdmLineRecover (l : Fin 16) (s : State) : Out := run (doPdmLineRecover l) s
def execTdmPortLost (p : Fin 4) (counts : Bool) (s : State) : Out := run (doTdmPortLost p counts) s
def execTdmPortLocked (p : Fin 4) (s : State) : Out := run (doTdmPortLocked p) s
def execRingFrame (c : Fin 16) (words : List W32) (s : State) : Out := runIf (decide (words.length = 512)) (doRingFrame c words) s
def execDetectorHop (g : Fin 16) (chans : List (List (BitVec 16))) (s : State) : Out :=
  runIf (chans.all fun l => decide (l.length = 160)) (doDetectorHop g chans) s
def execSegmentReady (h : Fin 16) (q : Fin 64) (slot : Fin 8) (s : State) : Out := run (doSegmentReady h q slot) s
def execModelLoad (f : Fin 16) (s : State) : Out := run (doModelLoad f) s
def execModelUnload (f : Fin 16) (s : State) : Out := run (doModelUnload f) s
def execHwMuteAssert (s : State) : Out := run doHwMuteAssert s
def execHwMuteRelease (s : State) : Out := run doHwMuteRelease s
def execRingClearComplete (s : State) : Out := run doRingClearComplete s
def execIslSwMuteWrite (f : Fin 16) (v : W32) (s : State) : Out := run (doIslSwMuteWrite f v) s
def execIslClear (f : Fin 16) (v : W32) (s : State) : Out := run (doIslClear f v) s
def execRingNchWrite (f : Fin 16) (v : W32) (s : State) : Out := run (doRingNchWrite f v) s
def execRchWrite (f c : Fin 16) (v : W32) (s : State) : Out := run (doRchWrite f c v) s
def execGroupEnable (f g : Fin 16) (v : W32) (s : State) : Out := run (doGroupEnable f g v) s

end Sys2Proof.Machine
end

