-- ==== Sys2Proof/Machine/Camera.lean ====
section
/-! DEFINITION. Camera pipelines (R482 to R512): packets, frames and their commits, the stages bit for bit, binding, the shadow
set, and re-processing from memory. -/

namespace Sys2Proof.Machine

/-! ## Sets and sizes -/

/-- The pipeline `n`. -/
def State.pipe (s : State) (n : Nat) : Pipe := mget Pipe.dflt s.pipes n

/-- Change a pipeline. -/
def State.setPipe (s : State) (n : Nat) (x : Pipe) : State := { s with pipes := mset Pipe.dflt s.pipes n x }

/-- The shadow set as stored on pages 2 and 3 of pipeline `n`. -/
def State.shadow (s : State) (n : Nat) : SMap W32 :=
  let b := pageOf .pipeline n
  s.regs.filter fun e => decide (b + 0x2000 ≤ e.1 ∧ e.1 < b + 0x4000)

/-- The owner of a pipeline's instance (R487). -/
def State.pipeOwner (s : State) (n : Nat) : Nat := fld (s.reg (R.HOOP_OWNER (pageOf .pipeline n))) 0 4

/-! ## Camera control (R617) -/

/-- What a board sees on CAM_RST_N: floating with its pull-down, driven low, driven high (R571, R617). -/
inductive ResetPin where
  | floats | low | high
  deriving DecidableEq, Repr

/-- The controls of instance `k`. [DESIGN CHOICE, log entry 99] -/
def State.camCtl (s : State) (k : Nat) : CamCtl := mget CamCtl.dflt s.camCtls k

/-- Controller `k`, CAM_MCLK `k` and CAM_RST_N `k` are driven while the instance's I/O die is present and the I/O main domain is
powered; without the die the balls have no connection (R607), and in LISTEN and OFF they float (R571). -/
def State.camDriven (s : State) (k : Nat) : Bool := present s.part .pipeline k && s.domainOn .ioMain

/-- The hoop that controller `k` belongs to: the owner of camera instance `k` (R617). -/
def State.camOwner (s : State) (k : Nat) : Nat := s.pipeOwner k

/-- CAM_RST_N `k`: low from reset until the instance's owner raises it (R617). -/
def State.camReset (s : State) (k : Nat) : ResetPin :=
  if s.camDriven k then (if (s.camCtl k).resetHigh then .high else .low) else .floats

/-- The owner raises or lowers CAM_RST_N `k` (R617); anyone else's request has no effect. No command of the table carries it. [DESIGN CHOICE, log entry 99] -/
def State.driveCamReset (s : State) (hoop k : Nat) (high : Bool) : State :=
  if s.camDriven k ∧ hoop = s.camOwner k then { s with camCtls := mset CamCtl.dflt s.camCtls k { s.camCtl k with resetHigh := high } } else s

/-- The owner sets controller `k` to I3C, or to I2C for a legacy sensor (R617). [DESIGN CHOICE, log entry 99] -/
def State.setCamBus (s : State) (hoop k : Nat) (i3c : Bool) : State :=
  if s.camDriven k ∧ hoop = s.camOwner k then { s with camCtls := mset CamCtl.dflt s.camCtls k { s.camCtl k with i3c := i3c } } else s

/-- The reset of instance `k` takes its controls back to their reset: CAM_RST_N low (R617). [DESIGN CHOICE, log entry 99] -/
def State.camCtlReset (s : State) (k : Nat) : State := { s with camCtls := mset CamCtl.dflt s.camCtls k CamCtl.dflt }

/-- Low and high halves of a two-field register. -/
def lo14 (v : W32) : Nat := fld v 0 14
def hi14 (v : W32) : Nat := fld v 16 14

/-- Bytes of one element of an output format (R491). -/
def fmtBytes (f : Nat) : Nat := if f = 1 then 1 else 2

/-- What one frame makes: the index of R491 (0–3 output, 8–12 tap), format, planes, width, height, T2 mask. -/
structure FrameOut where
  idx : Nat
  fmt : Nat
  nplane : Nat
  w : Nat
  h : Nat
  loc : Nat
  deriving DecidableEq, Repr

/-- Bytes of a row and size of a frame object (R491). -/
def FrameOut.row (f : FrameOut) : Nat := 64 * ceilDiv (f.w * fmtBytes f.fmt) 64
def FrameOut.size (f : FrameOut) : Nat := 4096 + f.nplane * f.h * f.row

/-- The outputs a set enables. -/
def State.outsOf (s : State) (n : Nat) (set : SMap W32) : List FrameOut :=
  (List.range 4).filterMap fun o =>
    let c := s.inSet set (R.OUT_CTRL n o)
    let z := s.inSet set (R.OUT_SIZE n o)
    if bit c 0 then some ⟨o, fld c 8 4, if bit c 1 then 1 else 3, lo14 z, hi14 z, (s.inSet set (R.OUT_LOC n o)).toNat % 64⟩ else none

/-- The taps a set enables. -/
def State.tapsOf (s : State) (n : Nat) (set : SMap W32) : List FrameOut :=
  let z := s.inSet set (R.FMT_SIZE n)
  (List.range 5).filterMap fun t =>
    if bit (s.inSet set (R.TAP_CTRL n t)) 0 then some ⟨8 + t, 0xF0, if t = 4 then 3 else 1, lo14 z, hi14 z, (s.inSet set (R.TAP_LOC n t)).toNat % 64⟩ else none

/-- Bytes of T2 that the objects take, their check planes included. -/
def outsBytes (l : List FrameOut) : Nat := l.foldl (fun a f => a + 4104 * ceilDiv f.size 4096) 0

/-! ## The stages (R494 to R498) -/

/-- sat() of R494. -/
def sat16 (v : Int) : Nat := (max 0 (min 65535 v)).toNat

/-- A picture of codes by row. -/
abbrev Pic := Array (Array Nat)

/-- Reflection of a coordinate (R496). [DEDUCED, log entry 68] -/
def reflect (n : Nat) (i : Int) : Nat := (if i < 0 then -i else if (n : Int) ≤ i then 2 * ((n : Int) - 1) - i else i).toNat

/-- The code at (y, x), reflected outside the frame. -/
def Pic.px (p : Pic) (w h : Nat) (y x : Int) : Nat := ((p[reflect h y]?).getD #[])[reflect w x]?.getD 0

/-- A picture made point by point. -/
def Pic.make (w h : Nat) (f : Nat → Nat → Nat) : Pic := ((List.range h).map fun y => ((List.range w).map fun x => f y x).toArray).toArray

/-- The 2 × 2 position of a pixel (R494). -/
def pos2 (y x : Nat) : Nat := y % 2 * 2 + x % 2

/-- Colour at a position of a CFA: 0 R, 1 G, 2 B (R495). -/
def cfaColour (cfa p : Nat) : Nat :=
  (([[0, 1, 1, 2], [1, 0, 2, 1], [1, 2, 0, 1], [2, 1, 1, 0]].getD cfa []).getD p 1)

/-- Everything the stages read beside the pixels. -/
structure Stage where
  w : Nat
  h : Nat
  cfa : Nat
  reg : Nat → W32
  n : Nat
  dpc : List (Nat × Nat)
  lsc : Nat → Nat
  tone : Nat → Nat

/-- lerp of R495. [DEDUCED, log entry 41] -/
def ilerp (a b f : Nat) : Nat := (a * (65536 - f) + b * f + 32768) / 65536

/-- Black level (R495). -/
def Stage.black (t : Stage) (p : Pic) : Pic :=
  Pic.make t.w t.h fun y x =>
    let r := t.reg (R.BL t.n (pos2 y x))
    let v := p.px t.w t.h y x
    sat16 (((v - fld r 0 16) * fld r 16 16 + 2048) / 4096 : Nat)

/-- Defective-pixel correction (R496). -/
def Stage.defect (t : Stage) (p : Pic) : Pic :=
  let c := t.reg (R.DPC_CTRL t.n)
  let k : Int := if t.cfa = 4 then 1 else 2
  let thr := fld c 16 16
  Pic.make t.w t.h fun y x =>
    let at_ := fun (dy dx : Int) => p.px t.w t.h ((y : Int) + dy * k) ((x : Int) + dx * k)
    let v := at_ 0 0
    let around := [at_ (-1) (-1), at_ (-1) 0, at_ (-1) 1, at_ 0 (-1), at_ 0 1, at_ 1 (-1), at_ 1 0, at_ 1 1]
    let hi := around.foldl max 0
    let lo := around.foldl min 65535
    let bad := (bit c 0 && (decide (hi + thr < v) || decide (v + thr < lo))) || (bit c 1 && t.dpc.contains (x, y))
    if bad then
      match ([at_ (-1) 0, at_ 1 0, at_ 0 (-1), at_ 0 1]).mergeSort (fun a b => decide (a ≤ b)) with
      | [_, a, b, _] => (a + b + 1) / 2
      | _ => v
    else v

/-- The axis interpolation of the lens-shading table (R495): index and fraction. [DEDUCED, log entry 41] -/
def lscAxis (size c : Nat) : Nat × Nat :=
  let u := c * 16 * 65536 / (size - 1)
  let i := min (u / 65536) 15
  (i, u - 65536 * i)

/-- Lens shading, then white balance (R495). -/
def Stage.gains (t : Stage) (p : Pic) : Pic :=
  let on := bit (t.reg (R.LSC_CTRL t.n)) 0
  Pic.make t.w t.h fun y x =>
    let q := pos2 y x
    let v := p.px t.w t.h y x
    let (i, fx) := lscAxis t.w x
    let (j, fy) := lscAxis t.h y
    let g := fun (r c : Nat) => t.lsc (q * 289 + r * 17 + c)
    let gain := ilerp (ilerp (g j i) (g j (i + 1)) fx) (ilerp (g (j + 1) i) (g (j + 1) (i + 1)) fx) fy
    let v := if on then sat16 ((v * gain + 2048) / 4096 : Nat) else v
    sat16 ((v * fld (t.reg (R.WB t.n q)) 0 16 + 2048) / 4096 : Nat)

def h2 (a : Int) : Int := (a + 1) / 2
def h4 (a : Int) : Int := (a + 2) / 4
def est (a b c d e : Int) : Int := h2 (b + d) + h4 (2 * c - a - e)
def grad (a b c d e : Int) : Int := (b - d).natAbs + (2 * c - a - e).natAbs
def pickEst (t ga gb ea eb : Int) : Int := if ga + t < gb then ea else if gb + t < ga then eb else h2 (ea + eb)

/-- Demosaic (R497): the three colours of a pixel. -/
def Stage.demosaic (t : Stage) (p : Pic) (y x : Nat) : Nat × Nat × Nat :=
  let a := fun (dy dx : Int) => (p.px t.w t.h ((y : Int) + dy) ((x : Int) + dx) : Int)
  let own := p.px t.w t.h y x
  if t.cfa = 4 then (own, own, own)
  else
    let thr : Int := fld (t.reg (R.DEM_T t.n)) 0 16
    let along := fun (dy dx : Int) (f : Int → Int → Int → Int → Int → Int) => f (a (-2 * dy) (-2 * dx)) (a (-dy) (-dx)) (a 0 0) (a dy dx) (a (2 * dy) (2 * dx))
    let here := cfaColour t.cfa (pos2 y x)
    if here = 1 then
      let hz := sat16 (along 0 1 est)
      let vt := sat16 (along 1 0 est)
      if cfaColour t.cfa (pos2 y (x + 1)) = 0 then (hz, own, vt) else (vt, own, hz)
    else
      let g := sat16 (pickEst thr (along 0 1 grad) (along 1 0 grad) (along 0 1 est) (along 1 0 est))
      let other := sat16 (pickEst thr (along 1 1 grad) (along 1 (-1) grad) (along 1 1 est) (along 1 (-1) est))
      if here = 0 then (own, g, other) else (other, g, own)

/-- Colour matrix and tone curve (R497). -/
def Stage.colour (t : Stage) (c : Nat × Nat × Nat) : Nat × Nat × Nat :=
  let m := fun (i j : Nat) => signedOf 16 (t.reg (R.CCM t.n (3 * i + j))).toNat
  let out := fun (i : Nat) => sat16 ((m i 0 * c.1 + m i 1 * c.2.1 + m i 2 * c.2.2 + 2048) / 4096 + signedOf 16 (t.reg (R.CCM_OFF t.n i)).toNat)
  let tone := fun (i v : Nat) =>
    if bit (t.reg (R.TONE_CTRL t.n)) 0 then
      let k := v / 64
      let f := v % 64
      (t.tone (i * 1025 + k) * (64 - f) + t.tone (i * 1025 + k + 1) * f + 32) / 64
    else v
  (tone 0 (out 0), tone 1 (out 1), tone 2 (out 2))

/-- The source of output coordinate `d` (R309): two coordinates and a fraction of 65,536. -/
def resizeAxis (bilinear : Bool) (i o d : Nat) : Nat × Nat × Nat :=
  if !bilinear then (d * i / o, d * i / o, 0)
  else
    let s : Int := (((2 * d + 1) * i : Nat) - (o : Int)) * 65536 / (2 * o : Nat)
    if s < 0 then (0, 0, 0)
    else
      let i0 := s.toNat / 65536
      if i - 1 ≤ i0 then (i - 1, i - 1, 0) else (i0, i0 + 1, s.toNat % 65536)

/-- The bytes of one value of a format, code `v` (R498). -/
def outBytesOf (fmt v : Nat) : List Byte :=
  if fmt = 1 then [BitVec.ofNat 8 (min 255 ((v + 128) / 256))]
  else
    let b := if fmt = 0xF0 then v else encodeFmt (if fmt = 5 then fmtBf16 else fmtFp16) (FVal.ofRat ((v : Rat) / 65535))
    [BitVec.ofNat 8 b, BitVec.ofNat 8 (b / 256)]

/-- The planes of output `o` from the RGB picture after the tone curve (R498). -/
def Stage.output (t : Stage) (o : Nat) (rgb : Array (Array (Nat × Nat × Nat))) : Nat → Nat → Nat → Nat :=
  let c := t.reg (R.OUT_CTRL t.n o)
  let org := t.reg (R.OUT_CROP_ORG t.n o)
  let cs := t.reg (R.OUT_CROP_SIZE t.n o)
  let os := t.reg (R.OUT_SIZE t.n o)
  let at_ := fun (p y x : Nat) =>
    let v := ((rgb[reflect t.h (hi14 org + y : Nat)]?).getD #[])[reflect t.w (lo14 org + x : Nat)]?.getD (0, 0, 0)
    if p = 0 then v.1 else if p = 1 then v.2.1 else v.2.2
  let ch := fun (p y x : Nat) =>
    let (y0, y1, fy) := resizeAxis (bit c 2) (hi14 cs) (hi14 os) y
    let (x0, x1, fx) := resizeAxis (bit c 2) (lo14 cs) (lo14 os) x
    ilerp (ilerp (at_ p y0 x0) (at_ p y0 x1) fx) (ilerp (at_ p y1 x0) (at_ p y1 x1) fx) fy
  fun p y x => if bit c 1 then (871 * ch 0 y x + 2929 * ch 1 y x + 296 * ch 2 y x + 2048) / 4096 else ch p y x

/-- UINT16 entries of a table object, and the entries of a DPC table (R496). -/
def State.table16 (s : State) (h handle : Nat) : Nat → Nat := match s.resolve h handle with | some k => fun i => (s.obj k).rd (2 * i) 2 | none => fun _ => 0

/-- The stages of a set over a frame of `w` × `h`. -/
def State.stage (s : State) (n w h : Nat) (set : SMap W32) : Stage :=
  let g := s.inSet set
  let own := s.pipeOwner n
  let d := s.table16 own (g (R.DPC_TABLE n)).toNat
  { w := w, h := h, cfa := fld (g (R.FMT_CTRL n)) 4 3, reg := g, n := n,
    dpc := if bit (g (R.DPC_CTRL n)) 1 then (List.range (g (R.DPC_COUNT n)).toNat).map fun i => (d (2 * i), d (2 * i + 1)) else [],
    lsc := s.table16 own (g (R.LSC_TABLE n)).toNat, tone := s.table16 own (g (R.TONE_TABLE n)).toNat }

/-- The pictures at the tap points A to D, and the colours after demosaic and after the tone curve. `from_` is the tap point the
frame enters after: 0 for the whole chain (R494, R504). -/
structure Pictures where
  a : Pic
  b : Pic
  c : Pic
  d : Pic
  rgb : Array (Array (Nat × Nat × Nat))
  out : Array (Array (Nat × Nat × Nat))

def Stage.run (t : Stage) (from_ : Nat) (p : Pic) (given : Option (Array (Array (Nat × Nat × Nat)))) : Pictures :=
  let b := if from_ ≤ 0 then t.black p else p
  let c := if from_ ≤ 1 then t.defect b else p
  let d := if from_ ≤ 2 then t.gains c else p
  let rgb := match given with
    | some g => g
    | none => ((List.range t.h).map fun y => ((List.range t.w).map fun x => t.demosaic d y x).toArray).toArray
  ⟨p, b, c, d, rgb, rgb.map fun r => r.map t.colour⟩

/-- The value of plane `p` at (y, x) of what an output or tap writes. -/
def Stage.value (t : Stage) (x : Pictures) (f : FrameOut) : Nat → Nat → Nat → Nat :=
  if f.idx < 4 then t.output f.idx x.out
  else if f.idx = 12 then fun p y z => let v := ((x.rgb[y]?).getD #[])[z]?.getD (0, 0, 0); if p = 0 then v.1 else if p = 1 then v.2.1 else v.2.2
  else fun _ y z => (if f.idx = 8 then x.a else if f.idx = 9 then x.b else if f.idx = 10 then x.c else x.d).px t.w t.h y z

/-! ## Frame objects (R487 to R491) -/

/-- What the descriptor of a frame says beside its shape. -/
structure FrameInfo where
  flags : Nat
  fseq : Nat
  csi : Nat
  fs : Nat
  fe : Nat
  filled : Nat
  errs : Nat
  dropped : Nat
  source : Nat
  deriving DecidableEq, Repr

/-- The 64-byte descriptor (R491). -/
def frameHead (n cfa : Nat) (f : FrameOut) (i : FrameInfo) : List Byte :=
  let le := fun (n x : Nat) => (List.range n).map fun k => BitVec.ofNat 8 (x / 256 ^ k)
  le 4 0x4D564652 ++ le 2 1 ++ le 1 n ++ le 1 f.idx ++ le 1 f.fmt ++ le 1 f.nplane ++ le 2 i.flags ++ le 4 i.fseq ++ le 2 f.w ++ le 2 f.h ++ le 4 f.row ++
  le 4 (f.h * f.row / 64) ++ le 1 (if f.fmt = 0xF0 then cfa else 0xFF) ++ le 1 0 ++ le 2 i.csi ++ le 8 (i.fs / 65536) ++ le 2 (i.fs % 65536) ++ le 2 i.filled ++
  le 8 (i.fe / 65536) ++ le 2 (i.fe % 65536) ++ le 2 i.errs ++ le 4 i.dropped ++ le 4 i.source

/-- The content of a frame object. -/
def frameData (n cfa : Nat) (f : FrameOut) (i : FrameInfo) (val : Nat → Nat → Nat → Nat) : SMap Byte :=
  (List.range f.nplane).foldl (fun d p => (List.range f.h).foldl (fun d y =>
    msetList 0 d (4096 + p * f.h * f.row + y * f.row) ((List.range f.w).flatMap fun x => outBytesOf f.fmt (val p y x))) d) (msetList 0 [] 0 (frameHead n cfa f i))

/-- Make the objects of a frame in the owner's table, homed in T2 and pinned `pins` times: the keys, or none where the table has
no entry. [DEDUCED, log entry 68] -/
def State.makeFrames (s : State) (n : Nat) (set : SMap W32) (outs : List FrameOut) (i : FrameInfo) (t : Stage) (x : Pictures) (pins : Nat) : Option (State × List (Nat × Nat)) :=
  outs.foldl (fun (acc : Option (State × List (Nat × Nat))) f =>
    match acc with
    | none => none
    | some (s, l) =>
      let data := frameData n (fld (s.inSet set (R.FMT_CTRL n)) 4 3) f i (t.value x f)
      match s.newObj (s.pipeOwner n) { Obj.dflt with kind := 5, tier := 2, loc := f.loc, homed := true, size := f.size, age := s.pos, pins := pins, data := data,
                                                     tileDflt := zeroTile, tiles := (tilesOf data (ceilDiv f.size 4096) fun _ => false).filter fun e => decide (e.2 ≠ zeroTile) } with
      | none => none
      | some (s, k) => some (s, l ++ [(f.idx, k)])) (some (s, []))

/-- A frame leaves its rotation (R489). -/
def State.leaveRotation (s : State) (k : Nat) : State :=
  let s := s.modObj k fun o => { o with pins := o.pins - 1 }
  if 0 < (s.obj k).pins then s
  else if s.named k then { s with gone := s.gone ++ [k] }
  else s.freeObj k

/-- A frame joins the rotation of an output or tap, and the oldest leaves where that takes it above KEEP (R489). [DEDUCED, log entry 68] -/
def State.rotate (s : State) (n idx k keep : Nat) : State :=
  let l := mget [] s.rotations (n * 16 + idx) ++ [(k, s.pos)]
  let out := l.take (l.length - keep)
  let stay := l.drop (l.length - keep)
  let s := { s with rotations := mset [] s.rotations (n * 16 + idx) stay }
  let s := out.foldl (fun s e => s.leaveRotation e.1) s
  if idx < 4 then (s.setReg (R.OUT_LAST n idx) (w32 (s.handleOf k))).setReg (R.OUT_FRAMES n idx) (w32 stay.length)
  else s.setReg (R.TAP_LAST n (idx - 8)) (w32 (s.handleOf k))

/-- A frame is dropped (R493, R502, R503): its allocations are released and the drop is counted. -/
def State.dropCam (s : State) (n reason : Nat) : State :=
  let x := s.pipe n
  let ids := (x.frame.toList ++ x.ended).map (·.alloc)
  let s := { s with allocs := s.allocs.filter fun a => !(ids.any fun i => decide (a.holder = Holder.camera i)) }
  let c := (x.frame.toList ++ x.ended).length
  let s := s.setPipe n { x with frame := none, ended := [], dropped := x.dropped + max 1 c }
  (s.addReg (R.FRAMES_DROPPED n) (max 1 c)).setReg (R.LAST_DROP n) (w32 reason)

/-- Only the frame in progress is dropped. -/
def State.dropCurrent (s : State) (n reason : Nat) : State :=
  let x := s.pipe n
  let ids := x.frame.toList.map (·.alloc)
  let s := { s with allocs := s.allocs.filter fun a => !(ids.any fun i => decide (a.holder = Holder.camera i)) }
  ((s.setPipe n { x with frame := none, dropped := x.dropped + 1 }).addReg (R.FRAMES_DROPPED n) 1).setReg (R.LAST_DROP n) (w32 reason)

/-- Add `1` to, or take it from, the pins the device holds on each of some objects (R191). -/
def State.pinAll (s : State) (keys : List Nat) : State := keys.foldl (fun s k => s.modObj k fun o => { o with pins := o.pins + 1 }) s
def State.unpinAll (s : State) (keys : List Nat) : State := keys.foldl (fun s k => s.modObj k fun o => { o with pins := o.pins - 1 }) s

/-- MEM_RESULT: DONE with a result (R506); the job is over, and the tables of its set go (R492). -/
def State.memDone (s : State) (n res : Nat) : State :=
  let s := s.unpinAll (match (s.pipe n).mem with | some j => j.pins | none => [])
  (s.setPipe n { s.pipe n with mem := none }).setReg (R.MEM_RESULT n) (w32 (1 + 16 * res))

/-- What stopping a pipeline does (R493): frames in progress are dropped with STOP, and a memory job is killed. -/
def pipeStop (n : Nat) (s : State) : State :=
  let s := if (s.pipe n).frame.isSome ∨ (s.pipe n).ended ≠ [] then s.dropCam n 5 else s
  if (s.pipe n).mem.isSome then s.memDone n 3 else s

/-- The binding is released (R485). -/
def unbind (n : Nat) (s : State) : State :=
  let s := pipeStop n s
  (s.setPipe n { s.pipe n with blank := false }).setReg (R.PIPE_BOUND n) 0

/-- Is pipeline `n` bound to (port, channel)? -/
def State.boundTo (s : State) (n port vc : Nat) : Bool :=
  let v := s.reg (R.PIPE_BOUND n)
  bit v 12 && decide (fld v 0 4 = port ∧ fld v 8 4 = vc)

/-- The pipeline that a pair feeds (R484). -/
def State.fedBy (s : State) (port vc : Nat) : Option Nat := (List.range 16).find? fun n => s.boundTo n port vc

/-- Pipelines a port feeds. -/
def State.feeds (s : State) (port : Nat) : List Nat := (List.range 16).filter fun n => let v := s.reg (R.PIPE_BOUND n); bit v 12 && decide (fld v 0 4 = port)

/-- Fencing an instance (R586): its own binding is released, and every pipeline its port feeds is unbound. -/
def camFence (n : Nat) (s : State) : State := (s.feeds n).foldl (fun s k => unbind k s) (unbind n s)

/-! ## Packets (R482, R483, R500 to R503) -/

/-- Does the port receive: its instance present and not FENCED, I/O main up and not stopped for DOZE? -/
def State.portOn (s : State) (p : Nat) : Bool := s.live .pipeline p && decide (s.pm.mode = .active ∨ s.pm.mode = .idle)

/-- A packet header (R483): good (0), corrected (1), or bad (2), which discards the packet. -/
def State.header (s : State) (p hdr : Nat) (act : State → State) : State :=
  if !s.portOn p then s
  else if hdr = 2 then s.addReg (R.HDR_ECC_DROP p) 1
  else act (if hdr = 1 then s.addReg (R.HDR_ECC_CORR p) 1 else s)

/-- The black level at a formatted position, with which missing and damaged pixels are filled (R500, R501). -/
def State.fill (s : State) (set : SMap W32) (n y x : Nat) : Nat := fld (s.inSet set (R.BL n (pos2 y x))) 0 16

/-- A frame ends at the position now (R500, R501): missing lines are filled, and it waits for its commit. -/
def State.endCam (s : State) (n : Nat) (f : CamFrame) (extra : Nat) : State :=
  let size := s.inSet f.set (R.FMT_SIZE n)
  let missing := hi14 size - f.lines.length
  let short := decide (0 < missing ∨ extra ≠ 0)
  let fill := (List.range missing).map fun i => (List.range (lo14 size)).map fun x => s.fill f.set n (f.lines.length + i) x
  let f := { f with fe := s.pos, lines := f.lines ++ fill, filled := missing, flags := f.flags + b2n short + extra }
  let x := s.pipe n
  let s := s.setPipe n { x with frame := none, ended := x.ended ++ [f] }
  let s := if short then (s.raiseWith .pipeline n 0 0x800 0 f.fseq).addReg (R.SHORT_COUNT n) 1 else s
  if bit (w32 f.flags) 1 then (s.raiseWith .pipeline n 1 0x801 0 f.fseq).addReg (R.LONG_COUNT n) 1 else s

/-- The pending set takes effect (R492): the tables of the old one are unpinned. -/
def State.applySet (s : State) (n : Nat) : State :=
  let x := s.pipe n
  match x.next with
  | none => s
  | some set =>
    let s := s.unpinAll x.pins
    s.setPipe n { x with set := set, next := none, pins := x.nextPins, nextPins := [] }

/-- CSI_FRAME_START on (port, channel), with the packet's frame number (R483, R492, R500, R503). -/
def doCsiFrameStart (port vc hdr csi : Nat) (s : State) : State :=
  s.header port hdr fun s =>
    match s.fedBy port vc with
    | none => s
    | some n =>
      let s := match (s.pipe n).frame with | some f => s.endCam n f 0x20 | none => s
      if !s.isOn .pipeline n then s
      else
        let s := s.applySet n
        let x := s.pipe n
        let s := s.setPipe n { x with starts := x.starts + 1, blank := false }
        let outs := s.outsOf n x.set ++ s.tapsOf n x.set
        let own := s.pipeOwner n
        let bytes := outsBytes outs
        if 64 ≤ x.ended.length + b2n x.mem.isSome then s.dropCurrent n 4
        else if !s.roomFor own 2 0 bytes then (s.askRoom own 2 0 bytes).dropCurrent n 2
        else if s.freeEntries own < outs.length then s.dropCurrent n 3
        else
          let (s, id) := s.fresh
          let s := { s with allocs := s.allocs ++ [(⟨.camera id, own, 2, 0, bytes, 0⟩ : Alloc)] }
          (s.setPipe n { s.pipe n with frame := some ⟨x.starts + 1, csi, s.pos, 0, 0, [], 0, 0, 0, s.now, 0, x.set, id, false⟩ }).noteOcc 3

/-- Frames of pipeline `n` take a packet at the time now: FRAME_TIMEOUT counts from it (R500). [DEDUCED, log entry 69] -/
def State.packetSeen (s : State) (n : Nat) : State :=
  match (s.pipe n).frame with
  | some f => s.setPipe n { s.pipe n with frame := some { f with lastAt := s.now } }
  | none => s

/-- Packets received and discarded without a count (R482): line and frame synchronisation, generic short packets, embedded data. [DEDUCED, log entry 69] -/
def quietType (dt : Nat) : Bool := decide (dt < 4 ∨ (8 ≤ dt ∧ dt < 16) ∨ dt = 0x12)

/-- Data types of a line: 0x2A to 0x2E (R482). [DEDUCED, log entry 69] -/
def rawType (dt : Nat) : Option Nat := if 0x2A ≤ dt ∧ dt ≤ 0x2E then some (dt - 0x2A) else none

/-- Capacity of the input FIFO in pixels (R486). -/
def fifoPixels (w : Nat) : Nat := (393216 - 16 * w) / 2

/-- CSI_LINE: a long packet with its pixels; `occ` pixels stand in the input FIFO (R486, R495, R501, R502). [DEDUCED, log entry 69] -/
def doCsiLine (port vc hdr dt : Nat) (crcOk : Bool) (pixels : List (BitVec 16)) (occ : Nat) (s : State) : State :=
  s.header port hdr fun s =>
    let s := match s.fedBy port vc with | some n => s.packetSeen n | none => s
    let s := if crcOk ∨ dt < 16 then s else s.addReg (R.CRC_ERR port) 1
    if quietType dt then
      -- a line-start packet starts the line, which is stamped there (R483, R42)
      match s.fedBy port vc with
      | none => s
      | some n => match (s.pipe n).frame with
        | some f => if dt = 2 then s.setPipe n { s.pipe n with frame := some { f with lineAt := s.pos, lineOpen := true } } else s
        | none => s
    else match rawType dt with
    | none => s.addReg (R.PORT_DT_DROPS port) 1
    | some t =>
      match s.fedBy port vc with
      | none => s
      | some n =>
        match (s.pipe n).frame with
        | none => s
        | some f =>
          let g := s.inSet f.set
          let size := g (R.FMT_SIZE n)
          let org := g (R.FMT_ORIGIN n)
          let src := g (R.FMT_SRC n)
          let put := fun (s : State) (f : CamFrame) => s.setPipe n { s.pipe n with frame := some { f with lineAt := if f.lineOpen then f.lineAt else s.pos, lineOpen := false } }
          if fld (g (R.FMT_CTRL n)) 0 3 ≠ t then s.addReg (R.PORT_DT_DROPS port) 1
          else if hi14 src ≤ f.received then put s { f with flags := if bit (w32 f.flags) 1 then f.flags else f.flags + 2 }
          else
            let inside := decide (hi14 org ≤ f.received ∧ f.received < hi14 org + hi14 size)
            let hwm := ceilDiv (2 * (occ + lo14 size)) 1024
            let s := if inside then s.maxReg (R.FIFO_HWM_KIB n) (if occ + lo14 size ≤ fifoPixels (lo14 size) then hwm else 0) else s
            if inside ∧ fifoPixels (lo14 size) < occ + lo14 size then (s.raiseWith .pipeline n 2 0x803 0 f.fseq).dropCurrent n 1
            else
              let short := decide (pixels.length < lo14 src)
              let long := decide (lo14 src < pixels.length)
              let set := fun (b : Nat) (c : Bool) (fl : Nat) => if c ∧ bit (w32 fl) b = false then fl + 2 ^ b else fl
              let flags := set 4 (!crcOk) (set 3 long (set 2 short f.flags))
              let err := short || long || !crcOk
              let y := f.received - hi14 org
              let depth := 8 + 2 * t
              let code := fun (x : Nat) =>
                match crcOk, pixels[lo14 org + x]? with
                | true, some v => v.toNat % 2 ^ depth * 2 ^ (16 - depth)
                | _, _ => s.fill f.set n y x
              let line := (List.range (lo14 size)).map code
              let s := if err then s.addReg (R.LINE_ERR_COUNT n) 1 else s
              put s { f with received := f.received + 1, flags := flags, errs := f.errs + b2n err, lines := if inside then f.lines ++ [line] else f.lines }

/-- CSI_FRAME_END (R500). -/
def doCsiFrameEnd (port vc hdr : Nat) (s : State) : State :=
  s.header port hdr fun s =>
    match s.fedBy port vc with
    | none => s
    | some n => match (s.pipe n).frame with | some f => s.endCam n f 0 | none => s

/-- FRAME_TIMEOUT of pipeline `n` (R500). -/
def doFrameTimeout (n : Nat) (s : State) : State :=
  match (s.pipe n).frame with
  | some f => if f.lastAt + 1000 * (s.reg (R.FRAME_TIMEOUT n)).toNat ≤ s.now then s.endCam n f 0x40 else s
  | none => s

/-- The allocations of the next frame of pipeline `n` are asked for without waiting (R487, R187): where the pool has no room,
evictions begin. [DEDUCED, log entry 68] -/
def State.askFrame (s : State) (n : Nat) : State :=
  let x := s.pipe n
  let bytes := outsBytes (s.outsOf n (x.next.getD x.set) ++ s.tapsOf n (x.next.getD x.set))
  if s.roomFor (s.pipeOwner n) 2 0 bytes then s else s.askRoom (s.pipeOwner n) 2 0 bytes

/-- The live camera's vertical blanking begins where no frame is in progress, and a memory job runs (R505). [DEDUCED, log entry 68] -/
def State.blanking (s : State) (n : Nat) : State :=
  let x := s.pipe n
  if x.frame.isSome ∨ x.ended ≠ [] then s
  else s.setPipe n { x with blank := true, mem := x.mem.map fun j => if j.begun then j else { j with begun := true, start := s.pos } }

/-- The objects of a frame are written on the stacks of their masks (R166, R202, R411). -/
def State.frameTraffic (s : State) (h : Nat) (keys : List (Nat × Nat)) : State :=
  keys.foldl (fun (s : State) e => s.transfer h true 2 (s.obj e.2).loc [(0, (s.obj e.2).size)] .other) s

/-- FRAME_COMMIT: the oldest ended frame of pipeline `n` commits at the position now (R487, R489). -/
def doFrameCommit (n : Nat) (s : State) : State :=
  let x := s.pipe n
  match x.ended with
  | [] => s
  | f :: rest =>
    let size := s.inSet f.set (R.FMT_SIZE n)
    let outs := s.outsOf n f.set ++ s.tapsOf n f.set
    let t := s.stage n (lo14 size) (hi14 size) f.set
    let pics := t.run 0 (f.lines.map List.toArray).toArray none
    let info : FrameInfo := ⟨f.flags, f.fseq, f.csi, f.fs, f.fe, f.filled, f.errs, x.dropped, 0⟩
    let s := { s with allocs := s.allocs.filter fun a => decide (a.holder ≠ Holder.camera f.alloc) }
    let s := s.setPipe n { x with ended := rest }
    match s.makeFrames n f.set outs info t pics 1 with
    | none => ((s.setPipe n { s.pipe n with dropped := x.dropped + 1 }).addReg (R.FRAMES_DROPPED n) 1).setReg (R.LAST_DROP n) 3
    | some (s, keys) =>
      let s := s.frameTraffic (s.pipeOwner n) keys
      let keep := fun (i : Nat) => fld (s.inSet f.set (if i < 4 then R.OUT_CTRL n i else R.TAP_CTRL n (i - 8))) 16 6
      let s := keys.foldl (fun s e => s.rotate n e.1 e.2 (keep e.1)) s
      let s := s.setPipe n { s.pipe n with dropped := 0 }
      ((((s.addReg (R.FRAMES_DONE n) 1).setReg (R.FSEQ n) (w32 f.fseq)).askFrame n).blanking n).startMoves.settled

/-! ## Commands of the page (R485, R492, R504) -/

/-- PIPE_RESULT: DONE with a result (R485). -/
def State.pipeResult (s : State) (n r : Nat) : State := s.setReg (R.PIPE_RESULT n) (w32 (1 + 16 * r))

/-- The result of a BIND (R485). -/
def State.bindResult (s : State) (n : Nat) : Nat :=
  let v := s.reg (R.PIPE_ARG n)
  let port := fld v 0 4
  let vc := fld v 8 4
  if !s.live .pipeline n ∨ !s.live .pipeline port then 1
  else if port / 8 ≠ n / 8 then 2
  else if s.pipeOwner port ≠ s.pipeOwner n then 3
  else if bit (s.reg (R.PIPE_BOUND n)) 12 then 4
  else if (s.fedBy port vc).isSome then 5
  else if 4 ≤ (s.feeds port).length then 6
  else if fld v 4 4 ≠ 0 ∨ fld v 12 20 ≠ 0 then 7
  else 0

/-- BIND by hoop `f` on pipeline `n`. -/
def doBind (f n : Nat) (s : State) : State :=
  s.reach f (R.PIPE_CMD n) fun s =>
    let r := s.bindResult n
    let s := s.pipeResult n r
    if r ≠ 0 then s
    else
      let v := s.reg (R.PIPE_ARG n)
      ((s.setReg (R.PIPE_BOUND n) (w32 (fld v 0 4 + 256 * fld v 8 4 + 4096))).setPipe n { s.pipe n with starts := 0 }).askFrame n

/-- UNBIND by hoop `f` on pipeline `n`. -/
def doUnbind (f n : Nat) (s : State) : State :=
  s.reach f (R.PIPE_CMD n) fun s => (unbind n s).pipeResult n 0

/-- Does the object hold a raw frame that a memory job can run (R504)? -/
def State.memOk (s : State) (k : Nat) : Bool :=
  let o := s.obj k
  let w := o.rd 16 2
  let h := o.rd 18 2
  let np := o.rd 9 1
  decide ((o.kind = 5 ∨ o.kind = 0) ∧ o.homed = true ∧ o.tier = 2 ∧ o.rd 0 4 = 0x4D564652 ∧ o.rd 4 2 = 1 ∧ o.rd 8 1 = 0xF0 ∧ 8 ≤ o.rd 7 1 ∧ o.rd 7 1 ≤ 12 ∧
    np = (if o.rd 7 1 = 12 then 3 else 1) ∧ 4 ≤ w ∧ w ≤ 8192 ∧ 4 ≤ h ∧ h ≤ 8192 ∧ 2 * w ≤ o.rd 20 4 ∧ h * o.rd 20 4 ≤ 64 * o.rd 24 4 ∧ 4096 + 64 * np * o.rd 24 4 ≤ o.size)

/-- Does pipeline `n` run memory jobs now: without a live source always, with one only in its vertical blanking (R505)? -/
def State.memTurn (s : State) (n : Nat) : Bool := s.isOn .pipeline n && (!bit (s.reg (R.PIPE_BOUND n)) 12 || (s.pipe n).blank)

/-- MEM_RUN by hoop `f` on pipeline `n` (R504, R507); a pipeline that is not ON takes no job (R103). [DEDUCED, log entry 68] -/
def doMemRun (f n : Nat) (s : State) : State :=
  s.reach f (R.PIPE_CMD n) fun s =>
    if !s.live .pipeline n then s.pipeResult n 1
    else if !s.isOn .pipeline n then s
    else if (s.pipe n).mem.isSome then s.pipeResult n 8
    else
      let handle := (s.reg (R.PIPE_ARG n)).toNat
      match s.resolve (s.pipeOwner n) handle with
      | none => s.pipeResult n 9
      | some k =>
        if !s.memOk k then s.pipeResult n 9
        else
          let x := s.pipe n
          let s := ((s.setPipe n { x with mem := some ⟨k, handle, x.set, x.pins, s.pos, s.memTurn n⟩ }).pinAll x.pins).noteOcc 3
          (s.setReg (R.MEM_RESULT n) 0).pipeResult n 0

/-- MEM_ABORT by hoop `f` on pipeline `n` (R506). -/
def doMemAbort (f n : Nat) (s : State) : State :=
  s.reach f (R.PIPE_CMD n) fun s => (if (s.pipe n).mem.isSome then s.memDone n 3 else s).pipeResult n 0

/-- The planes of a raw frame object. -/
def Obj.rawPlane (o : Obj) (p : Nat) : Pic :=
  let w := o.rd 16 2
  Pic.make w (o.rd 18 2) fun y x => o.rd (4096 + 64 * p * o.rd 24 4 + y * o.rd 20 4 + 2 * x) 2

/-- MEM_JOB_COMMIT: the memory job of pipeline `n` finishes (R504 to R506). [DEDUCED, log entry 68] -/
def doMemJobCommit (n : Nat) (s : State) : State :=
  match (s.pipe n).mem with
  | none => s
  | some j =>
    if !s.memTurn n ∨ 64 ≤ (s.pipe n).ended.length then s
    else
      let o := s.obj j.obj
      let own := s.pipeOwner n
      let outs := s.outsOf n j.set
      let bytes := outsBytes outs
      if s.resolve own j.handle ≠ some j.obj ∨ o.homed = false ∨ o.allValid = false then (s.addReg (R.TILE_CHECK_COUNT own) 1).memDone n 1
      else if !s.roomFor own 2 0 bytes ∨ s.freeEntries own < outs.length then (s.askRoom own 2 0 bytes).memDone n 2
      else
        let w := o.rd 16 2
        let h := o.rd 18 2
        let t := s.stage n w h j.set
        let tap := o.rd 7 1 - 8
        let given := if tap = 4 then
            let r := o.rawPlane 0
            let g := o.rawPlane 1
            let b := o.rawPlane 2
            some (((List.range h).map fun y => ((List.range w).map fun x => (r.px w h y x, g.px w h y x, b.px w h y x)).toArray).toArray)
          else none
        let pics := t.run tap (o.rawPlane 0) given
        let seq := (s.reg (R.MEM_SEQ n)).toNat + 1
        let info : FrameInfo := ⟨0x80, seq, 0, j.start, s.pos, 0, 0, 0, j.handle⟩
        match s.makeFrames n j.set outs info t pics 0 with
        | none => s.memDone n 2
        | some (s, keys) =>
          let s := keys.foldl (fun s e => s.setReg (R.MEM_OUT n e.1) (w32 (s.handleOf e.2))) s
          let s := (s.transfer own false 2 o.loc [(0, o.size)] .other).frameTraffic own keys
          ((s.setReg (R.MEM_SEQ n) (w32 seq)).memDone n 0).startMoves.settled

/-- A table handle of the set is good: a TABLE of the owner of at least `need` bytes (R492). -/
def State.tableOk (s : State) (n need : Nat) (handle : W32) : Option Nat :=
  match s.resolve (s.pipeOwner n) handle.toNat with
  | some k => if (s.obj k).kind = 8 ∧ need ≤ (s.obj k).size then some k else none
  | none => none

/-- The tables a set needs: handle and least size. [DEDUCED, log entry 68] -/
def State.setTables (s : State) (n : Nat) (set : SMap W32) : List (W32 × Nat) :=
  let g := s.inSet set
  (if bit (g (R.DPC_CTRL n)) 1 then [(g (R.DPC_TABLE n), 4 * (g (R.DPC_COUNT n)).toNat)] else []) ++
  (if bit (g (R.LSC_CTRL n)) 0 then [(g (R.LSC_TABLE n), 2312)] else []) ++
  (if bit (g (R.TONE_CTRL n)) 0 then [(g (R.TONE_TABLE n), 6150)] else [])

/-- Is a shadow set valid (R492, R495, R498)? An OUT_LOC or TAP_LOC that names a stack the part lacks is no reason among
R492's, and PIPE_APPLY has no completion that could carry UNIT_ABSENT (R9): the set is refused, and has no other effect. [DESIGN CHOICE, log entry 127] -/
def State.setValid (s : State) (n : Nat) (set : SMap W32) : Bool :=
  let g := s.inSet set
  let fmt := g (R.FMT_CTRL n)
  let size := g (R.FMT_SIZE n)
  let org := g (R.FMT_ORIGIN n)
  let src := g (R.FMT_SRC n)
  let w := lo14 size
  let h := hi14 size
  decide (fld fmt 0 3 ≤ 4 ∧ fld fmt 4 3 ≤ 4 ∧ 4 ≤ w ∧ w ≤ 8192 ∧ 4 ≤ h ∧ h ≤ 8192 ∧ lo14 org + w ≤ lo14 src ∧ hi14 org + h ≤ hi14 src ∧
    (fld fmt 4 3 = 4 ∨ (w % 2 = 0 ∧ h % 2 = 0))) &&
  (List.range 4).all (fun o =>
    let c := g (R.OUT_CTRL n o)
    let co := g (R.OUT_CROP_ORG n o)
    let cs := g (R.OUT_CROP_SIZE n o)
    let os := g (R.OUT_SIZE n o)
    !bit c 0 || decide ((fld c 8 4 = 1 ∨ fld c 8 4 = 5 ∨ fld c 8 4 = 6) ∧ lo14 co + lo14 cs ≤ w ∧ hi14 co + hi14 cs ≤ h ∧ 1 ≤ lo14 os ∧ 1 ≤ hi14 os ∧
      lo14 cs ≤ 16 * lo14 os ∧ lo14 os ≤ lo14 cs ∧ hi14 cs ≤ 16 * hi14 os ∧ hi14 os ≤ hi14 cs)) &&
  ((s.outsOf n set ++ s.tapsOf n set).all fun f => !s.locAbsent 2 f.loc false) &&
  (s.setTables n set).all fun e => (s.tableOk n e.2 e.1).isSome

/-- PIPE_APPLY by hoop `f` on pipeline `n` (R492). [DEDUCED, log entry 68] -/
def doPipeApply (f n : Nat) (s : State) : State :=
  s.reach f (R.PIPE_APPLY n) fun s =>
    let set := s.shadow n
    if s.setValid n set then
      let keys := (s.setTables n set).filterMap fun e => s.tableOk n e.2 e.1
      let s := (s.unpinAll (s.pipe n).nextPins).pinAll keys
      s.setPipe n { s.pipe n with next := some set, nextPins := keys }
    else s.orReg (R.PIPE_STATUS n) 0x20

/-- A per-block reset of an instance (R108): its work is dropped, its sets and pins go; the frames of its rotations leave them. -/
def pipeReset (n : Nat) (s : State) : State :=
  let s := unbind n s
  let x := s.pipe n
  let s := s.unpinAll (x.pins ++ x.nextPins)
  let s := (List.range 16).foldl (fun s i => (mget [] s.rotations (n * 16 + i)).foldl (fun s e => s.leaveRotation e.1) s) s
  let s := { s with rotations := (List.range 16).foldl (fun m i => mset [] m (n * 16 + i) []) s.rotations }
  s.setPipe n Pipe.dflt

/-! ## Meanings -/

def execCsiFrameStart (port vc : Fin 16) (hdr : Fin 3) (csi : BitVec 16) (s : State) : Out := run (doCsiFrameStart port vc hdr csi.toNat) s
def execCsiLine (port vc : Fin 16) (hdr : Fin 3) (dt : Byte) (crcOk : Bool) (pixels : List (BitVec 16)) (occ : Fin 196609) (s : State) : Out :=
  runIf (decide (pixels.length ≤ 65535)) (doCsiLine port vc hdr dt.toNat crcOk pixels occ) s
def execCsiFrameEnd (port vc : Fin 16) (hdr : Fin 3) (s : State) : Out := run (doCsiFrameEnd port vc hdr) s
def execFrameTimeout (n : Fin 16) (s : State) : Out := run (doFrameTimeout n) s
def execFrameCommit (n : Fin 16) (s : State) : Out := run (doFrameCommit n) s
def execBind (f n : Fin 16) (s : State) : Out := run (doBind f n) s
def execUnbind (f n : Fin 16) (s : State) : Out := run (doUnbind f n) s
def execMemRun (f n : Fin 16) (s : State) : Out := run (doMemRun f n) s
def execMemAbort (f n : Fin 16) (s : State) : Out := run (doMemAbort f n) s
def execMemJobCommit (n : Fin 16) (s : State) : Out := run (doMemJobCommit n) s
def execPipeApply (f n : Fin 16) (s : State) : Out := run (doPipeApply f n) s

end Sys2Proof.Machine
end

