-- ==== Sys2Proof/Machine/Skein.lean ====
section
/-! DEFINITION. The skein store (R203 to R230): flash reads, patrol and internal work, the budget registers, preserved
extents, and the reload of the controller. -/

namespace Sys2Proof.Machine

/-! ## Reads, patrol and internal work (R207 to R213) -/

/-- Rated read-disturb limit of a block, which its count never reaches (R209). -/
def readLimit : Nat := 1000000

/-- Queue the blocks whose read counts have reached the thresholds in force, and those that needed more corrections than REFRESH_BITS, or than
twice that (R209 to R211, R228). -/
def State.skEvaluate (s : State) (n : Nat) : State :=
  let x := s.sk n
  let reached := fun (v : W32) => (x.reads.filter fun e => decide (v.toNat ≤ e.2)).map (·.1)
  let limit := (s.force (R.REFRESH_BITS n)).toNat
  let needed := fun (v : Nat) => (x.worst.filter fun e => decide (v < e.2)).map (·.1)
  s.setSk n { x with
    relocate := (x.relocate ++ reached (s.force (R.RD_THRESHOLD n))).eraseDups, urgent := (x.urgent ++ reached (s.force (R.RD_URGENT n))).eraseDups,
    refresh := (x.refresh ++ needed limit).eraseDups, retire := (x.retire ++ needed (2 * limit)).eraseDups }

/-- `pages` pages of block `b` have been read, with `bits` corrections in the worst codeword: counts and queues (R209 to R211). -/
def State.blockRead (s : State) (n b pages bits : Nat) : State :=
  let x := s.sk n
  (s.setSk n { x with reads := mset 0 x.reads b (mget 0 x.reads b + pages), worst := mset 0 x.worst b (max bits (mget 0 x.worst b)) }).skEvaluate n

/-- Can `pages` more pages of block `b` be read before its relocation (R209)? -/
def State.readable (s : State) (n b pages : Nat) : Bool := decide (mget 0 (s.sk n).reads b + pages < readLimit)

/-- LDPC_CORR, LDPC_RETRY and LDPC_UNCORR count codewords (R212). -/
def State.countCodewords (s : State) (n corr retry uncorr : Nat) : State :=
  ((s.addReg (R.LDPC_CORR n) corr).addReg (R.LDPC_RETRY n) retry).addReg (R.LDPC_UNCORR n) uncorr

/-- Set one tile of an object POISONED. [DEDUCED, log entry 33] -/
def State.poison (s : State) (k tile : Nat) : State :=
  s.modObj k fun o => { o with tiles := mset o.tileDflt o.tiles tile ⟨.poisoned, (o.tile tile).crc⟩ }

/-- A consumer's use of a tile fails (R176): its command ends with TILE_CHECK. [DEDUCED, log entry 33] -/
def State.tileFailed (s : State) (c : Cmd) (k tile reason : Nat) : State :=
  (s.addReg (R.TILE_CHECK_COUNT c.hoop) 1).endCmd c 0x300 (detailOf [(40, 4, s.handleOf k), (44, 4, tile), (48, 1, reason)])

/-- A tile that a running move reads from flash is uncorrectable (R175, R176, R212): a plain copy into T0 to T3 writes it POISONED; a use of its
content, by a codec or for a tier without check entries, fails as a mismatch, which ends the command or abandons the move. -/
def State.moveTileFailed (s : State) (m : Move) (tile : Nat) : State :=
  if m.codec = 0 ∧ m.tier < 4 then { s with moves := s.moves.map fun (x : Move) => if x.id = m.id then { x with bad := x.bad ++ [tile] } else x }
  else s.moveFailed m (0x300, setBytes (setBytes (setBytes 0 0 4 (s.handleOf m.obj)) 4 4 tile) 8 1 1)

/-- FLASH_PAGE_READ: stack `n` completes the read of a tile from block `b` (R207, R209, R210, R212). `o0` and `o1` are the outcomes of its
two codewords: 0 clean, 1 corrected at first decoding, 2 corrected by re-read, 3 uncorrectable. Every read of a fenced stack is uncorrectable,
and leaves the tile as it is (R588). A copy's uncorrectable tile is POISONED where it is being written, any other move fails; `consumer` is the queue and position
of the begun command whose use the read is, none for a move, and an uncorrectable tile fails that use as a mismatch (R175, R176).
[DEDUCED, log entries 33, 103] -/
def doFlashPageRead (n b bits o0 o1 h idx tile : Nat) (consumer : Option (Nat × Nat)) (s : State) : State :=
  let fenced := !s.live .skein n
  if !present s.part .skein n || !s.domainOn .ioMain || (!fenced && (!(s.sk n).ready || !s.readable n b 1)) then s
  else
    let count := fun (o : Nat) => b2n (decide (o0 = o)) + b2n (decide (o1 = o))
    let s := if fenced then s else (((s.blockRead n b 1 bits).media n 4096 0 0).addPieces (R.SK_READ_MB n) 1000000 4096).countCodewords n (count 1) (count 2) (count 3)
    let k := oKey h idx
    let flight := consumer.bind fun (e : Nat × Nat) => s.flights.find? fun f => decide (f.cmd.hoop = h ∧ f.cmd.cq = e.1 ∧ f.cmd.pos = e.2)
    
    if (fenced = false ∧ o0 ≠ 3 ∧ o1 ≠ 3) ∨ (s.obj k).used = false ∨ (s.obj k).ntiles ≤ tile then s
    else
      match consumer, flight with
      | none, _ => (s.moves.filter fun m => decide (m.obj = k) && m.started).foldl (fun (s : State) m => s.moveTileFailed m tile) s
      | some _, some f => ((if fenced then s else s.poison k tile).tileFailed f.cmd k tile 1).settled
      | some _, none => s

/-- Flash pages of a block, and the codewords that a patrol decodes in one (R203, R209): 12 MiB in pages of 16 KiB. -/
def blockPages : Nat := 768

/-- PATROL_READ: the patrol reads every page of block `b` of stack `n` and stands at `permille` of its pass (R210, R211); `corr`, `retry`
and `uncorr` of its codewords had those outcomes (R212). A block that needs more than REFRESH_BITS corrections is refreshed; beyond twice
that it is retired. [DEDUCED, log entry 103] -/
def doPatrolRead (n b bits permille corr retry uncorr : Nat) (s : State) : State :=
  if !s.live .skein n || !(s.sk n).ready || !s.readable n b blockPages then s
  else
    let s := ((s.blockRead n b blockPages bits).media n 0 0 (16384 * blockPages)).countCodewords n corr retry uncorr
    (s.setSk n { s.sk n with patrol := decide (permille < 1000) }).setReg (R.PATROL_PROGRESS n) (w32 (min permille 1000))

/-- Are the spare blocks below the floor (R211)? -/
def State.spareLow (s : State) (n spare : Nat) : Bool := decide (spare * 1000 < (s.force (R.SPARE_FLOOR n)).toNat * s.part.skeinBlocks)

/-- WORN follows the spare blocks (R211): it is entered below the floor, and left only when a reclamation brings them above it. -/
def State.wornNow (s : State) (n : Nat) (reclaimed : Bool) : State :=
  let x := s.sk n
  let above := decide ((s.force (R.SPARE_FLOOR n)).toNat * s.part.skeinBlocks < x.spare * 1000)
  s.setSk n { x with worn := s.spareLow n x.spare || (x.worn && !(reclaimed && above)) }

/-- INTERNAL_WORK_DONE on block `b`: `work` 0 relocation, 1 refresh, 2 reclamation, 3 retirement, having programmed
`bytes`; a reclamation erases the block and makes it spare (R208 to R213). A block past the user area's lies in the SLC region, whose spares are
its own (R227). What it programs it has read. `work` 4 is the end of a DIE_FENCE's copy, which is internal work too (R589). [PRESUMED, log entry 52] -/
def doInternalWorkDone (n work b bytes : Nat) (s : State) : State :=
  if !present s.part .skein n || !(s.sk n).ready then s
  else if work = 4 then
    let x := s.sk n
    let x := { x with dieCopy := none, lifeProgrammed := x.lifeProgrammed + bytes, history := x.history ++ [(s.skPowered n, 0, bytes)] }
    ((s.setSk n x).media n 0 0 (21 * bytes)).addPieces (R.SK_INTERNAL_MB n) 1000000 bytes
  else
    let x := s.sk n
    let user := decide (b < s.part.skeinBlocks)
    let gain : Int := if work = 2 then 1 else if work = 3 then -1 else 0
    let x := { x with reads := mset 0 x.reads b 0, worst := mset 0 x.worst b 0, cycles := mset 0 x.cycles b (mget 0 x.cycles b + 1),
                      relocate := x.relocate.filter (· ≠ b), urgent := x.urgent.filter (· ≠ b), refresh := x.refresh.filter (· ≠ b),
                      retire := x.retire.filter (· ≠ b), spare := if user then (x.spare + gain).toNat else x.spare,
                      slcSpare := if user then x.slcSpare else x.slcSpare + gain, retired := if work = 3 then x.retired + 1 else x.retired,
                      lifeProgrammed := x.lifeProgrammed + bytes, history := x.history ++ [(s.skPowered n, 0, bytes)] }
    let s := (((s.setSk n x).media n 0 0 (21 * bytes)).wornNow n (decide (work = 2))).addPieces (R.SK_INTERNAL_MB n) 1000000 bytes
    if work = 0 then s.addReg (R.RELOC_COUNT n) 1 else if work = 1 then s.addReg (R.REFRESH_COUNT n) 1 else s

/-! ## The SLC region (R226, R227) -/

/-- Who writes an area of the SLC region. -/
inductive SlcWriter where
  | rootOfTrust | controller | nobody
  deriving DecidableEq, Repr

/-- An area of the SLC region: offset and size in MiB, writer. -/
structure SlcArea where
  name : String
  offset : Nat
  size : Nat
  writer : SlcWriter
  deriving DecidableEq, Repr

/-- The layout of the SLC region of each stack (R226). Of what it holds, the slots and key material stand in the root of trust, the controller's
state in Skein and the catalogue. The journal and the checkpoints restate the table of R203, which the model keeps as objects' places. -/
def slcLayout : List SlcArea :=
  [⟨"Directory", 0, 1, .rootOfTrust⟩, ⟨"Firmware slot A", 1, 256, .rootOfTrust⟩, ⟨"Firmware slot B", 257, 256, .rootOfTrust⟩,
   ⟨"Sealed key material", 513, 64, .rootOfTrust⟩, ⟨"Controller state", 577, 64, .controller⟩, ⟨"Reserved", 641, 383, .nobody⟩,
   ⟨"Translation checkpoint 0", 1024, 512, .controller⟩, ⟨"Translation checkpoint 1", 1536, 512, .controller⟩,
   ⟨"Translation journal", 2048, 8192, .controller⟩, ⟨"Reserved", 10240, 6144, .nobody⟩]

/-! ## The budget registers (R215, R219) -/

/-- BUDGET_CAP_WRITE: the cap is kept for good, and a balance above it falls to it. [DEDUCED, log entry 54] -/
def doBudgetCapWrite (f n : Nat) (v : W32) (s : State) : State :=
  s.reach f (R.BUDGET_CAP_MB n) fun s =>
    let x := s.sk n
    let v := applyLimit (.whole 1 4294967295) v
    let cap : Int := (v.toNat * 1000000 : Nat)
    (s.setSk n { x with balance := min x.balance cap, savedBalance := min x.savedBalance cap }).setReg (R.BUDGET_CAP_MB n) v

/-- BUDGET_RATE_WRITE: the balance has risen at the old rate up to now. -/
def doBudgetRateWrite (f n : Nat) (v : W32) (s : State) : State :=
  s.reach f (R.BUDGET_RATE_MB n) fun s => (s.setSk n (s.sk n)).setReg (R.BUDGET_RATE_MB n) v

/-! ## Preserved extents (R222, R223, R230) -/

/-- The extent of a key. -/
def State.extent (s : State) (key : Nat) : Option Extent := s.catalogue.find? fun e => decide (e.key = key)

/-- Insert an extent in ascending key order. -/
def insertExtent (e : Extent) : List Extent → List Extent
  | [] => [e]
  | x :: r => if e.key < x.key then e :: x :: r else x :: insertExtent e r

def State.catHoop (s : State) : Nat := fld (s.reg (R.CAT_ARG 0)) 0 4
def State.catHandle (s : State) : Nat := (s.reg (R.CAT_ARG 1)).toNat
def State.catKey (s : State) : Nat := (s.reg (R.CAT_ARG 2)).toNat + 2 ^ 32 * (s.reg (R.CAT_ARG 3)).toNat

/-- Set CAT_RESULT: DONE with a result (R230). [DEDUCED, log entry 28] -/
def State.catResult (s : State) (res : Nat) : State := s.setReg R.CAT_RESULT (w32 (1 + 16 * res))

/-- Set a CAT_OUT register. -/
def State.catOut (s : State) (i v : Nat) : State := s.setReg (R.CAT_OUT i) (w32 v)

/-- A CAT_CMD write of function `f`; the controller takes no request until its table is reloaded (R225). [DEDUCED, log entries 27, 29] -/
def State.catCmd (s : State) (f : Nat) (act : State → State) : State :=
  s.reach f R.CAT_CMD fun s => if (s.sk 0).ready = true ∧ s.isOn .skein 0 = true then act s else s

/-- Reserved bits of CAT_ARG[0], key 0 or a hoop that is not READY: BAD_ARG (R230). -/
def State.catBadArg (s : State) (needHoop needKey : Bool) : Bool :=
  (needHoop && (decide (s.catHoop ≠ (s.reg (R.CAT_ARG 0)).toNat) || decide ((s.hoop s.catHoop).phase ≠ .ready))) || (needKey && decide (s.catKey = 0))

/-- PRESERVE (R223): the first cause of R230 that holds, or the object becomes an extent. -/
def doPreserve (f : Nat) (s : State) : State :=
  s.catCmd f fun s =>
    match s.resolve s.catHoop s.catHandle with
    | none => s.catResult 1
    | some k =>
      let o := s.obj k
      if s.catBadArg true true then s.catResult 2
      else if !(o.homed && decide (o.tier = 3)) then s.catResult 3
      else if o.sealed then s.catResult 4
      else if 0 < o.pins ∨ s.busy k = true ∨ s.moving k = true ∨ s.isRetiring k = true ∨ o.ctxState = true then s.catResult 5
      else if (s.extent s.catKey).isSome then s.catResult 6
      else if 4096 ≤ s.catalogue.length then s.catResult 8
      else
        let s := { s with catalogue := insertExtent ⟨s.catKey, o.kind, s.catHoop, o⟩ s.catalogue }
        (s.setObj k { Obj.dflt with gen := o.gen }).catResult 0

/-- ADOPT (R223); BUSY for an extent held on a fenced stack (R588). [DEDUCED, log entry 87] -/
def doAdopt (f : Nat) (s : State) : State :=
  s.catCmd f fun s =>
    if s.catBadArg true true then s.catResult 2
    else match s.extent s.catKey with
      | none => s.catResult 7
      | some e =>
        if (List.range e.obj.ntiles).any fun t => !s.live .skein (e.obj.tileStack t) then s.catResult 5 else
        match s.newObj s.catHoop { e.obj with pins := 0, age := s.pos } with
        | none => s.catResult 9
        | some (s', k) =>
          (({ s' with catalogue := s'.catalogue.filter fun x => decide (x.key ≠ e.key) }).catOut 0 (s'.handleOf k)).catResult 0

/-- DISCARD (R223): the allocation is released and its content erased. -/
def doDiscard (f : Nat) (s : State) : State :=
  s.catCmd f fun s =>
    if s.catBadArg false true then s.catResult 2
    else match s.extent s.catKey with
      | none => s.catResult 7
      | some e => ({ s with catalogue := s.catalogue.filter fun x => decide (x.key ≠ e.key) }.catResult 0).startMoves

/-- LOOKUP (R223). -/
def doLookup (f : Nat) (s : State) : State :=
  s.catCmd f fun s =>
    if s.catBadArg false true then s.catResult 2
    else match s.extent s.catKey with
      | none => s.catResult 7
      | some e =>
        let s := s.catOut 0 (e.obj.size % 2 ^ 32)
        let s := s.catOut 1 (e.obj.size / 2 ^ 32 % 16 + e.kind % 256 * 2 ^ 8 + e.origin * 2 ^ 16 + b2n e.obj.compressed * 2 ^ 20)
        (s.catOut 2 e.obj.loc).catResult 0

/-- CATALOGUE_LIST (R223): the key of the CAT_ARG[1]-th extent in ascending key order, or 0. -/
def doCatalogueList (f : Nat) (s : State) : State :=
  s.catCmd f fun s =>
    let k := match s.catalogue[s.catHandle]? with | some e => e.key | none => 0
    ((s.catOut 0 (k % 2 ^ 32)).catOut 1 (k / 2 ^ 32)).catResult 0

/-- SKEIN_RELOAD_COMPLETE: table reloaded and journal replayed (R225); the balance is the last one saved (R218). -/
def doSkeinReloadComplete (n : Nat) (s : State) : State :=
  if !s.live .skein n || !s.domainOn .ioMain then s
  else (s.setSk n { s.sk n with ready := true, quiescent := false }).startMoves

/-! ## Meanings -/

def execFlashPageRead (n : Fin 2) (b bits : Nat) (o0 o1 : Fin 4) (h : Fin 16) (idx : Fin 1048576) (tile : Nat) (consumer : Option (Fin 64 × W32)) (s : State) : Out :=
  run (doFlashPageRead n b bits o0 o1 h idx tile (consumer.map fun e => (e.1.val, e.2.toNat))) s
def execPatrolRead (n : Fin 2) (b bits permille corr retry uncorr : Nat) (s : State) : Out := run (doPatrolRead n b bits permille corr retry uncorr) s
def execInternalWorkDone (n : Fin 2) (work : Fin 5) (b bytes : Nat) (s : State) : Out := run (doInternalWorkDone n work b bytes) s
def execBudgetCapWrite (f : Fin 16) (n : Fin 2) (v : W32) (s : State) : Out := run (doBudgetCapWrite f n v) s
def execBudgetRateWrite (f : Fin 16) (n : Fin 2) (v : W32) (s : State) : Out := run (doBudgetRateWrite f n v) s
def execPreserve (f : Fin 16) (s : State) : Out := run (doPreserve f) s
def execAdopt (f : Fin 16) (s : State) : Out := run (doAdopt f) s
def execDiscard (f : Fin 16) (s : State) : Out := run (doDiscard f) s
def execLookup (f : Fin 16) (s : State) : Out := run (doLookup f) s
def execCatalogueList (f : Fin 16) (s : State) : Out := run (doCatalogueList f) s
def execSkeinReloadComplete (n : Fin 2) (s : State) : Out := run (doSkeinReloadComplete n) s

end Sys2Proof.Machine
end

