-- ==== Sys2Proof/Machine/Blocks.lean ====
section
/-! DEFINITION. Enabling, fencing, returning and resetting every block (R94 to R109): the moves of the enable state machine with
what each unit does on the way (R105, R586 to R591), and the registers that count live units (R91). -/

namespace Sys2Proof.Machine

/-- The block and instance that a page of the control window belongs to: every page of an instance shows its header (R88). -/
def headerAt (page : Nat) : Option (Blk × Nat) :=
  match blkAt (page * 0x1000) with
  | some (b, i, _) => if page * 0x1000 < doorbellBase then some (b, i) else none
  | none => none

/-- A block whose FENCEABLE is 1: fence and return requests act on it (R94). -/
def fenceable (b : Blk) : Bool := (blkRow b).fenceable

/-! ## Live units (R91) -/

/-- Instances of a block that are present and not FENCED. -/
def State.liveCount (s : State) (b : Blk) : Nat := ((List.range (blkRow b).count).filter fun i => s.live b i).length

/-- DEV_PART (R91); STEPPING is not given and reads 0. [DESIGN CHOICE, log entry 13] -/
def State.devPart (s : State) : Nat :=
  s.part.dramStacks + s.part.ioDies * 2 ^ 4 + s.part.grade * 2 ^ 8 + b2n (decide (s.part.fused ≠ 0)) * 2 ^ 12

/-- DEV_LIVE (R91). -/
def State.devLive (s : State) : Nat :=
  s.liveCount .core % 128 + s.liveCount .cluster * 2 ^ 8 + s.liveCount .dramStack * 2 ^ 12 + s.liveCount .skein * 2 ^ 16 +
  s.liveCount .pipeline * 2 ^ 20 + s.liveCount .link * 2 ^ 28

/-- User capacity of one skein stack in GiB: 64 GiB leave it with each fenced die (R589). -/
def State.skUserGib (s : State) (n : Nat) : Nat := if present s.part .skein n then 1024 - 64 * (mget Skein.dflt s.skeins n).fencedDies.length else 0

/-- SKEIN_LIVE_GIB (R91). -/
def State.skeinLiveGib (s : State) : Nat := ((List.range 2).filter fun n => s.live .skein n).foldl (fun a n => a + s.skUserGib n) 0

/-! ## What units do when they start, stop and fence -/

/-- Objects homed in one unit of a pool. -/
def State.homedIn (s : State) (tier unit : Nat) : List Nat :=
  (s.objs.filter fun e => e.2.used && e.2.homed && decide (e.2.tier = tier ∧ locUnit tier e.2.loc = unit)).map (·.1)

/-- Fencing a core or a cluster takes every object homed in it to the next tier, pins and ages kept (R586): from a core to its
cluster's ground buffer, or on to T2 where that has no room. [DEDUCED, log entry 17] -/
def State.evacuate (s : State) (tier unit : Nat) : State :=
  (s.homedIn tier unit).foldl (fun (s : State) k =>
    let o := s.obj k
    let up := decide (tier = 0) && decide (o.bytes ≤ s.freeRoom (oHoop k) 1 (unit / 8)) && s.live .cluster (unit / 8)
    let s := s.retire k (oHoop k) o.tier unit o.bytes
    let s := if up then s else s.dramTraffic true 0 [(0, o.bytes)]
    s.setObj k (if up then { o with tier := 1, loc := unit / 8 } else { o with tier := 2, loc := 0 })) s

/-- Moves into a unit that goes out of service are killed with the commands that ask for them. [DEDUCED, log entry 16] -/
def State.killMovesTo (s : State) (tier unit : Nat) : State :=
  let mine := s.moves.filter fun m => decide (m.tier = tier ∧ m.loc = unit)
  let s := s.blockKill fun f => mine.any fun m => decide (m.kind = .command f.id)
  (s.moves.filter fun m => decide (m.tier = tier ∧ m.loc = unit)).foldl (fun (s : State) m => s.abandonMove m) s

/-- Ranges given to a shuttle or codec that goes out of service are given to others (R105, R180). [DEDUCED, log entry 16] -/
def State.regive (s : State) (p : Range → Bool) : State :=
  let hit := fun (r : Range) => !r.done && p r
  let s := s.moves.foldl (fun (s : State) m => m.ranges.foldl (fun (s : State) r =>
    match r.shuttle with | some u => if hit r then s.addReg (R.SH_KILLED u) 1 else s | none => s) s) s
  { s with moves := s.moves.map fun (m : Move) => { m with ranges := m.ranges.map fun (r : Range) => if hit r then { r with shuttle := none, codec := none } else r } }

/-- T2 candidates while a stack drains: guarantees are disregarded (R587). -/
def State.drainVictims (s : State) : List Nat :=
  (s.objs.map (·.1)).filter fun k => let o := s.obj k
    o.used && o.homed && decide (o.tier = 2 ∧ o.pins = 0) && !s.busy k && !s.moving k && !o.ctxState && s.destAdmits k

/-- Evictions that make room for the tiles of a stopping DRAM stack. [DEDUCED, log entry 17] -/
def State.drainT2 (s : State) : Nat → State
  | 0 => s
  | n + 1 =>
    if s.usageAll 2 0 ≤ s.placeCap 2 0 + s.evicting 2 0 then s
    else match s.bestOf s.drainVictims with
      | none => s
      | some k =>
        let (s, id) := s.fresh
        let s := { s with moves := s.moves ++ [{ Move.dflt with
          id := id, kind := .evict, hoop := oHoop k, obj := k, tier := 3, loc := 0, nshuttle := 4, ageStamp := some (s.obj k).age, payer := oHoop k }] }
        s.drainT2 n

/-- T2 guarantees whose sum exceeds the capacity shrink by one ratio, to whole MiB (R587). -/
def State.scaleGuar (s : State) : State :=
  let sum := (List.range 16).foldl (fun a h => a + (s.reg (R.GUAR 2 h)).toNat) 0
  let cap := s.placeCap 2 0 / 2 ^ 20
  if sum ≤ cap then s else (List.range 16).foldl (fun (s : State) h => s.setReg (R.GUAR 2 h) (w32 ((s.reg (R.GUAR 2 h)).toNat * cap / sum))) s

/-- Contexts whose state is spilled so that a stopping DRAM stack's tiles find room (R246, R587). [DEDUCED, log entry 17] -/
def State.drainCtxs (s : State) : State :=
  if s.usageAll 2 0 ≤ s.placeCap 2 0 + s.evicting 2 0 then s
  else ((s.ctxs.filter fun e => e.2.isOpen && e.2.inActive && decide (e.2.pins = 0) && !e.2.spilling && !e.2.restoring && decide (s.ctxStatus e.1 = 1)).map (·.1)).foldl
    (fun (s : State) i => if s.usageAll 2 0 ≤ s.placeCap 2 0 + s.evicting 2 0 then s else if s.spillAdmitted i then s.spillCtx i (s.ctx i).hoop none else s) s

/-- What a unit does on entry to STOPPING (R105, R119, R445, R493, R587). -/
def State.stopUnit (s : State) (b : Blk) (i : Nat) : State :=
  match b with
  | .core => s.blockKill fun f => f.cores.contains i
  | .cluster => s.blockKill fun f => f.cores.any fun c => decide (c / 8 = i)
  | .link => linkStop i s
  | .pipeline => pipeStop i s
  | .island => (List.range 2).foldl (fun (s : State) d => s.modelTurn d) s.endRuns
  | .hostIf => (List.range 64).foldl (fun (s : State) q => if bit (s.reg (cqCtrl i q)) 0 then s.stopQueue i q else s) s
  | .triggerUnit => s.stopTrigger i
  | .dramStack => if s.fencePending b i then ((s.scaleGuar.drainT2 (s.objs.length + 1)).drainCtxs).startMoves else s
  | _ => s

/-- The tiles that a draining DRAM stack held have been read from it and written to the other stacks of their masks, or to all others (R202, R587). -/
def State.drainTraffic (s : State) (n : Nat) : State :=
  s.objs.foldl (fun (s : State) e =>
    let st := s.maskStacks 2 e.2.loc
    if e.2.used = true ∧ e.2.homed = true ∧ e.2.tier = 2 ∧ st.contains n = true then
      let bytes := pieceOn 0 e.2.bytes st.length (st.idxOf n)
      let rest := if st.length = 1 then (s.maskStacks 2 0).filter (· ≠ n) else st.filter (· ≠ n)
      (s.addPieces (R.DS_READ_MIB n) (2 ^ 20) bytes).dramTraffic true (rest.foldl (fun a i => a + 2 ^ i) 0) [(0, bytes)]
    else s) s

/-- What a unit does as its stop completes, before it is OFF or FENCED (R105, R586). [DEDUCED, log entry 16] -/
def State.stopUnitDone (s : State) (b : Blk) (i : Nat) : State :=
  let fence := s.fencePending b i && decide (s.stOf b i = 3)
  match b with
  | .core => if fence then (s.killMovesTo 0 i).evacuate 0 i else s
  | .cluster =>
    if fence then
      let s := (List.range 8).foldl (fun (s : State) j => (s.killMovesTo 0 (8 * i + j)).evacuate 0 (8 * i + j)) s
      (s.killMovesTo 1 i).evacuate 1 i
    else s
  | .shuttle => s.regive fun r => decide (r.shuttle = some i)
  | .codec => s.regive fun r => decide (r.codec = some i)
  | .pipeline => if fence then camFence i s else s
  | .hostIf => s.stopsEnd fun h => decide (h = i)
  | .dramStack => if fence then s.drainTraffic i else s
  | _ => s

/-- May the stop complete? A DRAM stack that is being fenced first empties (R587). -/
def State.stopMay (s : State) (b : Blk) (i : Nat) : Bool :=
  match b with
  | .dramStack => !s.fencePending b i || decide (s.usageAll 2 0 ≤ s.poolCap 2 0)
  | _ => true

/-- What a unit does on entry to STARTING. -/
def State.startUnit (s : State) (b : Blk) (i : Nat) : State := match b with | .link => linkStart i s | _ => s

/-- The storage that the block's start zeroes after a change of owner (R540): what was homed there is gone. [DEDUCED, log entry 24] -/
def State.zeroStart (s : State) (b : Blk) (i : Nat) : State :=
  let p := pageOf b i
  if mget false s.zeroOwed p = false then s
  else
    let wipe := fun (s : State) (tier : Nat) => (s.homedIn tier i).foldl (fun (s : State) k =>
      s.modObj k fun o => { o with data := [], tileDflt := ⟨.poisoned, 0⟩, tiles := [] }) s
    let s := { s with zeroOwed := mset false s.zeroOwed p false }
    match b with
    | .core => wipe s 0
    | .cluster => wipe s 1
    | .pipeline =>
      let mine := fun (a : Nat) => decide (p + 0x100 ≤ a ∧ a < p + (blkRow b).stride)
      let s := pipeReset i s
      { s with regs := s.regs.filter (fun e => !mine e.1), partials := s.partials.filter (fun e => !mine e.1), latch := s.latch.filter fun e => !mine e.1 }
    | _ => s

/-- STARTING is entered (R104). [DEDUCED, log entry 24] -/
def State.beginStart (s : State) (b : Blk) (i : Nat) : State := (s.enterState b i 1).startUnit b i

/-- STOPPING is entered from ON (R104, R105). -/
def State.beginStop (s : State) (b : Blk) (i : Nat) : State := (s.enterStopping b i).stopUnit b i

/-! ## BLOCK_CTRL (R94, R102 to R108) -/

/-- A value of EN is written (R104, R106, R107); on an ALWAYS_ON page EN always reads 1 (R95). [DEDUCED, log entry 14] -/
def State.setEn (s : State) (b : Blk) (i : Nat) (on : Bool) : State :=
  let p := pageOf b i
  if (blkRow b).alwaysOn then s
  else
    let s := s.setRegFld (R.BLOCK_CTRL p) 0 1 (b2n on)
    if s.stOf b i = 0 then (if on ∧ s.fencePending b i = false ∧ s.mayStart b i = true then s.beginStart b i else s)
    else if s.stOf b i = 1 then s.setRegFld (R.BLOCK_STATE p) 4 1 (b2n (!on))
    else if s.stOf b i = 2 then (if on then s else s.beginStop b i)
    else if s.stOf b i = 3 then (if on ∧ s.fencePending b i = false then s.enterState b i 4 else s)
    else if s.stOf b i = 4 then (if on then s else s.enterState b i 3)
    else s

/-- A fence is requested with the cause it ends with: 1 by software, 2 after errors, 4 for want of an image (R104, R108, R583). [DEDUCED, log entry 14] -/
def State.requestFence (s : State) (b : Blk) (i cause : Nat) : State :=
  let p := pageOf b i
  if s.stOf b i = 5 then s
  else
    let s := (s.setRegFld (R.BLOCK_CTRL p) 8 1 1).setRegFld (R.BLOCK_STATE p) 7 1 1
    let s := if cause = 1 then s else { s with fatal := mset 0 s.fatal p cause }
    if s.stOf b i = 0 then s.enterFenced b i cause
    else if s.stOf b i = 2 then s.beginStop b i
    else if s.stOf b i = 4 then s.enterState b i 3
    else s

/-- A block whose controller has no image goes to FENCED with cause 4 by a start that fails, or by a stop (R104, R524, R583). [DEDUCED, log entry 104] -/
def State.failImage (s : State) (b : Blk) (i : Nat) : State :=
  if s.stOf b i = 0 then s.enterState b i 1
  else if s.stOf b i = 1 then s
  else if s.stOf b i = 5 then s.setRegFld (R.BLOCK_STATE (pageOf b i)) 8 3 4
  else s.requestFence b i 4

/-- That start fails, or that stop completes. -/
def State.failImageEnd (s : State) (b : Blk) (i : Nat) : State :=
  if s.stOf b i = 1 then s.startFail b i else if s.stOf b i = 3 then (s.stopUnitDone b i).stopDone b i else s

/-- A return is accepted: the unit starts again where EN is 1 (R104). A DRAM stack comes back empty (R587). -/
def State.acceptReturn (s : State) (b : Blk) (i : Nat) : State :=
  let s := s.leaveFenced b i
  if s.stOf b i = 1 then (s.startUnit b i).startMoves else s.startMoves

/-- A return is requested (R108): accepted at once for cause 1, left to the health check for cause 2, refused otherwise. [DEDUCED, log entries 14, 15] -/
def State.requestReturn (s : State) (b : Blk) (i : Nat) : State :=
  let p := pageOf b i
  let s := s.setRegFld (R.BLOCK_CTRL p) 9 1 1
  let cause := fld (s.reg (R.BLOCK_STATE p)) 8 3
  if s.stOf b i = 5 ∧ cause = 1 then s.acceptReturn b i
  else if s.stOf b i = 5 ∧ cause = 2 then s
  else s.refuseReturn b i

/-- A write of function `f` to BLOCK_CTRL of a page. -/
def State.onPage (s : State) (f page : Nat) (act : Blk → Nat → State → State) : State :=
  s.reach f (R.BLOCK_CTRL (page * 0x1000)) fun s =>
    match headerAt page with
    | some (b, i) => act b i s
    | none => s

/-- BLOCK_ENABLE and BLOCK_DISABLE: EN = 1 and EN = 0 (R104, R106, R107). -/
def doBlockEnable (f page : Nat) (s : State) : State := s.onPage f page fun b i s => s.setEn b i true
def doBlockDisable (f page : Nat) (s : State) : State := s.onPage f page fun b i s => (s.setEn b i false).settled

/-- A skein controller's limits may have changed: its blocks and its spares are held to those in force (R209 to R211, R228). -/
def State.newLimits (s : State) (b : Blk) (i : Nat) : State := if b = .skein then (s.skEvaluate i).wornNow i false else s

/-- EXPERT_SEL_WRITE (R102). [DEDUCED, log entry 14] -/
def State.setExpertSel (s : State) (b : Blk) (i : Nat) (v : Bool) : State :=
  let p := pageOf b i
  if v ∧ bit (s.reg (R.BLOCK_CTRL p)) 1 = false ∧ bit (s.reg (R.EXPERT_KEY p)) 16 = false then s.accessRefused b i
  else ((s.setRegFld (R.BLOCK_CTRL p) 1 1 (b2n v)).setRegFld (R.BLOCK_STATE p) 6 1 (b2n v)).newLimits b i
def doExpertSelWrite (f page : Nat) (v : Bool) (s : State) : State := s.onPage f page fun b i s => s.setExpertSel b i v

/-- FENCE_REQ and RETURN_REQ (R94, R108): hoop 0 only, and only on a FENCEABLE block. -/
def doFenceReq (f page : Nat) (s : State) : State :=
  s.onPage f page fun b i s => if f ≠ 0 ∨ fenceable b = false then s.accessRefused b i else (s.requestFence b i 1).settled
def doReturnReq (f page : Nat) (s : State) : State :=
  s.onPage f page fun b i s => if f ≠ 0 ∨ fenceable b = false then s.accessRefused b i else (s.requestReturn b i).settled

/-! ## The per-block reset (R108) -/

/-- Registers that only a cold reset clears, or that not even it does: what R219 stores for good, and the counts since cold reset of R202, R422
and R493. [DEDUCED, log entry 7] -/
def countsOn (b : Blk) (off : Nat) : Bool :=
  match b with
  | .skein => decide (off = 0x120 ∨ off = 0x124)
  | .dramStack => decide (off = 0x114)
  | .knot => decide (off = 0xF10)
  | .pipeline => decide (off = 0x4108)
  | _ => false

/-- Registers that keep their values: R108's own list, what counts since cold reset, and the state machine's, which moves by R104. [DEDUCED, log entry 7] -/
def keptAtReset (a : Nat) : Bool :=
  match blkAt a with
  | some (b, _, off) =>
    decide (off = 0xC ∨ off = 0x18 ∨ off = 0x20 ∨ off = 0x28 ∨ off = 0x2C) || countsOn b off
  | none => true

/-- Every register of an instance returns to its reset value. -/
def State.clearPages (s : State) (b : Blk) (i : Nat) : State :=
  let lo := pageOf b i
  let mine := fun (a : Nat) => decide (lo ≤ a ∧ a < lo + (blkRow b).stride) && !keptAtReset a
  { s with regs := s.regs.filter (fun e => !mine e.1), partials := s.partials.filter (fun e => !mine e.1), latch := s.latch.filter (fun e => !mine e.1),
           faults := s.faults.filter fun e => decide (e.1 / 32 ≠ sourceId b i) }

/-- The work and the state of a unit end with its reset. [DEDUCED, log entry 7] -/
def State.clearUnit (s : State) (b : Blk) (i : Nat) : State :=
  match b with
  | .core => s.blockKill fun f => f.cores.contains i
  | .cluster => (s.blockKill fun f => f.cores.any fun c => decide (c / 8 = i)).setTurn i Turn.dflt
  | .shuttle => s.regive fun r => decide (r.shuttle = some i)
  | .codec => s.regive fun r => decide (r.codec = some i)
  | .link =>
    let s := linkStop i s
    s.setLk i { Link.dflt with lanesOut := (s.lk i).lanesOut }
  | .pipeline => (pipeReset i s).camCtlReset i
  | .island => islandReset s
  | .hoopTrigger => s.resetTriggers i
  | .triggerUnit => { s.setTu i TrigUnit.dflt with pendFires := s.pendFires.filter fun p => decide (p.unit ≠ some i) }
  | .hostIf =>
    let s := (List.range 64).foldl (fun (s : State) q => if bit (s.reg (cqCtrl i q)) 0 then s.stopQueue i q else s) s
    let s := (List.range 64).foldl (fun (s : State) q => s.setCq i q Cq.dflt) s
    let s := (List.range 16).foldl (fun (s : State) e => s.setEq i e Eq.dflt) s
    { s with msiSent := s.msiSent.filter fun e => decide (e.1 / 16 ≠ i) }
  | .skein => s.setSk i { s.sk i with patrol := false }
  | .knot => { s with chkOpen := mset false s.chkOpen i false }
  | .sched => (List.range 4).foldl (fun (s : State) r => s.setBucket i r { Bucket.dflt with waiting := (s.bucket i r).waiting }) s
  | _ => s

/-- BLOCK_RESET, its four steps at once: work killed, registers reset, OFF (or still FENCED), and an ALWAYS_ON block starts. [DEDUCED, log entries 7, 14, 16] -/
def State.blockReset (s : State) (b : Blk) (i : Nat) : State :=
  let p := pageOf b i
  let fenced := decide (s.stOf b i = 5)
  let s := ((s.clearUnit b i).clearPages b i).newLimits b i
  let s := { s with fatal := mset 0 s.fatal p 0 }
  if fenced then s.setReg (R.BLOCK_STATE p) (w32 (5 + 2 ^ 8 * fld (s.reg (R.BLOCK_STATE p)) 8 3))
  else
    let s := (s.setReg (R.BLOCK_STATE p) 0).enterState b i 0
    if (blkRow b).alwaysOn then s.beginStart b i else s

/-- BLOCK_RESET written by function `f`. The scene-time page's reset returns its source to INTERNAL (R50); the count and the phase
are as before (R23), so the stitch in progress keeps its interval (DEDUCED, log entry 7). -/
def doBlockReset (f page : Nat) (s : State) : State :=
  s.onPage f page fun b i s =>
    if b = .sceneTime then
      let iv := s.ts.interval
      let s := s.setTs { s.ts with
        mode := .free, period := 62500, ival := if 0 < iv then s.due iv else iv, corr := 0, slewAbs := 0, slewEnd := false, intervals := [],
        lastEdge := none, lastAccepted := none, divCount := 0, prevSrc := none, holdCause := 0, everLocked := false, loadPending := false, loadRefused := false,
        srcRefused := false }
      dev (fun s => (s.blockReset b i).settled) s
    else dev (fun s => (((s.blockReset b i).heldForces).startMoves).settled) s

/-! ## Starts, stops, errors and health checks complete -/

/-- BLOCK_START_COMPLETE of a page: it succeeds or fails (R104), and never in zero time (R621). -/
def doBlockStartComplete (page : Nat) (ok : Bool) (s : State) : State :=
  match headerAt page with
  | none => s
  | some (b, i) =>
    if s.stOf b i ≠ 1 ∨ s.domainOn (blkRow b).domain = false ∨ s.timePassed b i = false then s
    else if !ok then ((s.startFail b i).stopUnit b i).settled
    else
      let s := ((s.zeroStart b i).startDone b i)
      (if s.stOf b i = 3 then s.stopUnit b i else s).startMoves.settled

/-- BLOCK_STOP_COMPLETE of a page (R104), never in zero time (R621). -/
def doBlockStopComplete (page : Nat) (s : State) : State :=
  match headerAt page with
  | none => s
  | some (b, i) =>
    if (s.stOf b i ≠ 3 ∧ s.stOf b i ≠ 4) ∨ s.stopMay b i = false ∨ s.timePassed b i = false then s
    else
      let s := (s.stopUnitDone b i).stopDone b i
      (if s.stOf b i = 1 then s.startUnit b i else s).startMoves.settled

/-- A fatal error sets ECC_FATAL and takes a block that is not OFF through STOPPING to FENCED with cause 2, whether or not software could fence
it (R104, R108, R591). [DEDUCED, log entry 20] -/
def State.fatalError (s : State) (b : Blk) (i : Nat) : State :=
  let s := s.raise b i 31 0x5
  if present s.part b i = true ∧ s.stOf b i ≠ 0 then s.requestFence b i 2 else s

/-- FATAL_STATE_ERROR of a page (R591). [DEDUCED, log entry 20] -/
def doFatalStateError (page : Nat) (s : State) : State :=
  match headerAt page with
  | none => s
  | some (b, i) => if present s.part b i ∧ s.domainOn (blkRow b).domain = true then (s.fatalError b i).settled else s

/-- HEALTH_CHECK_COMPLETE of a page: a pass accepts the return that waits for it, a failure refuses it (R590). -/
def doHealthCheckComplete (page : Nat) (pass : Bool) (s : State) : State :=
  match headerAt page with
  | none => s
  | some (b, i) =>
    if s.stOf b i = 5 ∧ bit (s.reg (R.BLOCK_CTRL (pageOf b i))) 9 = true ∧ fld (s.reg (R.BLOCK_STATE (pageOf b i))) 8 3 = 2 then
      (if pass then s.acceptReturn b i else s.refuseReturn b i).settled
    else s

/-- STACK_DRAIN_TIMEOUT of DRAM stack `n`: FENCE_DRAIN_MS have passed, and the tiles still on the stack, given as hoop, index and
tile, are POISONED (R587). [DEDUCED, log entry 17] -/
def doStackDrainTimeout (n : Nat) (left : List (Nat × Nat × Nat)) (s : State) : State :=
  if s.stOf .dramStack n ≠ 3 ∨ s.fencePending .dramStack n = false ∨ s.timePassed .dramStack n = false then s
  else
    let on := left.filter fun e =>
      let o := s.obj (oKey e.1 e.2.1)
      o.used && o.homed && decide (o.tier = 2 ∧ e.2.2 < o.ntiles) && (decide (o.loc = 0) || (BitVec.ofNat 64 o.loc).getLsbD n)
    let s := on.foldl (fun (s : State) e => s.poison (oKey e.1 e.2.1) e.2.2) s
    ((s.addReg R.RAS_LOST_TILES on.length).stopDone .dramStack n).settled

/-! ## Meanings -/

def execBlockEnable (f : Fin 16) (page : Fin 16384) (s : State) : Out := run (doBlockEnable f page) s
def execBlockDisable (f : Fin 16) (page : Fin 16384) (s : State) : Out := run (doBlockDisable f page) s
def execExpertSelWrite (f : Fin 16) (page : Fin 16384) (v : Bool) (s : State) : Out := run (doExpertSelWrite f page v) s
def execFenceReq (f : Fin 16) (page : Fin 16384) (s : State) : Out := run (doFenceReq f page) s
def execReturnReq (f : Fin 16) (page : Fin 16384) (s : State) : Out := run (doReturnReq f page) s
def execBlockReset (f : Fin 16) (page : Fin 16384) (s : State) : Out := runTime (doBlockReset f page) s
def execBlockStartComplete (page : Fin 16384) (ok : Bool) (s : State) : Out := run (doBlockStartComplete page ok) s
def execBlockStopComplete (page : Fin 16384) (s : State) : Out := run (doBlockStopComplete page) s
def execHealthCheckComplete (page : Fin 16384) (pass : Bool) (s : State) : Out := run (doHealthCheckComplete page pass) s
def execStackDrainTimeout (n : Fin 6) (left : List (Fin 16 × Fin 1048576 × Nat)) (s : State) : Out :=
  run (doStackDrainTimeout n (left.map fun e => (e.1.val, e.2.1.val, e.2.2))) s

end Sys2Proof.Machine
end

