-- ==== Sys2Proof/Machine/Hoops.lean ====
section
/-! DEFINITION. Hoops enabled, reset and scrubbed (R118, R119, R151 to R153, R538, R539), virtual functions, and the resets that
the host performs. -/

namespace Sys2Proof.Machine

/-- The conditions of R118. In CRITICAL_ERROR no hoop runs (R542). -/
def State.hoopAllowed (s : State) (h : Nat) : Bool :=
  decide (s.rot.mode ≠ .criticalError) && (decide (h = 0) || (s.vfEnable && decide (h ≤ s.numVfs) && bit (s.reg (R.HOOP_TABLE h)) 0))

/-- A hoop becomes READY; its host interface may start (R119). -/
def State.becomeReady (s : State) (h : Nat) : State :=
  let s := s.setHoop h { s.hoop h with phase := .ready }
  if s.en .hostIf h ∧ s.stOf .hostIf h = 0 ∧ s.fencePending .hostIf h = false then s.beginStart .hostIf h else s

/-- A new memory key from the DRBG, or none in CRITICAL_ERROR (R518, R538, R542). [DESIGN CHOICE, log entry 74; DEDUCED, log entry 102] -/
def State.newMemKey (s : State) (k : Nat) : State :=
  if s.rot.mode = .criticalError then { s with rot := { s.rot with memKeys := mset 0 s.rot.memKeys k 0 } }
  else { s with rot := { s.rot with drbg := s.rot.drbg + 1, memKeys := mset 0 s.rot.memKeys k (s.rot.drbg + 1) } }

/-- Units of 4 KiB in DRAM whose owner tag names the hoop, beside its object table (R539). -/
def State.ownedUnits (s : State) (h : Nat) : Nat := ceilDiv (s.usage h 2 0 - s.otEntries h * 64) 4096

/-- Assignable pages a hoop owns: the pages of units given to it (R86, R406). -/
def State.ownedUnitsOf (s : State) (h : Nat) (b : Blk) : List Nat :=
  (List.range (blkRow b).count).filter fun i => present s.part b i && (let v := s.reg (R.HOOP_OWNER (pageOf b i)); decide (fld v 0 4 = h) && !bit v 9)

/-- Everything a hoop holds is released (R151): commands, contexts, objects, knots, moves, records and waiting requests; an open check of its
knots closes without comparison, and TOUCHED ends (R404, R405). [DESIGN CHOICE, log entry 74] -/
def State.dropHoop (s : State) (h : Nat) : State :=
  let s := s.addReg (R.PRE_COUNT h) ((s.cqs.filter fun e => decide (e.1 / 64 = h) && decide (e.2.mode = .running)).length)
  let s := s.killWhere fun f => decide (f.cmd.hoop = h)
  let s := (List.range 64).foldl (fun (s : State) q => s.withdrawHead h q) s
  let s := (s.ctxs.filter fun e => e.2.isOpen && decide (e.2.hoop = h)).foldl (fun (s : State) e =>
    let s := (s.residencyMoves e.1).foldl (fun (s : State) m => s.dropMove m.id) s
    (s.endAsk e.1).setCtx e.1 Ctx.dflt) s
  let s := (s.moves.filter fun m => decide (oHoop m.obj = h)).foldl (fun (s : State) m => s.dropMove m.id) s
  let s := ((s.objs.filter fun e => e.2.used && decide (oHoop e.1 = h)).map (·.1)).foldl (fun (s : State) k => s.freeObj k) s
  let s := s.setRegFld (R.KN_STATUS h) 0 1 0
  { s with
    chkOpen := mset false s.chkOpen h false,
    remotes := s.remotes.filter (fun r => decide (r.hoop ≠ h)), allocs := s.allocs.filter (fun a => decide (a.hoop ≠ h)),
    retiring := s.retiring.filter (fun r => decide (r.hoop ≠ h) || r.zeroing), waits := s.waits.filter (fun w => decide (w.hoop ≠ h)),
    walks := s.walks.filter (fun w => decide (w.hoop ≠ h)), gone := s.gone.filter (fun k => decide (oHoop k ≠ h)),
    knots := s.knots.filter (fun e => decide (e.1 / 16384 ≠ h)), heldKnots := s.heldKnots.filter (fun x => decide (x.knot / 16384 ≠ h)),
    pendFires := s.pendFires.filter fun p => decide (p.hoop ≠ h) }

/-- The request of a hoop reset (R151): the hoop is RESETTING, its doorbells and appends are discarded, its event queues take no more
records, and its rules and pricking engines are disabled (R82). `pages` says whether the assignable pages the hoop owns are reset with it
(R153). A reset in progress absorbs it (R152). [DESIGN CHOICE, log entry 74] -/
def State.hoopReset (s : State) (h : Nat) (pages : Bool) : State :=
  if (s.hoop h).phase = .resetting ∨ (s.hoop h).phase = .scrubbing then s
  else (s.setHoop h { s.hoop h with phase := .resetting, resetPages := pages }).resetTriggers h

/-- The rest of a hoop reset (R151), from the kill of what is in flight to the entry to SCRUBBING with its crypto-erase (R538). [DESIGN CHOICE, log entry 74] -/
def State.finishReset (s : State) (h : Nat) : State :=
  let pages := (s.hoop h).resetPages
  let units := s.ownedUnits h
  let s := s.dropHoop h
  let s := (s.blockReset .hostIf h).blockReset .hoopTrigger h
  let s := if pages then
      (([Blk.cluster, .core, .pipeline].flatMap fun b => (s.ownedUnitsOf h b).map fun i => (b, i))).foldl (fun (s : State) (e : Blk × Nat) => s.blockReset e.1 e.2) s
    else s
  let owned := fun (a : Nat) => match blkAt a with
    | some (b, i, off) => decide (off = 0x24 ∧ a < doorbellBase) && decide (fld (s.reg (R.HOOP_OWNER (pageOf b i))) 0 4 = h)
    | none => false
  let s := { s with regs := s.regs.filter fun e => !owned e.1 }
  let s := { s with rot := { s.rot with hoops := mset HoopSec.dflt s.rot.hoops h HoopSec.dflt, coAuth := if h = 0 then none else s.rot.coAuth } }
  let s := s.setHoop h { (s.hoop h) with phase := .scrubbing, seq := 0, held := [], scrubUnits := (s.hoop h).scrubUnits + units, resetPages := false }
  s.newMemKey h

/-- A hoop reset with all of its time (R151). -/
def State.resetWhole (s : State) (h : Nat) (pages : Bool) : State :=
  if (s.hoop h).phase = .scrubbing then s else (s.hoopReset h pages).finishReset h

/-- Bring every hoop in line with R118: one that stops meeting it is reset, one that meets it again runs. -/
def State.matchHoops (s : State) : State :=
  (List.range 16).foldl (fun (s : State) h =>
    if (s.hoop h).phase = .ready ∧ s.hoopAllowed h = false then s.hoopReset h true
    else if (s.hoop h).phase = .absent ∧ s.hoopAllowed h = true ∧ s.pm.mode ≠ .boot then s.becomeReady h else s) s

/-- HOOP_ENABLE_WRITE: EN of HOOP_TABLE[h] (R118, R119). Hoop 0's is fixed. -/
def doHoopEnableWrite (f h : Nat) (v : W32) (s : State) : State :=
  s.reach f (R.HOOP_TABLE h) fun s => if h = 0 then s else ((s.setRegFld (R.HOOP_TABLE h) 0 1 (fld v 0 1)).matchHoops.startMoves).settled

/-- HOOP_RESET: a write of RESET (R119, R151). [DESIGN CHOICE, log entry 74] -/
def doHoopReset (f h : Nat) (s : State) : State :=
  s.reach f (R.HOOP_TABLE h) fun s => ((s.hoopReset h true).startMoves).settled

/-- VF_ENABLE_CHANGE: VF Enable and NumVFs of the PF (R118). -/
def doVfEnableChange (en : Bool) (num : Nat) (s : State) : State := (({ s with vfEnable := en, numVfs := num }).matchHoops.startMoves).settled

/-- The effect of a PF reset (R153): hoop 0 without its assignable pages, and hoops 1 to 15 because VF Enable clears. -/
def State.pfReset (s : State) : State := (({ s with vfEnable := false, numVfs := 0 }).hoopReset 0 false).matchHoops

/-- FUNCTION_LEVEL_RESET of function `h` (R153). [DESIGN CHOICE, log entry 74] -/
def doFunctionLevelReset (h : Nat) (s : State) : State :=
  ((if h = 0 then s.pfReset else s.hoopReset h true).startMoves).settled

/-- A conventional reset (R153): a PF reset; SPDM and IDE keys end (R518). [DESIGN CHOICE, log entry 74] -/
def State.conventional (s : State) : State :=
  let s := s.pfReset
  ({ s with rot := { s.rot with session := 0, answer := .none, ide := [] } }).startMoves.settled

/-- CONVENTIONAL_RESET. In DOZE and LISTEN it wakes the device and takes effect when the link is up again (R566). -/
def doConventionalReset (s : State) : State :=
  if s.pm.mode = .active ∨ s.pm.mode = .idle then s.conventional
  else if s.pm.mode = .entering then (s.conventional).wake 9
  else if s.pm.mode = .doze ∨ s.pm.mode = .listen ∨ s.pm.mode = .exiting then ({ s with pm := { s.pm with perst := true } }).wake 9
  else s

/-- PCIE_LINK_UP: the host link reaches L0 (R566, R570). -/
def doPcieLinkUp (s : State) : State :=
  let s := { s with pm := { s.pm with wakeN := false } }
  if s.pm.perst ∧ s.pm.computeUp then ({ s with pm := { s.pm with perst := false } }).conventional else s

/-- SCRUB_COMPLETE: both levels of hoop `h` are complete (R538); `bad` is the page of a unit one of whose lines failed three
times. [DESIGN CHOICE, log entry 74] -/
def doScrubComplete (h : Nat) (bad : Option Nat) (s : State) : State :=
  let s := if (s.hoop h).phase = .resetting then s.finishReset h else s
  if (s.hoop h).phase ≠ .scrubbing then s
  else
    let s := match bad.bind headerAt with
      | some (.core, i) => s.fatalError .core i
      | some (.cluster, i) => s.fatalError .cluster i
      | _ => s
    let s := { s with rules := s.rules.filter (fun e => !s.ruleOf h e.1), retiring := s.retiring.filter fun r => decide (r.hoop ≠ h) }
    let s := s.setHoop h { s.hoop h with phase := .absent }
    ((if s.hoopAllowed h then s.becomeReady h else s).startMoves).settled

/-- DRAM_ZERO_FILL: one 4 KiB unit of a scrubbed hoop's DRAM is zero and free again (R539). -/
def doDramZeroFill (h : Nat) (s : State) : State := (s.setHoop h { s.hoop h with scrubUnits := (s.hoop h).scrubUnits - 1 }).startMoves

/-! ## What ends as time passes -/

/-- Time has passed: hoops that were RESETTING are SCRUBBING (R151), and queues that were STOPPING are DISABLED (R157). [DESIGN CHOICE, log entry 74] -/
def State.phasesEnd (s : State) : State :=
  let l := (List.range 16).filter fun h => decide ((s.hoop h).phase = .resetting)
  let s := if l = [] then s else ((l.foldl (fun (s : State) h => s.finishReset h) s).startMoves).settled
  s.stopsEnd fun _ => true

/-- POSITION_REACHED: `dt` cycles and `sub` sixteenths of a cycle pass (R40) and the position reaches waited targets (R44): AT_STITCH heads complete. The other
waits the manual names (pricking entries, arm deadlines, refractory times, timeouts) are tested by their own rows, or
where they are used, against the position then reached. -/
def doPositionReached (dt sub : Nat) (s : State) : State :=
  let s := s.advance16 (16 * dt + sub)
  dev (fun s => (if dt = 0 then s else s.phasesEnd).wakeAts) s

/-! ## Meanings -/

/-- [DESIGN CHOICE, log entry 5]. -/
def execPositionReached (dt : Nat) (sub : Fin 16) (s : State) : Out := runTime (doPositionReached dt sub) s

def execHoopEnableWrite (f h : Fin 16) (v : W32) (s : State) : Out := run (doHoopEnableWrite f h v) s
def execHoopReset (f h : Fin 16) (s : State) : Out := run (doHoopReset f h) s
def execVfEnableChange (en : Bool) (num : Fin 16) (s : State) : Out := run (doVfEnableChange en num) s
def execFunctionLevelReset (h : Fin 16) (s : State) : Out := run (doFunctionLevelReset h) s
def execConventionalReset (s : State) : Out := run doConventionalReset s
def execPcieLinkUp (s : State) : Out := run doPcieLinkUp s
def execScrubComplete (h : Fin 16) (bad : Option (Fin 16384)) (s : State) : Out := run (doScrubComplete h (bad.map (·.val))) s
def execDramZeroFill (h : Fin 16) (s : State) : Out := run (doDramZeroFill h) s

end Sys2Proof.Machine
end

