-- ==== Sys2Proof/Machine/Security.lean ====
section
/-! DEFINITION. The root of trust (R513 to R545): sealed packages, attestation, the Crypto Officer, its error states, the SPDM
responder, and the debug lock at the TAP. -/

namespace Sys2Proof.Machine

/-! ## Sealed packages (R526 to R529) -/

/-- One object entry of a manifest (R526). -/
structure SealEntry where
  kind : Nat
  flags : Nat
  size : Nat
  dataOff : Nat
  tagOff : Nat
  /-- The entry's 32 bytes are well formed where its fields are in range. -/
  resv : Nat
  deriving DecidableEq, Repr

/-- Entry `i` of the manifest at `m`. -/
def Obj.sealEntry (o : Obj) (m i : Nat) : SealEntry :=
  let a := m + 128 + 32 * i
  ⟨o.rd a 1, o.rd (a + 1) 1, o.rd (a + 4) 8, o.rd (a + 12) 8, o.rd (a + 20) 4, o.rd (a + 2) 2 + o.rd (a + 24) 8⟩

/-- Chunks of 4 MiB of an object. -/
def SealEntry.chunks (e : SealEntry) : Nat := ceilDiv e.size (4 * 2 ^ 20)

def Obj.sealNobj (o : Obj) : Nat := o.rd 6 2
def Obj.sealOff (o : Obj) : Nat := o.rd 224 8
def Obj.sealLen (o : Obj) : Nat := o.rd 232 4
def Obj.sealId (o : Obj) : Nat := o.rd 8 16
def Obj.sealEntries (o : Obj) : List SealEntry := (List.range o.sealNobj).map fun i => o.sealEntry o.sealOff i

/-- Is the package laid out as R526 gives? -/
def Obj.sealFormat (o : Obj) : Bool :=
  let m := o.sealOff
  let len := o.sealLen
  decide (256 ≤ o.size ∧ o.rd 0 4 = 0x4D56534C ∧ o.rd 4 2 = 1 ∧ 1 ≤ o.sealNobj ∧ o.sealNobj ≤ 4096 ∧ o.rd 28 4 ≤ 1 ∧ o.rd 177 7 = 0 ∧ o.rd 236 20 = 0 ∧
    m % 64 = 0 ∧ m + len ≤ o.size ∧ 128 + 32 * o.sealNobj + 96 ≤ len ∧ o.rd (m + 97) 31 = 0) &&
  o.sealEntries.all fun e =>
    decide ((e.kind = 0 ∨ e.kind = 1 ∨ e.kind = 7 ∨ e.kind = 8) ∧ e.flags ≤ 1 ∧ e.resv = 0 ∧ 1 ≤ e.size ∧ e.size ≤ 2 ^ 36 ∧ e.dataOff % 64 = 0 ∧
      e.dataOff + e.size ≤ o.size ∧ e.tagOff + 16 * e.chunks ≤ len - 96)

/-- The first tile among those of the header and the manifest that is not VALID: reading them verifies these first (R175, R528
step 1). [DEDUCED, log entry 71] -/
def Obj.sealHeadBad (o : Obj) : Option (Nat × Nat) :=
  let man := if 0 < o.sealLen ∧ o.sealOff + o.sealLen ≤ o.size then (List.range (ceilDiv (o.sealOff % 4096 + o.sealLen) 4096)).map fun i => o.sealOff / 4096 + i else []
  ((0 :: man).find? fun i => decide ((o.tile i).st ≠ .valid)).map fun i => (i, if (o.tile i).st = .poisoned then 2 else 3)

/-- The operands of a SEAL_LOAD (R527). -/
def Cmd.slPackage (c : Cmd) : Nat := bytesAt c.bits 16 4
def Cmd.slTable (c : Cmd) : Nat := bytesAt c.bits 20 4
def Cmd.slTier (c : Cmd) : Nat := fld c.bits 192 3
def Cmd.slLoc (c : Cmd) : Nat := bytesAt c.bits 26 2

/-- SVN of the root-of-trust image that runs. -/
def State.rotSvn (s : State) : Nat := match mget none s.rot.running 1 with | some i => i.svn | none => fld s.rot.fuse 8 8

/-- Is the root of trust able to open packages (R529, R542, R543)? -/
def State.sealAvailable (s : State) : Bool := decide (s.rot.mode = .operational ∧ fld s.rot.fuse 0 3 = 2) && s.rot.sealCert

/-- The first check of R528 that fails, in the order of R529's causes as the steps make them; 0 where all pass. [DEDUCED, log entry 71] -/
def State.sealReason (s : State) (c : Cmd) (p t : Option Nat) : Nat :=
  match p, t with
  | some pk, some tk =>
    let o := s.obj pk
    let w := s.obj tk
    let head := o.rdList 0 256
    let man := o.rdList o.sealOff (o.sealLen - 96)
    if !s.sealAvailable then 55
    else if !(o.homed && decide (o.kind = 0 ∧ 2 ≤ o.tier ∧ o.tier ≤ 4)) || o.sealed || o.compressed then 48
    else if !(w.homed && decide (w.kind = 8 ∧ w.tier = 2)) then 48
    else if c.slTier ≠ 2 ∧ c.slTier ≠ 3 ∨ locOk c.slTier c.slLoc = false then 48
    else if !o.sealFormat || decide (w.size < 4 + 4 * o.sealNobj) then 48
    else if o.rdList 32 48 ≠ toBytes 48 Config.dskDigest then 49
    else if s.rotSvn < o.rd 24 4 ∨ (bit (w32 (o.rd 28 4)) 0 = true ∧ s.rot.debugUsed = true) then 53
    else if !Config.ecdsaVerify (o.rdList o.sealOff 97) (o.rdList (o.sealOff + o.sealLen - 96) 96) (toBytes 48 (Config.sha384 (head ++ man))) then 50
    else if 16 ≤ (s.livePkgs c.hoop).length ∨ (s.livePkgs c.hoop).any (fun x => decide (x.id = o.sealId)) = true then 54
    else 0
  | _, _ => 48

/-- The plaintext of an object, chunk by chunk; none where a tag does not match (R526, R528 step 4). -/
def Obj.openChunks (o : Obj) (ck : List Byte) (i : Nat) (e : SealEntry) : Nat → Nat → List Byte → Option (List Byte)
  | 0, _, acc => some acc
  | n + 1, c, acc =>
    let len := min (4 * 2 ^ 20) (e.size - c * (4 * 2 ^ 20))
    let nonce := leBytes 4 i ++ leBytes 4 c ++ leBytes 4 0
    let aad := leBytes 16 o.sealId ++ leBytes 4 i ++ leBytes 4 c
    match Config.aesGcmOpen ck nonce aad (o.rdList (e.dataOff + c * (4 * 2 ^ 20)) len) (o.rdList (o.sealOff + e.tagOff + 16 * c) 16) with
    | some p => o.openChunks ck i e n (c + 1) (acc ++ p)
    | none => none

/-- Every object's plaintext. [DEDUCED, log entry 71] -/
def Obj.openAll (o : Obj) (ck : List Byte) : List (SealEntry × Nat) → Option (List (SealEntry × List Byte))
  | [] => some []
  | (e, i) :: r =>
    match o.openChunks ck i e e.chunks 0 [], o.openAll ck r with
    | some p, some q => some ((e, p) :: q)
    | _, _ => none

/-- Digest over the manifest entries that `p` selects, each followed by its chunk tags (R535). -/
def Obj.entryDigest (o : Obj) (p : SealEntry → Bool) : BitVec 384 :=
  Config.sha384 ((o.sealEntries.zipIdx.filter fun e => p e.1).flatMap fun e =>
    o.rdList (o.sealOff + 128 + 32 * e.2) 32 ++ o.rdList (o.sealOff + e.1.tagOff) (16 * e.1.chunks))

/-- A SEAL_LOAD fails with a reason of R529. [DEDUCED, log entry 71] -/
def State.sealFail (s : State) (c : Cmd) (reason : Nat) : State :=
  ((s.addReg (R.SEAL_FAIL_COUNT c.hoop) 1).endCmd c 0x202 (reasonDetail reason 0)).settled

/-- The new objects of a package, un-homed until the commit: their keys and buffers. -/
def State.makeSealed (s : State) (c : Cmd) : List (SealEntry × List Byte) → State × List Nat × List OutBuf
  | [] => (s, [], [])
  | (e, bytes) :: r =>
    match s.newObj c.hoop { Obj.dflt with
        kind := e.kind, tier := c.slTier, loc := c.slLoc, sealed := true, compressed := decide (e.flags = 1), size := e.size } with
    | none => s.makeSealed c r
    | some (s, k) =>
      let (s, ks, os) := s.makeSealed c r
      (s, k :: ks, ⟨k, msetList 0 [] 0 bytes, List.range (ceilDiv e.size 4096), true, s.placeMask c.slTier c.slLoc⟩ :: os)

/-- A SEAL_LOAD ends with TILE_CHECK at a tile of its package (R175, R176). -/
def State.sealTile (s : State) (c : Cmd) (b : Nat × Nat) : State :=
  ((s.endCmd c 0x300 (setBytes (setBytes (setBytes 0 0 4 c.slPackage) 4 4 b.1) 8 1 b.2)).addReg (R.TILE_CHECK_COUNT c.hoop) 1).settled

/-- SEAL_LOAD at the head of a queue (R528); `host` is what host memory holds where the package is homed in T4. [DEDUCED, log entry 71] -/
def doSealLoad (h q : Nat) (host : List Byte) (s : State) : State :=
  match s.headOp h q 10 with
  | none => s
  | some c =>
    let p := s.resolve h c.slPackage
    let t := s.resolve h c.slTable
    let s0 := match p with | some k => if (s.obj k).tier = 4 ∧ host ≠ [] then s.modObj k (fun o => { o with data := msetList 0 [] 0 host }) else s | none => s
    let reason := s0.sealReason c p t
    match p, t with
    | some pk, some tk =>
      let o := s0.obj pk
      let es := o.sealEntries
      if s.ctxGone c then (s.endGone c).settled
      else if s.locAbsent c.slTier c.slLoc false then (s.endCmd c 0x1 0).settled
      else if s.flights.any fun g => decide (g.cmd.hoop = h ∧ g.cmd.cq = q) && g.outs.any fun w => decide (w.obj = pk) then s
      else match (if o.tier = 4 ∨ o.homed = false then none else o.sealHeadBad) with
      | some b => s.sealTile c b
      | none =>
      if reason ≠ 0 then s.sealFail c reason
      else match (if o.tier = 4 then none else o.badTile) with
      | some b => s.sealTile c b
      | none =>
      let needs := (es.map fun e => (c.slTier, c.slLoc, 4096 * ceilDiv e.size 4096)) ++ [(2, (s.obj tk).loc, s.outBytes tk)]
      if needs.any fun e => decide (s.poolCap e.1 h < e.2.2) then (s.endCmd c 0x202 0).settled
      else if s.freeEntries h < es.length ∨ s.moving tk = true then s
      else
        let (s, ok) := s.reserve c needs
        if !ok then s.startMoves
        else
          let t3 : List (Nat × Nat × Nat) := if c.slTier = 3 then (es.zipIdx).map fun (e : SealEntry × Nat) => (e.2, c.slLoc, ceilDiv e.1.size 4096) else []
          if !(s.meetBudget h q t3).2 then (s.meetBudget h q t3).1
          else match Config.keyUnwrap (Config.kek (o.rdList 80 97) o.sealId) (o.rdList 184 40) with
          | none => s.sealFail c 51
          | some ck =>
            match o.openAll ck es.zipIdx with
            | none => s.sealFail c 52
            | some plain =>
              let s := (s.meetBudget h q t3).1
              let s := (s.transfer h false o.tier o.loc [(0, o.size)] .other).hostRead pk o.size
              let delayed := (s.cq h q).headDelayed
              let (s, id) := s.fresh
              let (s, keys, outs) := s.makeSealed c plain
              let out := ((s.outBuf tk).write 0 (leBytes 4 es.length ++ keys.flatMap fun k => leBytes 4 (s.handleOf k)))
              let pkg : Package := ⟨o.sealId, es.length, 0, Config.sha384 (o.rdList o.sealOff 97), o.entryDigest (fun e => decide (e.kind = 7)),
                o.entryDigest (fun e => decide (e.kind ≠ 7)), keys.map fun k => (k, (s.obj k).gen)⟩
              let measure := Config.sha384 (o.rdList 0 256 ++ o.rdList o.sealOff o.sealLen)
              let s := { s with allocs := s.allocs.map fun (a : Alloc) => if a.holder = Holder.head (h * 64 + q) then { a with holder := .cmd id } else a }
              (s.beginCmd { InFlight.of id c s.pos true with
                code := if delayed then 0x301 else 0, ins := [(pk, o)], outs := out :: outs, news := keys, package := some (pkg, measure) }).settled
    | _, _ =>
      if s.ctxGone c then (s.endGone c).settled
      else if s.locAbsent c.slTier c.slLoc false then (s.endCmd c 0x1 0).settled else s.sealFail c reason

/-! ## The Crypto Officer and the mailbox (R515, R516, R544, R545) -/

/-- Is the Crypto Officer authenticated (R516)? -/
def State.coOn (s : State) : Bool := match s.rot.coAuth with | some t => decide (s.now < t + 3600000000000) | none => false

/-- Are CO_AUTH attempts held off (R516)? -/
def State.coHeld (s : State) : Bool := match s.rot.coHold with | some t => decide (s.now < t + 60000000000) | none => false

/-- MB_RESULT: DONE with a result (R545). [DEDUCED, log entry 72] -/
def State.mbResult (s : State) (h r : Nat) : State := s.setReg (R.MB_RESULT h) (w32 (1 + 16 * r))

/-- A mailbox command of function `f` on page `h`: UNAVAILABLE and NOT_AUTHORISED come before what the command itself checks;
a page that is not ON takes none (R103), but every one is answered UNAVAILABLE in CRITICAL_ERROR (R542).
`random` marks a service that needs new random values, `page0` one of page 0, `co` one that needs the Crypto Officer. [DEDUCED, log entries 27, 72] -/
def State.mailbox (s : State) (f h : Nat) (random page0 co : Bool) (act : State → State) : State :=
  s.reach f (R.MB_CMD h) fun s =>
    if bit (s.reg (R.MB_RESULT h)) 0 = false ∨ (s.onAt (R.MB_CMD h) = false ∧ s.rot.mode ≠ .criticalError) then s
    else if s.rot.mode = .selfTest ∨ s.rot.mode = .criticalError ∨ (s.rot.mode = .softError ∧ random = true) then s.mbResult h 4
    else if ((page0 || co) && decide (h ≠ 0)) || (co && !s.coOn) then s.mbResult h 3
    else act s

/-- MB_ARG[i]. [DEDUCED, log entry 72] -/
def State.mbArg (s : State) (h i : Nat) : W32 := s.reg (R.MB_ARG h i)

/-- The DATA object that MB_ARG[0] names, homed in T2 or T4. [DEDUCED, log entry 72] -/
def State.mbObject (s : State) (h : Nat) : Option Nat :=
  match s.resolve h (s.mbArg h 0).toNat with
  | some k => let o := s.obj k; if o.kind = 0 ∧ o.homed = true ∧ o.sealed = false ∧ (o.tier = 2 ∨ o.tier = 4) then some k else none
  | none => none

/-- The content of that object: what the host has put there where it is homed in T4. [DEDUCED, log entry 90] -/
def State.mbBytes (s : State) (k n : Nat) (host : List Byte) : List Byte :=
  if (s.obj k).tier = 4 ∧ host ≠ [] then (host ++ List.replicate n 0).take n else (s.obj k).rdList 0 n

/-- The root of trust writes bytes at the start of an object: whole tiles become VALID; it draws tokens of the object's hoop (R411), and writes to T4
without Relaxed Ordering (R117). -/
def State.writeObj (s : State) (k : Nat) (bytes : List Byte) : State :=
  let s := s.transfer (oHoop k) true (s.obj k).tier (s.obj k).loc [(0, bytes.length)] .other
  let s := if (s.obj k).tier = 4 then s.hostWrite k (s.obj k).aux bytes.length else s
  s.modObj k fun o =>
    let data := msetList 0 o.data 0 bytes
    let tiles := if o.tier = 4 then o.tiles else (List.range (ceilDiv bytes.length 4096)).foldl (fun m t => mset o.tileDflt m t ⟨.valid, tileCrc data t⟩) o.tiles
    { o with data := data, tiles := tiles }

/-- The CHAIN field of R533: its length, then certificates 2, 3 and 4; no sealing certificate once it is erased (R543). -/
def State.chain (s : State) : List Byte :=
  let certs := Config.cert 2 ++ Config.cert 3 ++ (if s.rot.sealCert then Config.cert 4 else [])
  leBytes 4 certs.length ++ certs

/-- Firmware entries (R534): the controllers that run an image, in ascending order. -/
def State.fwEntries (s : State) : List Byte :=
  (List.range 7).flatMap fun c => match mget none s.rot.running c with
    | some i => leBytes 1 c ++ leBytes 1 i.slot ++ leBytes 2 0 ++ leBytes 4 i.svn ++ leBytes 8 i.version ++ toBytes 48 i.digest
    | none => []

/-- Number of firmware entries. -/
def State.fwCount (s : State) : Nat := ((List.range 7).filter fun c => (mget none s.rot.running c).isSome).length

/-- STATE of HOOP_TABLE as a number (R119). -/
def HoopPhase.code : HoopPhase → Nat
  | .absent => 0
  | .ready => 1
  | .resetting => 2
  | .scrubbing => 3

/-- One hoop entry with its packages; only its first 8 bytes for a hoop that another hoop asks about (R535). -/
def State.hoopEntry (s : State) (h : Nat) (full : Bool) : List Byte :=
  let x := s.hoopSec h
  let pk := s.livePkgs h
  let flags := if full then b2n (s.hoopSealed h) + 2 * b2n (bit (s.reg (R.KN_STATUS h)) 0) + 4 else 0
  let first := leBytes 1 h ++ leBytes 1 (s.hoop h).phase.code ++ leBytes 1 flags ++ leBytes 1 (if full then pk.length else 0) ++ leBytes 4 x.extends_
  if !full then first
  else first ++ toBytes 48 x.mr ++ leBytes 8 0 ++ pk.flatMap fun p =>
    leBytes 16 p.id ++ leBytes 4 p.nobj ++ leBytes 4 0 ++ leBytes 8 p.stamp ++ toBytes 48 p.ownerKey ++ toBytes 48 p.patterns ++ toBytes 48 p.weights ++ leBytes 16 0

/-- A mask of the FENCED instances of a block. -/
def State.fencedMask (s : State) (b : Blk) : Nat :=
  ((List.range (blkRow b).count).filter fun i => decide (s.blkState (pageOf b i) = 5)).foldl (fun a i => a + 2 ^ i) 0

/-- CONFIG (R534). -/
def State.attestConfig (s : State) : List Byte :=
  leBytes 4 s.devPart ++ leBytes 4 s.devLive ++ toBytes 4 s.rot.fuse ++ leBytes 4 0 ++ toBytes 8 s.part.fused ++ leBytes 8 (s.fencedMask .core) ++
  leBytes 1 (s.fencedMask .cluster) ++ leBytes 1 (s.fencedMask .dramStack) ++ leBytes 1 (s.fencedMask .skein) ++ leBytes 1 (s.fencedMask .link) ++
  leBytes 2 (s.fencedMask .pipeline) ++ leBytes 2 0 ++ leBytes 4 s.dramLiveGib ++ leBytes 4 s.skeinLiveGib ++ leBytes 80 0

/-- The report of R533 for hoop `h` over a nonce of 48 bytes. -/
def State.report (s : State) (h : Nat) (nonce : List Byte) : List Byte :=
  let entries := (List.range 16).flatMap fun g => s.hoopEntry g (decide (h = 0 ∨ g = h))
  let body := s.fwEntries ++ entries ++ s.chain
  let size := 256 + body.length + 96
  let flags := b2n s.debugLock + 2 * b2n s.rot.debugUsed + 4 * b2n (bit (s.reg R.DEV_STATUS) 1)
  let r := leBytes 4 0x4D564154 ++ leBytes 2 1 ++ leBytes 2 flags ++ leBytes 4 size ++ leBytes 4 (size - 96) ++ nonce ++
    leBytes 8 s.count ++ leBytes 2 s.phase ++ leBytes 1 h ++ leBytes 1 s.fwCount ++ leBytes 1 16 ++ leBytes 3 0 ++ toBytes 48 Config.deviceId ++
    s.attestConfig ++ body
  r ++ toBytes 96 (Config.ecdsaSign (toBytes 48 (Config.sha384 r)))

/-- ATTEST (R533). -/
def doAttest (f h : Nat) (s : State) : State :=
  s.mailbox f h false false false fun s =>
    let nonce := (List.range 12).flatMap fun i => toBytes 4 (s.mbArg h (1 + i))
    let r := s.report h nonce
    match s.mbObject h with
    | none => s.mbResult h 1
    | some k =>
      if (s.obj k).size < r.length then s.mbResult h 5
      else (((s.writeObj k r).setReg (R.MB_OUT h 0) (w32 r.length)).addReg (R.ATTEST_COUNT h) 1).mbResult h 0

/-- GET_CHAIN. -/
def doGetChain (f h : Nat) (s : State) : State :=
  s.mailbox f h false false false fun s =>
    match s.mbObject h with
    | none => s.mbResult h 1
    | some k =>
      if (s.obj k).size < s.chain.length then s.mbResult h 5
      else ((s.writeObj k s.chain).setReg (R.MB_OUT h 0) (w32 s.chain.length)).mbResult h 0

/-- EXTEND (R536). -/
def doExtend (f h : Nat) (s : State) : State :=
  s.mailbox f h false false false fun s =>
    (s.extendMr h (ofBytes 384 ((List.range 12).flatMap fun i => toBytes 4 (s.mbArg h i)))).mbResult h 0

/-- CO_CHALLENGE (R516): a fresh value of the DRBG. -/
def doCoChallenge (f h : Nat) (s : State) : State :=
  s.mailbox f h true true false fun s =>
    let v := Config.drbg (s.rot.drbg + 1)
    let s := { s with rot := { s.rot with drbg := s.rot.drbg + 1, challenge := some v } }
    (s.setRegs (R.MB_OUT h 0) ((List.range 12).map fun i => w32 (fld v (32 * i) 32))).mbResult h 0

/-- CO_AUTH (R516). A challenge serves one attempt. [DEDUCED, log entry 72] -/
def doCoAuth (f h : Nat) (host : List Byte) (s : State) : State :=
  s.mailbox f h false true false fun s =>
    if s.coHeld then s.mbResult h 3
    else match s.mbObject h with
    | none => s.mbResult h 1
    | some k =>
      if (s.obj k).size < 96 then s.mbResult h 2
      else
        let ok := match s.rot.coKey, s.rot.challenge with
          | some key, some v => Config.ecdsaVerify key (s.mbBytes k 96 host) (toBytes 48 (Config.sha384 (toBytes 48 v ++ toBytes 48 Config.deviceId)))
          | _, _ => false
        let r := { s.rot with challenge := none }
        if ok then ({ s with rot := { r with coAuth := some s.now, coFails := 0, coHold := none } }).mbResult h 0
        else
          let n := r.coFails + 1
          ({ s with rot := if n = 3 then { r with coFails := 0, coHold := some s.now } else { r with coFails := n } }).mbResult h 6

/-- CO_AUTH_EXPIRY and CO_AUTH_HOLDOFF_END: the times of R516 have passed. -/
def doCoAuthExpiry (s : State) : State := if s.coOn then s else { s with rot := { s.rot with coAuth := none } }
def doCoAuthHoldoffEnd (s : State) : State := if s.coHeld then s else { s with rot := { s.rot with coHold := none } }

/-- CO_LOGOUT. -/
def doCoLogout (f h : Nat) (s : State) : State :=
  s.mailbox f h false true false fun s => ({ s with rot := { s.rot with coAuth := none } }).mbResult h 0

/-- ENROLL_CO (R516): while no key is stored, or by the Crypto Officer. [DEDUCED, log entry 72] -/
def doEnrollCo (f h : Nat) (host : List Byte) (s : State) : State :=
  s.mailbox f h false true false fun s =>
    if s.rot.coKey.isSome ∧ s.coOn = false then s.mbResult h 3
    else match s.mbObject h with
    | none => s.mbResult h 1
    | some k =>
      if (s.obj k).size < 97 then s.mbResult h 2
      else ({ s with rot := { s.rot with coKey := some (s.mbBytes k 97 host) } }).mbResult h 0

/-- ADVANCE_SVN (R525). -/
def doAdvanceSvn (f h : Nat) (s : State) : State :=
  s.mailbox f h false true true fun s =>
    let v := s.mbArg h 0
    let c := fld v 0 8
    let n := fld v 8 8
    let lo := if c = 1 then 8 else 16
    if fld v 16 16 ≠ 0 ∨ c = 0 ∨ 6 < c then s.mbResult h 2
    else match mget none s.rot.running c with
    | none => s.mbResult h 7
    | some i =>
      if n < fld s.rot.fuse lo 8 ∨ i.svn < n then s.mbResult h 7
      else ({ s with rot := { s.rot with fuse := setFld s.rot.fuse lo 8 n } }).mbResult h 0

/-! ## Error states (R541 to R543) -/

/-- Records that a hoop's sequencer holds go out at once, in stamp order (R45). [DEDUCED, log entry 73] -/
def State.flushHeld (s : State) (h : Nat) : Nat → State
  | 0 => s
  | n + 1 => (doRecordSequenced h s).flushHeld h n

/-- CRITICAL_ERROR (R542): ECC_FATAL on every mailbox page, which takes it to FENCED (R591), volatile keys destroyed, every hoop reset, every link in AUTH_HOLD.
[DEDUCED, log entry 73] -/
def State.critical (s : State) : State :=
  if s.rot.mode = .criticalError then s
  else
    let s := (List.range 16).foldl (fun (s : State) h => s.fatalError .mailbox h) s
    let s := (List.range 16).foldl (fun (s : State) h => s.flushHeld h (s.hoop h).held.length) s
    let s := { s with rot := { s.rot with mode := .criticalError, challenge := none, coAuth := none, memKeys := [], session := 0, answer := .none, ide := [] } }
    let s := ((List.range 8).filter (present s.part .link)).foldl (fun (s : State) n => s.lostLink n .authHold) s
    ((List.range 16).foldl (fun (s : State) h => s.hoopReset h true) s).startMoves.settled

/-- ZEROISE (R543). -/
def doZeroise (f h : Nat) (s : State) : State :=
  s.mailbox f h false true true fun s =>
    if (s.mbArg h 0).toNat ≠ 0x5A45524F then s.mbResult h 2
    else
      let s := s.critical
      ({ s with rot := { s.rot with coKey := none, sealCert := false, zeroised := true } }).mbResult h 0

/-- SELF_TEST (R541): the known-answer tests pass or fail. [DEDUCED, log entry 72] -/
def doSelfTest (f h : Nat) (pass : Bool) (s : State) : State :=
  s.mailbox f h false false false fun s => if pass then s.mbResult h 0 else (s.critical).mbResult h 4

/-- ENTROPY_TEST_FAIL (R542). -/
def doEntropyTestFail (s : State) : State :=
  if s.rot.mode = .operational then { s with rot := { s.rot with mode := .softError, softSince := s.now, retests := 0 } } else s

/-- ENTROPY_RETEST: three passes return to OPERATIONAL (R542). [DEDUCED, log entry 72] -/
def doEntropyRetest (pass : Bool) (s : State) : State :=
  if s.rot.mode ≠ .softError then s
  else if !pass then { s with rot := { s.rot with retests := 0 } }
  else if 2 ≤ s.rot.retests then { s with rot := { s.rot with mode := .operational, retests := 0 } }
  else { s with rot := { s.rot with retests := s.rot.retests + 1 } }

/-- SOFT_ERROR_TIMEOUT: a soft error has lasted 10 s (R542). -/
def doSoftErrorTimeout (s : State) : State :=
  if s.rot.mode = .softError ∧ s.rot.softSince + 10000000000 ≤ s.now then s.critical else s

/-! ## SPDM and IDE (R537) -/

/-- A request to the SPDM responder: answered while its I/O die is up and the root of trust offers the service. [DEDUCED, log entry 73] -/
def State.spdm (s : State) (random : Bool) (act : State → State) : State :=
  if !s.domainOn .ioMain then s
  else if s.rot.mode = .selfTest ∨ s.rot.mode = .criticalError ∨ (s.rot.mode = .softError ∧ random = true) then { s with rot := { s.rot with answer := .error } }
  else act s

/-- Give an answer. -/
def State.answered (s : State) (a : SpdmAnswer) : State := { s with rot := { s.rot with answer := a } }

def doGetVersion (s : State) : State := s.spdm false fun s => s.answered .version
def doGetCapabilities (s : State) : State := s.spdm false fun s => s.answered .capabilities
def doNegotiateAlgorithms (s : State) : State := s.spdm false fun s => s.answered .algorithms
def doGetDigests (s : State) : State := s.spdm false fun s => s.answered (.digests (Config.sha384 s.chain))
def doGetCertificate (s : State) : State := s.spdm false fun s => s.answered (.certificate s.chain)
def doChallenge (nonce : BitVec 256) (s : State) : State :=
  s.spdm false fun s => s.answered (.challenge (Config.spdmSign (toBytes 32 nonce ++ toBytes 48 (Config.sha384 s.chain))))
def doGetMeasurements (s : State) : State := s.spdm false fun s => s.answered (.measurements s.fwEntries)

/-- KEY_EXCHANGE begins a session, in place of one that runs. -/
def doKeyExchange (pub : List Byte) (s : State) : State :=
  s.spdm true fun s => ({ s with rot := { s.rot with session := 1, ide := [], drbg := s.rot.drbg + 1 } }).answered
    (.keyExchange (Config.spdmSign (pub ++ toBytes 48 (Config.drbg (s.rot.drbg + 1)))))

/-- FINISH completes it where the requester's proof verifies. -/
def doFinish (ok : Bool) (s : State) : State :=
  s.spdm false fun s => if s.rot.session = 1 ∧ ok = true then ({ s with rot := { s.rot with session := 2 } }).answered .finish else s.answered .error

/-- END_SESSION ends the session and its keys (R518). -/
def doEndSession (s : State) : State :=
  s.spdm false fun s => if s.rot.session = 2 then ({ s with rot := { s.rot with session := 0, ide := [] } }).answered .ended else s.answered .error

/-- KEY_PROG keys an IDE stream, inside a session and with the Crypto Officer authenticated. [DEDUCED, log entry 102] -/
def doKeyProg (stream : Nat) (s : State) : State :=
  s.spdm false fun s =>
    if s.rot.session ≠ 2 then s.answered .error
    else if !s.coOn then s.answered .unauthorised
    else if stream ∈ s.rot.ide then s.answered .keyed
    else if stream ≠ 0 ∧ 16 ≤ (s.rot.ide.filter fun x => decide (x ≠ 0)).length then s.answered .error
    else ({ s with rot := { s.rot with ide := s.rot.ide ++ [stream] } }).answered .keyed

/-! ## The TAP (R532, R535) -/

/-- What IDCODE reads (R616): DEV_PART.STEPPING's low four bits, the part field, the manufacturer field and 1. [DESIGN CHOICE, log entry 99] -/
def State.idcode (s : State) : Nat := s.devPart / 2 ^ 16 % 16 * 2 ^ 28 + 0x04D3274F

/-- JTAG_INSTRUCTION: 0 BYPASS, 1 IDCODE, which reads IDCODE out, 2 SAMPLE/PRELOAD, 3 any other. [DESIGN CHOICE, log entry 99] -/
def doJtagInstruction (kind : Nat) (s : State) : State :=
  let set := fun (s : State) (k : Nat) => { s with rot := { s.rot with jtag := k } }
  -- the port lies in the I/O main domain and is at high impedance without it (R612)
  if !s.domainOn .ioMain then s
  else if kind = 1 then (set s 1).setRead s.idcode
  else if kind < 3 then set s kind
  else if s.debugLock then (set s 0).raise .devGlobal 0 29 0x3
  else set { s with rot := { s.rot with debugUsed := true } } 3

/-! ## Meanings -/

def execSealLoad (h : Fin 16) (q : Fin 64) (host : List Byte) (s : State) : Out := run (doSealLoad h q host) s
def execAttest (f h : Fin 16) (s : State) : Out := run (doAttest f h) s
def execGetChain (f h : Fin 16) (s : State) : Out := run (doGetChain f h) s
def execExtend (f h : Fin 16) (s : State) : Out := run (doExtend f h) s
def execCoChallenge (f h : Fin 16) (s : State) : Out := run (doCoChallenge f h) s
def execCoAuth (f h : Fin 16) (host : List Byte) (s : State) : Out := run (doCoAuth f h host) s
def execCoAuthExpiry (s : State) : Out := run doCoAuthExpiry s
def execCoAuthHoldoffEnd (s : State) : Out := run doCoAuthHoldoffEnd s
def execCoLogout (f h : Fin 16) (s : State) : Out := run (doCoLogout f h) s
def execEnrollCo (f h : Fin 16) (host : List Byte) (s : State) : Out := run (doEnrollCo f h host) s
def execAdvanceSvn (f h : Fin 16) (s : State) : Out := run (doAdvanceSvn f h) s
def execZeroise (f h : Fin 16) (s : State) : Out := run (doZeroise f h) s
def execSelfTest (f h : Fin 16) (pass : Bool) (s : State) : Out := run (doSelfTest f h pass) s
def execEntropyTestFail (s : State) : Out := run doEntropyTestFail s
def execEntropyRetest (pass : Bool) (s : State) : Out := run (doEntropyRetest pass) s
def execSoftErrorTimeout (s : State) : Out := run doSoftErrorTimeout s
def execGetVersion (s : State) : Out := run doGetVersion s
def execGetCapabilities (s : State) : Out := run doGetCapabilities s
def execNegotiateAlgorithms (s : State) : Out := run doNegotiateAlgorithms s
def execGetDigests (s : State) : Out := run doGetDigests s
def execGetCertificate (s : State) : Out := run doGetCertificate s
def execChallenge (nonce : BitVec 256) (s : State) : Out := run (doChallenge nonce) s
def execGetMeasurements (s : State) : Out := run doGetMeasurements s
def execKeyExchange (pub : List Byte) (s : State) : Out := run (doKeyExchange pub) s
def execFinish (ok : Bool) (s : State) : Out := run (doFinish ok) s
def execEndSession (s : State) : Out := run doEndSession s
def execKeyProg (stream : Byte) (s : State) : Out := run (doKeyProg stream.toNat) s
def execJtagInstruction (kind : Fin 4) (s : State) : Out := run (doJtagInstruction kind) s

end Sys2Proof.Machine
end

