-- ==== Sys2Proof/Machine/Begin.lean ====
section
/-! DEFINITION. A command at the head of its queue begins, whatever it is (R125), and what waits for room or for write budget is
tried again (R189, R216, R217). -/

namespace Sys2Proof.Machine

/-- Begin the head of a queue by its opcode; `host` is what host memory holds for an operand homed in T4. -/
def State.beginHead (s : State) (h q : Nat) (host : List Byte) : State :=
  match (s.cq h q).head with
  | none => s
  | some c =>
    match c.opcode with
    | 0 => doNop h q s
    | 1 => if c.armOnly then doRunPatternArmOnly h q s else doRunPattern h q s
    | 2 => doMove h q host s
    | 3 => doKnotWait h q s
    | 4 => doKnotSignal h q s
    | 5 => doAtStitch h q s
    | 6 => doFence h q s
    | 7 => doPostEvent h q s
    | 8 => doContextOpen h q s
    | 9 => doContextClose h q s
    | 10 => doSealLoad h q host s
    | _ => s

/-- COMMAND_BEGIN (R125). -/
def doCommandBegin (h q : Nat) (host : List Byte) (s : State) : State := s.beginHead h q host

/-- Try one waiting request again. -/
def State.retryWait (s : State) (w : AllocWait) : State :=
  if !s.waits.contains w then s
  else match w.move, w.cq, w.create with
  | some id, _, _ =>
    let s := (s.tryStart id).giveRanges id 32
    (s.remotes.filter fun r => decide (r.cmd = id)).foldl (fun (s : State) r => s.startRemote r) s
  | none, some k, _ =>
    let h := k / 64
    let q := k % 64
    match (s.cq h q).head with
    | none => s
    | some c =>
      let s := ((s.segSlots c).filter fun i => !((s.cq h q).segs.any fun e => decide (e.1 = i))).foldl (fun (s : State) i => s.makeSegment c i) s
      s.beginHead h q []
  | none, none, some o =>
    if s.createFits w.hoop o then (s.endWait fun x => decide (x = w)).createNow w.hoop o
    -- the evictions it needed have failed and others cannot be had: it never waits (R196)
    else if s.reachable w.hoop o then s.askRoom w.hoop o.tier w.unit o.bytes
    else (s.endWait fun x => decide (x = w)).objResult w.hoop 4
  | none, none, none => s

/-- ALLOCATION_GRANTED: the waiting requests are tried in the order in which they began to wait (R189). -/
def doAllocationGranted (s : State) : State := ((s.waits.foldl (fun (s : State) w => s.retryWait w) s).startMoves).settled

/-- BUDGET_ADMITTED: heads that a refusal of the write budget delayed are tried again (R216, R217). -/
def doBudgetAdmitted (s : State) : State :=
  ((s.cqs.filter fun e => e.2.headDelayed).foldl (fun (s : State) e => s.beginHead (e.1 / 64) (e.1 % 64) []) s).startMoves.settled

/-! ## Meanings -/

def execCommandBegin (h : Fin 16) (q : Fin 64) (host : List Byte) (s : State) : Out := run (doCommandBegin h q host) s
def execAllocationGranted (s : State) : Out := run doAllocationGranted s
def execBudgetAdmitted (s : State) : Out := run doBudgetAdmitted s

end Sys2Proof.Machine
end

