-- ==== Sys2Proof/Machine/Power.lean ====
section
/-! DEFINITION. Supplies, levels, power states, wakes and resets (R546 to R580, R614): the requests for a sleep state and their
refusals, the kills and stops of an entry, what an exit restores, the power cap, temperature, warm and cold reset, and boot. -/

namespace Sys2Proof.Machine

/-- Change the power manager's own state. -/
def State.setPm (s : State) (f : Pm → Pm) : State := { s with pm := f s.pm }

/-! ## Limits (R549 to R552) -/

/-- PM_STATUS.CAP_LIMITED (R551). -/
def State.capLimited (s : State) : Bool := !s.pm.capDown.isEmpty || decide (0 < s.pm.scaleDown)

/-- Thermal ceiling of cluster `n`, its cap ceiling, and the level that is to be in force (R549). -/
def State.thermCeil (s : State) (n : Nat) : Nat := mget 0 s.pm.thermCeil n
def State.capCeil (s : State) (n : Nat) : Nat := mget 0 s.pm.capCeil n
def State.plTarget (s : State) (n : Nat) : Nat := fld (s.reg (R.PL_TARGET n)) 0 3
def State.levelDue (s : State) (n : Nat) : Nat := max (s.plTarget n) (max (s.thermCeil n) (s.capCeil n))

/-- CL_STATUS.THERMAL_LIMITED of cluster `n`, and PM_STATUS.THERM_LIMITED (R552, R578). -/
def State.thermalLimited (s : State) (n : Nat) : Bool := decide (s.plTarget n < s.thermCeil n)
def State.thermLimited (s : State) : Bool := (List.range 8).any s.thermalLimited

/-- SMB_ALERT_N is asserted while a limit holds, and stays so until it is released (R615). [DEDUCED, log entry 86] -/
def State.alertNow (s : State) : State := if s.capLimited || s.thermLimited then s.setPm fun p => { p with alert := true } else s

/-- PL_TARGET_WRITE (R549). -/
def doPlTargetWrite (f n : Nat) (v : W32) (s : State) : State :=
  s.reach f (R.PL_TARGET n) fun s => (s.setReg (R.PL_TARGET n) (applyLimit (.whole 0 7) v)).alertNow

/-- LEVEL_CHANGE_DONE: the level in force of cluster `n` is the slowest of its target and its two ceilings (R549). -/
def doLevelChangeDone (n : Nat) (s : State) : State := s.setPm fun p => { p with inForce := mset 0 p.inForce n (s.levelDue n) }

/-- PM_MEM_LEVEL_WRITE (R550). -/
def doPmMemLevelWrite (f : Nat) (v : W32) (s : State) : State :=
  s.reach f R.PM_MEM_LEVEL fun s => s.setRegFld R.PM_MEM_LEVEL 0 2 (min 2 (fld v 0 2))

/-- MEM_LEVEL_CHANGE_DONE: the level comes into force, and the DRAM requests that waited go on (R550). -/
def doMemLevelChangeDone (s : State) : State := (s.accrue.setPm fun p => { p with memForce := s.memDue }).startMoves

/-- The cluster whose cap ceiling is lowered next: the fastest, the highest-numbered on a tie; none when all are P7 (R551). -/
def State.capNext (s : State) : Option Nat :=
  (List.range 8).foldl (fun (b : Option Nat) n =>
    if 7 ≤ s.capCeil n then b
    else match b with
      | none => some n
      | some m => if s.capCeil n ≤ s.capCeil m then some n else b) none

/-- One step down (R551). [DEDUCED, log entry 79] -/
def State.capLower (s : State) : State :=
  match s.capNext with
  | some n => s.setPm fun p => { p with capCeil := mset 0 p.capCeil n (mget 0 p.capCeil n + 1), capDown := n :: p.capDown, capAt := s.now }
  | none =>
    let v := (s.reg R.SCH_CAP_SCALE).toNat
    if v ≤ 32 then s
    else (s.accrue.setReg R.SCH_CAP_SCALE (w32 (max 32 (v - 16)))).setPm fun p => { p with scaleDown := p.scaleDown + 1, capAt := s.now }

/-- One step undone, in reverse order (R551). [DEDUCED, log entry 79] -/
def State.capRaise (s : State) : State :=
  if 0 < s.pm.scaleDown then
    (s.accrue.setReg R.SCH_CAP_SCALE (w32 (min 256 ((s.reg R.SCH_CAP_SCALE).toNat + 16)))).setPm fun p => { p with scaleDown := p.scaleDown - 1, capAt := s.now }
  else match s.pm.capDown with
    | [] => s
    | n :: r => s.setPm fun p => { p with capCeil := mset 0 p.capCeil n (mget 0 p.capCeil n - 1), capDown := r, capAt := s.now }

/-- POWER_MEASURE: a measurement of `mw` joins the trailing 10 ms, and the cap acts every 200 µs, or undoes every millisecond
(R551). -/
def doPowerMeasure (mw : Nat) (s : State) : State :=
  if s.pm.mode = .off then s
  else
    let l := (mw :: s.pm.powers).take 100
    let avg := l.foldl (· + ·) 0 / l.length
    let s := (s.setPm fun p => { p with powers := l }).setReg R.PM_POWER_MW (w32 avg)
    let cap := (s.reg R.PM_CAP_MW).toNat
    (if 98 * cap < 100 * avg ∧ s.pm.capAt + 200000 ≤ s.now then s.capLower
     else if 100 * avg < 95 * cap ∧ s.pm.capAt + 1000000 ≤ s.now then s.capRaise else s).alertNow

/-- *S* of R552 in °C. -/
def State.softTemp (s : State) : Int := s.part.tjMax - ((s.force R.THERM_SOFT_OFFSET).toNat : Int)

/-- One cluster's thermal ceiling moves (R552). [DEDUCED, log entry 79] -/
def State.thermStep (s : State) (n : Nat) (t : Int) : State :=
  let c := s.thermCeil n
  let at_ := mget 0 s.pm.thermAt n
  let set := fun (c : Nat) => s.setPm fun p => { p with thermCeil := mset 0 p.thermCeil n c, thermAt := mset 0 p.thermAt n s.now }
  if s.softTemp ≤ t ∧ at_ + 1000000 ≤ s.now ∧ c < 7 then set (c + 1)
  else if t < s.softTemp - 5 ∧ at_ + 10000000 ≤ s.now ∧ 0 < c then set (c - 1)
  else s

/-- THERMAL_STEP: the hottest core of each cluster, each DRAM stack and each skein stack in °C (R552). -/
def doThermalStep (cl dr sk : List Int) (s : State) : State :=
  if s.pm.mode = .off then s
  else
    let ts := (cl ++ dr).zipIdx
    let s := { s with svc := { s.svc with temps := ts.foldl (fun m (e : Int × Nat) => mset 25 m e.2 e.1) s.svc.temps } }
    let s := (sk.zipIdx).foldl (fun (s : State) (e : Int × Nat) => s.setSk e.2 { s.sk e.2 with temp := e.1 }) s
    let s := (cl.zipIdx).foldl (fun (s : State) (e : Int × Nat) => s.thermStep e.2 e.1) s
    let live := (dr.zipIdx).filter fun (e : Int × Nat) => s.live .dramStack e.2
    let hot := live.any fun (e : Int × Nat) => decide (95 ≤ e.1)
    let cool := live.all fun (e : Int × Nat) => decide (e.1 < 90)
    let s := if s.now < s.pm.memAt + 10000000 then s
      else if hot ∧ s.memDue < 2 then s.setPm fun p => { p with memDown := p.memDown + 1, memAt := s.now }
      else if cool ∧ 0 < s.pm.memDown then s.setPm fun p => { p with memDown := p.memDown - 1, memAt := s.now }
      else s
    s.alertNow

/-! ## Requests for a state (R556, R557) -/

/-- MiB of cluster `n`'s ground buffer retained in DOZE (R559). -/
def State.gbRetain (s : State) (n : Nat) : Nat := fld (s.reg R.PM_GB_RETAIN) (4 * n) 4

/-- Bytes of pinned objects homed in the ground buffer of cluster `n`. -/
def State.pinnedT1 (s : State) (n : Nat) : Nat :=
  s.objs.foldl (fun a e => if e.2.used && e.2.homed && decide (e.2.tier = 1 ∧ e.2.loc = n ∧ 0 < e.2.pins) then a + e.2.bytes else a) 0

/-- Is the pinned-object rule of R559 broken for a target? -/
def State.pinnedOnChip (s : State) (target : Nat) : Bool :=
  (s.objs.any fun e => e.2.used && e.2.homed && decide (0 < e.2.pins ∧ (e.2.tier = 0 ∨ (e.2.tier = 1 ∧ target ≠ 2)))) ||
  (decide (target = 2) && (List.range 8).any fun n => decide (s.gbRetain n * 2 ^ 20 < s.pinnedT1 n))

/-- A hoop is being reset or scrubbed, or a SEAL_LOAD or a live update runs (R556, R584). -/
def State.hoopBusy (s : State) : Bool :=
  ((List.range 16).any fun h => decide ((s.hoop h).phase = .resetting ∨ (s.hoop h).phase = .scrubbing)) ||
  (s.flights.any fun f => decide (f.cmd.opcode = 10)) || decide (2 ≤ fld (s.reg R.FW_STATUS) 4 3)

/-- RESULT with which a request is refused; 0 when it is accepted (R556, R579). [DEDUCED, log entry 75] -/
def State.requestCheck (s : State) (target : Nat) : Nat :=
  if s.pm.mode = .entering then 1
  else if target ≠ 2 ∧ target ≠ 3 ∧ target ≠ 6 then 2
  else if s.hoopBusy then 6
  else if s.pinnedOnChip target then 3
  else if 16 < (List.range 8).foldl (fun a n => a + s.gbRetain n) 0 then 4
  else 0

/-- The kills of R557: queues pre-empted and marked, ARM and walker moves, evictions, restores and spills, memory jobs and
frames in progress. From here on the island keeps its records (R558). [DEDUCED, log entry 108] -/
def State.pmKill (s : State) : State :=
  let qs := (s.cqs.filter fun e => decide (e.2.mode = .running)).map (·.1)
  let s := qs.foldl (fun (s : State) k =>
    let s := s.killQueue (k / 64) (k % 64)
    s.setCq (k / 64) (k % 64) { s.cq (k / 64) (k % 64) with mode := .preempted }) s
  let s := s.killWhere fun _ => true
  let s := s.moves.foldl (fun (s : State) m => s.dropMove m.id) s
  let s := { s with walks := [], ctxs := s.ctxs.map fun (e : Nat × Ctx) => (e.1, { e.2 with restoring := false, spilling := false }) }
  let s := ((List.range 16).filter fun n => present s.part .pipeline n).foldl (fun (s : State) n => pipeStop n s) s
  s.setPm fun p => { p with marked := p.marked ++ qs, killed := true, computeUp := false, draining := false }

/-- A request that is accepted (R556): ENTERING, and under KILL the kill point at once. [DEDUCED, log entry 75] -/
def State.pmAccept (s : State) (target : Nat) (work : Bool) : State :=
  let s := s.setReg R.PM_REQ_RESULT 0
  let s := s.setPm fun p => { p with
    mode := .entering, target := target, draining := work, killed := false, pme := false, reqAt := s.now, wakes := [],
    exitFrom := if p.mode = .doze ∨ (p.mode = .exiting ∧ p.exitFrom = .doze) then .doze else .active }
  if work then s else s.pmKill.settled

/-- PM_STATE_REQ with GO (R556), which a page that is not ON does not accept (R103). The host has a link to the register in ACTIVE, IDLE, ENTERING and DOZE, and on the way out of
DOZE. [DEDUCED, log entry 75] -/
def doStateRequest (f target : Nat) (work : Bool) (s : State) : State :=
  if !s.domainOn .ioMain then s
  else s.command f R.PM_STATE_REQ fun s =>
    let s := (s.setRegFld R.PM_STATE_REQ 0 3 target).setRegFld R.PM_STATE_REQ 4 1 (b2n work)
    if target = 0 then s.wake 10
    else
      let r := s.requestCheck target
      if r = 0 then s.pmAccept target work else s.pmResult r

/-- DRAIN_COMPLETE: every begun command has committed or ended (R557). -/
def doDrainComplete (s : State) : State := if s.pm.mode = .entering ∧ s.pm.draining ∧ s.flights = [] then s.pmKill.settled else s

/-- DRAIN_TIMEOUT (R557). -/
def doDrainTimeout (s : State) : State :=
  if s.pm.mode = .entering ∧ s.pm.draining ∧ s.pm.reqAt + (s.force R.DRAIN_TIMEOUT_MS).toNat * 1000000 ≤ s.now then s.pmBack 5 else s

/-- PME_TURN_OFF arrives (R570). -/
def doPmeTurnOff (s : State) : State := if s.pm.mode = .entering then s.setPm fun p => { p with pme := true } else s

/-- PME_TIMEOUT: 1 s after GO without PME_Turn_Off, an entry to LISTEN or OFF is refused (R570). -/
def doPmeTimeout (s : State) : State :=
  if s.pm.mode = .entering ∧ s.pm.target ≠ 2 ∧ s.pm.pme = false ∧ s.pm.reqAt + 1000000000 ≤ s.now then (s.pmBack 8).settled else s

/-! ## The entry (R558 to R560) -/

/-- An eviction at entry, which bypasses every regulator and every candidate rule except pinning (R559). -/
def State.pmEvict (s : State) (k tier loc : Nat) : State :=
  let o := s.obj k
  let s := if tier = 2 then s.dramTraffic true loc [(0, o.bytes)] else s
  ((((s.setObj k { o with tier := tier, loc := loc }).addReg (R.EVICT_COUNT o.tier) 1).addPieces (R.EVICT_KIB o.tier) 1024 o.bytes).addReg (R.EVICTED_COUNT (oHoop k)) 1)

/-- Objects homed in a tier, by key. -/
def State.homedTier (s : State) (tier : Nat) : List Nat := (s.objs.filter fun e => e.2.used && e.2.homed && decide (e.2.tier = tier)).map (·.1)

/-- The order in which ground-buffer objects are placed in retained units (R559): pinned first, then descending age stamp. -/
def State.keepsBefore (s : State) (a b : Nat) : Bool :=
  let pa := decide (0 < (s.obj a).pins)
  let pb := decide (0 < (s.obj b).pins)
  if pa ≠ pb then pa else if (s.obj a).age ≠ (s.obj b).age then decide ((s.obj b).age < (s.obj a).age) else decide (a ≤ b)

/-- Place the objects of one cluster, best first, in `room` bytes of retained units; what does not fit goes to T2. [DEDUCED, log entry 77] -/
def State.keepT1 (s : State) : Nat → List Nat → State
  | _, [] => s
  | room, k :: r => if (s.obj k).bytes ≤ room then s.keepT1 (room - (s.obj k).bytes) r else (s.pmEvict k 2 0).keepT1 room r

/-- The evictions of R559. [DEDUCED, log entry 77] -/
def State.entryEvictions (s : State) (target : Nat) : State :=
  let s := (s.homedTier 0).foldl (fun (s : State) k => if target = 2 then s.pmEvict k 1 ((s.obj k).loc / 8) else s.pmEvict k 2 0) s
  let s := if target = 2 then
      (List.range 8).foldl (fun (s : State) n =>
        s.keepT1 (s.gbRetain n * 2 ^ 20) (((s.homedTier 1).filter fun k => decide ((s.obj k).loc = n)).mergeSort s.keepsBefore)) s
    else (s.homedTier 1).foldl (fun (s : State) k => s.pmEvict k 2 0) s
  { s with retiring := s.retiring.filter fun r => decide (2 ≤ r.tier) }

/-- A block of a domain that powers down enters STOPPING (R105, R558); EN stays. [DEDUCED, log entry 76] -/
def State.powerStop (s : State) (b : Blk) (i : Nat) : State :=
  if present s.part b i = false ∨ s.stOf b i = 0 ∨ s.stOf b i = 5 then s
  else
    let s := if b = .link then linkStop i s else if b = .pipeline then pipeStop i s else s
    let s := s.setRegFld (R.BLOCK_STATE (pageOf b i)) 4 1 0
    let s := if s.stOf b i = 3 then s else s.enterState b i 3
    if b = .triggerUnit then s.stopTrigger i else s

/-- Its stop completes: OFF, or FENCED where a fence is pending. [DEDUCED, log entry 76] -/
def State.powerDown (s : State) (b : Blk) (i : Nat) : State := if s.stOf b i = 3 then (s.stopUnitDone b i).stopDone b i else s

/-- Instances of every block that a test selects. -/
def unitsWhere (p : Blk → Bool) : List (Blk × Nat) := (allBlks.filter p).flatMap fun b => (List.range (blkRow b).count).map fun i => (b, i)

/-- Blocks that stop on the way into a state: the compute domain and the pipelines for DOZE, the I/O main domain too for LISTEN
and OFF. -/
def stopsFor (target : Nat) (b : Blk) : Bool :=
  decide ((blkRow b).domain = .compute) || decide (b = .pipeline) || (decide (target ≠ 2) && decide ((blkRow b).domain = .ioMain))

/-- DRAM is off in the sleep that is entered: OFF, or LISTEN with every live stack's mask 0 (R560). -/
def State.dramGoesOff (s : State) (target : Nat) : Bool :=
  decide (target = 6) || (decide (target = 3) && (List.range 6).all fun n => !s.live .dramStack n || decide (fld (s.reg (R.PM_DRAM_RETAIN n)) 0 16 = 0))

/-- The skein controllers become quiescent, with their balances written (R218, R225). [DEDUCED, log entry 53] -/
def State.skeinsDown (s : State) : State :=
  ((List.range 2).filter fun n => present s.part .skein n).foldl (fun (s : State) n =>
    let x := s.sk n
    s.setSk n { x with ready := false, quiescent := true, patrol := false, savedBalance := x.balance, sinceSaved := 0, poweredBase := s.skPowered n, upAt := none }) s

/-- Sessions with every peer are lost (R435). -/
def State.dropSessions (s : State) : State :=
  let s := (List.range 4).foldl (fun (s : State) p =>
    let s := s.endRemote p
    (s.remotes.filter fun r => decide (r.peer = p)).foldl (fun (s : State) r => s.dropAnswer r) s) s
  { s with sessions := [], remotes := [] }.cancelDraws fun f => match f with | .msg _ _ => true | _ => false

/-- The skein controllers start again: each balance is the last one written, 256 MB less after an unorderly loss of power, and never above
the cap (R218). One written at the entry to LISTEN has risen since, for the AON timebase has run (R215). [DEDUCED, log entries 53, 54] -/
def State.skeinsUp (s : State) (lost : Bool) : State :=
  ((List.range 2).filter fun n => present s.part .skein n).foldl (fun (s : State) n =>
    let x := s.sk n
    let b := if x.quiescent then x.balance else min (s.budgetCap n : Int) (x.savedBalance - (if lost then 256000000 else 0))
    s.setSk n { x with balance := b, savedBalance := b, sinceSaved := 0, frac := 0, ready := true, quiescent := false, patrol := false, upAt := some s.now, poweredBase := s.skPowered n }) s

/-! ## Warm and cold reset (R572, R573) -/

/-- The registers and state of the compute and I/O main domains return to reset values; what counts since cold reset stays, KNOT_TOUCHED
(R405) too. -/
def State.clearDomains (s : State) : State :=
  let kept := fun (a : Nat) => match blkAt a with
    | some (b, _, off) => decide ((blkRow b).domain = .aon) || countsOn b off
    | none => true
  let touched := bit (s.reg R.DEV_STATUS) 1
  let s : State := { s with
    regs := s.regs.filter (fun e => kept e.1), faults := s.faults.filter (fun e => kept (e.1 / 32 * 0x1000)), partials := s.partials.filter (fun e => kept e.1), latch := s.latch.filter (fun e => kept e.1),
    rules := [], tus := [], pendFires := [], pricks := [], cqs := [], eqs := [], msiSent := [], allocs := [], retiring := [], moves := [],
    flights := [], waits := [], walks := [], ctxs := [], knots := [], heldKnots := [], chkOpen := [], kdbg := [], entered := s.entered.filter (fun e => kept e.1), turns := [], turnsOf := [], buckets := [], freeRefused := [], camCtls := [],
    links := [], sessions := [], remotes := [], rotations := [], fatal := [], zeroOwed := [], pipes := [], gone := [] }
  if touched then s.orReg R.DEV_STATUS 2 else s

/-- Every hoop is reset as R151 gives, scrubbing included. -/
def State.resetHoops (s : State) : State := (List.range 16).foldl (fun (s : State) h => s.resetWhole h false) s

/-- A reset ends an update: a trial reverts to slot A, an activation leaves the old image running (R583). [DEDUCED, log entry 80] -/
def State.endUpdate (s : State) : State :=
  let ph := fld (s.reg R.FW_STATUS) 4 3
  if ph = 3 then (s.setRegFld R.FW_STATUS 4 3 0).setRegFld R.FW_STATUS 8 1 1
  else if ph = 2 then (s.setRegFld R.FW_STATUS 4 3 1).setReg R.SVC_RESULT (w32 (1 + 16 * 6))
  else s

/-- A warm reset with its cause (R572, R573): a request in progress is aborted, and boot follows. [DEDUCED, log entries 54, 80] -/
def State.warmReset (s : State) (cause : Nat) : State :=
  if s.pm.mode = .off then s
  else
    let s := if s.pm.mode = .entering then s.pmResult 7 else s
    let s := s.resetHoops
    let s := s.clearDomains
    let s := s.endUpdate
    let s := s.skeinsUp (decide (cause = 8))
    let s := ((List.range 2).filter fun n => present s.part .skein n).foldl (fun (s : State) n => s.setSk n { s.sk n with ready := false }) s
    let s := { s with vfEnable := false, numVfs := 0, rot := { s.rot with session := 0, answer := .none, ide := [] } }
    let s := s.setPm fun p => { p with
      mode := .boot, target := 0, draining := false, killed := false, pme := false, wakes := [], computeUp := false, saved := false, dramOff := false,
      marked := [], scaleDown := 0, perst := false, wakeN := false }
    s.setReg R.RESET_CAUSE (w32 cause)

/-- A cold reset with its cause (R572, R573): what the part, its fuses, the SLC region and the catalogue hold stays. Power is
lost in an orderly way only from LISTEN and OFF, and before a boot completes nothing is there to lose (R218). [DEDUCED, log entry 54] -/
def State.coldReset (s : State) (cause : Nat) : State :=
  let unorderly := decide (s.pm.mode ≠ .off ∧ s.pm.mode ≠ .listen ∧ s.pm.mode ≠ .boot)
  let keep := fun (n : Nat) =>
    let x := mget Skein.dflt s.skeins n
    let b := min (s.budgetCap n : Int) (x.savedBalance - (if unorderly then 256000000 else 0))
    { x with balance := b, savedBalance := b, frac := 0, balAt := 0, sinceSaved := 0, ready := false, quiescent := false, patrol := false, recent := [],
             temp := 0, poweredBase := s.skPowered n, upAt := some 0 }
  { State.reset with
    part := s.part, pending := s.pending, freeCtr := s.freeCtr, catalogue := s.catalogue,
    skeins := (List.range 2).foldl (fun m n => if present s.part .skein n then mset Skein.dflt m n (keep n) else m) [],
    regs := mset 0 (s.regs.filter fun e => match blkAt e.1 with | some (.skein, _, off) => decide (off = 0x120 ∨ off = 0x124) | _ => false) R.RESET_CAUSE (w32 cause),
    rot := { RoT.dflt with coKey := s.rot.coKey, sealCert := s.rot.sealCert, fuse := s.rot.fuse, slots := s.rot.slots, mirror := s.rot.mirror } }

/-- PM_RESET_WARM: PM_RESET.WARM written (R572). -/
def doPmResetWarm (f : Nat) (v : W32) (s : State) : State := s.reach f R.PM_RESET fun s => if bit v 0 then s.warmReset 7 else s

/-- COLD_RESET: 0 power-on, 1 PORST_N, 2 a brown-out, 3 an exit from OFF. A thermal trip ends only at PORST_N, or with VDD_AON
(R553, R573). -/
def doColdReset (why : Nat) (s : State) : State :=
  if why = 1 then s.coldReset (if s.pm.tripped then 4 else 2)
  else if why = 0 then s.coldReset 1
  else if why = 2 then s.coldReset 5
  else if s.pm.mode = .off ∧ s.pm.tripped = false ∧ s.pm.clockStopped = false then s.coldReset 3 else s

/-- WARM_RESET: WARM_RST_N (R572). -/
def doWarmReset (s : State) : State := s.warmReset 6

/-- Power has gone in an unorderly way: 256 MB of each stack's saved balance are lost (R218). -/
def State.powerLost (s : State) : State :=
  if s.pm.mode = .off ∨ s.pm.mode = .listen ∨ s.pm.mode = .boot then s
  else ((List.range 2).filter fun n => present s.part .skein n).foldl (fun (s : State) n =>
    let x := s.sk n
    s.setSk n { x with savedBalance := x.savedBalance - 256000000, ready := false, poweredBase := s.skPowered n, upAt := none }) s

/-- OFF is reached: the island stops, and what it held is lost (R470, R554). -/
def State.enterOff (s : State) : State :=
  ({ s with island := Island.dflt }).setPm fun p => { p with mode := .off, target := 0, draining := false, killed := false, pme := false, computeUp := false, wakes := [], dramOff := true }

/-- THERMAL_TRIP (R553). -/
def doThermalTrip (s : State) : State :=
  if s.pm.mode = .off then s
  else (((s.powerLost.enterOff).setPm fun p => { p with tripped := true, alert := true })).setReg R.RESET_CAUSE 4

/-- SYSCLK_STOP: every enable falls and every domain is held in reset (R614). -/
def doSysclkStop (s : State) : State := (s.powerLost.enterOff).setPm fun p => { p with clockStopped := true }

/-- A command of the device that may end in OFF, where no source is received (R36). -/
def runOff (f : State → State) (s : State) : Out :=
  runTime (fun s => if (f s).pm.mode = .off ∧ s.pm.mode ≠ .off then (dev f s).tsAsleep false true else dev f s) s

/-- SYSCLK_RETURN: a cold reset with cause BROWNOUT (R614); after a thermal trip only PORST_N ends OFF (R553). -/
def doSysclkReturn (s : State) : State :=
  if s.pm.clockStopped = false then s else if s.pm.tripped then s.setPm fun p => { p with clockStopped := false } else s.coldReset 5

/-- AUDCLK_STOP: while a ring channel has a PDM source, every PDM line is taken as STUCK (R614). -/
def doAudclkStop (s : State) : State :=
  if (List.range 16).any fun c => decide (fld (s.reg (R.RCH c)) 0 2 = 1) then (List.range 16).foldl (fun (s : State) l => doPdmLineStuck l s) s else s

/-- Is the supply that a power-good reports powered (R548, R554)? 0 CORE, 1 SRAM, 2 IO, 3 HBM, 4 FLASH. -/
def State.supplyOn (s : State) (pg : Nat) : Bool :=
  if pg = 0 then s.domainOn .compute
  else if pg = 1 then s.domainOn .compute || (decide (s.pm.mode = .doze) && decide (s.reg R.PM_GB_RETAIN ≠ 0))
  else if pg = 3 then decide (s.pm.mode ≠ .off) && !(decide (s.pm.mode = .listen) && s.pm.dramOff)
  else s.domainOn .ioMain

/-- POWER_GOOD_TIMEOUT while enables rise, and POWER_GOOD_LOST while a supply is powered: a warm reset (R548). -/
def doPowerGoodTimeout (s : State) : State := if s.pm.mode = .boot ∨ s.pm.mode = .exiting then s.warmReset 8 else s
def doPowerGoodLost (pg : Nat) (s : State) : State := if s.supplyOn pg then s.warmReset 8 else s

/-! ## Boot (R574, R524) -/

/-- An image is written to its slot, on stack 0 and on the mirror of stack 1 where present (R226, R582, R583). [DEDUCED, log entry 104] -/
def State.setSlot (s : State) (c : Nat) (i : FwImage) : State :=
  let k := c * 4 + i.slot
  { s with rot := { s.rot with
      slots := mset none s.rot.slots k (some i)
      mirror := if present s.part .skein 1 then mset none s.rot.mirror k (some i) else s.rot.mirror } }

/-- An accepted image runs: its measurement is the controller's (R524). -/
def State.runImage (s : State) (c : Nat) (i : FwImage) : State :=
  { s with rot := { s.rot with running := mset none s.rot.running c (some i) } }

/-- Is an image's SVN at least the fused one for its controller (R524)? [DEDUCED, log entry 104] -/
def State.svnOk (s : State) (c svn : Nat) : Bool := decide ((if c ≤ 1 then fld s.rot.fuse 8 8 else fld s.rot.fuse 16 8) ≤ svn)

/-- The power-up of the root of trust: it is OPERATIONAL, with new memory keys (R518, R541). -/
def State.rotUp (s : State) : State :=
  if s.rot.mode ≠ .selfTest then s
  else (List.range 17).foldl (fun (s : State) k => s.newMemKey k) { s with rot := { s.rot with mode := .operational } }

/-- The image that a controller runs out of those that verify: the one in the first slot, and the recovery device's only when
no slot's verifies or, for the root of trust, when the BOOT_RECOVERY strap is high (R524, R576). [DEDUCED, log entry 104] -/
def bootImage (recovery : Bool) (ok : List (Nat × FwImage)) (c : Nat) : Option (Nat × FwImage) :=
  let rank := fun (e : Nat × FwImage) => if e.2.slot = 2 ∧ recovery = true ∧ c = 1 then 0 else e.2.slot + 1
  (ok.filter fun e => decide (e.1 = c)).foldl (fun (best : Option (Nat × FwImage)) e =>
    match best with
    | none => some e
    | some b => if rank e < rank b then some e else some b) none

/-- The images whose SVN the fuses accept (R524). -/
def State.bootImages (s : State) (images : List (Nat × FwImage)) : List (Nat × FwImage) := images.filter fun e => s.svnOk e.1 e.2.svn

/-- Does boot go on? Without a root-of-trust image the device stays in reset (R524). -/
def State.boots (s : State) (images : List (Nat × FwImage)) : Bool := decide (s.pm.mode = .boot) && (s.bootImages images).any fun e => decide (e.1 = 1)

/-- Boot up to the release of the domains' resets (R524, R574): every ALWAYS_ON block enters STARTING (R95). The island or a skein
controller without an image goes to FENCED with cause 4. [DEDUCED, log entries 76, 104] -/
def State.bootStart (s : State) (images : List (Nat × FwImage)) : State :=
  let ok := s.bootImages images
  let s := { s with rot := { s.rot with running := [] } }
  let s := ok.foldl (fun (s : State) e => { s with rot := { s.rot with slots := mset none s.rot.slots (e.1 * 4 + e.2.slot) (some e.2) } }) s
  let s := ((List.range 7).filterMap (bootImage (bit s.part.straps 2) ok)).foldl (fun (s : State) e => s.runImage e.1 e.2) s
  let has := fun (c : Nat) => ok.any fun e => decide (e.1 = c)
  let s := s.rotUp
  let s := (unitsWhere fun b => (blkRow b).alwaysOn).foldl (fun (s : State) (e : Blk × Nat) =>
    if present s.part e.1 e.2 = false ∨ s.stOf e.1 e.2 ≠ 0 then s
    else s.enterState e.1 e.2 1) s
  if has 3 then s else s.failImage .island 0

/-- The starts complete, those without an image fail, and BOOT_DONE is set (R524, R574). [DEDUCED, log entry 76] -/
def State.bootEnd (s : State) : State :=
  let s := s.setPm fun p => { p with mode := .active, exitFrom := .active, activeAt := s.now }
  let imageless := fun (c : Nat) => decide (mget none s.rot.running c = none)
  let s := (unitsWhere fun b => (blkRow b).alwaysOn).foldl (fun (s : State) (e : Blk × Nat) =>
    if e.1 = .skein ∧ imageless (4 + e.2) = true then s.failImageEnd e.1 e.2 else s.startDone e.1 e.2) s
  let s := if imageless 3 then s.failImageEnd .island 0 else s
  let s := (s.skeinsUp false).orReg R.DEV_STATUS 4
  ((s.computeIsUp.matchHoops).startMoves).settled

/-- BOOT_COMPLETE: `images` are the images that verify, each with its controller; the starts take `dt` ns, and never none (R574, R621).
[DEDUCED, log entries 76, 104] -/
def doBootComplete (images : List (Nat × FwImage)) (dt : Nat) (s : State) : State :=
  if s.boots images then dev State.bootEnd ((dev (fun s => s.bootStart images) s).tsAwake.advance (max 1 dt)) else s

/-! ## Wakes and exits (R563 to R569) -/

/-- A WAKE_IN pin is asserted as POL gives it. [DEDUCED, log entry 78] -/
def State.wakeInAsserted (s : State) (pin : Nat) : Bool := bit (s.reg R.PM_WAKE_STATUS) pin ^^ bit (s.reg R.PM_WAKE_CTRL) (12 + pin)

/-- Level sources that stand asserted: the island, and level wakes that are enabled and not STUCK (R566, R567). -/
def State.assertedWakes (s : State) : List Nat :=
  (if s.island.wakeHeld then [1] else []) ++
  ((List.range 4).filter fun i => s.wakeInAsserted i && bit (s.reg R.PM_WAKE_CTRL) (4 + i) && bit (s.reg R.PM_WAKE_CTRL) (8 + i) && !bit (s.reg R.PM_WAKE_STATUS) (4 + i)).map (· + 2)

/-- Targets still to come of the WAKE entries of the enabled engines (R75, R77). -/
def State.wakeTargets (s : State) : List Nat :=
  s.pricks.flatMap fun e =>
    let h := e.1 / 4
    let n := e.1 % 4
    let lead := (s.reg (R.WAKE_LEAD h)).toNat
    if bit (s.reg (R.PRICK_CTRL h n)) 0 = false ∨ e.2.done = true then []
    else (List.range e.2.entries.length).filterMap fun i =>
      if prWake (e.2.entries.getD i 0) = false then none
      else if e.2.entry ≤ i then some (s.prickTarget h n e.2.lap i - lead)
      else if (s.reg (R.PRICK_PERIOD h n)).toNat ≠ 0 then some (s.prickTarget h n (e.2.lap + 1) i - lead)
      else none

/-- PRICKING_WAKE (R77). -/
def doPrickingWake (s : State) : State := if s.wakeTargets.any fun t => decide (t ≤ s.count) then s.wake 6 else s

/-- Is the position past the lead of some WAKE entry? Such a wake stands asserted (R566). -/
def State.entryWakes (s : State) : List Nat := s.assertedWakes ++ (if s.wakeTargets.any fun t => decide (t ≤ s.count) then [6] else [])

/-- ENTRY_COMPLETE: objects evicted, starts completed, blocks stopped, which takes `dt` ns and never none (R621), DRAM and the skein controllers settled, the
enables fall (R558 to R560). A wake that was latched, or that stands asserted, starts the exit at once (R568, R569). [DEDUCED, log entry 76] -/
def doEntryComplete (dt : Nat) (s : State) : State :=
  if s.pm.mode ≠ .entering ∨ s.pm.killed = false ∨ (s.pm.target ≠ 2 ∧ s.pm.pme = false) then s
  else
    let t := s.pm.target
    let s := s.entryEvictions t
    let s := { s with ctxs := s.ctxs.map fun (e : Nat × Ctx) => (e.1, { e.2 with inActive := false }) }
    let starting := (unitsWhere (stopsFor t)).filter fun e => decide (s.stOf e.1 e.2 = 1)
    let s := if starting = [] then s else starting.foldl (fun (s : State) (e : Blk × Nat) => (s.zeroStart e.1 e.2).startDone e.1 e.2) (s.advance 1)
    let s := (unitsWhere (stopsFor t)).foldl (fun (s : State) (e : Blk × Nat) => s.powerStop e.1 e.2) s
    let s := s.advance (max 1 dt)
    let s := (unitsWhere (stopsFor t)).foldl (fun (s : State) (e : Blk × Nat) => s.powerDown e.1 e.2) s
    let s := if t = 2 then s else s.dropSessions.skeinsDown
    let off := s.dramGoesOff t
    let s := (s.setReg R.PM_ENTRY_US (w32 ((s.now - s.pm.reqAt) / 1000))).pmResult 0
    let latched := s.pm.wakes
    if t = 6 then
      let s := (s.tsAsleep false true).enterOff
      if latched = [] then s else s.coldReset 3
    else
      let s := s.tsAsleep (decide (t = 3)) false
      let s := s.setPm fun p => { p with mode := if t = 2 then .doze else .listen, target := 0, saved := !off, dramOff := off, wakes := [], pme := false }
      (latched ++ s.entryWakes).foldl (fun (s : State) w => s.wake w) s

/-- Tiles of T2 objects that no kept segment holds (R560, R561), by stack: `room` tiles are left on the stack, and the objects
come in the order of R560. [DEDUCED, log entry 77] -/
def State.lostTiles (s : State) (st : Nat) : Nat → List Nat → List (Nat × Nat)
  | _, [] => []
  | room, k :: r =>
    let m := s.maskStacks 2 (s.obj k).loc
    let mine := (List.range (s.obj k).ntiles).filter fun i => decide (m.getD (i % max 1 m.length) 6 = st)
    ((mine.drop room).map fun i => (k, i)) ++ s.lostTiles st (room - mine.length) r

/-- The order of R560: pinned objects by hoop and INDEX, then the others by descending age stamp. [DEDUCED, log entry 77] -/
def State.retainBefore (s : State) (a b : Nat) : Bool :=
  let pa := decide (0 < (s.obj a).pins)
  let pb := decide (0 < (s.obj b).pins)
  if pa ≠ pb then pa
  else if pa = false ∧ (s.obj a).age ≠ (s.obj b).age then decide ((s.obj b).age < (s.obj a).age)
  else decide (a ≤ b)

/-- Bytes that the held-back area, the object tables and the check planes take (R560). [DEDUCED, log entry 77] -/
def State.heldBack (s : State) : Nat :=
  1536 * 2 ^ 20 + (List.range 16).foldl (fun a h => a + s.otEntries h * 64) 0 + s.objs.foldl (fun a e => if e.2.used && e.2.homed then a + e.2.planeBytes else a) 0

/-- Segments of a live stack that are kept: its mask, with segment 0 (R560). -/
def State.keptSegs (s : State) (n : Nat) : Nat :=
  let m := s.reg (R.PM_DRAM_RETAIN n)
  1 + ((List.range 15).filter fun i => bit m (i + 1)).length

/-- The T2 tiles that were not kept in LISTEN are POISONED, each counted (R561). -/
def State.poisonLost (s : State) : State :=
  let live := (List.range 6).filter fun n => s.live .dramStack n
  let order := (s.homedTier 2).mergeSort s.retainBefore
  let lost := live.flatMap fun n => s.lostTiles n ((s.keptSegs n * 1536 * 2 ^ 20 - ceilDiv s.heldBack live.length) / 4096) order
  (lost.foldl (fun (s : State) (e : Nat × Nat) => s.poison e.1 e.2) s).addReg R.PM_LOST_TILES lost.length

/-- A block whose domain powers up with its pages saved enters STARTING if EN is 1 (R564). [DEDUCED, log entry 76] -/
def State.powerUp (s : State) (b : Blk) (i : Nat) : State :=
  if present s.part b i = false ∨ s.stOf b i ≠ 0 ∨ s.en b i = false ∨ (b = .hostIf ∧ (s.hoop i).phase ≠ .ready) then s else s.beginStart b i

/-- The start completes within the exit (R563); a link goes on to train. -/
def State.powerUpDone (s : State) (b : Blk) (i : Nat) : State := if b = .link ∨ s.stOf b i ≠ 1 then s else (s.zeroStart b i).startDone b i

/-- Every hoop's knots read 0 with LOST set (R403, R562). -/
def State.knotsLost (s : State) : State := (List.range 16).foldl (fun (s : State) h => s.orReg (R.KN_STATUS h) 2) s

/-- The domains' resets are released: blocks start from their saved pages (R561, R562, R564). [DEDUCED, log entry 76] -/
def State.exitStart (s : State) : State :=
  let s := if s.pm.dramOff then s.resetHoops.clearDomains.knotsLost
    else if s.pm.exitFrom = .listen then s.poisonLost else s
  (unitsWhere fun b => decide ((blkRow b).domain ≠ .aon)).foldl (fun (s : State) (e : Blk × Nat) => s.powerUp e.1 e.2) s

/-- EXIT_COMPLETE: the device is ACTIVE (R561 to R565); the starts of its blocks took `dt` ns, and never none (R621). [DEDUCED, log entries 76, 100] -/
def State.exitEnd (s : State) : State :=
    let listen := decide (s.pm.exitFrom = .listen)
    let hostWake := bit (s.reg R.PM_WAKE_CTRL) 1
    let us := (s.now - s.pm.exitAt) / 1000
    let s := s.setPm fun p => { p with
      mode := .active, exitFrom := .active, activeAt := s.now, saved := false, dramOff := false, killed := false, wakes := [], wakeN := listen && hostWake }
    let s := if listen then s.skeinsUp false else s
    let s := (unitsWhere fun b => decide ((blkRow b).domain ≠ .aon)).foldl (fun (s : State) (e : Blk × Nat) => s.powerUpDone e.1 e.2) s
    let s := { s with buckets := (List.range 64).foldl (fun m k =>
      mset Bucket.dflt m k ⟨(s.reg (R.REG_BURST (k % 4) (k / 4))).toNat * 1024, 0, s.now, (mget Bucket.dflt m k).waiting⟩) s.buckets }
    let s := (s.setReg R.PM_EXIT_US (w32 us)).addReg R.PM_WAKE_COUNT 1
    let s := s.orReg R.DEV_STATUS 4
    ((s.computeIsUp.unmark.matchHoops).startMoves).settled
/-- [DEDUCED, log entry 76]. -/
def doExitComplete (dt : Nat) (s : State) : State :=
  if s.pm.mode ≠ .exiting then s else dev State.exitEnd ((dev State.exitStart s).tsAwake.advance (max 1 dt))

/-- WAKE_IN_EVENT: WAKE_IN`pin` has gone to `level` past its filter (R566, R567). [DEDUCED, log entry 78] -/
def doWakeInEvent (pin : Nat) (level : Bool) (s : State) : State :=
  let was := bit (s.reg R.PM_WAKE_STATUS) pin
  let s := s.setRegFld R.PM_WAKE_STATUS pin 1 (b2n level)
  let s := if was = level then s else s.setPm fun p => { p with wakeAt := mset 0 p.wakeAt pin s.now }
  let c := s.reg R.PM_WAKE_CTRL
  let on := s.wakeInAsserted pin
  if s.pm.mode = .off then
    (if on ∧ bit c (16 + pin) ∧ s.pm.tripped = false ∧ s.pm.clockStopped = false then s.coldReset 3 else s)
  else if !on || !bit c (4 + pin) || bit (s.reg R.PM_WAKE_STATUS) (4 + pin) then s
  else if bit c (8 + pin) then s.wake (2 + pin)
  else if was = level then s
  else
    let prev := mget 0 s.pm.wakeEdge pin
    let s := s.setPm fun p => { p with wakeEdge := mset 0 p.wakeEdge pin (s.now + 1) }
    if 0 < prev ∧ s.now + 1 < prev + 1000000 then s.addReg R.WAKE_FAST_COUNT 1 else s.wake (2 + pin)

/-- WAKE_STUCK: a level wake held asserted for STUCK × 100 ms while the device is ACTIVE (R567). [DEDUCED, log entry 78] -/
def doWakeStuck (pin : Nat) (s : State) : State :=
  if (s.pm.mode = .active ∨ s.pm.mode = .idle) ∧ max (mget 0 s.pm.wakeAt pin) s.pm.activeAt + fld (s.reg R.PM_WAKE_CTRL) 24 8 * 100000000 ≤ s.now ∧ s.wakeInAsserted pin ∧ bit (s.reg R.PM_WAKE_CTRL) (8 + pin) ∧ bit (s.reg R.PM_WAKE_STATUS) (4 + pin) = false then
    (s.setRegFld R.PM_WAKE_STATUS (4 + pin) 1 1).addReg R.WAKE_STUCK_COUNT 1
  else s

/-- WAKE_STUCK_CLEAR: the pin has been deasserted for 20 ms (R567). -/
def doWakeStuckClear (pin : Nat) (s : State) : State := if s.wakeInAsserted pin ∨ s.now < mget 0 s.pm.wakeAt pin + 20000000 then s else s.setRegFld R.PM_WAKE_STATUS (4 + pin) 1 0

/-- IDLE_ENTRY: no step runs or is able to start, and no range runs (R555). -/
def doIdleEntry (s : State) : State :=
  if s.pm.mode = .active ∧ (s.flights.all fun f => f.streams.all fun t => !t.running) ∧
      (s.moves.all fun m => m.ranges.all fun r => r.done || r.shuttle.isNone) ∧ ((List.range 8).all fun n => (List.range 16).all fun h => !s.hoopAble n h) then s.setPm fun p => { p with mode := .idle } else s

/-! ## Meanings -/

def execPrickingWake (s : State) : Out := run doPrickingWake s
def execStateRequestActive (f : Fin 16) (work : Bool) (s : State) : Out := run (doStateRequest f 0 work) s
def execStateRequestDoze (f : Fin 16) (work : Bool) (s : State) : Out := run (doStateRequest f 2 work) s
def execStateRequestListen (f : Fin 16) (work : Bool) (s : State) : Out := run (doStateRequest f 3 work) s
def execStateRequestOff (f : Fin 16) (work : Bool) (s : State) : Out := run (doStateRequest f 6 work) s
def execDrainComplete (s : State) : Out := run doDrainComplete s
def execDrainTimeout (s : State) : Out := run doDrainTimeout s
def execPmeTurnOff (s : State) : Out := run doPmeTurnOff s
def execPmeTimeout (s : State) : Out := run doPmeTimeout s
def execEntryComplete (dt : W32) (s : State) : Out := runTime (doEntryComplete dt.toNat) s
def execWakeInEvent (pin : Fin 4) (level : Bool) (s : State) : Out := runTime (doWakeInEvent pin level) s
def execWakeStuck (pin : Fin 4) (s : State) : Out := run (doWakeStuck pin) s
def execPowerGoodTimeout (s : State) : Out := run doPowerGoodTimeout s
def execPowerGoodLost (pg : Fin 5) (s : State) : Out := run (doPowerGoodLost pg) s
def execExitComplete (dt : W32) (s : State) : Out := runTime (doExitComplete dt.toNat) s
def execIdleEntry (s : State) : Out := run doIdleEntry s
def execPowerMeasure (mw : W32) (s : State) : Out := run (doPowerMeasure mw.toNat) s
def execThermalStep (cl dr sk : List Byte) (s : State) : Out :=
  runIf (decide (cl.length = 8 ∧ dr.length = 6 ∧ sk.length = 2)) (doThermalStep (cl.map (·.toInt)) (dr.map (·.toInt)) (sk.map (·.toInt))) s
def execThermalTrip (s : State) : Out := runOff doThermalTrip s
def execPlTargetWrite (f : Fin 16) (n : Fin 8) (v : W32) (s : State) : Out := run (doPlTargetWrite f n v) s
def execLevelChangeDone (n : Fin 8) (s : State) : Out := run (doLevelChangeDone n) s
def execPmMemLevelWrite (f : Fin 16) (v : W32) (s : State) : Out := run (doPmMemLevelWrite f v) s
def execMemLevelChangeDone (s : State) : Out := run doMemLevelChangeDone s
def execPmResetWarm (f : Fin 16) (v : W32) (s : State) : Out := run (doPmResetWarm f v) s
def execColdReset (why : Fin 4) (s : State) : Out := runTime (doColdReset why) s
def execWarmReset (s : State) : Out := run doWarmReset s
def execBootComplete (images : List (Fin 7 × Fin 4 × Byte × W64 × BitVec 384)) (dt : W32) (s : State) : Out :=
  runTime (doBootComplete (images.map fun (e : Fin 7 × Fin 4 × Byte × W64 × BitVec 384) => (e.1.val, ⟨e.2.1.val, e.2.2.1.toNat, e.2.2.2.1.toNat, e.2.2.2.2⟩)) dt.toNat) s
def execSysclkStop (s : State) : Out := runOff doSysclkStop s
def execSysclkReturn (s : State) : Out := runTime doSysclkReturn s
def execAudclkStop (s : State) : Out := run doAudclkStop s
def execWakeStuckClear (pin : Fin 4) (s : State) : Out := run (doWakeStuckClear pin) s

end Sys2Proof.Machine
end

