-- ==== Sys2Proof/Machine/Flags.lean ====
section
/-! DEFINITION. The status, flag and count registers that the device computes, and what a read of any register returns: the
fields of R31, R51, R96, R119, R157, R158, R199 to R202, R221, R228, R229, R253, R254, R289, R290, R392, R421 to R424, R446,
R475 to R481, R508 to R512, R544, R578 and R597 to R601. -/

namespace Sys2Proof.Machine

/-- A reading that the manual leaves open: 0 at reset, and then a free value for this register at this moment, until a read clears it.
[DESIGN CHOICE, log entry 4] -/
def State.openReading (s : State) (a : Nat) : Nat := if s.now = 0 then 0 else (Config.free32 ((s.freeCtr * 2 ^ 64 + s.now) * 2 ^ 27 + a)).toNat

/-- A signed value in the low eight bits. -/
def sByte (t : Int) : Nat := signedSat 8 t

/-- A count in bytes as MiB or KiB, rounded up, in 32 bits. -/
def sat32 (n : Nat) : Nat := min n (2 ^ 32 - 1)

/-! ## Time and hoops -/

def TsMode.code : TsMode → Nat
  | .free => 0 | .acquiring => 1 | .locked => 2 | .holdover => 3 | .slewing => 4 | .host => 5

/-- TS_STATUS (R31, R51). -/
def State.tsStatus (s : State) : Nat :=
  s.ts.mode.code + s.ts.holdCause % 4 * 2 ^ 4 + b2n s.ts.everLocked * 2 ^ 8 + b2n s.ts.loadPending * 2 ^ 9 + b2n s.ts.loadRefused * 2 ^ 10 +
  b2n s.ts.aonTimebase * 2 ^ 11 + b2n s.ts.srcRefused * 2 ^ 12

/-- HOOP_TABLE[h] (R119): RESET reads 1 while the hoop is RESETTING. -/
def State.hoopTable (s : State) (h : Nat) : Nat :=
  (if h = 0 then 1 else fld (s.reg (R.HOOP_TABLE h)) 0 1) + 2 * b2n (decide ((s.hoop h).phase = .resetting)) +
    (s.hoop h).phase.code * 2 ^ 4 + b2n (s.hoopSealed h) * 2 ^ 8

/-- DEV_STATUS (R91). -/
def State.devStatus (s : State) : Nat := (setBit (s.reg R.DEV_STATUS) 0 s.debugLock).toNat

/-- CQ_STATUS.STATE (R157). -/
def State.cqState (s : State) (h q : Nat) : Nat :=
  let x := s.cq h q
  match x.mode with
  | .disabled => 0
  | .halted => 6
  | .stopping => 7
  | .preempted => 8
  | .running => match x.head with
    | some c => if c.opcode = 3 then 3 else if c.opcode = 5 then 4 else if c.opcode = 6 then 5 else 2
    | none => if x.read = x.tail then 1 else 2

/-- CQ_STATUS (R157). -/
def State.cqStatus (s : State) (h q : Nat) : Nat :=
  let x := s.cq h q
  s.cqState h q + b2n x.tailRefused * 2 ^ 8 + b2n x.appendFull * 2 ^ 9 + b2n x.cfgRefused * 2 ^ 10

/-- EQ_STATUS (R158). -/
def State.eqStatus (s : State) (h e : Nat) : Nat :=
  let x := s.eq h e
  (if !x.en then 0 else if s.eqFull h e then 2 else 1) + b2n x.armed * 2 ^ 4 + b2n x.cfgRefused * 2 ^ 8 + b2n x.headRefused * 2 ^ 9

def showDev (s : State) (n : String) (j : Nat) : Option Nat :=
  if n = "DEV_PART" then some s.devPart
  else if n = "DEV_LIVE" then some s.devLive
  else if n = "DRAM_LIVE_GIB" then some s.dramLiveGib
  else if n = "SKEIN_LIVE_GIB" then some s.skeinLiveGib
  else if n = "DEV_STATUS" then some s.devStatus
  else if n = "FUSE_FENCE_LO" then some (s.part.fused.toNat % 2 ^ 32)
  else if n = "FUSE_FENCE_HI" then some (s.part.fused.toNat / 2 ^ 32)
  else if n = "FUSE_STATE" then some s.rot.fuse.toNat
  else if n = "HOOP_TABLE" then some (s.hoopTable j)
  else none

/-- [DEDUCED, log entry 9; DESIGN CHOICE, log entry 142]. -/
def showTime (s : State) (n : String) : Option Nat :=
  if n = "TS_STATUS" then some s.tsStatus
  else if n = "STITCH_LO" then some (s.count % 2 ^ 32)
  else if n = "STITCH_HI" then some (s.count / 2 ^ 32)
  else if n = "PHASE" then some s.phase
  else if n = "PERIOD_EST" then some (ratFloor (s.estP * 4))
  else if n = "CORR_LO" then some (signedSat 64 s.ts.corr % 2 ^ 32)
  else if n = "CORR_HI" then some (signedSat 64 s.ts.corr / 2 ^ 32)
  else if n = "TS_SKEW_MON" then some (s.openReading R.TS_SKEW_MON)
  else none

def showHost (s : State) (h : Nat) (n : String) (i j : Nat) : Option Nat :=
  let q := 32 * j + i
  if n = "HOOP_STATUS" then some (s.hoopTable h)
  else if n = "HOOP_SEQ" then some (s.hoop h).seq
  else if n = "STITCH_LO" then some (s.count % 2 ^ 32)
  else if n = "STITCH_HI" then some (s.count / 2 ^ 32)
  else if n = "PHASE" then some s.phase
  else if n = "DBG_CQ_INFLIGHT" then
    some (s.flights.filter fun f => decide (f.cmd.hoop = h ∧ f.cmd.cq = (s.reg (R.DBG_CQ_SEL h)).toNat)).length
  else if n = "CQ_STATUS" then some (s.cqStatus h q)
  else if n = "CQ_READ_POS" then some (s.cq h q).read
  else if n = "CQ_DONE_POS" then some (s.cq h q).done
  else if n = "CQ_TAIL_POS" then some (s.cq h q).tail
  else if n = "EQ_STATUS" then some (s.eqStatus h i)
  else if n = "EQ_TAIL_POS" then some (s.eq h i).tail
  else if n = "EQ_HEAD_POS" then some (s.eq h i).head
  else none

/-- [DEDUCED, log entry 25]. -/
def showDoorbell (s : State) (cq : Bool) (u : Nat) (n : String) : Option Nat :=
  if cq then
    (if n = "CQ_DB_TAIL" then some (s.cq (u / 256) (u % 256)).tail
     else if n = "CQ_DB_DONE" then some (s.cq (u / 256) (u % 256)).done
     else if n = "CQ_DB_STATUS" then some (s.cqStatus (u / 256) (u % 256)) else none)
  else if n = "EQ_DB_TAIL" then some (s.eq (u / 256) (u % 256)).tail
  else if n = "EQ_DB_HEAD" then some (s.eq (u / 256) (u % 256)).head
  else if n = "EQ_DB_ARM" then some (b2n (s.eq (u / 256) (u % 256)).armed)
  else none

/-! ## Rules and prickings (R78, R80) -/

/-- STATE as read: a disabled rule reads IDLE, and so does an island rule whose refractory time has ended (R56). -/
def State.ruleState (s : State) (x : Rule) : Nat :=
  if x.enabled = false ∨ (x.state = 2 ∧ x.island = true ∧ x.refractoryEnd ≤ s.pos) then 0 else x.state

def State.ruleBits (s : State) (r : Nat) : Nat := s.ruleState (s.rule r) + b2n (s.rule r).enabled * 2 ^ 4

def showTrig (s : State) (h : Nat) (n : String) (i : Nat) : Option Nat :=
  let sel := (s.reg (R.RULE_SEL h)).toNat
  let r := s.ruleBase h + sel
  let x := if sel < s.ruleCount h then s.rule r else Rule.dflt
  if n = "RULE_RANGE" then some (s.reg (R.TRIG_PART h)).toNat
  else if n = "RULE_STATE" then some (s.ruleState x + b2n x.enabled * 2 ^ 4 + min x.suppressed 65535 * 2 ^ 16)
  else if n = "RULE_ARM_STAMP_LO" then some (x.armStamp / 65536 % 2 ^ 32)
  else if n = "RULE_ARM_STAMP_HI" then some (x.armStamp / 65536 / 2 ^ 32)
  else if n = "PRICK_STATUS" then
    let p := s.prick h i
    some (b2n p.done + b2n p.refused * 2 + p.entry % 256 * 2 ^ 8 + p.lap % 65536 * 2 ^ 16)
  else none

/-! ## Objects, tiers, shuttles, the commit table (R198 to R202) -/

def showOt (s : State) (h : Nat) (n : String) : Option Nat :=
  let mine := s.objs.filter fun e => decide (oHoop e.1 = h) && e.2.used
  if n = "OT_USED" then some mine.length
  else if n = "OT_CAPACITY" then some (s.otEntries h)
  else if n = "POISONED_TILES" then some (sat32 (mine.foldl (fun a e => a + e.2.countTiles .poisoned) 0))
  else if n = "ALLOC_WAIT_STITCHES" then
    some (sat32 ((s.waits.filter fun w => decide (w.hoop = h)).foldl (fun a w => max a (s.count - w.since)) (s.reg (R.ALLOC_WAIT_STITCHES h)).toNat))
  else if n = "OT_PEEK_STATE" then
    let o := s.obj (oKey h (s.reg (R.OT_PEEK_INDEX h)).toNat)
    some (o.gen % 4096 + b2n (!o.used) * 2 ^ 16)
  else none

/-- Live units of a tier's pool. -/
def State.poolUnits (s : State) (tier : Nat) : List Nat :=
  if tier = 0 then (List.range 64).filter (s.live .core) else if tier = 1 then (List.range 8).filter (s.live .cluster) else [0]

/-- The unit that UNIT_SEL names. -/
def State.unitSel (s : State) (tier : Nat) : Nat := if tier ≤ 1 then (s.reg (R.UNIT_SEL tier)).toNat % (if tier = 0 then 64 else 8) else 0

def showPool (s : State) (t : Nat) (n : String) (h : Nat) : Option Nat :=
  let kib := fun (b : Nat) => some (sat32 (b / 1024))
  if n = "POOL_CAPACITY_KIB" then kib (if t = 4 then (List.range 16).foldl (fun a g => a + s.poolCap 4 g) 0 else s.poolCap t 0)
  else if n = "POOL_FREE_KIB" then
    kib (if t = 4 then (List.range 16).foldl (fun a g => a + s.freeRoom g 4 0) 0 else (s.poolUnits t).foldl (fun a u => a + s.freeRoom 0 t u) 0)
  else if n = "ALLOC_WAITERS" then some (s.waits.filter fun w => decide (w.tier = t)).length
  else if n = "UNIT_FREE_KIB" then kib (s.freeRoom 0 t (s.unitSel t))
  else if n = "USED_KIB" then kib (s.usage h t (s.unitSel t))
  else if n = "PINNED_KIB" then kib (s.pinned h t (s.unitSel t))
  else none

/-- Ranges that a shuttle or codec runs. -/
def State.rangesOn (s : State) (p : Range → Bool) : Nat := s.moves.foldl (fun a m => a + (m.ranges.filter fun r => !r.done && p r).length) 0

/-- Lanes of codec `u` that are busy (R390): all 16 for a range of blocks of 16 sub-streams, else one for each of its blocks, 16 in all.
[DEDUCED, log entry 89] -/
def State.codecLanes (s : State) (u : Nat) : Nat :=
  min 16 (s.moves.foldl (fun a m => m.ranges.foldl (fun a r =>
    if r.done = false ∧ r.codec = some u then a + (if s.moveNsub m = 16 then 16 else r.count) else a) a) 0)

/-- Readings of the pages with few registers: the commit table, shuttles, codecs, the DRAM stacks, trigger units, regulators. -/
def showSmall (s : State) (b : Blk) (u : Nat) (n : String) (i : Nat) : Option Nat :=
  if n = "CT_OCC" then some (min (s.ctOcc i) 65535 + max (min (s.ctOcc i) 65535) (fld (s.reg (R.CT_OCC i)) 16 16) * 2 ^ 16)
  else if n = "SH_STATUS" then
    some (min 255 (s.rangesOn fun r => decide (r.shuttle = some u)) + s.shuttleBytes u / 2 ^ 20 % 2 ^ 24 * 2 ^ 8)
  else if n = "PC_STATUS" then
    let k := s.rangesOn fun r => decide (r.codec = some u)
    some (min 255 k + s.codecLanes u * 2 ^ 8 + s.codecBytes u / 2 ^ 20 % 65536 * 2 ^ 16)
  else if n = "DS_STATUS" then
    some (b2n (s.live .dramStack u) + sByte (mget 25 s.svc.temps (8 + u)) * 2 ^ 8 + 24 * 2 ^ 16)
  else if n = "BACKPRESSURE_CYCLES" then
    some (sat32 ((s.reg (R.BACKPRESSURE_CYCLES u)).toNat + (match (s.tu u).fullAt with | some t => s.now - t | none => 0)))
  else if n = "TU_STATUS" then some (min 511 (s.tu u).inq.length + fld (s.reg (R.TU_STATUS u)) 16 1 * 2 ^ 16)
  else if n = "RULE_PEEK_STATE" ∧ b = .triggerUnit then some (s.ruleBits (s.reg (R.RULE_PEEK_SEL u)).toNat)
  else none

/-! ## The skein store (R221, R228, R229) -/

/-- Tiles of `t` tiles on the stacks of `place` that lie on stack `n` (R205). -/
def tilesOn (place t n : Nat) : Nat := if place = 3 then shareTiles t 2 n else if place = 2 ^ n then t else 0

/-- Bytes on one stack of homes with their check planes, of fresh allocations and of RETIRING ones (R174, R186). -/
def State.skHeld (s : State) (n : Nat) : Nat :=
  s.objs.foldl (fun a e => if e.2.used && e.2.homed && decide (e.2.tier = 3) then a + 4104 * tilesOn e.2.place e.2.ntiles n else a) 0 +
  s.allocs.foldl (fun a x => if x.tier = 3 then a + 4096 * tilesOn x.place (x.bytes / 4096) n else a) 0 +
  s.retiring.foldl (fun a x => if x.tier = 3 then a + 4096 * tilesOn x.place (x.bytes / 4096) n else a) 0

/-- Bytes of preserved extents on one stack, with their check planes (R222). -/
def State.skPreserved (s : State) (n : Nat) : Nat := s.catalogue.foldl (fun a e => a + 4104 * tilesOn e.obj.place e.obj.ntiles n) 0

/-- SK_SHARE (R213): the media time of the last millisecond in 1/256, at 80 GB/s for reads and 4 GB/s for programs (R206). -/
def State.skShare (s : State) (n : Nat) : Nat :=
  let t := ((s.sk n).recent.filter fun e => decide (s.now < e.1 + 1000000)).foldl (fun (a : Nat × Nat × Nat) e => (a.1 + e.2.1, a.2.1 + e.2.2.1, a.2.2 + e.2.2.2)) (0, 0, 0)
  min 255 (t.1 * 256 / 80000000) + min 255 (t.2.1 * 256 / 4000000) * 2 ^ 8 + min 255 (t.2.2 * 256 / 80000000) * 2 ^ 16

/-- Mean and highest cycles of the user-area blocks (R221). [PRESUMED, log entry 52] -/
def State.userCycles (s : State) (n : Nat) : List Nat := ((s.sk n).cycles.filter fun e => decide (e.1 < s.part.skeinBlocks)).map (·.2)
/-- [PRESUMED, log entry 52]. -/
def State.skMean (s : State) (n : Nat) : Nat := (s.userCycles n).foldl (· + ·) 0 / max 1 s.part.skeinBlocks
def State.skMost (s : State) (n : Nat) : Nat := (s.userCycles n).foldl max 0

/-- 30 powered days in ns. -/
def days30 : Nat := 30 * 86400 * 1000000000

/-- Charged and programmed bytes of the trailing 30 powered days (R221). -/
def State.skTrailing (s : State) (n : Nat) : Nat × Nat :=
  ((s.sk n).history.filter fun e => decide (s.skPowered n < e.1 + days30)).foldl (fun a e => (a.1 + e.2.1, a.2 + e.2.2)) (0, 0)

/-- WAF_30D, DAILY_30D_GB, PROJ_REMAIN_TB and PROJ_DAYS (R221). -/
def State.waf30 (s : State) (n : Nat) : Nat :=
  if s.skPowered n < days30 ∨ (s.skTrailing n).1 = 0 then 1352 else (s.skTrailing n).2 * 1024 / (s.skTrailing n).1
def State.daily30 (s : State) (n : Nat) : Nat :=
  (s.skTrailing n).1 * (86400 * 1000000000) / (max 1 (min days30 (s.skPowered n)) * 1000000000)
def State.projRemain (s : State) (n : Nat) : Nat := (3000 - s.skMean n) * (1232 * 2 ^ 30) * 1024 / (max 1 (s.waf30 n)) / 1000000000000
def State.projDays (s : State) (n : Nat) : Nat := if s.daily30 n = 0 then 2 ^ 32 - 1 else sat32 (s.projRemain n * 1000 / s.daily30 n)

/-- Free user capacity of one stack in MiB. -/
def State.skFreeMib (s : State) (n : Nat) : Nat := (s.skUserGib n * 2 ^ 30 - s.skHeld n - s.skPreserved n) / 2 ^ 20

def showSkein (s : State) (u : Nat) (n : String) : Option Nat :=
  let x := s.sk u
  if n = "SK_STATUS" then
    some (b2n x.worn + 2 * b2n x.ready + 4 * b2n x.quiescent + 8 * b2n (!x.urgent.isEmpty) + 16 * b2n x.patrol + sByte x.temp * 2 ^ 8)
  else if n = "SK_USER_GIB" then some (s.skUserGib u)
  else if n = "SK_FREE_MIB" then some (s.skFreeMib u)
  else if n = "SK_PRESERVED_MIB" then some (ceilDiv (s.skPreserved u) (2 ^ 20))
  else if n = "SK_SHARE" then some (s.skShare u)
  else if n = "BUDGET_BALANCE_MB" then some (signedSat 32 (x.balance / 1000000))
  else if n = "LIFE_CHARGED_GB" then some (sat32 (x.lifeCharged / 1000000000))
  else if n = "LIFE_PROGRAMMED_GB" then some (sat32 (x.lifeProgrammed / 1000000000))
  else if n = "CYCLES" then
    some (s.skMean u % 4096 + min 1023 (1000 * s.skMean u / 3000) * 2 ^ 12 + min 1023 (s.skMost u / 16) * 2 ^ 22)
  else if n = "WAF_30D" then some (sat32 (s.waf30 u))
  else if n = "DAILY_30D_GB" then some (sat32 (s.daily30 u))
  else if n = "PROJ_REMAIN_TB" then some (sat32 (s.projRemain u))
  else if n = "PROJ_DAYS" then some (s.projDays u)
  else if n = "SPARE_BLOCKS" then some x.spare
  else if n = "RETIRED_BLOCKS" then some x.retired
  else if n = "CAT_USED" then some s.catalogue.length
  else if n = "SK_FW_VERSION" then some ((match mget none s.rot.running (4 + u) with | some i => i.version | none => 0) % 2 ^ 32)
  else if n = "SK_PEEK_STATE" then
    let b := (s.reg (R.SK_PEEK_BLOCK u)).toNat
    some (min (mget 0 x.reads b / 4) (2 ^ 20 - 1) + min (mget 0 x.cycles b) 4095 * 2 ^ 20)
  else none

/-! ## Contexts (R253, R254) -/

def State.openCtxs (s : State) : List Nat := (s.ctxs.filter fun e => e.2.isOpen).map (·.1)

/-- STATE_KIB of a context: the sizes of its state objects (R232). -/
def State.stateKib (s : State) (i : Nat) : Nat := ceilDiv ((s.ctx i).objs.foldl (fun a k => a + (s.obj k).size) 0) 1024

def showCtxGlobal (s : State) (n : String) : Option Nat :=
  if n = "CM_STATUS" then some (s.activeUsed % 8192 + min 31 (s.ctxs.filter fun e => e.2.restoring).length * 2 ^ 16)
  else if n = "CM_OPEN_COUNT" then some s.openCtxs.length
  else if n = "CM_RESIDENT_COUNT" then some (s.openCtxs.filter s.resident).length
  else if n = "CM_STATE_MAX_KIB" then some (sat32 (s.openCtxs.foldl (fun a i => max a (s.stateKib i)) 0))
  else if n = "CM_PEEK_STATE" then
    let i := (s.reg R.CM_PEEK_INDEX).toNat
    let c := s.ctx i
    some (s.ctxStatus i + c.hoop * 2 ^ 4 + b2n (c.isOpen && s.resident i) * 2 ^ 8 + b2n c.inActive * 2 ^ 9 + b2n (decide (0 < c.pins)) * 2 ^ 10)
  else none

def showCtxHoop (s : State) (h : Nat) (n : String) : Option Nat :=
  let mine := s.openCtxs.filter fun i => decide ((s.ctx i).hoop = h)
  if n = "CTX_OPEN" then some mine.length
  else if n = "CTX_RESIDENT" then some (mine.filter s.resident).length
  else if n = "CTX_PINNED" then some (mine.filter fun i => decide (0 < (s.ctx i).pins)).length
  else if n = "CTX_WAITING" then some (mine.filter fun i => decide (s.ctxStatus i = 2) && !s.resident i).length
  else if n = "CTX_QUOTA_COPY" then some (s.reg (R.CTX_QUOTA h)).toNat
  else none

/-! ## Cores and clusters (R289, R290) -/

/-- The running stream of a core: its command and the stream. -/
def State.runningOn (s : State) (c : Nat) : Option (InFlight × Nat × Stream) :=
  s.flights.findSome? fun f => ((f.streams.zipIdx).find? fun (e : Stream × Nat) => decide (e.1.core = c) && e.1.running).map fun (e : Stream × Nat) => (f, e.2, e.1)

/-- Does the next step of some stream of the core wait for a knot? -/
def State.waitsKnot (s : State) (c : Nat) : Bool :=
  s.flights.any fun f => (f.streams.zipIdx).any fun (e : Stream × Nat) => decide (e.1.core = c) && !e.1.running && !e.1.done &&
    (match f.nextStep e.2 with | some t => decide (stOp t = 3 ∨ stOp t = 0x18 ∨ stOp t = 0x19) && !s.able f e.2 | none => false)

/-- The word at a place of a core's SRAM (R289): what lies there is not stated, so it is a free function of the place and of what the SRAM holds,
objects and scratch; a SRAM that holds nothing reads 0. [DESIGN CHOICE, log entry 4] -/
def State.sramWord (s : State) (c a : Nat) : Nat :=
  let held := (s.objs.filterMap fun e => if e.2.used = true ∧ e.2.homed = true ∧ e.2.tier = 0 ∧ e.2.loc = c then some (e.1, e.2.data) else none) ++
    s.flights.filterMap fun f => if f.cores.contains c then some (2 ^ 40 + f.id, f.scr0.filter fun e => decide (e.1 / 2 ^ 21 = c)) else none
  if held.all fun e => e.2.isEmpty then 0 else (Config.sramWord c a held).toNat

def showCore (s : State) (c : Nat) (n : String) : Option Nat :=
  if n = "CORE_STATUS" then
    let run := s.runningOn c
    some (min 255 ((s.flights.filter fun f => f.cores.contains c).length + s.entriesKept 0 (some c)) + b2n run.isSome * 2 ^ 8 + b2n (run.isNone && s.waitsKnot c) * 2 ^ 9 +
      (if s.stepHeld c then 1 else s.openReading (R.CORE_STATUS c) % 2 * b2n run.isSome) * 2 ^ 10 + mget 0 s.pm.inForce (c / 8) * 2 ^ 12)
  else if n = "CORE_CUR_PATTERN" then some (match s.runningOn c with | some e => e.1.cmd.pattern | none => 0)
  else if n = "CORE_CUR_STEP" then
    some (match s.runningOn c with
      | some e => e.2.2.step % 65536 + (match e.1.nextStep e.2.1 with | some t => stLayer t % 65536 * 2 ^ 16 | none => 0)
      | none => 0)
  else if n = "CORE_RESERVED_KIB" then some (s.coreReserved c / 1024)
  else if n = "SRAM_PEEK_DATA" then some (s.sramWord c (fld (s.reg (R.SRAM_PEEK_ADDR c)) 2 19))
  else none

def showCluster (s : State) (u : Nat) (n : String) : Option Nat :=
  if n = "CL_STATUS" then
    some (mget 0 s.pm.inForce u + s.plTarget u * 2 ^ 4 + b2n (s.thermalLimited u) * 2 ^ 8 + ((List.range 8).filter fun j => s.live .core (8 * u + j)).length * 2 ^ 16)
  else if n = "CL_TEMP" then some (sByte (mget 25 s.svc.temps u))
  else if n = "CL_GB_HELD_KIB" then some (s.clusterHeld u / 1024)
  else none

/-! ## Knots and the scheduler (R421 to R424) -/

def showKnot (s : State) (u : Nat) (n : String) : Option Nat :=
  let sel := s.reg R.KDBG_SEL
  let key := knotKey (fld sel 16 4) (fld sel 0 14)
  let log := s.kdbg[(s.reg R.KDBG_LOG_SEL).toNat]?
  let of := fun (g : KdbgLog → Nat) => some (match log with | some e => g e | none => 0)
  if n = "KN_STATUS" then
    some ((s.reg (R.KN_STATUS u)).toNat % 4 + b2n (mget false s.chkOpen u) * 2 ^ 2 + ((s.heldKnots.filter fun x => decide (x.knot / 16384 = u)).length % 2 ^ 14) * 2 ^ 16)
  else if n = "KDBG_VALUE" then some (s.knot (fld sel 16 4) (fld sel 0 14)).toNat
  else if n = "KDBG_HOLD" then some (match s.heldKnots.find? fun x => decide (x.knot = key) with | some x => 1 + x.cq * 2 ^ 8 | none => 0)
  else if n = "KDBG_LOG_STAMP_LO" then of fun e => e.stamp % 2 ^ 32
  else if n = "KDBG_LOG_STAMP_HI" then of fun e => e.stamp / 2 ^ 32
  else if n = "KDBG_LOG_KNOT" then of fun e => e.index + e.hoop * 2 ^ 16 + b2n e.discarded * 2 ^ 31
  else if n = "KDBG_LOG_OLD" then of fun e => e.old.toNat
  else if n = "KDBG_LOG_NEW" then of fun e => e.new.toNat
  else none

/-- Tokens in KiB, signed, rounded toward −∞ (R424). -/
def State.tokensKib (s : State) (h r : Nat) : Nat := signedSat 32 ((s.bucket h r).tokens / 1024)

def showSched (s : State) (h : Nat) (n : String) (i j : Nat) : Option Nat :=
  let g := s.preHoop h
  if n = "OWN_RATE" then some (s.reg (R.REG_RATE i g)).toNat
  else if n = "OWN_BURST" then some (s.reg (R.REG_BURST i g)).toNat
  else if n = "OWN_WEIGHT" then some (s.reg (R.REG_WEIGHT i g)).toNat
  else if n = "OWN_TOKENS" then some (s.tokensKib g i)
  else if n = "REG_TOKENS" then some (s.tokensKib j i)
  else if n = "OWN_CLUSTERS" then
    let v := fun (k : Nat) => s.reg (R.SCH_CLUSTER k)
    some ((List.range 8).foldl (fun a k =>
      if bit (v k) 0 then (if 0 < s.shareNow k g then a + 2 ^ (8 + k) else a) else if fld (v k) 4 4 = g then a + 2 ^ k else a) 0)
  else none

/-! ## Links (R445, R446) -/

def LinkMode.code : LinkMode → Nat
  | .down => 0 | .training => 1 | .keying => 2 | .up => 3 | .standby => 4 | .authHold => 5

def showLink (s : State) (u : Nat) (n : String) : Option Nat :=
  let l := s.lk u
  if n = "LK_STATUS" then
    some (l.mode.code + l.width % 16 * 2 ^ 4 + l.peer % 4 * 2 ^ 8 + b2n l.peerValid * 2 ^ 10 + b2n l.sessionNew * 2 ^ 11 + l.laneFault % 256 * 2 ^ 16)
  else if n = "LK_UNACKED" then some (if l.peerValid then (s.session l.peer).unacked.length else 0)
  else if n = "LK_LANE_BER" then some (s.openReading (R.LK_LANE_BER u))
  else none

/-! ## The island (R474 to R481) -/

def showIsland (s : State) (n : String) (i : Nat) : Option Nat :=
  let x := s.island
  if n = "ISL_STATUS" then
    some (b2n x.hwMuted + 2 * b2n (decide (s.reg R.ISL_SW_MUTE ≠ 0)) + 4 * b2n x.clearing + 8 * b2n x.wakeHeld + min 31 x.kept.length * 2 ^ 4 +
      b2n x.muteHigh * 2 ^ 9 + b2n (bit (s.reg R.ISL_STATUS) 10) * 2 ^ 10)
  else if n = "RCH_FRAMES" then
    let c := s.chan i
    some ((match c.frames.getLast? with | some f => f.fseq % 65536 | none => 0) + c.frames.length % 65536 * 2 ^ 16)
  else if n = "GRP_CHAN" then
    some ((List.range 16).foldl (fun a c => let v := s.reg (R.RCH c); if fld v 0 2 ≠ 0 ∧ fld v 28 4 = i then a + 2 ^ c else a) 0)
  else if n = "MODEL_STATUS" then
    let m := mget Model.dflt x.models i
    some (b2n m.loaded + 2 * b2n m.buf + 4 * b2n (m.next.isSome || m.unload) + (if m.loaded then rdAt m.image 24 4 else 0) % 2 ^ 23 * 2 ^ 8)
  else if n = "PDM_STATUS" then
    some ((s.reg R.PDM_STATUS).toNat % 65536 + (List.range 4).foldl (fun a k => if s.pdmClock k then a + 2 ^ (16 + k) else a) 0)
  else if n = "DET_PEEK_STATE" ∨ n = "DET_PEEK_SCORE" then
    let v := s.reg R.DET_PEEK_SEL
    let d := mget Det.dflt x.dets (fld v 0 4 * 4 + fld v 8 2)
    some (if n = "DET_PEEK_STATE" then d.st else d.score.toNat)
  else none

/-- MUTE_IND sinks: the hardware mute is asserted, or ALL of the software mute with IND_SW (R472, R473). [DESIGN CHOICE, log entry 98] -/
def State.muteInd (s : State) : Bool :=
  s.domainOn .aon && (s.island.hwMuted || (bit (s.reg R.ISL_CTRL) 1 && bit (s.reg R.ISL_SW_MUTE) 16))
/-- MICPWR_EN is high: the island is ON, some PDM clock runs, and no mute holds it low (R474). [DESIGN CHOICE, log entry 98] -/
def State.micPower (s : State) : Bool :=
  (List.range 4).any s.pdmClock

/-! ## Cameras (R508 to R512) -/

def showPipe (s : State) (u : Nat) (n : String) : Option Nat :=
  let p := s.pipe u
  if n = "PIPE_STATUS" then
    let bound := bit (s.reg (R.PIPE_BOUND u)) 12
    some ((if !bound then 0 else if p.frame.isSome ∨ p.ended ≠ [] then 2 else if p.blank then 3 else 1) + b2n p.next.isSome * 2 ^ 4 +
      b2n (bit (s.reg (R.PIPE_STATUS u)) 5) * 2 ^ 5 + (match p.frame with | some f => f.lines.length % 2 ^ 14 | none => 0) * 2 ^ 16)
  else if n = "PORT_STATUS" then
    some ((if s.portOn u then 1 + s.openReading (R.PORT_STATUS u) % 2 else 0) + (s.feeds u).foldl (fun a k => if k / 8 = u / 8 then a + 1 else a) 0 * 2 ^ 4 +
      s.openReading (R.PORT_STATUS u) / 2 ^ 16 * 2 ^ 16 * b2n (s.portOn u))
  else if n = "MEM_STATUS" then some (match p.mem with | some j => if s.memTurn u then 2 else if j.begun then 3 else 1 | none => 0)
  else none

/-! ## Security, power, service (R544, R578, R597 to R601) -/

def RotMode.code : RotMode → Nat
  | .selfTest => 0 | .operational => 1 | .softError => 2 | .criticalError => 3

def showMailbox (s : State) (h : Nat) (n : String) : Option Nat :=
  if n = "MB_STATUS" then some (s.rot.mode.code + b2n (s.coOn && decide (h = 0)) * 2 ^ 4 + b2n s.rot.zeroised * 2 ^ 5)
  else if n = "SEAL_PKGS" then some (s.livePkgs h).length
  else if n = "SEAL_OBJECTS" then some (s.objs.filter fun e => decide (oHoop e.1 = h) && e.2.used && e.2.homed && e.2.sealed).length
  else none

/-- PM_STATUS.STATE: LISTEN and OFF are codes 3 and 6; during boot the field reads its reset value. [DEDUCED, log entry 81] -/
def PmMode.code : PmMode → Nat
  | .boot => 0 | .active => 0 | .idle => 1 | .entering => 4 | .doze => 2 | .listen => 3 | .off => 6 | .exiting => 5

/-- PM_STATUS (R578). [DEDUCED, log entry 81] -/
def State.pmStatus (s : State) : Nat :=
  let dram := if s.pm.mode = .doze then 1 else if s.pm.mode = .listen then (if s.pm.dramOff then 3 else 2) else if s.pm.mode = .off then 3 else 0
  s.pm.mode.code + s.pm.target % 8 * 2 ^ 4 + b2n s.pm.computeUp * 2 ^ 8 + b2n (decide (s.part.ioDies = 2) && s.domainOn .ioMain) * 2 ^ 9 + dram * 2 ^ 10 +
  b2n (!s.pm.wakes.isEmpty || !s.assertedWakes.isEmpty) * 2 ^ 12 + b2n s.capLimited * 2 ^ 13 + b2n s.thermLimited * 2 ^ 14

/-- The highest of a list of temperatures. -/
def hottest (l : List Int) : Int := match l with | [] => 25 | x :: r => r.foldl max x

/-- PM_TEMP (R577). -/
def State.pmTemp (s : State) : Nat :=
  sByte (hottest ((List.range 8).map (mget 25 s.svc.temps))) +
  sByte (hottest (((List.range 6).filter (present s.part .dramStack)).map fun i => mget 25 s.svc.temps (8 + i))) * 2 ^ 8 +
  sByte (hottest (((List.range 2).filter (present s.part .skein)).map fun i => (s.sk i).temp)) * 2 ^ 16

/-- PM_RETAIN_MIB (R560, R577). -/
def State.retainMib (s : State) : Nat :=
  let live := (List.range 6).filter (s.live .dramStack)
  if live.all fun n => decide (fld (s.reg (R.PM_DRAM_RETAIN n)) 0 16 = 0) then 0 else live.foldl (fun a n => a + s.keptSegs n * 1536) 0

def showPower (s : State) (n : String) : Option Nat :=
  if n = "PM_STATUS" then some s.pmStatus
  else if n = "PM_MEM_LEVEL" then some (fld (s.reg R.PM_MEM_LEVEL) 0 2 + s.pm.memForce * 2 ^ 4)
  else if n = "PM_TEMP" then some s.pmTemp
  else if n = "PM_RETAIN_MIB" then some s.retainMib
  else none

def showService (s : State) (n : String) : Option Nat :=
  if n = "FW_TRIAL_LEFT_MS" then
    some (if fld (s.reg R.FW_STATUS) 4 3 = 3 then (s.svc.trialAt + (s.force R.TRIAL_MS).toNat * 1000000 - s.now) / 1000000 else 0)
  else none

/-- Registers whose value the device computes; none for the stored ones. -/
def State.shown (s : State) (b : Blk) (u : Nat) (n : String) (i j : Nat) : Option Nat :=
  match b with
  | .devGlobal => showDev s n i
  | .sceneTime => showTime s n
  | .hoopTrigger => showTrig s u n i
  | .objTable => showOt s u n
  | .tierPool => showPool s u n i
  | .skein => showSkein s u n
  | .ctxGlobal => showCtxGlobal s n
  | .ctxHoop => showCtxHoop s u n
  | .cluster => showCluster s u n
  | .knot => showKnot s u n
  | .sched => showSched s u n i j
  | .link => showLink s u n
  | .island => showIsland s n i
  | .mailbox => showMailbox s u n
  | .power => showPower s n
  | .service => showService s n
  | .hostIf => showHost s u n i j
  | .core => showCore s u n
  | .pipeline => showPipe s u n
  | .cqDoorbell => showDoorbell s true u n
  | .eqDoorbell => showDoorbell s false u n
  | _ => showSmall s b u n i

/-- The value that the register at `a` holds or computes (R85, R98): 0 for a reserved offset, an absent unit (R9), a domain that
is off but for its identity and its state at power-down (R109), a write-only register, and a debug register under the debug lock (R101). The fields of BLOCK_CTRL that only act
read 0; EXPERT_KEY shows UNLOCKED alone (R100). [DESIGN CHOICE, log entry 4; DEDUCED, log entry 22] -/
def State.value (s : State) (a : Nat) : W32 :=
  match blkAt a with
  | none => 0
  | some (b, u, off) =>
    let doorbell := decide (doorbellBase ≤ a)
    if present s.part b u = false then 0
    else if s.domainOn (blkRow b).domain = false then
      -- the host port answers (R109)
      if doorbell = true ∨ 0xC < off % 0x1000 ∨ off % 0x1000 = 8 then 0
      else if off % 0x1000 = 0xC then s.reg (R.BLOCK_STATE (pageOf b u)) ||| 0x20
      else s.reg (pageOf b u + off % 0x1000)
    else if off % 0x1000 < 0x30 ∧ doorbell = false then
      if off % 0x1000 = 0x1C then 0
      else if off % 0x1000 = 0x24 then w32 (fld (s.reg (R.EXPERT_KEY (pageOf b u))) 16 1 * 2 ^ 16)
      else s.reg (pageOf b u + off % 0x1000)
    else if s.debugLock ∧ doorbell = false ∧ 0xF00 ≤ off % 0x1000 ∧ ¬ (b = .knot ∧ u = 0) then 0
    else match rowAt b u off with
      | none => 0
      | some (r, i, j) =>
        if r.acc = .WO then 0
        else match s.shown b u r.name i j with
          | some v => w32 v
          | none => s.reg a

/-- The register that an offset reaches: every page of an instance shows the header of its first page (R88). -/
def canonAt (a : Nat) : Nat :=
  match blkAt a with
  | some (b, i, off) => if a < doorbellBase ∧ off % 0x1000 < 0x30 then pageOf b i + off % 0x1000 else a
  | none => a

/-- The high words and phases that a read of the low word at `a` latches (R48, R92, R154): every page's STAMP_HI; the high word and
phase of the scene-time unit's and the hoop pages' counts; the high words of a rule's, the hardware mute's and the knot log's stamp. -/
def latchedBy (a : Nat) : List Nat :=
  match blkAt a with
  | none => []
  | some (b, u, off) =>
    if doorbellBase ≤ a then []
    else if off % 0x1000 = 0x28 then [R.STAMP_HI (pageOf b u)]
    else match rowAt b u off with
      | none => []
      | some (r, _, _) =>
        if r.name = "STITCH_LO" then (if b = .sceneTime then [R.STITCH_HI, R.PHASE] else [R.HI_STITCH_HI u, R.HI_PHASE u])
        else if r.name = "CAPTURE_LO" then [R.CAPTURE_HI, R.CAPTURE_PHASE]
        else if r.name = "CORR_LO" then [R.CORR_HI]
        else if r.name = "RULE_ARM_STAMP_LO" ∨ r.name = "MUTE_STAMP_LO" ∨ r.name = "KDBG_LOG_STAMP_LO" then [a + 4]
        else []

/-- Does a read at `a` reach its register: it is there and powered (R9, R109), and the debug lock does not answer for it (R101)? -/
def State.answers (s : State) (a : Nat) : Bool :=
  match blkAt a with
  | none => false
  | some (b, i, off) =>
    present s.part b i && s.domainOn (blkRow b).domain &&
    !(s.debugLock && decide (a < doorbellBase ∧ 0xF00 ≤ off % 0x1000 ∧ ¬ (b = .knot ∧ i = 0)))

/-- A read by function `f` of the four bytes at `a`: outside its view it returns 0 (R84); of a debug register under the debug lock
it returns 0 and sets SEALED_ACCESS (R101). A read of a low word latches its high word and phase, whose next read returns the
latched value (R48, R92). -/
def State.readReg (s : State) (f a : Nat) : State × W32 :=
  if !s.inView f a then (s.viewViolation, 0)
  else if s.answers a then
    let c := canonAt a
    let v := (mget none s.latch c).getD (s.value a)
    ((latchedBy c).foldl (fun (s : State) k => s.latchReg k (s.value k)) { s with latch := mset none s.latch c none }, v)
  else match blkAt a with
    | some (b, i, _) => if present s.part b i && s.domainOn (blkRow b).domain then (s.raise b i 29 0x3, 0) else (s, s.value a)
    | none => (s, 0)

end Sys2Proof.Machine
end

