-- ==== Sys2Proof/Machine/Service.lean ====
section
/-! DEFINITION. The service block (R581 to R601, R615): live update of the controllers' firmware, flash dies and link lanes taken out
and returned, memory errors and the RAS limits, telemetry, and the SMBus port. -/

namespace Sys2Proof.Machine

/-! ## Commands of the service block (R597 to R599) -/

/-- SVC_RESULT: DONE with a result (R599). -/
def State.svcResult (s : State) (r : Nat) : State := s.setReg R.SVC_RESULT (w32 (1 + 16 * r))

/-- An SVC_CMD write of function `f`: discarded while DONE is 0. [DEDUCED, log entries 27, 82] -/
def State.svcCmd (s : State) (f : Nat) (act : State → State) : State :=
  s.command f R.SVC_CMD fun s => if bit (s.reg R.SVC_RESULT) 0 then act s else s

/-- SVC_ARG[i]. -/
def State.svcArg (s : State) (i : Nat) : W32 := s.reg (R.SVC_ARG i)

/-- A free byte, for an answer that the manual does not state (the model's own counter tells the uses apart). [DEDUCED, log entry 83] -/
def State.freeAnswer (s : State) : State × Nat := ({ s with freeCtr := s.freeCtr + 1 }, (Config.freeByte s.freeCtr).toNat)

/-! ## Live update (R581 to R584) -/

/-- PHASE of the update and the controller it concerns (R597). -/
def State.fwPhase (s : State) : Nat := fld (s.reg R.FW_STATUS) 4 3
def State.fwCtl (s : State) : Nat := fld (s.reg R.FW_STATUS) 0 3
def State.setPhase (s : State) (p : Nat) : State := s.setRegFld R.FW_STATUS 4 3 p

/-- The page that a controller drives (R581, R583). -/
def ctlPage (c : Nat) : Blk × Nat :=
  if c = 1 then (.mailbox, 0) else if c = 2 then (.power, 0) else if c = 3 then (.island, 0) else if c = 4 then (.skein, 0)
  else if c = 5 then (.skein, 1) else (.sched, 0)

/-- Does controller `c` drive the page of a block (R583)? -/
def drives (c : Nat) (b : Blk) (i : Nat) : Bool :=
  if c = 1 then decide (b = .mailbox) else if c = 2 then decide (b = .power) else if c = 3 then decide (b = .island)
  else if c = 4 then decide (b = .skein ∧ i = 0) else if c = 5 then decide (b = .skein ∧ i = 1) else if c = 6 then decide (b = .sched) else false

/-- FW_STAGE (R582): the first cause of R599 that holds, or the image in slot B. `verified` is what the signature check finds: the
controller that the header names, the SVN and the version; `host` is the content of an object homed in T4. [DEDUCED, log entry 82] -/
def doFwStage (f : Nat) (verified : Option (Nat × Nat × Nat)) (host : List Byte) (s : State) : State :=
  s.svcCmd f fun s =>
    let c := (s.svcArg 0).toNat
    if s.fwPhase ≠ 0 then s.svcResult 1
    else if c = 0 ∨ 6 < c ∨ (c = 5 ∧ s.part.ioDies < 2) then s.svcResult 10
    else if c = 1 ∧ s.coOn = false then s.svcResult 8
    else match s.resolve 0 (s.svcArg 1).toNat with
      | none => s.svcResult 2
      | some k =>
        let o := s.obj k
        if o.kind ≠ 0 ∨ o.homed = false ∨ (o.tier ≠ 2 ∧ o.tier ≠ 4) then s.svcResult 2
        else match verified with
          | none => s.svcResult 3
          | some (hc, svn, version) =>
            if hc ≠ c ∨ s.svnOk c svn = false then s.svcResult 3
            else
              let img : FwImage := ⟨1, svn, version, Config.sha384 (s.mbBytes k o.size host)⟩
              let s := { s.setSlot c img with svc := { s.svc with slotB := some c } }
              (s.setReg R.FW_STATUS (setFld (setFld (s.reg R.FW_STATUS) 0 3 c) 4 3 1)).svcResult 0

/-- FW_ACTIVATE (R582, R584): the controller makes for its safe point. [DEDUCED, log entry 82] -/
def doFwActivate (f : Nat) (s : State) : State :=
  s.svcCmd f fun s =>
    if 2 ≤ s.fwPhase then s.svcResult 1
    else match s.svc.slotB with
      | none => s.svcResult 4
      | some c =>
        if s.pm.mode ≠ .active ∧ s.pm.mode ≠ .idle then s.svcResult 7
        else if c = 1 ∧ s.coOn = false then s.svcResult 8
        else
          let s := { s with svc := { s.svc with activateAt := s.now } }
          ((s.setRegFld R.FW_STATUS 0 3 c).setPhase 2).setReg R.SVC_RESULT 0

/-- Has the controller reached its safe point (R581)? [DEDUCED, log entry 82] -/
def State.safePoint (s : State) (c : Nat) : Bool :=
  if c = 1 then !(s.flights.any fun f => decide (f.cmd.opcode = 10)) && !((List.range 8).any fun n => decide ((s.lk n).mode = .keying)) && decide (s.rot.session ≠ 1)
  else if c = 2 then
    decide (s.pm.mode ≠ .entering ∧ s.pm.memForce = s.memDue) && (List.range 8).all fun n => decide (mget 0 s.pm.inForce n = s.levelDue n)
  else if c = 4 ∨ c = 5 then
    !(s.moves.any fun m => m.started && decide (m.tier = 3 ∧ (c - 4) ∈ s.maskStacks 3 m.loc)) &&
    !(s.flights.any fun f => f.outs.any fun o => decide ((s.obj o.obj).tier = 3) && bit (w32 o.place) (c - 4)) &&
    !(s.remotes.any fun r => decide (r.tier = 3 ∧ r.alloc ≠ 0) && bit (w32 r.place) (c - 4))
  else if c = 6 then (List.range 8).all fun n => !bit (s.reg (R.SCH_CLUSTER n)) 0 || !(s.turn n).active
  else true

/-- Every cap ceiling at P7, which the hardware sets while the power manager swaps above the cap (R581). [DEDUCED, log entry 79] -/
def State.capAll (s : State) : State :=
  if (s.reg R.PM_POWER_MW).toNat ≤ (s.reg R.PM_CAP_MW).toNat then s
  else (List.range 8).foldl (fun (s : State) n =>
    let c := s.capCeil n
    s.setPm fun p => { p with capCeil := mset 0 p.capCeil n 7, capDown := List.replicate (7 - c) n ++ p.capDown }) s

/-- FW_SAFE_POINT: the controller swaps to the staged image, and the trial begins (R581 to R584). -/
def doFwSafePoint (s : State) : State :=
  let c := s.fwCtl
  if s.fwPhase ≠ 2 ∨ s.safePoint c = false then s
  else match mget none s.rot.slots (c * 4 + 1) with
    | none => s
    | some i =>
      let s := if c = 2 then s.capAll.alertNow else s
      let s := s.runImage c i
      let (b, n) := ctlPage c
      let s := if s.stOf b n = 5 ∧ fld (s.reg (R.BLOCK_STATE (pageOf b n))) 8 3 = 4 then s.acceptReturn b n else s
      (({ s with svc := { s.svc with trialAt := s.now } }).setPhase 3).svcResult 0

/-- FW_SAFE_TIMEOUT: the safe point is not reached in time, and the old image runs on (R582). -/
def doFwSafeTimeout (s : State) : State :=
  if s.fwPhase = 2 ∧ s.svc.activateAt + (s.force R.FW_SAFE_TIMEOUT_MS).toNat * 1000000 ≤ s.now then (s.setPhase 1).svcResult 6 else s

/-- FW_CONFIRM (R583): the image on trial is in slot A. -/
def doFwConfirm (f : Nat) (s : State) : State :=
  s.svcCmd f fun s =>
    if s.fwPhase ≠ 3 then s.svcResult 5
    else match mget none s.rot.running s.fwCtl with
      | none => s.svcResult 5
      | some i =>
        let a : FwImage := { i with slot := 0 }
        let s := { (s.setSlot s.fwCtl a).runImage s.fwCtl a with svc := { s.svc with slotB := none } }
        ((s.setPhase 0).setRegFld R.FW_STATUS 9 1 1).svcResult 0

/-- A trial ends by a revert (R583): the slot-A image runs, or, where there is none, the controller's page goes to FENCED with cause 4;
the root of trust's revert is a warm reset with cause WARM_SW. [DEDUCED, log entry 82] -/
def State.revertTrial (s : State) : State :=
  let c := s.fwCtl
  let s := (s.setPhase 0).setRegFld R.FW_STATUS 8 1 1
  if c = 1 then s.warmReset 7
  else match mget none s.rot.slots (c * 4) with
    | some i => s.runImage c i
    | none =>
      let s := { s with rot := { s.rot with running := mset none s.rot.running c none } }
      if c = 3 ∨ c = 4 ∨ c = 5 then (s.failImage (ctlPage c).1 (ctlPage c).2).settled else s

/-- FW_REVERT (R583). -/
def doFwRevert (f : Nat) (s : State) : State := s.svcCmd f fun s => if s.fwPhase ≠ 3 then s.svcResult 5 else (s.revertTrial).svcResult 0

/-- HEARTBEAT_MISSED: no heartbeat for 100 ms (R583). -/
def doHeartbeatMissed (s : State) : State := if s.fwPhase = 3 then s.revertTrial else s

/-- TRIAL_EXPIRY: TRIAL_MS have passed (R583). -/
def doTrialExpiry (s : State) : State :=
  if s.fwPhase = 3 ∧ s.svc.trialAt + (s.force R.TRIAL_MS).toNat * 1000000 ≤ s.now then s.revertTrial else s

/-- FATAL_STATE_ERROR of a page (R591); ECC_FATAL on a page that a controller on trial drives reverts the trial (R583). -/
def doFatalStateErrorTrial (page : Nat) (s : State) : State :=
  let s' := doFatalStateError page s
  match headerAt page with
  | none => s'
  | some (b, i) =>
    if s'.fwPhase = 3 ∧ drives s'.fwCtl b i = true ∧ bit (s'.reg (R.FAULT_STATUS (pageOf b i))) 31 = true ∧
        present s.part b i = true ∧ s.domainOn (blkRow b).domain = true then s'.revertTrial
    else s'

/-! ## Flash dies and link lanes (R589, R590) -/

/-- STACK and DIE of the arguments; none where they name what is not there. -/
def State.svcDie (s : State) : Option (Nat × Nat) :=
  let a := s.svcArg 0
  if a.toNat = fld a 0 1 + 2 ^ 8 * fld a 8 4 ∧ present s.part .skein (fld a 0 1) = true then some (fld a 0 1, fld a 8 4) else none

/-- DIE_FENCE (R589); `bad` are the tiles that cannot be read from the die, as hoop, index and tile. [DEDUCED, log entry 83] -/
def doDieFence (f : Nat) (bad : List (Nat × Nat × Nat)) (s : State) : State :=
  s.svcCmd f fun s =>
    match s.svcDie with
    | none => s.svcResult 10
    | some (n, d) =>
      let x := s.sk n
      if x.dieCopy.isSome then s.svcResult 1
      else if d ∈ x.fencedDies then s.svcResult 0
      else if (1024 - 64 * (x.fencedDies.length + 1)) * 2 ^ 30 < s.skHeld n + s.skPreserved n then s.svcResult 9
      else
        let s := s.setSk n { x with fencedDies := x.fencedDies ++ [d], dieCopy := some d }
        let on := bad.filter fun e =>
          let o := s.obj (oKey e.1 e.2.1)
          o.used && o.homed && decide (o.tier = 3 ∧ e.2.2 < o.ntiles ∧ o.tileStack e.2.2 = n)
        (on.foldl (fun (s : State) e => s.poison (oKey e.1 e.2.1) e.2.2) s).svcResult 0

/-- DIE_RETURN (R589, R590): the capacity comes back once the die passes its check. The manual states no result for a die that
fails, so that answer is free. [DEDUCED, log entry 83] -/
def doDieReturn (f : Nat) (pass : Bool) (s : State) : State :=
  s.svcCmd f fun s =>
    match s.svcDie with
    | none => s.svcResult 10
    | some (n, d) =>
      let x := s.sk n
      if x.dieCopy.isSome then s.svcResult 1
      else if d ∉ x.fencedDies then s.svcResult 0
      else if pass then ((s.setSk n { x with fencedDies := x.fencedDies.filter (· ≠ d) }).svcResult 0).startMoves
      else
        let (s, r) := s.freeAnswer
        s.svcResult (r % 16)

/-- LINK and LANES of the arguments; none where they name what is not there. -/
def State.svcLanes (s : State) : Option (Nat × Nat) :=
  let a := s.svcArg 0
  if a.toNat = fld a 0 3 + 2 ^ 8 * fld a 8 8 ∧ present s.part .link (fld a 0 3) = true then some (fld a 0 3, fld a 8 8) else none

/-- LANE_FENCE and LANE_RETURN: the link retrains without the named lanes, or with them (R590). -/
def State.setLanes (s : State) (f : Nat) (out : Bool) : State :=
  s.svcCmd f fun s =>
    match s.svcLanes with
    | none => s.svcResult 10
    | some (n, m) =>
      let l := s.lk n
      let v := if out then l.lanesOut ||| m else (BitVec.ofNat 8 l.lanesOut &&& ~~~(BitVec.ofNat 8 m)).toNat
      let s := s.setLk n { l with lanesOut := v }
      (if l.mode = .up ∨ l.mode = .standby then s.retrain n else s).svcResult 0
def doLaneFence (f : Nat) (s : State) : State := s.setLanes f true
def doLaneReturn (f : Nat) (s : State) : State := s.setLanes f false

/-! ## Memory errors (R591 to R594) -/

/-- Times of the trailing hour. -/
def lastHour (now : Nat) (l : List Nat) : List Nat := l.filter fun t => decide (now < t + 3600000000000)

/-- Unit type of R600. -/
def rasType : Blk → Option Nat
  | .core => some 0
  | .cluster => some 1
  | .dramStack => some 2
  | .skein => some 3
  | .pipeline => some 4
  | .link => some 5
  | _ => none

/-- A row of a DRAM stack is replaced by a spare one, where one is left (R593). [DEDUCED, log entry 49; DESIGN CHOICE, log entry 84] -/
def State.repairRow (s : State) (n row : Nat) : State :=
  let used := mget 0 s.svc.spareUsed n
  if used < Config.spareRows n then
    ({ s with svc := { s.svc with spareUsed := mset 0 s.svc.spareUsed n (used + 1), rows := mset [] s.svc.rows (n * 2 ^ 32 + row) [] } }).addReg (R.DS_ROW_REPAIRS n) 1
  else s.orReg R.RAS_STATUS (w32 (2 ^ (8 + n)))

/-- A unit's corrected error joins its trailing hour, and its limit is tested (R594). -/
def State.rasCount (s : State) (b : Blk) (i : Nat) : State :=
  match rasType b with
  | none => s
  | some t =>
    let s := s.addReg (R.RAS_CE t) 1
    let l := lastHour s.now (mget [] s.svc.errors (sourceId b i)) ++ [s.now]
    let s := { s with svc := { s.svc with errors := mset [] s.svc.errors (sourceId b i) l } }
    let limit := (s.force (R.RAS_CE_LIMIT t)).toNat
    if limit = 0 ∨ l.length < limit then s
    else
      let s := (s.orReg R.RAS_STATUS 1).setReg R.RAS_LAST_UNIT (w32 (sourceId b i))
      if bit (s.force R.RAS_AUTO_FENCE) t ∧ fenceable b = true then s.requestFence b i 2 else s

/-- A corrected error in a memory of a page; `row` is the row of a DRAM stack (R592 to R594). -/
def State.correctedError (s : State) (b : Blk) (i row : Nat) : State :=
  let s :=
    match b with
    | .core => s.addReg (R.SRAM_ECC_CORR i) 1
    | .cluster => s.addReg (R.CL_GB_ECC_CORR i) 1
    | .dramStack =>
      let s := s.addReg (R.DS_ECC_CORR i) 1
      let l := lastHour s.now (mget [] s.svc.rows (i * 2 ^ 32 + row)) ++ [s.now]
      let s := { s with svc := { s.svc with rows := mset [] s.svc.rows (i * 2 ^ 32 + row) l } }
      if (s.force R.RAS_ROW_CE).toNat ≤ l.length then s.repairRow i row else s
    | _ => s
  s.rasCount b i

/-- An uncorrectable error in the island's memory: the ring frame of channel `row / 2^16` with FSEQ `row % 2^16` reads as GAP from then on
("The island pages"). [DEDUCED, log entry 49] -/
def State.ringError (s : State) (row : Nat) : State :=
  let c := row / 2 ^ 16
  let x := mget Chan.dflt s.island.chans c
  if x.frames.any fun f => decide (f.fseq = row % 2 ^ 16) then
    let frames := x.frames.map fun (f : Frame) => if f.fseq = row % 2 ^ 16 then { f with flags := f.flags ||| 2, p0 := 0, i0 := 16, codes := 0 } else f
    let s : State := { s with island := { s.island with chans := mset Chan.dflt s.island.chans c { x with frames := frames } } }
    s.addReg R.RING_ECC_UNCORR 1
  else s

/-- An uncorrectable error in a trigger unit's store disables its rules, which unpins their templates (R66). -/
def State.rulesLost (s : State) (u : Nat) : State :=
  let lost := (s.rules.filter fun e => decide (e.1 / 512 = u) && e.2.enabled).map (·.1)
  (lost.foldl (fun (s : State) r =>
    let s := s.unpinTemplate (s.ruleHoop r) r
    s.setRule r { s.rule r with enabled := false, state := 0, deadline := none }) s).raise .triggerUnit u 1 0x111

/-- An uncorrectable error while tile `t` of object `k` is read: a move that copies it writes it POISONED; of a consumer, a begun command named by
its queue and position, the use fails as a mismatch (R175, R176); a read for neither poisons the tile where it is (R202). [DEDUCED, log entries 33, 103] -/
def State.tileLost (s : State) (k t : Nat) (consumer : Option (Nat × Nat)) : State :=
  let flight := consumer.bind fun (e : Nat × Nat) => s.flights.find? fun f => decide (f.cmd.hoop = oHoop k ∧ f.cmd.cq = e.1 ∧ f.cmd.pos = e.2)
  match flight with
  | some f => ((s.poison k t).tileFailed f.cmd k t 1).settled
  | none =>
    if consumer.isNone && s.moves.any fun m => decide (m.obj = k) && m.started then
      { s with moves := s.moves.map fun (m : Move) => if m.obj = k ∧ m.started = true then { m with bad := m.bad ++ [t] } else m }
    else s.poison k t

/-- ECC_ERROR of a page: corrected, or uncorrectable in the tile named by hoop, index and tile (R592, R593). [DEDUCED, log entry 103] -/
def doEccError (page : Nat) (corrected : Bool) (row : Nat) (tile : Option (Nat × Nat × Nat)) (consumer : Option (Nat × Nat)) (s : State) : State :=
  match headerAt page with
  | none => s
  | some (b, i) =>
    if present s.part b i = false ∨ s.domainOn (blkRow b).domain = false then s
    else if corrected then (s.correctedError b i row).settled
    else
      let s := if b = .dramStack then (s.addReg (R.DS_ECC_UNCORR i) 1).repairRow i row
        else if b = .triggerUnit then
          s.rulesLost i
        else if b = .island then s.ringError row
        else s
      match tile with
      | some (h, k, t) => if (s.obj (oKey h k)).used = true ∧ t < (s.obj (oKey h k)).ntiles then s.tileLost (oKey h k) t consumer else s
      | none => s

/-- SRAM_PATROL: every memory is read in idle cycles; `found` are the pages whose memories gave a correctable error (R592). [DEDUCED, log entry 103] -/
def doSramPatrol (found : List Nat) (s : State) : State :=
  (found.foldl (fun (s : State) p =>
    match headerAt p with
    | some (b, i) => if present s.part b i = true ∧ s.domainOn (blkRow b).domain = true ∧ b ≠ .dramStack then s.correctedError b i 0 else s
    | none => s) s).settled

/-! ## Telemetry (R596, R601) -/

/-- What a snapshot holds, by register of page 2. [DEDUCED, log entry 85] -/
def State.snapshot (s : State) : List (Nat × W32) :=
  let ms := (s.reg R.TEL_PERIOD_MS).toNat
  [(R.TEL_POWER_MW, s.reg R.PM_POWER_MW)] ++
  (List.range 8).map (fun n => (R.TEL_CLUSTER_TEMP n, w32 (sByte (mget 25 s.svc.temps n)))) ++
  ((List.range 6).filter (present s.part .dramStack)).map (fun n => (R.TEL_DRAM_TEMP n, w32 (sByte (mget 25 s.svc.temps (8 + n))))) ++
  ((List.range 2).filter (present s.part .skein)).map (fun n => (R.TEL_SKEIN n, w32 (sByte (s.sk n).temp + 2 ^ 8 * min (2 ^ 24 - 1) (s.projDays n)))) ++
  (List.range 64).map (fun e => (R.TEL_BW (e % 4) (e / 4), w32 (mget 0 s.svc.drawn e / (ms * 1000))))

/-- Page 2 takes a snapshot's values and the count of snapshots. [DEDUCED, log entry 85] -/
def State.showSnapshot (s : State) : State :=
  let s := s.svc.latest.foldl (fun (s : State) (e : Nat × W32) => s.setReg e.1 e.2) s
  (s.setReg R.TEL_SEQ_LO (w32 (s.svc.snaps % 2 ^ 32))).setReg R.TEL_SEQ_HI (w32 (s.svc.snaps / 2 ^ 32))

/-- TELEMETRY_SNAPSHOT: every TEL_PERIOD_MS (R596). A frozen page takes the latest snapshot when it is released. -/
def doTelemetrySnapshot (s : State) : State :=
  if s.domainOn .aon = false then s
  else
    let s := { s with svc := { s.svc with latest := s.snapshot, snaps := s.svc.snaps + 1, drawn := [] } }
    if s.svc.frozen then s else s.showSnapshot

/-- A read of four bytes: one of TEL_SEQ_LO freezes page 2 of the telemetry, one of TEL_SEQ_HI releases it (R596). [DEDUCED, log entry 85] -/
def State.readTel (s : State) (f a : Nat) : State × W32 :=
  let (s', v) := s.readReg f a
  if (s.inView f a && s.answers a) = false then (s', v)
  else if a = R.TEL_SEQ_LO then ({ s' with svc := { s'.svc with frozen := true } }, v)
  else if a = R.TEL_SEQ_HI ∧ s.svc.frozen = true then (({ s' with svc := { s'.svc with frozen := false } }).showSnapshot, v)
  else (s', v)

/-- A read of one register by a command of its own. -/
def State.readWord (s : State) (f a : Nat) : State :=
  let (s', v) := s.readTel f a
  s'.setRead v.toNat

/-- TEL_SEQ_LO_READ and TEL_SEQ_HI_READ (R596). -/
def doTelSeqLoRead (f : Nat) (s : State) : State := s.readWord f R.TEL_SEQ_LO
/-- [DEDUCED, log entry 85]. -/
def doTelSeqHiRead (f : Nat) (s : State) : State := s.readWord f R.TEL_SEQ_HI

/-! ## The SMBus port (R615) -/

/-- What a Block Read returns: in OFF only RESET_CAUSE and DEV_PART have data. -/
def State.smbRead (s : State) (alsoOff : Bool) (v : Nat) : State :=
  { s with svc := { s.svc with smb := if s.pm.mode = .off ∧ alsoOff = false then w32 (2 ^ 32 - 1) else w32 v } }

def doSmbReadPmStatus (s : State) : State := s.smbRead false s.pmStatus
def doSmbReadPmTemp (s : State) : State := s.smbRead false s.pmTemp
def doSmbReadPmPower (s : State) : State := s.smbRead false (s.reg R.PM_POWER_MW).toNat
def doSmbReadResetCause (s : State) : State := s.smbRead true (s.reg R.RESET_CAUSE).toNat
def doSmbReadDevPart (s : State) : State := s.smbRead true s.devPart
def doSmbReadDevStatus (s : State) : State := s.smbRead false s.devStatus

/-- SMB_ALERT_RESPONSE: a device that asserts the alert answers its address; the alert is released where neither limit holds
(R615). [DEDUCED, log entry 86] -/
def doSmbAlertResponse (s : State) : State :=
  let s := if s.pm.alert then { s with svc := { s.svc with smb := w32 s.part.smbAddress } } else s
  if s.capLimited ∨ s.thermLimited = true then s else s.setPm fun p => { p with alert := false }

/-! ## Meanings -/

def execFatalStateError (page : Fin 16384) (s : State) : Out := run (doFatalStateErrorTrial page) s
def execFwStage (f : Fin 16) (verified : Option (Fin 7 × Byte × W64)) (host : List Byte) (s : State) : Out :=
  run (doFwStage f (verified.map fun e => (e.1.val, e.2.1.toNat, e.2.2.toNat)) host) s
def execFwActivate (f : Fin 16) (s : State) : Out := run (doFwActivate f) s
def execFwSafePoint (s : State) : Out := run doFwSafePoint s
def execFwSafeTimeout (s : State) : Out := run doFwSafeTimeout s
def execFwConfirm (f : Fin 16) (s : State) : Out := run (doFwConfirm f) s
def execFwRevert (f : Fin 16) (s : State) : Out := run (doFwRevert f) s
def execHeartbeatMissed (s : State) : Out := run doHeartbeatMissed s
def execTrialExpiry (s : State) : Out := run doTrialExpiry s
def execDieFence (f : Fin 16) (bad : List (Fin 16 × Fin 1048576 × Nat)) (s : State) : Out :=
  run (doDieFence f (bad.map fun e => (e.1.val, e.2.1.val, e.2.2))) s
def execDieReturn (f : Fin 16) (pass : Bool) (s : State) : Out := run (doDieReturn f pass) s
def execLaneFence (f : Fin 16) (s : State) : Out := run (doLaneFence f) s
def execLaneReturn (f : Fin 16) (s : State) : Out := run (doLaneReturn f) s
def execEccError (page : Fin 16384) (corrected : Bool) (row : Fin 4294967296) (tile : Option (Fin 16 × Fin 1048576 × Nat)) (consumer : Option (Fin 64 × W32)) (s : State) : Out :=
  run (doEccError page corrected row (tile.map fun e => (e.1.val, e.2.1.val, e.2.2)) (consumer.map fun e => (e.1.val, e.2.toNat))) s
def execSramPatrol (found : List (Fin 16384)) (s : State) : Out := run (doSramPatrol (found.map (·.val))) s
def execTelemetrySnapshot (s : State) : Out := run doTelemetrySnapshot s
def execTelSeqLoRead (f : Fin 16) (s : State) : Out := run (doTelSeqLoRead f) s
def execTelSeqHiRead (f : Fin 16) (s : State) : Out := run (doTelSeqHiRead f) s
def execSmbReadPmStatus (s : State) : Out := run doSmbReadPmStatus s
def execSmbReadPmTemp (s : State) : Out := run doSmbReadPmTemp s
def execSmbReadPmPower (s : State) : Out := run doSmbReadPmPower s
def execSmbReadResetCause (s : State) : Out := run doSmbReadResetCause s
def execSmbReadDevPart (s : State) : Out := run doSmbReadDevPart s
def execSmbReadDevStatus (s : State) : Out := run doSmbReadDevStatus s
def execSmbAlertResponse (s : State) : Out := run doSmbAlertResponse s

end Sys2Proof.Machine
end

