-- ==== Sys2Proof/Machine/Registers.lean ====
section
/-! DEFINITION. Register accesses (R84, R85, R92, R97 to R102, R110 to R113): the common header of every page, and every register
that a write reaches, by its access code and by what its own chapter says of a write. -/

namespace Sys2Proof.Machine

/-! ## The common header (R92, R97, R100, R110 to R113) -/

/-- Fault code of a FAULT_STATUS bit of a block; none for a bit with no defined fault (R110, R115). -/
def faultCode (b : Blk) (n : Nat) : Option Nat :=
  if n = 28 then some 0x2 else if n = 29 then some 0x3 else if n = 30 then some 0x4 else if n = 31 then some 0x5
  else match b, n with
    | .devGlobal, 0 => some 0x6
    | .devGlobal, 1 => some 0x7
    | .sceneTime, 0 => some 0x100
    | .sceneTime, 1 => some 0x101
    | .triggerUnit, 0 => some 0x110
    | .triggerUnit, 1 => some 0x111
    | .link, 0 => some 0x700
    | .link, 1 => some 0x701
    | .pipeline, 0 => some 0x800
    | .pipeline, 1 => some 0x801
    | .pipeline, 2 => some 0x803
    | _, _ => none

/-- A write of ones to FAULT_STATUS clears those bits (R98, R110). -/
def State.clearFaults (s : State) (b : Blk) (i : Nat) (v : W32) : State :=
  let p := pageOf b i
  { s.setReg (R.FAULT_STATUS p) (s.reg (R.FAULT_STATUS p) &&& ~~~v) with
    faults := s.faults.filter fun e => decide (e.1 / 32 ≠ sourceId b i) || !bit v (e.1 % 32) }

/-- A write of FAULT_MASK: a bit that is set and becomes unmasked posts a DEFERRED record (R111). [DEDUCED, log entry 18] -/
def State.setMask (s : State) (b : Blk) (i : Nat) (v : W32) : State :=
  let p := pageOf b i
  let due := s.reg (R.FAULT_MASK p) &&& ~~~v &&& s.reg (R.FAULT_STATUS p)
  let s := s.setReg (R.FAULT_MASK p) v
  ((List.range 32).filter fun n => bit due n).foldl (fun (s : State) n => s.post (s.faultRec b i n 2 (mget (0, 0, 0, 0) s.faults (faultKey b i n)))) s

/-- A write of FAULT_INJECT (R113): only while the page is unlocked. -/
def State.injectFaults (s : State) (b : Blk) (i : Nat) (v : W32) : State :=
  if bit (s.reg (R.EXPERT_KEY (pageOf b i))) 16 = false then s.accessRefused b i
  else ((List.range 32).filter fun n => bit v n).foldl (fun (s : State) n =>
    match faultCode b n with
    | some c => s.raiseWith b i n c 1 0
    | none => s) s

/-- A write of EXPERT_KEY (R100): the page's key unlocks, any other value locks. -/
def State.setKey (s : State) (b : Blk) (i : Nat) (v : W32) : State :=
  s.setReg (R.EXPERT_KEY (pageOf b i)) (if (blkRow b).key = some (fld v 0 16) then 0x10000 else 0)

/-- A write of FAULT_ROUTE (R112): HOOP names hoop 0 or the owner, and is the owner on fixed pages. [DEDUCED, log entry 19] -/
def State.setRoute (s : State) (b : Blk) (i : Nat) (v : W32) : State :=
  let p := pageOf b i
  let own := fld (s.reg (R.HOOP_OWNER p)) 0 4
  let h := if bit (s.reg (R.HOOP_OWNER p)) 8 ∨ fld v 0 4 ≠ 0 then own else 0
  s.setReg (R.FAULT_ROUTE p) (w32 (h + 2 ^ 8 * fld v 8 4))

/-- A write of HOOP_OWNER by function `f` (R97): by hoop 0, on an assignable page whose block is OFF or FENCED. A cluster's page
moves with its cores, as SCH_CLUSTER does (R406). [DEDUCED, log entry 23] -/
def State.setOwner (s : State) (f : Nat) (b : Blk) (i : Nat) (v : W32) : State :=
  let p := pageOf b i
  let o := s.reg (R.HOOP_OWNER p)
  let own := fld v 0 4
  if f ≠ 0 ∨ b = .core ∨ bit o 8 ∨ bit o 9 ∨ (s.stOf b i ≠ 0 ∧ s.stOf b i ≠ 5) then s.accessRefused b i
  else if b = .cluster then s.assignCluster i (w32 (16 * own))
  else
    let s := ((s.setReg (R.HOOP_OWNER p) (w32 own)).setReg (R.EXPERT_KEY p) 0).setReg (R.FAULT_ROUTE p) 0
    if own = fld o 0 4 then s else { s with zeroOwed := mset false s.zeroOwed p true }

/-- A write of BLOCK_CTRL by function `f` (R94): expert selection, fence, EN (with the fence pending, R104), return and reset, in that order.
[DEDUCED, log entry 14] -/
def State.setCtrl (s : State) (f : Nat) (b : Blk) (i : Nat) (v : W32) : State :=
  let s := s.setExpertSel b i (bit v 1)
  let asks := fun (n : Nat) => bit v n
  let s := if asks 8 then (if f ≠ 0 ∨ fenceable b = false then s.accessRefused b i else s.requestFence b i 1) else s
  let s := s.setEn b i (bit v 0)
  let s := if asks 9 then (if f ≠ 0 ∨ fenceable b = false then s.accessRefused b i else s.requestReturn b i) else s
  (if asks 16 then ((s.blockReset b i).heldForces).startMoves else s).settled

/-- A write by function `f` of the header register at `off`. -/
def State.writeHeader (s : State) (f : Nat) (b : Blk) (i off : Nat) (v : W32) : State :=
  s.reach f (pageOf b i + off) fun s =>
    if off = 0x8 then s.setCtrl f b i v
    else if off = 0x10 then s.clearFaults b i v
    else if off = 0x14 then s.setMask b i v
    else if off = 0x18 then s.setRoute b i v
    else if off = 0x1C then s.injectFaults b i v
    else if off = 0x20 then s.setOwner f b i v
    else if off = 0x24 then s.setKey b i v
    else s

/-- A write by function `f` on a page of the control window. -/
def State.onHeader (s : State) (f page : Nat) (act : Blk → Nat → State → State) : State :=
  s.reach f (page * 0x1000) fun s => match headerAt page with | some (b, i) => act b i s | none => s

/-- HOOP_OWNER_WRITE, EXPERT_KEY_WRITE, FAULT_MASK_WRITE and FAULT_INJECT. [DEDUCED, log entry 23] -/
def doHoopOwnerWrite (f page : Nat) (v : W32) (s : State) : State := s.onHeader f page fun b i s => s.setOwner f b i v
def doExpertKeyWrite (f page : Nat) (v : W32) (s : State) : State := s.onHeader f page fun b i s => s.setKey b i v
def doFaultMaskWrite (f page : Nat) (v : W32) (s : State) : State := s.onHeader f page fun b i s => s.setMask b i v
def doFaultInject (f page : Nat) (v : W32) (s : State) : State := s.onHeader f page fun b i s => s.injectFaults b i v

/-! ## Registers with a rule of their own -/

/-- Bytes of an object that the sender's memory supplies and no row states: free. [DESIGN CHOICE, log entries 26, 92] -/
def State.freeBytes (s : State) (n : Nat) : State × List Byte :=
  ({ s with freeCtr := s.freeCtr + n }, (List.range n).map fun k => Config.freeByte (s.freeCtr + k))

/-- MB_CMD as a plain write: what the outside would tell the command is free. [DESIGN CHOICE, log entry 26] -/
def State.writeMbCmd (s : State) (f h : Nat) (v : W32) : State :=
  let cmd := fld v 0 4
  if cmd = 1 then doAttest f h s else if cmd = 2 then doGetChain f h s else if cmd = 3 then doExtend f h s
  else if cmd = 4 then doCoChallenge f h s
  else if cmd = 5 then (let (s, l) := s.freeBytes 96; doCoAuth f h l s)
  else if cmd = 6 then doCoLogout f h s
  else if cmd = 7 then (let (s, l) := s.freeBytes 97; doEnrollCo f h l s)
  else if cmd = 8 then doAdvanceSvn f h s else if cmd = 9 then doZeroise f h s
  else if cmd = 10 then (let (s, r) := s.freeAnswer; doSelfTest f h (decide (r % 2 = 0)) s)
  else s.reach f (R.MB_CMD h) id

/-- SVC_CMD as a plain write. [DESIGN CHOICE, log entry 26] -/
def State.writeSvcCmd (s : State) (f : Nat) (v : W32) : State :=
  let cmd := fld v 0 4
  if cmd = 1 then
    let (s, r) := s.freeAnswer
    let (s, x) := s.freeAnswer
    let (s, l) := s.freeBytes 1
    doFwStage f (if r % 2 = 0 then some (x % 7, r, x) else none) l s
  else if cmd = 2 then doFwActivate f s else if cmd = 3 then doFwConfirm f s else if cmd = 4 then doFwRevert f s
  else if cmd = 5 then doDieFence f [] s
  else if cmd = 6 then (let (s, r) := s.freeAnswer; doDieReturn f (decide (r % 2 = 0)) s)
  else if cmd = 7 then doLaneFence f s else if cmd = 8 then doLaneReturn f s
  else s.reach f R.SVC_CMD id

/-- A write of a detector level of detector `d` (R480): 0 ARM, 1 FIRE, 2 HYST. -/
def State.writeDet (s : State) (which d : Nat) (v : W32) : State :=
  let x := fp32 v
  let arm := if which = 0 then x else fp32 (s.reg (R.DET_ARM d))
  let fire := if which = 1 then x else fp32 (s.reg (R.DET_FIRE d))
  if x.isNan ∨ (which = 2 ∧ FVal.lt x (.fin false 0) = true) ∨ FVal.lt fire arm = true then s.accessRefused .island 0
  else s.setReg (if which = 0 then R.DET_ARM d else if which = 1 then R.DET_FIRE d else R.DET_HYST d) v

/-- A write of a word of the MSI-X table (R148): a vector that is unmasked while its pending bit is set sends its message. [PRESUMED, log entry 51] -/
def State.writeMsix (s : State) (h k : Nat) (v : W32) : State :=
  let e := k / 4
  if k % 4 ≠ 3 then s.setReg (R.MSIX_TABLE h k) v
  else
    let s := s.setReg (R.MSIX_TABLE h k) (w32 (b2n (bit v 0)))
    if bit v 0 ∨ bit (s.reg (R.MSIX_PBA h 0)) e = false then s
    else (s.setReg (R.MSIX_PBA h 0) (setBit (s.reg (R.MSIX_PBA h 0)) e false)).sendMsi h e

/-- Clear bits of a register. -/
def State.clearBits (s : State) (a : Nat) (v : W32) : State := s.setReg a (s.reg a &&& ~~~v)

/-- A write of HOOP_TABLE[h] (R119): EN, then RESET. -/
def State.writeHoopTable (s : State) (h : Nat) (v : W32) : State :=
  let s := if h = 0 then s else ((s.setRegFld (R.HOOP_TABLE h) 0 1 (fld v 0 1)).matchHoops.startMoves).settled
  if bit v 1 then ((s.hoopReset h true).startMoves).settled else s

/-- A write of the scene-time unit's own registers (R25 to R38, R51) by function `f`; none for those that are stored. -/
def timeWrite (f : Nat) (n : String) (v : W32) : Option (State → State) :=
  if n = "TS_SOURCE" then some (doTsSourceWrite f v)
  else if n = "LOAD_CTRL" then some (doLoadGo f v)
  else if n = "HOST_POS_GO" then some (doHostPosGo f v)
  else if n = "CAPTURE_REQ" then some (doCaptureReq f v)
  else if n = "TS_STATUS_CLR" then
    some fun s => s.reach f R.TS_STATUS_CLR fun s => s.setTs { s.ts with loadRefused := s.ts.loadRefused && !bit v 10, srcRefused := s.ts.srcRefused && !bit v 12 }
  else none

/-- A write of a register of the trigger units, hoop pages, objects, pools, flash or contexts. -/
def storeWrite (f : Nat) (b : Blk) (u : Nat) (n : String) (i : Nat) (v : W32) (s : State) : Option State :=
  let cmd := fld v 0 4
  match b with
  | .triggerUnit =>
    if n = "TRIG_PART" then some (doTrigPartWrite f i v s)
    else if n = "TU_STATUS_CLR" then some (s.reach f (R.TU_STATUS_CLR u) fun s => s.clearBits (R.TU_STATUS u) (v &&& 0x10000))
    else none
  | .hoopTrigger =>
    if n = "RULE_CMD" then
      some (if cmd = 1 then doRuleWrite f u s else if cmd = 2 then doRuleRead f u s else if cmd = 3 then doRuleEnable f u s
        else if cmd = 4 then doRuleDisable f u s else if cmd = 5 then doForceArm f u s else if cmd = 6 then doForceFire f u s
        else if cmd = 7 then doForceDisarm f u s else s.reach f (R.RULE_CMD u) id)
    else if n = "PRICK_CTRL" then some (doPrickEnable f u i v s)
    else none
  | .objTable =>
    if n = "OBJ_CMD" then
      some (if cmd = 1 then doCreate f u s else if cmd = 2 then doDestroy f u s else if cmd = 3 then doPin f u s
        else if cmd = 4 then doUnpin f u s else if cmd = 5 then doQuery f u s else s.reach f (R.OBJ_CMD u) id)
    else if n = "OT_FLAGS_CLR" then some (s.reach f (R.OT_FLAGS_CLR u) fun s => s.clearBits (R.OT_FLAGS u) (v &&& 1))
    else if n = "HOST_POOL_BASE_LO" ∨ n = "HOST_POOL_BASE_HI" ∨ n = "HOST_POOL_PAGES" then
      let a := if n = "HOST_POOL_BASE_LO" then R.HOST_POOL_BASE_LO u else if n = "HOST_POOL_BASE_HI" then R.HOST_POOL_BASE_HI u else R.HOST_POOL_PAGES u
      some (s.reach f a fun s =>
        if s.objs.any fun e => decide (oHoop e.1 = u ∧ e.2.tier = 4) && e.2.used && e.2.homed then s.orReg (R.OT_FLAGS u) 1
        else (s.setReg a (if n = "HOST_POOL_BASE_LO" then v &&& 0xFFFFF000 else v)).startMoves)
    else none
  | .tierPool =>
    if n = "GUAR" then some (doGuarWrite f u i v s)
    else if n = "UNIT_SEL" then some (s.reach f (R.UNIT_SEL u) fun s => s.setReg (R.UNIT_SEL u) (applyLimit (.whole 0 (if u = 1 then 7 else 63)) v))
    else if n = "OT_ENTRIES" then some (doOtEntriesWrite f i v s)
    else if n = "POOL_STATUS_CLR" then some (s.reach f (R.POOL_STATUS_CLR u) fun s => s.clearBits (R.POOL_STATUS u) (v &&& 3))
    else if n = "FREE_TARGET" then some (s.reach f (R.FREE_TARGET u) fun s => (s.setReg (R.FREE_TARGET u) v).startMoves)
    else none
  | .commitTable =>
    if n = "CT_HWM_CLR" then
      some (s.reach f R.CT_HWM_CLR fun s => if bit v 0 then (List.range 6).foldl (fun (s : State) p => (s.setReg (R.CT_OCC p) 0).noteOcc p) s else s)
    else none
  | .skein =>
    if n = "BUDGET_RATE_MB" then some (doBudgetRateWrite f u v s)
    else if n = "BUDGET_CAP_MB" then some (doBudgetCapWrite f u v s)
    else if n = "CAT_CMD" then
      let c := fld v 0 3
      some (if c = 1 then doPreserve f s else if c = 2 then doAdopt f s else if c = 3 then doDiscard f s else if c = 4 then doLookup f s
        else if c = 5 then doCatalogueList f s else s.reach f R.CAT_CMD id)
    else if n = "RD_THRESHOLD" then
      some (s.reach f (R.RD_THRESHOLD u) fun s => (s.setReg (R.RD_THRESHOLD u) (w32 (min v.toNat ((s.reg (R.RD_URGENT u)).toNat - 1)))).skEvaluate u)
    else if n = "RD_URGENT" then
      some (s.reach f (R.RD_URGENT u) fun s => (s.setReg (R.RD_URGENT u) (w32 (clamp ((s.reg (R.RD_THRESHOLD u)).toNat + 1) 950000 v.toNat))).skEvaluate u)
    else if n = "REFRESH_BITS" then some (s.reach f (R.REFRESH_BITS u) fun s => (s.setReg (R.REFRESH_BITS u) (applyLimit (.whole 20 100) v)).skEvaluate u)
    else if n = "SPARE_FLOOR" then some (s.reach f (R.SPARE_FLOOR u) fun s => (s.setReg (R.SPARE_FLOOR u) (applyLimit (.whole 2 50) v)).wornNow u false)
    else none
  | .ctxGlobal =>
    if n = "ACT_GUAR" then some (doActGuarWrite f i v s)
    else if n = "CM_FLAGS_CLR" then some (s.reach f R.CM_FLAGS_CLR fun s => s.clearBits R.CM_FLAGS (v &&& 1))
    else if n = "SPILL" then
      some (s.reach f (R.SPILL i) fun s => s.setReg (R.SPILL i) (w32 ((if fld v 0 3 = 4 then 4 else 3) + fld v 8 2 * 2 ^ 8 + fld v 16 6 * 2 ^ 16)))
    else none
  | .ctxHoop =>
    if n = "CTX_CMD" then
      let c := fld v 0 3
      some (if c = 1 then doCtxQuery f u s else if c = 2 then doCtxPin f u s else if c = 3 then doCtxUnpin f u s else if c = 4 then doCtxRestore f u s
        else if c = 5 then doPark f u s else if c = 6 then doCtxList f u s else s.reach f (R.CTX_CMD u) id)
    else none
  | _ => none

/-- A write of a register of the knots, schedulers, links, island or cameras. -/
def workWrite (f : Nat) (b : Blk) (u : Nat) (n : String) (i j : Nat) (v : W32) (s : State) : Option State :=
  match b with
  | .cluster => if n = "CL_GB_HASH" then some (doClGbHashWrite f u v s) else none
  | .knot =>
    if n = "KN_STATUS_CLR" then some (s.reach f (R.KN_STATUS_CLR u) fun s => s.clearBits (R.KN_STATUS u) (v &&& 2))
    else if n = "CHK_KNOT" then some (s.reach f (R.CHK_KNOT u i) fun s => if s.chkIsOpen u then s.accessRefused .knot u else s.setReg (R.CHK_KNOT u i) v)
    else if n = "CHK_CMD" then
      some (if fld v 0 2 = 1 then doChkOpen f u s else if fld v 0 2 = 2 then doChkClose f u s else s.reach f (R.CHK_CMD u) id)
    else if n = "KDBG_SET" then some (doKdbgSet f v s)
    else none
  | .sched =>
    if n = "PRE_CMD" then
      if fld v 0 2 = 1 then (let (s, x) := s.freeAnswer; some (doPreempt f u x s))
      else some (if fld v 0 2 = 2 then doRelease f u s else s.reach f (R.PRE_CMD u) id)
    else if n = "PRE_HOOP" then some (s.reach f (R.PRE_HOOP u) fun s => if u = 0 then s.setReg (R.PRE_HOOP 0) (applyLimit (.whole 0 15) v) else s)
    else if n = "SCH_FLAGS_CLR" then some (s.reach f R.SCH_FLAGS_CLR fun s => s.clearBits R.SCH_FLAGS (v &&& 1))
    else if n = "SCH_CLUSTER" then some (doSchClusterWrite f i v s)
    else if n = "SHARE" then some (doShareWrite f j i v s)
    else if n = "REG_RATE" then some (doRegulatorWrite f j i 0 v s)
    else if n = "REG_BURST" then some (doRegulatorWrite f j i 1 v s)
    else if n = "REG_WEIGHT" then some (doRegulatorWrite f j i 2 v s)
    else none
  | .link =>
    if n = "LK_STATUS_CLR" then some (s.reach f (R.LK_STATUS_CLR u) fun s => if bit v 11 then s.setLk u { s.lk u with sessionNew := false } else s)
    else if n = "LK_PKG_ID" then some (doLkPkgIdWrite f v.toNat s)
    else none
  | .island =>
    if n = "ISL_SW_MUTE" then some (doIslSwMuteWrite f v s)
    else if n = "ISL_CTRL" then some (s.reach f R.ISL_CTRL fun s => s.writeIsl v)
    else if n = "ISL_CLEAR" then some (doIslClear f v s)
    else if n = "RING_NCH" then some (doRingNchWrite f v s)
    else if n = "RCH" then some (doRchWrite f i v s)
    else if n = "TDM_CTRL" then some (s.reach f (R.TDM_CTRL i) fun s => s.writeTdm i v)
    else if n = "GRP_CTRL" then some (s.reach f (R.GRP_CTRL i) fun s => s.writeGrp i v)
    else if n = "GRP_CTX" then
      some (s.reach f (R.GRP_CTX i) fun s =>
        let w := applyLimit (.whole 0 262143) v
        if bit (s.reg (R.GRP_CTRL i)) 0 ∧ w ≠ s.reg (R.GRP_CTX i) then s.accessRefused .island 0 else s.setReg (R.GRP_CTX i) w)
    else if n = "DET_ARM" then some (s.reach f (R.DET_ARM i) fun s => s.writeDet 0 i v)
    else if n = "DET_FIRE" then some (s.reach f (R.DET_FIRE i) fun s => s.writeDet 1 i v)
    else if n = "DET_HYST" then some (s.reach f (R.DET_HYST i) fun s => s.writeDet 2 i v)
    else if n = "ISL_STATUS_CLR" then some (s.reach f R.ISL_STATUS_CLR fun s => s.clearBits R.ISL_STATUS (v &&& 0x400))
    else if n = "MODEL_CMD" then some (if fld v 0 2 = 1 then doModelLoad f s else if fld v 0 2 = 2 then doModelUnload f s else s.reach f R.MODEL_CMD id)
    else none
  | .pipeline =>
    let cmd := fld v 0 3
    if n = "PIPE_STATUS_CLR" then some (s.reach f (R.PIPE_STATUS_CLR u) fun s => s.clearBits (R.PIPE_STATUS u) (v &&& 0x20))
    else if n = "PIPE_CMD" then
      some (if cmd = 1 then doBind f u s else if cmd = 2 then doUnbind f u s else if cmd = 3 then doMemRun f u s else if cmd = 4 then doMemAbort f u s
        else s.reach f (R.PIPE_CMD u) id)
    else if n = "PIPE_APPLY" then some (if bit v 0 then doPipeApply f u s else s.reach f (R.PIPE_APPLY u) id)
    else if n = "PORT_CTRL" then
      some (s.reach f (R.PORT_CTRL u) fun s => if s.feeds u ≠ [] then s.accessRefused .pipeline u else s.setReg (R.PORT_CTRL u) (applyLimit (.fields [(0,1,0,1), (1,3,1,if bit v 0 then 3 else 4)]) v))
    else none
  | _ => none

/-- A write of a register of the device page, host interface, doorbells, mailboxes, power manager or service block. -/
def deviceWrite (f : Nat) (b : Blk) (u : Nat) (n : String) (i j : Nat) (v : W32) (s : State) : Option State :=
  match b with
  | .devGlobal => if n = "HOOP_TABLE" then some (s.reach f (R.HOOP_TABLE i) fun s => s.writeHoopTable i v) else none
  | .mailbox => if n = "MB_CMD" then some (s.writeMbCmd f u v) else none
  | .power =>
    if n = "PM_STATE_REQ" then
      some (if bit v 8 then doStateRequest f (fld v 0 3) (bit v 4) s
        else s.reach f R.PM_STATE_REQ fun s => s.setReg R.PM_STATE_REQ (w32 (fld v 0 3 + 16 * fld v 4 1)))
    else if n = "PL_TARGET" then some (doPlTargetWrite f i v s)
    else if n = "PM_MEM_LEVEL" then some (doPmMemLevelWrite f v s)
    else if n = "PM_CAP_MW" then some (s.reach f R.PM_CAP_MW fun s => s.setReg R.PM_CAP_MW (w32 (clamp 20000 s.part.tdpMw v.toNat)))
    else if n = "PM_RESET" then some (doPmResetWarm f v s)
    else none
  | .service =>
    if n = "SVC_CMD" then some (s.writeSvcCmd f v)
    else if n = "FW_STATUS_CLR" then some (s.reach f R.FW_STATUS_CLR fun s => s.clearBits R.FW_STATUS (v &&& 0x300))
    else if n = "RAS_STATUS_CLR" then some (s.reach f R.RAS_STATUS_CLR fun s => s.clearBits R.RAS_STATUS (v &&& 1))
    else none
  | .hostIf =>
    let q := i + 32 * j
    if n = "CQ_CTRL" then some (if bit v 0 then doCqEnable f u q v s else doCqDisable f u q v s)
    else if n = "CQ_CMD" then
      some (if fld v 0 2 = 1 then doCqResume f u q s else if fld v 0 2 = 2 then doCqRetry f u q s else if fld v 0 2 = 3 then doCqClearFlags f u q s
        else s.reach f (R.CQ_CMD u i j) id)
    else if n = "CQ_BASE_LO" ∨ n = "CQ_BASE_HI" then
      let a := if n = "CQ_BASE_LO" then R.CQ_BASE_LO u i j else R.CQ_BASE_HI u i j
      some (s.reach f a fun s => if bit (s.reg (cqCtrl u q)) 0 then s.setCq u q { s.cq u q with cfgRefused := true } else s.setReg a v)
    else if n = "EQ_CTRL" then some (if bit v 0 then doEqEnable f u i v s else doEqDisable f u i v s)
    else if n = "EQ_BASE_LO" ∨ n = "EQ_BASE_HI" then
      let a := if n = "EQ_BASE_LO" then R.EQ_BASE_LO u i else R.EQ_BASE_HI u i
      some (s.reach f a fun s => if bit (s.reg (R.EQ_CTRL u i)) 0 then s.setEq u i { s.eq u i with cfgRefused := true }
        else (s.setReg a (if n = "EQ_BASE_LO" then v &&& 0xFFFFF000 else v)).setEq u i { s.eq u i with cfgRefused := false })
    else if n = "MSIX_TABLE" then some (s.reach f (R.MSIX_TABLE u i) fun s => s.writeMsix u i v)
    else none
  | .cqDoorbell =>
    let h := u / 256
    let q := u % 256
    if n = "CQ_DB_TAIL" then some (doCqDbTail f h q v s)
    else if n = "APPEND_DATA" then some (s.reach f (R.APPEND_DATA h q i) fun s => s.setReg (R.APPEND_DATA h q i) v)
    else if n = "APPEND_GO" then some (doAppendGo f h q v s)
    else none
  | .eqDoorbell =>
    if n = "EQ_DB_HEAD" then some (doEqDbHead f (u / 256) (u % 256) v s)
    else if n = "EQ_DB_ARM" then some (doEqDbArm f (u / 256) (u % 256) v s)
    else none
  | _ => none

/-- A register that no rule singles out: an RW register stores the value brought into its range, and every other write is
discarded (R98). -/
def State.storeReg (s : State) (f a : Nat) (r : RegRow) (v : W32) : State :=
  s.reach f a fun s => if r.acc = .RW then s.setReg a (applyLimit r.limit v) else s

/-- A 4-byte write by function `f` of a register beyond the scene-time unit's own. [DEDUCED, log entry 89] -/
def State.writeReg (s : State) (f a : Nat) (v : W32) : State :=
  match blkAt a with
  | none => s.reach f a id
  | some (b, u, off) =>
    if a < doorbellBase ∧ off % 0x1000 < 0x30 then s.writeHeader f b u (off % 0x1000) v
    else match rowAt b u off with
      | none => s.reach f a id
      | some (r, i, j) =>
        match storeWrite f b u r.name i v s with
        | some s' => s'
        | none => match workWrite f b u r.name i j v s with
          | some s' => s'
          | none => match deviceWrite f b u r.name i j v s with
            | some s' => s'
            | none => s.storeReg f a r v

/-- A 4-byte write by function `f` at window offset `a` (R98). Only the scene-time unit's own page touches scene time. -/
def State.write4 (s : State) (f a : Nat) (v : W32) : State :=
  if a / 0x1000 = 0x10 then
    if a % 0x1000 = 0x8 ∧ bit v 16 = true ∧ s.inView f a = true then doBlockReset f 0x10 (dev (fun s => s.writeReg f a (v &&& 0xFFFF)) s)
    else match (rowAt .sceneTime 0 (a % 0x1000)).bind fun r => timeWrite f r.1.name v with
      | some act => act s
      | none => dev (fun s => s.writeReg f a v) s
  else dev (fun s => s.writeReg f a v) s

/-- The knot window follows the doorbell window (R83, R90). -/
def knotsFrom : Nat := doorbellBase + 0x1000000

/-- Hoop, knot and word in its 16 bytes of an offset of the knot window (R90, R396). -/
def knotAt (a : Nat) : Nat × Nat × Nat := ((a - knotsFrom) / 0x40000, (a - knotsFrom) % 0x40000 / 16, (a - knotsFrom) % 16 / 4)

/-- A 4-byte write by function `f` in the knot window (R396). -/
def State.writeKnot (s : State) (f a : Nat) (v : W32) : State :=
  let (h, k, w) := knotAt a
  if w = 1 then doKwAdd f h k v s else if w = 2 then doKwReset f h k s else s.knotWindow f h id

/-- Is an address of the three windows in the view of function `f` (R84, R90)? -/
def State.sees (s : State) (f a : Nat) : Bool :=
  if knotsFrom ≤ a then decide (f = 0 ∨ (knotAt a).1 = f) else s.inView f a

/-- A 4-byte write by function `f` in any of the three windows. -/
def State.writeWord (s : State) (f a : Nat) (v : W32) : State :=
  if knotsFrom ≤ a then dev (fun s => s.writeKnot f a v) s else s.write4 f a v

/-- REGISTER_WRITE of `n` bytes at `a` (R85): 4 bytes reach one register, 8 bytes two, the lower first; any other write is
discarded as BAD_ACCESS. -/
def doRegisterWrite (f a n : Nat) (v : W64) (s : State) : State :=
  if n = 4 ∧ a % 4 = 0 then s.writeWord f a (v.setWidth 32)
  else if n = 8 ∧ a % 8 = 0 then (s.writeWord f a (v.setWidth 32)).writeWord f (a + 4) ((v >>> 32).setWidth 32)
  else dev (fun s => if s.sees f a then s.badAccess else s.viewViolation) s

/-! ## Reads and accesses outside the view (R84, R85, R92, R98) -/

/-- Access code of the register at `a`; none for a reserved offset and for the header. [DEDUCED, log entry 21] -/
def accAt (a : Nat) : Option Access :=
  match blkAt a with
  | none => none
  | some (b, u, off) => if a < doorbellBase ∧ off % 0x1000 < 0x30 then none else (rowAt b u off).map fun r => r.1.acc

/-- An RC register that a read reaches is cleared (R98): its count, and the time from which a count that still runs is taken; a
count that the model leaves open starts anew. -/
def State.clearRead (s : State) (a : Nat) : State :=
  let s := { s with freeCtr := s.freeCtr + 1 }.setReg a 0
  match blkAt a with
  | some (.triggerUnit, u, _) => if a = R.BACKPRESSURE_CYCLES u then s.setTu u { s.tu u with fullAt := (s.tu u).fullAt.map fun _ => s.now } else s
  | _ => s

/-- A read of the register at `a` by function `f`. -/
def State.read4 (s : State) (f a : Nat) : State × W32 :=
  let (s', v) := s.readTel f a
  if accAt a = some .RC ∧ s.inView f a = true ∧ s.answers a = true then (s'.clearRead a, v) else (s', v)

/-- A read of the four bytes at `a` of any window: of a knot only KW_VALUE has a value (R396). -/
def State.readAny (s : State) (f a : Nat) : State × W32 :=
  if knotsFrom ≤ a then
    let (h, k, w) := knotAt a
    (s, if w = 0 ∧ s.domainOn .compute = true then s.knot h k else 0)
  else s.read4 f a

/-- A read of some words as one access (R84): the words outside the view read 0, and the access counts once. -/
def State.readWords (s : State) (f first words : Nat) : State × Nat :=
  let s := if (List.range words).all fun k => s.sees f (first + 4 * k) then s else s.viewViolation
  (List.range words).foldl (fun (x : State × Nat) k =>
    if x.1.sees f (first + 4 * k) then (let (s, v) := x.1.readAny f (first + 4 * k); (s, x.2 + v.toNat * 2 ^ (32 * k))) else x) (s, 0)

/-- READ_CLEAR: a read of `n` bytes at `a` returns the addressed bytes of the registers that contain them (R85); eight aligned bytes
are two accesses, the lower first. [DEDUCED, log entry 21] -/
def doReadClear (f a n : Nat) (s : State) : State :=
  if n = 8 ∧ a % 8 = 0 then
    let (s, lo) := s.readWords f a 1
    let (s, hi) := s.readWords f (a + 4) 1
    s.setRead (lo + hi * 2 ^ 32)
  else
    let (s, v) := s.readWords f (a / 4 * 4) ((a + n + 3) / 4 - a / 4)
    s.setRead (v / 2 ^ (8 * (a % 4)) % 2 ^ (8 * n))

/-- The low words whose read latches a high word: every page's STAMP_LO, and the stamps of a rule, the hardware mute and the knot
debug log (R92). -/
def isStampLo (a : Nat) : Bool := decide (latchedBy (canonAt a) = [canonAt a + 4])

/-- STAMP_LO_READ (R92). -/
def doStampLoRead (f a : Nat) (s : State) : State := if isStampLo a then s.readWord f a else s

/-- STITCH_LO_READ of the scene-time page (`which` 0 STITCH_LO, 1 CAPTURE_LO, 2 CORR_LO) or, by its hoop, of a hoop page's copy
(`which` 3 + h) (R48, R154). -/
def doStitchLoRead (which : Nat) (s : State) : State :=
  if which = 0 then s.readWord 0 R.STITCH_LO else if which = 1 then s.readWord 0 R.CAPTURE_LO else if which = 2 then s.readWord 0 R.CORR_LO
  else s.readWord (which - 3) (R.HI_STITCH_LO (which - 3))

/-- OUT_OF_VIEW_ACCESS by function `f` (R84): a read returns 0. -/
def doOutOfViewAccess (f a : Nat) (write : Bool) (s : State) : State :=
  if s.sees f a then s else if write then s.viewViolation else s.viewViolation.setRead 0

/-! ## Meanings -/

def execOutOfViewAccess (f : Fin 16) (a : Fin 88080384) (write : Bool) (s : State) : Out := run (doOutOfViewAccess f a write) s
def execRegisterWrite (f : Fin 16) (a : Fin 88080384) (n : Fin 4097) (v : W64) (s : State) : Out :=
  runTime (doRegisterWrite f a n v) s
def execReadClear (f : Fin 16) (a : Fin 88080384) (n : Fin 4097) (s : State) : Out := run (doReadClear f a n) s
def execStitchLoRead (which : Fin 19) (s : State) : Out := run (doStitchLoRead which) s
def execStampLoRead (f : Fin 16) (a : Fin 83886080) (s : State) : Out := run (doStampLoRead f a) s
def execHoopOwnerWrite (f : Fin 16) (page : Fin 16384) (v : W32) (s : State) : Out := run (doHoopOwnerWrite f page v) s
def execExpertKeyWrite (f : Fin 16) (page : Fin 16384) (v : W32) (s : State) : Out := run (doExpertKeyWrite f page v) s
def execFaultMaskWrite (f : Fin 16) (page : Fin 16384) (v : W32) (s : State) : Out := run (doFaultMaskWrite f page v) s
def execFaultInject (f : Fin 16) (page : Fin 16384) (v : W32) (s : State) : Out := run (doFaultInject f page v) s

end Sys2Proof.Machine
end

