-- ==== Sys2Proof/Machine/Dispatch.lean ====
section
/-! DEFINITION. Every command with its meaning: one arm per row of the command table, in the table's order. -/

namespace Sys2Proof.Machine

/-- The effect of a command on everything but the queue of waiting commands. -/
def exec (i : Instr) (s : State) : Host.Outcome State Fault Refusal :=
  match i with
  | .referenceEdge dt falling width onPrev => Sys2Proof.Machine.execReferenceEdge dt falling width onPrev s
  | .generatedBoundary => Sys2Proof.Machine.execGeneratedBoundary s
  | .refLost => Sys2Proof.Machine.execRefLost s
  | .tsSourceWrite f v => Sys2Proof.Machine.execTsSourceWrite f v s
  | .hostPosGo f v => Sys2Proof.Machine.execHostPosGo f v s
  | .captureReq f v => Sys2Proof.Machine.execCaptureReq f v s
  | .loadGo f v => Sys2Proof.Machine.execLoadGo f v s
  | .stitchLoRead which => Sys2Proof.Machine.execStitchLoRead which s
  | .positionReached dt sub => Sys2Proof.Machine.execPositionReached dt sub s
  | .recordSequenced h => Sys2Proof.Machine.execRecordSequenced h s
  | .ruleEvaluate u => Sys2Proof.Machine.execRuleEvaluate u s
  | .pendingFireAppend h q => Sys2Proof.Machine.execPendingFireAppend h q s
  | .fireHoldExpiry h q => Sys2Proof.Machine.execFireHoldExpiry h q s
  | .disarm r => Sys2Proof.Machine.execDisarm r s
  | .ruleWrite f h => Sys2Proof.Machine.execRuleWrite f h s
  | .ruleRead f h => Sys2Proof.Machine.execRuleRead f h s
  | .ruleEnable f h => Sys2Proof.Machine.execRuleEnable f h s
  | .ruleDisable f h => Sys2Proof.Machine.execRuleDisable f h s
  | .forceArm f h => Sys2Proof.Machine.execForceArm f h s
  | .forceFire f h => Sys2Proof.Machine.execForceFire f h s
  | .forceDisarm f h => Sys2Proof.Machine.execForceDisarm f h s
  | .trigPartWrite f h v => Sys2Proof.Machine.execTrigPartWrite f h v s
  | .prickEnable f h n v => Sys2Proof.Machine.execPrickEnable f h n v s
  | .prickingEntry h n => Sys2Proof.Machine.execPrickingEntry h n s
  | .prickingWake => Sys2Proof.Machine.execPrickingWake s
  | .outOfViewAccess f a write => Sys2Proof.Machine.execOutOfViewAccess f a write s
  | .registerWrite f a n v => Sys2Proof.Machine.execRegisterWrite f a n v s
  | .readClear f a n => Sys2Proof.Machine.execReadClear f a n s
  | .stampLoRead f a => Sys2Proof.Machine.execStampLoRead f a s
  | .blockEnable f page => Sys2Proof.Machine.execBlockEnable f page s
  | .blockDisable f page => Sys2Proof.Machine.execBlockDisable f page s
  | .expertSelWrite f page v => Sys2Proof.Machine.execExpertSelWrite f page v s
  | .fenceReq f page => Sys2Proof.Machine.execFenceReq f page s
  | .returnReq f page => Sys2Proof.Machine.execReturnReq f page s
  | .blockReset f page => Sys2Proof.Machine.execBlockReset f page s
  | .blockStartComplete page ok => Sys2Proof.Machine.execBlockStartComplete page ok s
  | .blockStopComplete page => Sys2Proof.Machine.execBlockStopComplete page s
  | .fatalStateError page => Sys2Proof.Machine.execFatalStateError page s
  | .hoopOwnerWrite f page v => Sys2Proof.Machine.execHoopOwnerWrite f page v s
  | .expertKeyWrite f page v => Sys2Proof.Machine.execExpertKeyWrite f page v s
  | .faultMaskWrite f page v => Sys2Proof.Machine.execFaultMaskWrite f page v s
  | .faultInject f page v => Sys2Proof.Machine.execFaultInject f page v s
  | .cqDbTail f h q t => Sys2Proof.Machine.execCqDbTail f h q t s
  | .appendGo f h q v => Sys2Proof.Machine.execAppendGo f h q v s
  | .commandFetched h q bits err => Sys2Proof.Machine.execCommandFetched h q bits err s
  | .commandBegin h q host => Sys2Proof.Machine.execCommandBegin h q host s
  | .commandCommit h q pos => Sys2Proof.Machine.execCommandCommit h q pos s
  | .nop h q => Sys2Proof.Machine.execNop h q s
  | .runPattern h q => Sys2Proof.Machine.execRunPattern h q s
  | .runPatternArmOnly h q => Sys2Proof.Machine.execRunPatternArmOnly h q s
  | .move h q host => Sys2Proof.Machine.execMove h q host s
  | .knotWait h q => Sys2Proof.Machine.execKnotWait h q s
  | .knotWaitTimeout h q => Sys2Proof.Machine.execKnotWaitTimeout h q s
  | .knotSignal h q => Sys2Proof.Machine.execKnotSignal h q s
  | .atStitch h q => Sys2Proof.Machine.execAtStitch h q s
  | .fence h q => Sys2Proof.Machine.execFence h q s
  | .postEvent h q => Sys2Proof.Machine.execPostEvent h q s
  | .contextOpen h q => Sys2Proof.Machine.execContextOpen h q s
  | .contextClose h q => Sys2Proof.Machine.execContextClose h q s
  | .sealLoad h q host => Sys2Proof.Machine.execSealLoad h q host s
  | .cqResume f h q => Sys2Proof.Machine.execCqResume f h q s
  | .cqRetry f h q => Sys2Proof.Machine.execCqRetry f h q s
  | .cqClearFlags f h q => Sys2Proof.Machine.execCqClearFlags f h q s
  | .cqEnable f h q v => Sys2Proof.Machine.execCqEnable f h q v s
  | .cqDisable f h q v => Sys2Proof.Machine.execCqDisable f h q v s
  | .eqEnable f h e v => Sys2Proof.Machine.execEqEnable f h e v s
  | .eqDisable f h e v => Sys2Proof.Machine.execEqDisable f h e v s
  | .eqDbHead f h e v => Sys2Proof.Machine.execEqDbHead f h e v s
  | .eqDbArm f h e v => Sys2Proof.Machine.execEqDbArm f h e v s
  | .eqCoalesceExpiry h e => Sys2Proof.Machine.execEqCoalesceExpiry h e s
  | .hoopEnableWrite f h v => Sys2Proof.Machine.execHoopEnableWrite f h v s
  | .hoopReset f h => Sys2Proof.Machine.execHoopReset f h s
  | .vfEnableChange en num => Sys2Proof.Machine.execVfEnableChange en num s
  | .functionLevelReset h => Sys2Proof.Machine.execFunctionLevelReset h s
  | .conventionalReset => Sys2Proof.Machine.execConventionalReset s
  | .create f h => Sys2Proof.Machine.execCreate f h s
  | .destroy f h => Sys2Proof.Machine.execDestroy f h s
  | .pin f h => Sys2Proof.Machine.execPin f h s
  | .unpin f h => Sys2Proof.Machine.execUnpin f h s
  | .query f h => Sys2Proof.Machine.execQuery f h s
  | .otEntriesWrite f h v => Sys2Proof.Machine.execOtEntriesWrite f h v s
  | .guarWrite f tier h v => Sys2Proof.Machine.execGuarWrite f tier h v s
  | .allocationGranted => Sys2Proof.Machine.execAllocationGranted s
  | .shuttleRangeDone u cyc host => Sys2Proof.Machine.execShuttleRangeDone u cyc host s
  | .codecRangeDone u cyc stall host => Sys2Proof.Machine.execCodecRangeDone u cyc stall host s
  | .retiringRelease h idx => Sys2Proof.Machine.execRetiringRelease h idx s
  | .flashPageRead n b bits o0 o1 h idx tile consumer => Sys2Proof.Machine.execFlashPageRead n b bits o0 o1 h idx tile consumer s
  | .patrolRead n b bits permille corr retry uncorr => Sys2Proof.Machine.execPatrolRead n b bits permille corr retry uncorr s
  | .internalWorkDone n work b bytes => Sys2Proof.Machine.execInternalWorkDone n work b bytes s
  | .budgetAdmitted => Sys2Proof.Machine.execBudgetAdmitted s
  | .budgetCapWrite f n v => Sys2Proof.Machine.execBudgetCapWrite f n v s
  | .budgetRateWrite f n v => Sys2Proof.Machine.execBudgetRateWrite f n v s
  | .preserve f => Sys2Proof.Machine.execPreserve f s
  | .adopt f => Sys2Proof.Machine.execAdopt f s
  | .discard f => Sys2Proof.Machine.execDiscard f s
  | .lookup f => Sys2Proof.Machine.execLookup f s
  | .catalogueList f => Sys2Proof.Machine.execCatalogueList f s
  | .skeinReloadComplete n => Sys2Proof.Machine.execSkeinReloadComplete n s
  | .restoreStart h => Sys2Proof.Machine.execRestoreStart h s
  | .residencyStarved c => Sys2Proof.Machine.execResidencyStarved c s
  | .ctxQuery f h => Sys2Proof.Machine.execCtxQuery f h s
  | .ctxPin f h => Sys2Proof.Machine.execCtxPin f h s
  | .ctxUnpin f h => Sys2Proof.Machine.execCtxUnpin f h s
  | .ctxRestore f h => Sys2Proof.Machine.execCtxRestore f h s
  | .park f h => Sys2Proof.Machine.execPark f h s
  | .ctxList f h => Sys2Proof.Machine.execCtxList f h s
  | .actGuarWrite f h v => Sys2Proof.Machine.execActGuarWrite f h v s
  | .gemm core => Sys2Proof.Machine.execGemm core s
  | .vector core => Sys2Proof.Machine.execVector core s
  | .knotWaitStep core cyc => Sys2Proof.Machine.execKnotWaitStep core cyc s
  | .knotSignalStep core => Sys2Proof.Machine.execKnotSignalStep core s
  | .conv core => Sys2Proof.Machine.execConv core s
  | .dwconv core => Sys2Proof.Machine.execDwconv core s
  | .pool core => Sys2Proof.Machine.execPool core s
  | .resize core => Sys2Proof.Machine.execResize core s
  | .argmax core => Sys2Proof.Machine.execArgmax core s
  | .boxdec core => Sys2Proof.Machine.execBoxdec core s
  | .haloPut core => Sys2Proof.Machine.execHaloPut core s
  | .haloGet core => Sys2Proof.Machine.execHaloGet core s
  | .kvAppend core => Sys2Proof.Machine.execKvAppend core s
  | .attnFwd core => Sys2Proof.Machine.execAttnFwd core s
  | .attnBwd core => Sys2Proof.Machine.execAttnBwd core s
  | .recLinear core => Sys2Proof.Machine.execRecLinear core s
  | .recGru core => Sys2Proof.Machine.execRecGru core s
  | .recLstm core => Sys2Proof.Machine.execRecLstm core s
  | .stepComplete core slots vec bank stage knot port => Sys2Proof.Machine.execStepComplete core slots vec bank stage knot port s
  | .clGbHashWrite f n v => Sys2Proof.Machine.execClGbHashWrite f n v s
  | .kwAdd f h k v => Sys2Proof.Machine.execKwAdd f h k v s
  | .kwReset f h k => Sys2Proof.Machine.execKwReset f h k s
  | .chkOpen f h => Sys2Proof.Machine.execChkOpen f h s
  | .chkClose f h => Sys2Proof.Machine.execChkClose f h s
  | .kdbgSet f v => Sys2Proof.Machine.execKdbgSet f v s
  | .schClusterWrite f n v => Sys2Proof.Machine.execSchClusterWrite f n v s
  | .shareWrite f n h v => Sys2Proof.Machine.execShareWrite f n h v s
  | .turnEnd n => Sys2Proof.Machine.execTurnEnd n s
  | .regulatorWrite f h r which v => Sys2Proof.Machine.execRegulatorWrite f h r which v s
  | .tokenIssue h r => Sys2Proof.Machine.execTokenIssue h r s
  | .preempt f h cyc => Sys2Proof.Machine.execPreempt f h cyc s
  | .release f h => Sys2Proof.Machine.execRelease f h s
  | .linkTrainingComplete n lanes peer keyOk => Sys2Proof.Machine.execLinkTrainingComplete n lanes peer keyOk s
  | .linkDown n => Sys2Proof.Machine.execLinkDown n s
  | .flitReceived n ftype crcOk fseq ack cls credits tag ctr delivered => Sys2Proof.Machine.execFlitReceived n ftype crcOk fseq ack cls credits tag ctr delivered s
  | .nak n fseq => Sys2Proof.Machine.execNak n fseq s
  | .linkRekey n => Sys2Proof.Machine.execLinkRekey n s
  | .peerNewSession p => Sys2Proof.Machine.execPeerNewSession p s
  | .peerUnreachableTimeout p => Sys2Proof.Machine.execPeerUnreachableTimeout p s
  | .moveReq m ret handle kind size objSize param compressed coded => Sys2Proof.Machine.execMoveReq m ret handle kind size objSize param compressed coded s
  | .pullReq m => Sys2Proof.Machine.execPullReq m s
  | .pullData m tile crc bytes => Sys2Proof.Machine.execPullData m tile crc bytes s
  | .prepared m handle code over_ under_ size compressed => Sys2Proof.Machine.execPrepared m handle code over_ under_ size compressed s
  | .refused m gone => Sys2Proof.Machine.execRefused m gone s
  | .committed m => Sys2Proof.Machine.execCommitted m s
  | .cancel m => Sys2Proof.Machine.execCancel m s
  | .knotSig m knot op v => Sys2Proof.Machine.execKnotSig m knot op v s
  | .eventFwd m fwdEq line => Sys2Proof.Machine.execEventFwd m fwdEq line s
  | .lkPkgIdWrite f v => Sys2Proof.Machine.execLkPkgIdWrite f v s
  | .pdmLineStuck l => Sys2Proof.Machine.execPdmLineStuck l s
  | .pdmLineRecover l => Sys2Proof.Machine.execPdmLineRecover l s
  | .tdmPortLost p counts => Sys2Proof.Machine.execTdmPortLost p counts s
  | .tdmPortLocked p => Sys2Proof.Machine.execTdmPortLocked p s
  | .ringFrame c words => Sys2Proof.Machine.execRingFrame c words s
  | .detectorHop g chans => Sys2Proof.Machine.execDetectorHop g chans s
  | .segmentReady h q slot => Sys2Proof.Machine.execSegmentReady h q slot s
  | .modelLoad f => Sys2Proof.Machine.execModelLoad f s
  | .modelUnload f => Sys2Proof.Machine.execModelUnload f s
  | .hwMuteAssert => Sys2Proof.Machine.execHwMuteAssert s
  | .hwMuteRelease => Sys2Proof.Machine.execHwMuteRelease s
  | .ringClearComplete => Sys2Proof.Machine.execRingClearComplete s
  | .islSwMuteWrite f v => Sys2Proof.Machine.execIslSwMuteWrite f v s
  | .islClear f v => Sys2Proof.Machine.execIslClear f v s
  | .ringNchWrite f v => Sys2Proof.Machine.execRingNchWrite f v s
  | .rchWrite f c v => Sys2Proof.Machine.execRchWrite f c v s
  | .groupEnable f g v => Sys2Proof.Machine.execGroupEnable f g v s
  | .csiFrameStart port vc hdr csi => Sys2Proof.Machine.execCsiFrameStart port vc hdr csi s
  | .csiLine port vc hdr dt crcOk pixels occ => Sys2Proof.Machine.execCsiLine port vc hdr dt crcOk pixels occ s
  | .csiFrameEnd port vc hdr => Sys2Proof.Machine.execCsiFrameEnd port vc hdr s
  | .frameTimeout n => Sys2Proof.Machine.execFrameTimeout n s
  | .frameCommit n => Sys2Proof.Machine.execFrameCommit n s
  | .bind f n => Sys2Proof.Machine.execBind f n s
  | .unbind f n => Sys2Proof.Machine.execUnbind f n s
  | .memRun f n => Sys2Proof.Machine.execMemRun f n s
  | .memAbort f n => Sys2Proof.Machine.execMemAbort f n s
  | .memJobCommit n => Sys2Proof.Machine.execMemJobCommit n s
  | .pipeApply f n => Sys2Proof.Machine.execPipeApply f n s
  | .attest f h => Sys2Proof.Machine.execAttest f h s
  | .getChain f h => Sys2Proof.Machine.execGetChain f h s
  | .extend f h => Sys2Proof.Machine.execExtend f h s
  | .coChallenge f h => Sys2Proof.Machine.execCoChallenge f h s
  | .coAuth f h host => Sys2Proof.Machine.execCoAuth f h host s
  | .coAuthExpiry => Sys2Proof.Machine.execCoAuthExpiry s
  | .coAuthHoldoffEnd => Sys2Proof.Machine.execCoAuthHoldoffEnd s
  | .coLogout f h => Sys2Proof.Machine.execCoLogout f h s
  | .enrollCo f h host => Sys2Proof.Machine.execEnrollCo f h host s
  | .advanceSvn f h => Sys2Proof.Machine.execAdvanceSvn f h s
  | .zeroise f h => Sys2Proof.Machine.execZeroise f h s
  | .selfTest f h pass => Sys2Proof.Machine.execSelfTest f h pass s
  | .entropyTestFail => Sys2Proof.Machine.execEntropyTestFail s
  | .entropyRetest pass => Sys2Proof.Machine.execEntropyRetest pass s
  | .softErrorTimeout => Sys2Proof.Machine.execSoftErrorTimeout s
  | .getVersion => Sys2Proof.Machine.execGetVersion s
  | .getCapabilities => Sys2Proof.Machine.execGetCapabilities s
  | .negotiateAlgorithms => Sys2Proof.Machine.execNegotiateAlgorithms s
  | .getDigests => Sys2Proof.Machine.execGetDigests s
  | .getCertificate => Sys2Proof.Machine.execGetCertificate s
  | .challenge nonce => Sys2Proof.Machine.execChallenge nonce s
  | .getMeasurements => Sys2Proof.Machine.execGetMeasurements s
  | .keyExchange pub => Sys2Proof.Machine.execKeyExchange pub s
  | .finish ok => Sys2Proof.Machine.execFinish ok s
  | .endSession => Sys2Proof.Machine.execEndSession s
  | .keyProg stream => Sys2Proof.Machine.execKeyProg stream s
  | .jtagInstruction kind => Sys2Proof.Machine.execJtagInstruction kind s
  | .scrubComplete h bad => Sys2Proof.Machine.execScrubComplete h bad s
  | .dramZeroFill h => Sys2Proof.Machine.execDramZeroFill h s
  | .stateRequestActive f work => Sys2Proof.Machine.execStateRequestActive f work s
  | .stateRequestDoze f work => Sys2Proof.Machine.execStateRequestDoze f work s
  | .stateRequestListen f work => Sys2Proof.Machine.execStateRequestListen f work s
  | .stateRequestOff f work => Sys2Proof.Machine.execStateRequestOff f work s
  | .drainComplete => Sys2Proof.Machine.execDrainComplete s
  | .drainTimeout => Sys2Proof.Machine.execDrainTimeout s
  | .pmeTurnOff => Sys2Proof.Machine.execPmeTurnOff s
  | .pmeTimeout => Sys2Proof.Machine.execPmeTimeout s
  | .entryComplete dt => Sys2Proof.Machine.execEntryComplete dt s
  | .wakeInEvent pin level => Sys2Proof.Machine.execWakeInEvent pin level s
  | .wakeStuck pin => Sys2Proof.Machine.execWakeStuck pin s
  | .powerGoodTimeout => Sys2Proof.Machine.execPowerGoodTimeout s
  | .powerGoodLost pg => Sys2Proof.Machine.execPowerGoodLost pg s
  | .exitComplete dt => Sys2Proof.Machine.execExitComplete dt s
  | .idleEntry => Sys2Proof.Machine.execIdleEntry s
  | .powerMeasure mw => Sys2Proof.Machine.execPowerMeasure mw s
  | .thermalStep cl dr sk => Sys2Proof.Machine.execThermalStep cl dr sk s
  | .thermalTrip => Sys2Proof.Machine.execThermalTrip s
  | .plTargetWrite f n v => Sys2Proof.Machine.execPlTargetWrite f n v s
  | .levelChangeDone n => Sys2Proof.Machine.execLevelChangeDone n s
  | .pmMemLevelWrite f v => Sys2Proof.Machine.execPmMemLevelWrite f v s
  | .memLevelChangeDone => Sys2Proof.Machine.execMemLevelChangeDone s
  | .pmResetWarm f v => Sys2Proof.Machine.execPmResetWarm f v s
  | .coldReset why => Sys2Proof.Machine.execColdReset why s
  | .warmReset => Sys2Proof.Machine.execWarmReset s
  | .bootComplete images dt => Sys2Proof.Machine.execBootComplete images dt s
  | .sysclkStop => Sys2Proof.Machine.execSysclkStop s
  | .audclkStop => Sys2Proof.Machine.execAudclkStop s
  | .fwStage f verified host => Sys2Proof.Machine.execFwStage f verified host s
  | .fwActivate f => Sys2Proof.Machine.execFwActivate f s
  | .fwSafePoint => Sys2Proof.Machine.execFwSafePoint s
  | .fwSafeTimeout => Sys2Proof.Machine.execFwSafeTimeout s
  | .fwConfirm f => Sys2Proof.Machine.execFwConfirm f s
  | .fwRevert f => Sys2Proof.Machine.execFwRevert f s
  | .heartbeatMissed => Sys2Proof.Machine.execHeartbeatMissed s
  | .trialExpiry => Sys2Proof.Machine.execTrialExpiry s
  | .dieFence f bad => Sys2Proof.Machine.execDieFence f bad s
  | .dieReturn f pass => Sys2Proof.Machine.execDieReturn f pass s
  | .laneFence f => Sys2Proof.Machine.execLaneFence f s
  | .laneReturn f => Sys2Proof.Machine.execLaneReturn f s
  | .stackDrainTimeout n left => Sys2Proof.Machine.execStackDrainTimeout n left s
  | .healthCheckComplete page pass => Sys2Proof.Machine.execHealthCheckComplete page pass s
  | .eccError page corrected row tile consumer => Sys2Proof.Machine.execEccError page corrected row tile consumer s
  | .sramPatrol found => Sys2Proof.Machine.execSramPatrol found s
  | .telemetrySnapshot => Sys2Proof.Machine.execTelemetrySnapshot s
  | .telSeqLoRead f => Sys2Proof.Machine.execTelSeqLoRead f s
  | .telSeqHiRead f => Sys2Proof.Machine.execTelSeqHiRead f s
  | .smbReadPmStatus => Sys2Proof.Machine.execSmbReadPmStatus s
  | .smbReadPmTemp => Sys2Proof.Machine.execSmbReadPmTemp s
  | .smbReadPmPower => Sys2Proof.Machine.execSmbReadPmPower s
  | .smbReadResetCause => Sys2Proof.Machine.execSmbReadResetCause s
  | .smbReadDevPart => Sys2Proof.Machine.execSmbReadDevPart s
  | .smbReadDevStatus => Sys2Proof.Machine.execSmbReadDevStatus s
  | .smbAlertResponse => Sys2Proof.Machine.execSmbAlertResponse s
  | .laneFault n lane => Sys2Proof.Machine.execLaneFault n lane s
  | .ctxQuantumElapsed c => Sys2Proof.Machine.execCtxQuantumElapsed c s
  | .wakeStuckClear pin => Sys2Proof.Machine.execWakeStuckClear pin s
  | .sysclkReturn => Sys2Proof.Machine.execSysclkReturn s
  | .pcieLinkUp => Sys2Proof.Machine.execPcieLinkUp s

end Sys2Proof.Machine
end

