-- ==== Sys2Proof/Laws/Maps.lean ====
section
/-! SUPPORT. The laws of sparse maps: what a read gives after a write, and that a write keeps the canonical form. -/

namespace Sys2Proof.Machine

variable {V : Type}

/-- A deleted key reads as the default. -/
theorem mget_mdel_same (d : V) (m : SMap V) (k : Nat) : mget d (mdel m k) k = d := by
  induction m with
  | nil => rfl
  | cons e r ih => by_cases h : e.1 = k <;> simp_all [mdel, mget]

/-- A deletion leaves the other keys as they were. -/
theorem mget_mdel_ne (d : V) (m : SMap V) (k k' : Nat) (h : k' ≠ k) : mget d (mdel m k) k' = mget d m k' := by
  induction m with
  | nil => rfl
  | cons e r ih =>
    have ih' : mget d (r.filter fun e => decide (e.1 ≠ k)) k' = mget d r k' := ih
    by_cases h1 : e.1 = k
    · have h2 : ¬ k = k' := fun h2 => h h2.symm
      subst h1
      simpa [mdel, mget, h2] using ih'
    · simp [mdel, mget, h1]
      by_cases h2 : e.1 = k' <;> simp [h2]
      simpa using ih'

/-- What stands at a key after an entry is put where the key is not listed. -/
theorem mget_mput_same (d : V) (m : SMap V) (k : Nat) (v : V) (h : ∀ e ∈ m, e.1 ≠ k) : mget d (mput m k v) k = v := by
  induction m with
  | nil => simp [mput, mget]
  | cons e r ih =>
    have h1 : ¬ e.1 = k := h e (by simp)
    have h2 := ih fun e he => h e (by simp [he])
    by_cases h3 : k < e.1 <;> simp [mput, mget, h1, h2, h3]

/-- A put leaves the other keys as they were. -/
theorem mget_mput_ne (d : V) (m : SMap V) (k k' : Nat) (v : V) (h : k' ≠ k) : mget d (mput m k v) k' = mget d m k' := by
  have h' : ¬ k = k' := fun e => h e.symm
  induction m with
  | nil => simp [mput, mget, h']
  | cons e r ih => by_cases h1 : k < e.1 <;> simp [mput, mget, h1, h', ih]

variable [DecidableEq V]

/-- A read after a write of the same key gives the value written. -/
@[simp] theorem mget_mset_same (d : V) (m : SMap V) (k : Nat) (v : V) : mget d (mset d m k v) k = v := by
  by_cases h : v = d
  · subst h; simp [mset, mget_mdel_same]
  · simp only [mset, h, if_false]
    exact mget_mput_same d _ k v fun e he => by simpa using (List.mem_filter.1 he).2

/-- A write elsewhere leaves a key as it was. -/
theorem mget_mset_ne (d d' : V) (m : SMap V) (k k' : Nat) (v : V) (h : k' ≠ k) : mget d' (mset d m k v) k' = mget d' m k' := by
  by_cases hv : v = d
  · simp [mset, hv, mget_mdel_ne d' m k k' h]
  · simp [mset, hv, mget_mput_ne d' _ k k' v h, mget_mdel_ne d' m k k' h]

/-- A canonical map stays canonical from any lower bound. -/
theorem mwf_mono (d : Nat → V) (m : SMap V) (lo lo' : Nat) (hl : lo' ≤ lo) (h : mwf d lo m = true) : mwf d lo' m = true := by
  cases m with
  | nil => rfl
  | cons e r =>
    simp only [mwf, Bool.and_eq_true, decide_eq_true_eq] at h ⊢
    exact ⟨⟨by omega, h.1.2⟩, h.2⟩

/-- A deletion keeps the canonical form. -/
theorem mwf_mdel (d : Nat → V) (lo : Nat) (m : SMap V) (k : Nat) (h : mwf d lo m = true) : mwf d lo (mdel m k) = true := by
  induction m generalizing lo with
  | nil => rfl
  | cons e r ih =>
    simp only [mwf, Bool.and_eq_true, decide_eq_true_eq] at h
    have h' := ih (e.1 + 1) h.2
    by_cases h1 : e.1 = k
    · have : mdel (e :: r) k = mdel r k := by simp [mdel, h1]
      rw [this]
      exact mwf_mono d _ (e.1 + 1) lo (by omega) h'
    · have : mdel (e :: r) k = e :: mdel r k := by simp [mdel, h1]
      rw [this]
      simp only [mwf, Bool.and_eq_true, decide_eq_true_eq]
      exact ⟨h.1, h'⟩

/-- A put of a value other than the default keeps the canonical form. -/
theorem mwf_mput (d : Nat → V) (lo : Nat) (m : SMap V) (k : Nat) (v : V) (hk : lo ≤ k) (hv : v ≠ d k) (hm : ∀ e ∈ m, e.1 ≠ k)
    (h : mwf d lo m = true) : mwf d lo (mput m k v) = true := by
  induction m generalizing lo with
  | nil => simp [mput, mwf, hv, hk]
  | cons e r ih =>
    simp only [mwf, Bool.and_eq_true, decide_eq_true_eq] at h
    have h0 : e.1 ≠ k := hm e (by simp)
    by_cases h1 : k < e.1
    · simp only [mput, h1, if_true, mwf, Bool.and_eq_true, decide_eq_true_eq]
      exact ⟨⟨hk, by simpa using hv⟩, ⟨by omega, h.1.2⟩, h.2⟩
    · simp only [mput, h1, if_false, mwf, Bool.and_eq_true, decide_eq_true_eq]
      exact ⟨h.1, ih (e.1 + 1) (by omega) (fun e he => hm e (by simp [he])) h.2⟩

/-- A write keeps the canonical form. -/
theorem mwf_mset (d : Nat → V) (lo : Nat) (m : SMap V) (k : Nat) (v : V) (hk : lo ≤ k) (h : mwf d lo m = true) : mwf d lo (mset (d k) m k v) = true := by
  by_cases hv : v = d k
  · simpa [mset, hv] using mwf_mdel d lo m k h
  · simp only [mset, hv, if_false]
    exact mwf_mput d lo _ k v hk hv (fun e he => by simpa using (List.mem_filter.1 he).2) (mwf_mdel d lo m k h)

/-- What a filter leaves of a canonical map is canonical. -/
theorem mwf_filter (d : Nat → V) (lo : Nat) (m : SMap V) (p : Nat × V → Bool) (h : mwf d lo m = true) : mwf d lo (m.filter p) = true := by
  induction m generalizing lo with
  | nil => rfl
  | cons e r ih =>
    simp only [mwf, Bool.and_eq_true, decide_eq_true_eq] at h
    by_cases hp : p e = true
    · simp only [List.filter_cons, hp, if_true, mwf, Bool.and_eq_true, decide_eq_true_eq]
      exact ⟨h.1, ih (e.1 + 1) h.2⟩
    · simp only [List.filter_cons, hp]
      exact mwf_mono d _ (e.1 + 1) lo (by omega) (ih (e.1 + 1) h.2)

/-- Writes of consecutive keys keep the canonical form. -/
theorem mwf_msetList (d : V) (lo : Nat) (vs : List V) (m : SMap V) (k : Nat) (hk : lo ≤ k) (h : mwf (fun _ => d) lo m = true) :
    mwf (fun _ => d) lo (msetList d m k vs) = true := by
  induction vs generalizing m k with
  | nil => exact h
  | cons v vs ih => exact ih _ (k + 1) (by omega) (mwf_mset (fun _ => d) lo m k v hk h)

/-- The merge of two maps is canonical where the map that is kept is. -/
theorem mwf_mmerge (d : V) (p : Nat → Bool) (a b : SMap V) (h : mwf (fun _ => d) 0 a = true) : mwf (fun _ => d) 0 (mmerge d p a b) = true := by
  unfold mmerge
  generalize b.filter (fun e => p e.1) = l
  have h' := mwf_filter (fun _ => d) 0 a (fun e => !p e.1) h
  generalize a.filter (fun e => !p e.1) = m at h'
  induction l generalizing m with
  | nil => exact h'
  | cons e r ih => exact ih _ (mwf_mset (fun _ => d) 0 m e.1 e.2 (by omega) h')

end Sys2Proof.Machine
end

