-- ==== Sys2Proof/Laws/State.lean ====
section
/-! SUPPORT. What each named update of the state leaves as it is: one lemma per field, all by definition. -/

namespace Sys2Proof.Machine

@[simp] theorem State.setReg_part (s : State) (a : Nat) (v : W32) : (s.setReg a v).part = s.part := rfl
@[simp] theorem State.setReg_now (s : State) (a : Nat) (v : W32) : (s.setReg a v).now = s.now := rfl
@[simp] theorem State.setReg_sub (s : State) (a : Nat) (v : W32) : (s.setReg a v).sub = s.sub := rfl
@[simp] theorem State.setReg_ts (s : State) (a : Nat) (v : W32) : (s.setReg a v).ts = s.ts := rfl
@[simp] theorem State.setReg_latch (s : State) (a : Nat) (v : W32) : (s.setReg a v).latch = s.latch := rfl
@[simp] theorem State.setReg_readData (s : State) (a : Nat) (v : W32) : (s.setReg a v).readData = s.readData := rfl
@[simp] theorem State.setReg_partials (s : State) (a : Nat) (v : W32) : (s.setReg a v).partials = s.partials := rfl
@[simp] theorem State.setReg_faults (s : State) (a : Nat) (v : W32) : (s.setReg a v).faults = s.faults := rfl
@[simp] theorem State.setReg_freeCtr (s : State) (a : Nat) (v : W32) : (s.setReg a v).freeCtr = s.freeCtr := rfl
@[simp] theorem State.setReg_nextId (s : State) (a : Nat) (v : W32) : (s.setReg a v).nextId = s.nextId := rfl
@[simp] theorem State.setReg_rules (s : State) (a : Nat) (v : W32) : (s.setReg a v).rules = s.rules := rfl
@[simp] theorem State.setReg_tus (s : State) (a : Nat) (v : W32) : (s.setReg a v).tus = s.tus := rfl
@[simp] theorem State.setReg_pendFires (s : State) (a : Nat) (v : W32) : (s.setReg a v).pendFires = s.pendFires := rfl
@[simp] theorem State.setReg_pricks (s : State) (a : Nat) (v : W32) : (s.setReg a v).pricks = s.pricks := rfl
@[simp] theorem State.setReg_hoops (s : State) (a : Nat) (v : W32) : (s.setReg a v).hoops = s.hoops := rfl
@[simp] theorem State.setReg_cqs (s : State) (a : Nat) (v : W32) : (s.setReg a v).cqs = s.cqs := rfl
@[simp] theorem State.setReg_eqs (s : State) (a : Nat) (v : W32) : (s.setReg a v).eqs = s.eqs := rfl
@[simp] theorem State.setReg_eqRings (s : State) (a : Nat) (v : W32) : (s.setReg a v).eqRings = s.eqRings := rfl
@[simp] theorem State.setReg_msiSent (s : State) (a : Nat) (v : W32) : (s.setReg a v).msiSent = s.msiSent := rfl
@[simp] theorem State.setReg_vfEnable (s : State) (a : Nat) (v : W32) : (s.setReg a v).vfEnable = s.vfEnable := rfl
@[simp] theorem State.setReg_numVfs (s : State) (a : Nat) (v : W32) : (s.setReg a v).numVfs = s.numVfs := rfl
@[simp] theorem State.setReg_objs (s : State) (a : Nat) (v : W32) : (s.setReg a v).objs = s.objs := rfl
@[simp] theorem State.setReg_allocs (s : State) (a : Nat) (v : W32) : (s.setReg a v).allocs = s.allocs := rfl
@[simp] theorem State.setReg_retiring (s : State) (a : Nat) (v : W32) : (s.setReg a v).retiring = s.retiring := rfl
@[simp] theorem State.setReg_moves (s : State) (a : Nat) (v : W32) : (s.setReg a v).moves = s.moves := rfl
@[simp] theorem State.setReg_flights (s : State) (a : Nat) (v : W32) : (s.setReg a v).flights = s.flights := rfl
@[simp] theorem State.setReg_waits (s : State) (a : Nat) (v : W32) : (s.setReg a v).waits = s.waits := rfl
@[simp] theorem State.setReg_walks (s : State) (a : Nat) (v : W32) : (s.setReg a v).walks = s.walks := rfl
@[simp] theorem State.setReg_skeins (s : State) (a : Nat) (v : W32) : (s.setReg a v).skeins = s.skeins := rfl
@[simp] theorem State.setReg_catalogue (s : State) (a : Nat) (v : W32) : (s.setReg a v).catalogue = s.catalogue := rfl
@[simp] theorem State.setReg_ctxs (s : State) (a : Nat) (v : W32) : (s.setReg a v).ctxs = s.ctxs := rfl
@[simp] theorem State.setReg_knots (s : State) (a : Nat) (v : W32) : (s.setReg a v).knots = s.knots := rfl
@[simp] theorem State.setReg_heldKnots (s : State) (a : Nat) (v : W32) : (s.setReg a v).heldKnots = s.heldKnots := rfl
@[simp] theorem State.setReg_chkOpen (s : State) (a : Nat) (v : W32) : (s.setReg a v).chkOpen = s.chkOpen := rfl
@[simp] theorem State.setReg_kdbg (s : State) (a : Nat) (v : W32) : (s.setReg a v).kdbg = s.kdbg := rfl
@[simp] theorem State.setReg_turns (s : State) (a : Nat) (v : W32) : (s.setReg a v).turns = s.turns := rfl
@[simp] theorem State.setReg_buckets (s : State) (a : Nat) (v : W32) : (s.setReg a v).buckets = s.buckets := rfl
@[simp] theorem State.setReg_links (s : State) (a : Nat) (v : W32) : (s.setReg a v).links = s.links := rfl
@[simp] theorem State.setReg_sessions (s : State) (a : Nat) (v : W32) : (s.setReg a v).sessions = s.sessions := rfl
@[simp] theorem State.setReg_remotes (s : State) (a : Nat) (v : W32) : (s.setReg a v).remotes = s.remotes := rfl
@[simp] theorem State.setReg_rotations (s : State) (a : Nat) (v : W32) : (s.setReg a v).rotations = s.rotations := rfl
@[simp] theorem State.setReg_fatal (s : State) (a : Nat) (v : W32) : (s.setReg a v).fatal = s.fatal := rfl
@[simp] theorem State.setReg_entered (s : State) (a : Nat) (v : W32) : (s.setReg a v).entered = s.entered := rfl
@[simp] theorem State.setReg_zeroOwed (s : State) (a : Nat) (v : W32) : (s.setReg a v).zeroOwed = s.zeroOwed := rfl
@[simp] theorem State.setReg_pipes (s : State) (a : Nat) (v : W32) : (s.setReg a v).pipes = s.pipes := rfl
@[simp] theorem State.setReg_gone (s : State) (a : Nat) (v : W32) : (s.setReg a v).gone = s.gone := rfl
@[simp] theorem State.setReg_rot (s : State) (a : Nat) (v : W32) : (s.setReg a v).rot = s.rot := rfl
@[simp] theorem State.setReg_pm (s : State) (a : Nat) (v : W32) : (s.setReg a v).pm = s.pm := rfl
@[simp] theorem State.setReg_svc (s : State) (a : Nat) (v : W32) : (s.setReg a v).svc = s.svc := rfl
@[simp] theorem State.setReg_island (s : State) (a : Nat) (v : W32) : (s.setReg a v).island = s.island := rfl
@[simp] theorem State.setReg_pcie (s : State) (a : Nat) (v : W32) : (s.setReg a v).pcie = s.pcie := rfl
@[simp] theorem State.setReg_camCtls (s : State) (a : Nat) (v : W32) : (s.setReg a v).camCtls = s.camCtls := rfl
@[simp] theorem State.setReg_freeRefused (s : State) (a : Nat) (v : W32) : (s.setReg a v).freeRefused = s.freeRefused := rfl
@[simp] theorem State.setReg_turnsOf (s : State) (a : Nat) (v : W32) : (s.setReg a v).turnsOf = s.turnsOf := rfl
@[simp] theorem State.setReg_pending (s : State) (a : Nat) (v : W32) : (s.setReg a v).pending = s.pending := rfl

@[simp] theorem State.latchReg_part (s : State) (a : Nat) (v : W32) : (s.latchReg a v).part = s.part := rfl
@[simp] theorem State.latchReg_now (s : State) (a : Nat) (v : W32) : (s.latchReg a v).now = s.now := rfl
@[simp] theorem State.latchReg_sub (s : State) (a : Nat) (v : W32) : (s.latchReg a v).sub = s.sub := rfl
@[simp] theorem State.latchReg_ts (s : State) (a : Nat) (v : W32) : (s.latchReg a v).ts = s.ts := rfl
@[simp] theorem State.latchReg_regs (s : State) (a : Nat) (v : W32) : (s.latchReg a v).regs = s.regs := rfl
@[simp] theorem State.latchReg_readData (s : State) (a : Nat) (v : W32) : (s.latchReg a v).readData = s.readData := rfl
@[simp] theorem State.latchReg_partials (s : State) (a : Nat) (v : W32) : (s.latchReg a v).partials = s.partials := rfl
@[simp] theorem State.latchReg_faults (s : State) (a : Nat) (v : W32) : (s.latchReg a v).faults = s.faults := rfl
@[simp] theorem State.latchReg_freeCtr (s : State) (a : Nat) (v : W32) : (s.latchReg a v).freeCtr = s.freeCtr := rfl
@[simp] theorem State.latchReg_nextId (s : State) (a : Nat) (v : W32) : (s.latchReg a v).nextId = s.nextId := rfl
@[simp] theorem State.latchReg_rules (s : State) (a : Nat) (v : W32) : (s.latchReg a v).rules = s.rules := rfl
@[simp] theorem State.latchReg_tus (s : State) (a : Nat) (v : W32) : (s.latchReg a v).tus = s.tus := rfl
@[simp] theorem State.latchReg_pendFires (s : State) (a : Nat) (v : W32) : (s.latchReg a v).pendFires = s.pendFires := rfl
@[simp] theorem State.latchReg_pricks (s : State) (a : Nat) (v : W32) : (s.latchReg a v).pricks = s.pricks := rfl
@[simp] theorem State.latchReg_hoops (s : State) (a : Nat) (v : W32) : (s.latchReg a v).hoops = s.hoops := rfl
@[simp] theorem State.latchReg_cqs (s : State) (a : Nat) (v : W32) : (s.latchReg a v).cqs = s.cqs := rfl
@[simp] theorem State.latchReg_eqs (s : State) (a : Nat) (v : W32) : (s.latchReg a v).eqs = s.eqs := rfl
@[simp] theorem State.latchReg_eqRings (s : State) (a : Nat) (v : W32) : (s.latchReg a v).eqRings = s.eqRings := rfl
@[simp] theorem State.latchReg_msiSent (s : State) (a : Nat) (v : W32) : (s.latchReg a v).msiSent = s.msiSent := rfl
@[simp] theorem State.latchReg_vfEnable (s : State) (a : Nat) (v : W32) : (s.latchReg a v).vfEnable = s.vfEnable := rfl
@[simp] theorem State.latchReg_numVfs (s : State) (a : Nat) (v : W32) : (s.latchReg a v).numVfs = s.numVfs := rfl
@[simp] theorem State.latchReg_objs (s : State) (a : Nat) (v : W32) : (s.latchReg a v).objs = s.objs := rfl
@[simp] theorem State.latchReg_allocs (s : State) (a : Nat) (v : W32) : (s.latchReg a v).allocs = s.allocs := rfl
@[simp] theorem State.latchReg_retiring (s : State) (a : Nat) (v : W32) : (s.latchReg a v).retiring = s.retiring := rfl
@[simp] theorem State.latchReg_moves (s : State) (a : Nat) (v : W32) : (s.latchReg a v).moves = s.moves := rfl
@[simp] theorem State.latchReg_flights (s : State) (a : Nat) (v : W32) : (s.latchReg a v).flights = s.flights := rfl
@[simp] theorem State.latchReg_waits (s : State) (a : Nat) (v : W32) : (s.latchReg a v).waits = s.waits := rfl
@[simp] theorem State.latchReg_walks (s : State) (a : Nat) (v : W32) : (s.latchReg a v).walks = s.walks := rfl
@[simp] theorem State.latchReg_skeins (s : State) (a : Nat) (v : W32) : (s.latchReg a v).skeins = s.skeins := rfl
@[simp] theorem State.latchReg_catalogue (s : State) (a : Nat) (v : W32) : (s.latchReg a v).catalogue = s.catalogue := rfl
@[simp] theorem State.latchReg_ctxs (s : State) (a : Nat) (v : W32) : (s.latchReg a v).ctxs = s.ctxs := rfl
@[simp] theorem State.latchReg_knots (s : State) (a : Nat) (v : W32) : (s.latchReg a v).knots = s.knots := rfl
@[simp] theorem State.latchReg_heldKnots (s : State) (a : Nat) (v : W32) : (s.latchReg a v).heldKnots = s.heldKnots := rfl
@[simp] theorem State.latchReg_chkOpen (s : State) (a : Nat) (v : W32) : (s.latchReg a v).chkOpen = s.chkOpen := rfl
@[simp] theorem State.latchReg_kdbg (s : State) (a : Nat) (v : W32) : (s.latchReg a v).kdbg = s.kdbg := rfl
@[simp] theorem State.latchReg_turns (s : State) (a : Nat) (v : W32) : (s.latchReg a v).turns = s.turns := rfl
@[simp] theorem State.latchReg_buckets (s : State) (a : Nat) (v : W32) : (s.latchReg a v).buckets = s.buckets := rfl
@[simp] theorem State.latchReg_links (s : State) (a : Nat) (v : W32) : (s.latchReg a v).links = s.links := rfl
@[simp] theorem State.latchReg_sessions (s : State) (a : Nat) (v : W32) : (s.latchReg a v).sessions = s.sessions := rfl
@[simp] theorem State.latchReg_remotes (s : State) (a : Nat) (v : W32) : (s.latchReg a v).remotes = s.remotes := rfl
@[simp] theorem State.latchReg_rotations (s : State) (a : Nat) (v : W32) : (s.latchReg a v).rotations = s.rotations := rfl
@[simp] theorem State.latchReg_fatal (s : State) (a : Nat) (v : W32) : (s.latchReg a v).fatal = s.fatal := rfl
@[simp] theorem State.latchReg_entered (s : State) (a : Nat) (v : W32) : (s.latchReg a v).entered = s.entered := rfl
@[simp] theorem State.latchReg_zeroOwed (s : State) (a : Nat) (v : W32) : (s.latchReg a v).zeroOwed = s.zeroOwed := rfl
@[simp] theorem State.latchReg_pipes (s : State) (a : Nat) (v : W32) : (s.latchReg a v).pipes = s.pipes := rfl
@[simp] theorem State.latchReg_gone (s : State) (a : Nat) (v : W32) : (s.latchReg a v).gone = s.gone := rfl
@[simp] theorem State.latchReg_rot (s : State) (a : Nat) (v : W32) : (s.latchReg a v).rot = s.rot := rfl
@[simp] theorem State.latchReg_pm (s : State) (a : Nat) (v : W32) : (s.latchReg a v).pm = s.pm := rfl
@[simp] theorem State.latchReg_svc (s : State) (a : Nat) (v : W32) : (s.latchReg a v).svc = s.svc := rfl
@[simp] theorem State.latchReg_island (s : State) (a : Nat) (v : W32) : (s.latchReg a v).island = s.island := rfl
@[simp] theorem State.latchReg_pcie (s : State) (a : Nat) (v : W32) : (s.latchReg a v).pcie = s.pcie := rfl
@[simp] theorem State.latchReg_camCtls (s : State) (a : Nat) (v : W32) : (s.latchReg a v).camCtls = s.camCtls := rfl
@[simp] theorem State.latchReg_freeRefused (s : State) (a : Nat) (v : W32) : (s.latchReg a v).freeRefused = s.freeRefused := rfl
@[simp] theorem State.latchReg_turnsOf (s : State) (a : Nat) (v : W32) : (s.latchReg a v).turnsOf = s.turnsOf := rfl
@[simp] theorem State.latchReg_pending (s : State) (a : Nat) (v : W32) : (s.latchReg a v).pending = s.pending := rfl

@[simp] theorem State.setRead_part (s : State) (v : Nat) : (s.setRead v).part = s.part := rfl
@[simp] theorem State.setRead_now (s : State) (v : Nat) : (s.setRead v).now = s.now := rfl
@[simp] theorem State.setRead_sub (s : State) (v : Nat) : (s.setRead v).sub = s.sub := rfl
@[simp] theorem State.setRead_ts (s : State) (v : Nat) : (s.setRead v).ts = s.ts := rfl
@[simp] theorem State.setRead_regs (s : State) (v : Nat) : (s.setRead v).regs = s.regs := rfl
@[simp] theorem State.setRead_latch (s : State) (v : Nat) : (s.setRead v).latch = s.latch := rfl
@[simp] theorem State.setRead_partials (s : State) (v : Nat) : (s.setRead v).partials = s.partials := rfl
@[simp] theorem State.setRead_faults (s : State) (v : Nat) : (s.setRead v).faults = s.faults := rfl
@[simp] theorem State.setRead_freeCtr (s : State) (v : Nat) : (s.setRead v).freeCtr = s.freeCtr := rfl
@[simp] theorem State.setRead_nextId (s : State) (v : Nat) : (s.setRead v).nextId = s.nextId := rfl
@[simp] theorem State.setRead_rules (s : State) (v : Nat) : (s.setRead v).rules = s.rules := rfl
@[simp] theorem State.setRead_tus (s : State) (v : Nat) : (s.setRead v).tus = s.tus := rfl
@[simp] theorem State.setRead_pendFires (s : State) (v : Nat) : (s.setRead v).pendFires = s.pendFires := rfl
@[simp] theorem State.setRead_pricks (s : State) (v : Nat) : (s.setRead v).pricks = s.pricks := rfl
@[simp] theorem State.setRead_hoops (s : State) (v : Nat) : (s.setRead v).hoops = s.hoops := rfl
@[simp] theorem State.setRead_cqs (s : State) (v : Nat) : (s.setRead v).cqs = s.cqs := rfl
@[simp] theorem State.setRead_eqs (s : State) (v : Nat) : (s.setRead v).eqs = s.eqs := rfl
@[simp] theorem State.setRead_eqRings (s : State) (v : Nat) : (s.setRead v).eqRings = s.eqRings := rfl
@[simp] theorem State.setRead_msiSent (s : State) (v : Nat) : (s.setRead v).msiSent = s.msiSent := rfl
@[simp] theorem State.setRead_vfEnable (s : State) (v : Nat) : (s.setRead v).vfEnable = s.vfEnable := rfl
@[simp] theorem State.setRead_numVfs (s : State) (v : Nat) : (s.setRead v).numVfs = s.numVfs := rfl
@[simp] theorem State.setRead_objs (s : State) (v : Nat) : (s.setRead v).objs = s.objs := rfl
@[simp] theorem State.setRead_allocs (s : State) (v : Nat) : (s.setRead v).allocs = s.allocs := rfl
@[simp] theorem State.setRead_retiring (s : State) (v : Nat) : (s.setRead v).retiring = s.retiring := rfl
@[simp] theorem State.setRead_moves (s : State) (v : Nat) : (s.setRead v).moves = s.moves := rfl
@[simp] theorem State.setRead_flights (s : State) (v : Nat) : (s.setRead v).flights = s.flights := rfl
@[simp] theorem State.setRead_waits (s : State) (v : Nat) : (s.setRead v).waits = s.waits := rfl
@[simp] theorem State.setRead_walks (s : State) (v : Nat) : (s.setRead v).walks = s.walks := rfl
@[simp] theorem State.setRead_skeins (s : State) (v : Nat) : (s.setRead v).skeins = s.skeins := rfl
@[simp] theorem State.setRead_catalogue (s : State) (v : Nat) : (s.setRead v).catalogue = s.catalogue := rfl
@[simp] theorem State.setRead_ctxs (s : State) (v : Nat) : (s.setRead v).ctxs = s.ctxs := rfl
@[simp] theorem State.setRead_knots (s : State) (v : Nat) : (s.setRead v).knots = s.knots := rfl
@[simp] theorem State.setRead_heldKnots (s : State) (v : Nat) : (s.setRead v).heldKnots = s.heldKnots := rfl
@[simp] theorem State.setRead_chkOpen (s : State) (v : Nat) : (s.setRead v).chkOpen = s.chkOpen := rfl
@[simp] theorem State.setRead_kdbg (s : State) (v : Nat) : (s.setRead v).kdbg = s.kdbg := rfl
@[simp] theorem State.setRead_turns (s : State) (v : Nat) : (s.setRead v).turns = s.turns := rfl
@[simp] theorem State.setRead_buckets (s : State) (v : Nat) : (s.setRead v).buckets = s.buckets := rfl
@[simp] theorem State.setRead_links (s : State) (v : Nat) : (s.setRead v).links = s.links := rfl
@[simp] theorem State.setRead_sessions (s : State) (v : Nat) : (s.setRead v).sessions = s.sessions := rfl
@[simp] theorem State.setRead_remotes (s : State) (v : Nat) : (s.setRead v).remotes = s.remotes := rfl
@[simp] theorem State.setRead_rotations (s : State) (v : Nat) : (s.setRead v).rotations = s.rotations := rfl
@[simp] theorem State.setRead_fatal (s : State) (v : Nat) : (s.setRead v).fatal = s.fatal := rfl
@[simp] theorem State.setRead_entered (s : State) (v : Nat) : (s.setRead v).entered = s.entered := rfl
@[simp] theorem State.setRead_zeroOwed (s : State) (v : Nat) : (s.setRead v).zeroOwed = s.zeroOwed := rfl
@[simp] theorem State.setRead_pipes (s : State) (v : Nat) : (s.setRead v).pipes = s.pipes := rfl
@[simp] theorem State.setRead_gone (s : State) (v : Nat) : (s.setRead v).gone = s.gone := rfl
@[simp] theorem State.setRead_rot (s : State) (v : Nat) : (s.setRead v).rot = s.rot := rfl
@[simp] theorem State.setRead_pm (s : State) (v : Nat) : (s.setRead v).pm = s.pm := rfl
@[simp] theorem State.setRead_svc (s : State) (v : Nat) : (s.setRead v).svc = s.svc := rfl
@[simp] theorem State.setRead_island (s : State) (v : Nat) : (s.setRead v).island = s.island := rfl
@[simp] theorem State.setRead_pcie (s : State) (v : Nat) : (s.setRead v).pcie = s.pcie := rfl
@[simp] theorem State.setRead_camCtls (s : State) (v : Nat) : (s.setRead v).camCtls = s.camCtls := rfl
@[simp] theorem State.setRead_freeRefused (s : State) (v : Nat) : (s.setRead v).freeRefused = s.freeRefused := rfl
@[simp] theorem State.setRead_turnsOf (s : State) (v : Nat) : (s.setRead v).turnsOf = s.turnsOf := rfl
@[simp] theorem State.setRead_pending (s : State) (v : Nat) : (s.setRead v).pending = s.pending := rfl

@[simp] theorem State.setHoop_part (s : State) (h : Nat) (x : Hoop) : (s.setHoop h x).part = s.part := rfl
@[simp] theorem State.setHoop_now (s : State) (h : Nat) (x : Hoop) : (s.setHoop h x).now = s.now := rfl
@[simp] theorem State.setHoop_sub (s : State) (h : Nat) (x : Hoop) : (s.setHoop h x).sub = s.sub := rfl
@[simp] theorem State.setHoop_ts (s : State) (h : Nat) (x : Hoop) : (s.setHoop h x).ts = s.ts := rfl
@[simp] theorem State.setHoop_regs (s : State) (h : Nat) (x : Hoop) : (s.setHoop h x).regs = s.regs := rfl
@[simp] theorem State.setHoop_latch (s : State) (h : Nat) (x : Hoop) : (s.setHoop h x).latch = s.latch := rfl
@[simp] theorem State.setHoop_readData (s : State) (h : Nat) (x : Hoop) : (s.setHoop h x).readData = s.readData := rfl
@[simp] theorem State.setHoop_partials (s : State) (h : Nat) (x : Hoop) : (s.setHoop h x).partials = s.partials := rfl
@[simp] theorem State.setHoop_faults (s : State) (h : Nat) (x : Hoop) : (s.setHoop h x).faults = s.faults := rfl
@[simp] theorem State.setHoop_freeCtr (s : State) (h : Nat) (x : Hoop) : (s.setHoop h x).freeCtr = s.freeCtr := rfl
@[simp] theorem State.setHoop_nextId (s : State) (h : Nat) (x : Hoop) : (s.setHoop h x).nextId = s.nextId := rfl
@[simp] theorem State.setHoop_rules (s : State) (h : Nat) (x : Hoop) : (s.setHoop h x).rules = s.rules := rfl
@[simp] theorem State.setHoop_tus (s : State) (h : Nat) (x : Hoop) : (s.setHoop h x).tus = s.tus := rfl
@[simp] theorem State.setHoop_pendFires (s : State) (h : Nat) (x : Hoop) : (s.setHoop h x).pendFires = s.pendFires := rfl
@[simp] theorem State.setHoop_pricks (s : State) (h : Nat) (x : Hoop) : (s.setHoop h x).pricks = s.pricks := rfl
@[simp] theorem State.setHoop_cqs (s : State) (h : Nat) (x : Hoop) : (s.setHoop h x).cqs = s.cqs := rfl
@[simp] theorem State.setHoop_eqs (s : State) (h : Nat) (x : Hoop) : (s.setHoop h x).eqs = s.eqs := rfl
@[simp] theorem State.setHoop_eqRings (s : State) (h : Nat) (x : Hoop) : (s.setHoop h x).eqRings = s.eqRings := rfl
@[simp] theorem State.setHoop_msiSent (s : State) (h : Nat) (x : Hoop) : (s.setHoop h x).msiSent = s.msiSent := rfl
@[simp] theorem State.setHoop_vfEnable (s : State) (h : Nat) (x : Hoop) : (s.setHoop h x).vfEnable = s.vfEnable := rfl
@[simp] theorem State.setHoop_numVfs (s : State) (h : Nat) (x : Hoop) : (s.setHoop h x).numVfs = s.numVfs := rfl
@[simp] theorem State.setHoop_objs (s : State) (h : Nat) (x : Hoop) : (s.setHoop h x).objs = s.objs := rfl
@[simp] theorem State.setHoop_allocs (s : State) (h : Nat) (x : Hoop) : (s.setHoop h x).allocs = s.allocs := rfl
@[simp] theorem State.setHoop_retiring (s : State) (h : Nat) (x : Hoop) : (s.setHoop h x).retiring = s.retiring := rfl
@[simp] theorem State.setHoop_moves (s : State) (h : Nat) (x : Hoop) : (s.setHoop h x).moves = s.moves := rfl
@[simp] theorem State.setHoop_flights (s : State) (h : Nat) (x : Hoop) : (s.setHoop h x).flights = s.flights := rfl
@[simp] theorem State.setHoop_waits (s : State) (h : Nat) (x : Hoop) : (s.setHoop h x).waits = s.waits := rfl
@[simp] theorem State.setHoop_walks (s : State) (h : Nat) (x : Hoop) : (s.setHoop h x).walks = s.walks := rfl
@[simp] theorem State.setHoop_skeins (s : State) (h : Nat) (x : Hoop) : (s.setHoop h x).skeins = s.skeins := rfl
@[simp] theorem State.setHoop_catalogue (s : State) (h : Nat) (x : Hoop) : (s.setHoop h x).catalogue = s.catalogue := rfl
@[simp] theorem State.setHoop_ctxs (s : State) (h : Nat) (x : Hoop) : (s.setHoop h x).ctxs = s.ctxs := rfl
@[simp] theorem State.setHoop_knots (s : State) (h : Nat) (x : Hoop) : (s.setHoop h x).knots = s.knots := rfl
@[simp] theorem State.setHoop_heldKnots (s : State) (h : Nat) (x : Hoop) : (s.setHoop h x).heldKnots = s.heldKnots := rfl
@[simp] theorem State.setHoop_chkOpen (s : State) (h : Nat) (x : Hoop) : (s.setHoop h x).chkOpen = s.chkOpen := rfl
@[simp] theorem State.setHoop_kdbg (s : State) (h : Nat) (x : Hoop) : (s.setHoop h x).kdbg = s.kdbg := rfl
@[simp] theorem State.setHoop_turns (s : State) (h : Nat) (x : Hoop) : (s.setHoop h x).turns = s.turns := rfl
@[simp] theorem State.setHoop_buckets (s : State) (h : Nat) (x : Hoop) : (s.setHoop h x).buckets = s.buckets := rfl
@[simp] theorem State.setHoop_links (s : State) (h : Nat) (x : Hoop) : (s.setHoop h x).links = s.links := rfl
@[simp] theorem State.setHoop_sessions (s : State) (h : Nat) (x : Hoop) : (s.setHoop h x).sessions = s.sessions := rfl
@[simp] theorem State.setHoop_remotes (s : State) (h : Nat) (x : Hoop) : (s.setHoop h x).remotes = s.remotes := rfl
@[simp] theorem State.setHoop_rotations (s : State) (h : Nat) (x : Hoop) : (s.setHoop h x).rotations = s.rotations := rfl
@[simp] theorem State.setHoop_fatal (s : State) (h : Nat) (x : Hoop) : (s.setHoop h x).fatal = s.fatal := rfl
@[simp] theorem State.setHoop_entered (s : State) (h : Nat) (x : Hoop) : (s.setHoop h x).entered = s.entered := rfl
@[simp] theorem State.setHoop_zeroOwed (s : State) (h : Nat) (x : Hoop) : (s.setHoop h x).zeroOwed = s.zeroOwed := rfl
@[simp] theorem State.setHoop_pipes (s : State) (h : Nat) (x : Hoop) : (s.setHoop h x).pipes = s.pipes := rfl
@[simp] theorem State.setHoop_gone (s : State) (h : Nat) (x : Hoop) : (s.setHoop h x).gone = s.gone := rfl
@[simp] theorem State.setHoop_rot (s : State) (h : Nat) (x : Hoop) : (s.setHoop h x).rot = s.rot := rfl
@[simp] theorem State.setHoop_pm (s : State) (h : Nat) (x : Hoop) : (s.setHoop h x).pm = s.pm := rfl
@[simp] theorem State.setHoop_svc (s : State) (h : Nat) (x : Hoop) : (s.setHoop h x).svc = s.svc := rfl
@[simp] theorem State.setHoop_island (s : State) (h : Nat) (x : Hoop) : (s.setHoop h x).island = s.island := rfl
@[simp] theorem State.setHoop_pcie (s : State) (h : Nat) (x : Hoop) : (s.setHoop h x).pcie = s.pcie := rfl
@[simp] theorem State.setHoop_camCtls (s : State) (h : Nat) (x : Hoop) : (s.setHoop h x).camCtls = s.camCtls := rfl
@[simp] theorem State.setHoop_freeRefused (s : State) (h : Nat) (x : Hoop) : (s.setHoop h x).freeRefused = s.freeRefused := rfl
@[simp] theorem State.setHoop_turnsOf (s : State) (h : Nat) (x : Hoop) : (s.setHoop h x).turnsOf = s.turnsOf := rfl
@[simp] theorem State.setHoop_pending (s : State) (h : Nat) (x : Hoop) : (s.setHoop h x).pending = s.pending := rfl

@[simp] theorem State.setEq_part (s : State) (h e : Nat) (x : Eq) : (s.setEq h e x).part = s.part := rfl
@[simp] theorem State.setEq_now (s : State) (h e : Nat) (x : Eq) : (s.setEq h e x).now = s.now := rfl
@[simp] theorem State.setEq_sub (s : State) (h e : Nat) (x : Eq) : (s.setEq h e x).sub = s.sub := rfl
@[simp] theorem State.setEq_ts (s : State) (h e : Nat) (x : Eq) : (s.setEq h e x).ts = s.ts := rfl
@[simp] theorem State.setEq_regs (s : State) (h e : Nat) (x : Eq) : (s.setEq h e x).regs = s.regs := rfl
@[simp] theorem State.setEq_latch (s : State) (h e : Nat) (x : Eq) : (s.setEq h e x).latch = s.latch := rfl
@[simp] theorem State.setEq_readData (s : State) (h e : Nat) (x : Eq) : (s.setEq h e x).readData = s.readData := rfl
@[simp] theorem State.setEq_partials (s : State) (h e : Nat) (x : Eq) : (s.setEq h e x).partials = s.partials := rfl
@[simp] theorem State.setEq_faults (s : State) (h e : Nat) (x : Eq) : (s.setEq h e x).faults = s.faults := rfl
@[simp] theorem State.setEq_freeCtr (s : State) (h e : Nat) (x : Eq) : (s.setEq h e x).freeCtr = s.freeCtr := rfl
@[simp] theorem State.setEq_nextId (s : State) (h e : Nat) (x : Eq) : (s.setEq h e x).nextId = s.nextId := rfl
@[simp] theorem State.setEq_rules (s : State) (h e : Nat) (x : Eq) : (s.setEq h e x).rules = s.rules := rfl
@[simp] theorem State.setEq_tus (s : State) (h e : Nat) (x : Eq) : (s.setEq h e x).tus = s.tus := rfl
@[simp] theorem State.setEq_pendFires (s : State) (h e : Nat) (x : Eq) : (s.setEq h e x).pendFires = s.pendFires := rfl
@[simp] theorem State.setEq_pricks (s : State) (h e : Nat) (x : Eq) : (s.setEq h e x).pricks = s.pricks := rfl
@[simp] theorem State.setEq_hoops (s : State) (h e : Nat) (x : Eq) : (s.setEq h e x).hoops = s.hoops := rfl
@[simp] theorem State.setEq_cqs (s : State) (h e : Nat) (x : Eq) : (s.setEq h e x).cqs = s.cqs := rfl
@[simp] theorem State.setEq_eqRings (s : State) (h e : Nat) (x : Eq) : (s.setEq h e x).eqRings = s.eqRings := rfl
@[simp] theorem State.setEq_msiSent (s : State) (h e : Nat) (x : Eq) : (s.setEq h e x).msiSent = s.msiSent := rfl
@[simp] theorem State.setEq_vfEnable (s : State) (h e : Nat) (x : Eq) : (s.setEq h e x).vfEnable = s.vfEnable := rfl
@[simp] theorem State.setEq_numVfs (s : State) (h e : Nat) (x : Eq) : (s.setEq h e x).numVfs = s.numVfs := rfl
@[simp] theorem State.setEq_objs (s : State) (h e : Nat) (x : Eq) : (s.setEq h e x).objs = s.objs := rfl
@[simp] theorem State.setEq_allocs (s : State) (h e : Nat) (x : Eq) : (s.setEq h e x).allocs = s.allocs := rfl
@[simp] theorem State.setEq_retiring (s : State) (h e : Nat) (x : Eq) : (s.setEq h e x).retiring = s.retiring := rfl
@[simp] theorem State.setEq_moves (s : State) (h e : Nat) (x : Eq) : (s.setEq h e x).moves = s.moves := rfl
@[simp] theorem State.setEq_flights (s : State) (h e : Nat) (x : Eq) : (s.setEq h e x).flights = s.flights := rfl
@[simp] theorem State.setEq_waits (s : State) (h e : Nat) (x : Eq) : (s.setEq h e x).waits = s.waits := rfl
@[simp] theorem State.setEq_walks (s : State) (h e : Nat) (x : Eq) : (s.setEq h e x).walks = s.walks := rfl
@[simp] theorem State.setEq_skeins (s : State) (h e : Nat) (x : Eq) : (s.setEq h e x).skeins = s.skeins := rfl
@[simp] theorem State.setEq_catalogue (s : State) (h e : Nat) (x : Eq) : (s.setEq h e x).catalogue = s.catalogue := rfl
@[simp] theorem State.setEq_ctxs (s : State) (h e : Nat) (x : Eq) : (s.setEq h e x).ctxs = s.ctxs := rfl
@[simp] theorem State.setEq_knots (s : State) (h e : Nat) (x : Eq) : (s.setEq h e x).knots = s.knots := rfl
@[simp] theorem State.setEq_heldKnots (s : State) (h e : Nat) (x : Eq) : (s.setEq h e x).heldKnots = s.heldKnots := rfl
@[simp] theorem State.setEq_chkOpen (s : State) (h e : Nat) (x : Eq) : (s.setEq h e x).chkOpen = s.chkOpen := rfl
@[simp] theorem State.setEq_kdbg (s : State) (h e : Nat) (x : Eq) : (s.setEq h e x).kdbg = s.kdbg := rfl
@[simp] theorem State.setEq_turns (s : State) (h e : Nat) (x : Eq) : (s.setEq h e x).turns = s.turns := rfl
@[simp] theorem State.setEq_buckets (s : State) (h e : Nat) (x : Eq) : (s.setEq h e x).buckets = s.buckets := rfl
@[simp] theorem State.setEq_links (s : State) (h e : Nat) (x : Eq) : (s.setEq h e x).links = s.links := rfl
@[simp] theorem State.setEq_sessions (s : State) (h e : Nat) (x : Eq) : (s.setEq h e x).sessions = s.sessions := rfl
@[simp] theorem State.setEq_remotes (s : State) (h e : Nat) (x : Eq) : (s.setEq h e x).remotes = s.remotes := rfl
@[simp] theorem State.setEq_rotations (s : State) (h e : Nat) (x : Eq) : (s.setEq h e x).rotations = s.rotations := rfl
@[simp] theorem State.setEq_fatal (s : State) (h e : Nat) (x : Eq) : (s.setEq h e x).fatal = s.fatal := rfl
@[simp] theorem State.setEq_entered (s : State) (h e : Nat) (x : Eq) : (s.setEq h e x).entered = s.entered := rfl
@[simp] theorem State.setEq_zeroOwed (s : State) (h e : Nat) (x : Eq) : (s.setEq h e x).zeroOwed = s.zeroOwed := rfl
@[simp] theorem State.setEq_pipes (s : State) (h e : Nat) (x : Eq) : (s.setEq h e x).pipes = s.pipes := rfl
@[simp] theorem State.setEq_gone (s : State) (h e : Nat) (x : Eq) : (s.setEq h e x).gone = s.gone := rfl
@[simp] theorem State.setEq_rot (s : State) (h e : Nat) (x : Eq) : (s.setEq h e x).rot = s.rot := rfl
@[simp] theorem State.setEq_pm (s : State) (h e : Nat) (x : Eq) : (s.setEq h e x).pm = s.pm := rfl
@[simp] theorem State.setEq_svc (s : State) (h e : Nat) (x : Eq) : (s.setEq h e x).svc = s.svc := rfl
@[simp] theorem State.setEq_island (s : State) (h e : Nat) (x : Eq) : (s.setEq h e x).island = s.island := rfl
@[simp] theorem State.setEq_pcie (s : State) (h e : Nat) (x : Eq) : (s.setEq h e x).pcie = s.pcie := rfl
@[simp] theorem State.setEq_camCtls (s : State) (h e : Nat) (x : Eq) : (s.setEq h e x).camCtls = s.camCtls := rfl
@[simp] theorem State.setEq_freeRefused (s : State) (h e : Nat) (x : Eq) : (s.setEq h e x).freeRefused = s.freeRefused := rfl
@[simp] theorem State.setEq_turnsOf (s : State) (h e : Nat) (x : Eq) : (s.setEq h e x).turnsOf = s.turnsOf := rfl
@[simp] theorem State.setEq_pending (s : State) (h e : Nat) (x : Eq) : (s.setEq h e x).pending = s.pending := rfl

@[simp] theorem State.setCq_part (s : State) (h q : Nat) (x : Cq) : (s.setCq h q x).part = s.part := rfl
@[simp] theorem State.setCq_now (s : State) (h q : Nat) (x : Cq) : (s.setCq h q x).now = s.now := rfl
@[simp] theorem State.setCq_sub (s : State) (h q : Nat) (x : Cq) : (s.setCq h q x).sub = s.sub := rfl
@[simp] theorem State.setCq_ts (s : State) (h q : Nat) (x : Cq) : (s.setCq h q x).ts = s.ts := rfl
@[simp] theorem State.setCq_regs (s : State) (h q : Nat) (x : Cq) : (s.setCq h q x).regs = s.regs := rfl
@[simp] theorem State.setCq_latch (s : State) (h q : Nat) (x : Cq) : (s.setCq h q x).latch = s.latch := rfl
@[simp] theorem State.setCq_readData (s : State) (h q : Nat) (x : Cq) : (s.setCq h q x).readData = s.readData := rfl
@[simp] theorem State.setCq_partials (s : State) (h q : Nat) (x : Cq) : (s.setCq h q x).partials = s.partials := rfl
@[simp] theorem State.setCq_faults (s : State) (h q : Nat) (x : Cq) : (s.setCq h q x).faults = s.faults := rfl
@[simp] theorem State.setCq_freeCtr (s : State) (h q : Nat) (x : Cq) : (s.setCq h q x).freeCtr = s.freeCtr := rfl
@[simp] theorem State.setCq_nextId (s : State) (h q : Nat) (x : Cq) : (s.setCq h q x).nextId = s.nextId := rfl
@[simp] theorem State.setCq_rules (s : State) (h q : Nat) (x : Cq) : (s.setCq h q x).rules = s.rules := rfl
@[simp] theorem State.setCq_tus (s : State) (h q : Nat) (x : Cq) : (s.setCq h q x).tus = s.tus := rfl
@[simp] theorem State.setCq_pendFires (s : State) (h q : Nat) (x : Cq) : (s.setCq h q x).pendFires = s.pendFires := rfl
@[simp] theorem State.setCq_pricks (s : State) (h q : Nat) (x : Cq) : (s.setCq h q x).pricks = s.pricks := rfl
@[simp] theorem State.setCq_hoops (s : State) (h q : Nat) (x : Cq) : (s.setCq h q x).hoops = s.hoops := rfl
@[simp] theorem State.setCq_eqs (s : State) (h q : Nat) (x : Cq) : (s.setCq h q x).eqs = s.eqs := rfl
@[simp] theorem State.setCq_eqRings (s : State) (h q : Nat) (x : Cq) : (s.setCq h q x).eqRings = s.eqRings := rfl
@[simp] theorem State.setCq_msiSent (s : State) (h q : Nat) (x : Cq) : (s.setCq h q x).msiSent = s.msiSent := rfl
@[simp] theorem State.setCq_vfEnable (s : State) (h q : Nat) (x : Cq) : (s.setCq h q x).vfEnable = s.vfEnable := rfl
@[simp] theorem State.setCq_numVfs (s : State) (h q : Nat) (x : Cq) : (s.setCq h q x).numVfs = s.numVfs := rfl
@[simp] theorem State.setCq_objs (s : State) (h q : Nat) (x : Cq) : (s.setCq h q x).objs = s.objs := rfl
@[simp] theorem State.setCq_allocs (s : State) (h q : Nat) (x : Cq) : (s.setCq h q x).allocs = s.allocs := rfl
@[simp] theorem State.setCq_retiring (s : State) (h q : Nat) (x : Cq) : (s.setCq h q x).retiring = s.retiring := rfl
@[simp] theorem State.setCq_moves (s : State) (h q : Nat) (x : Cq) : (s.setCq h q x).moves = s.moves := rfl
@[simp] theorem State.setCq_flights (s : State) (h q : Nat) (x : Cq) : (s.setCq h q x).flights = s.flights := rfl
@[simp] theorem State.setCq_waits (s : State) (h q : Nat) (x : Cq) : (s.setCq h q x).waits = s.waits := rfl
@[simp] theorem State.setCq_walks (s : State) (h q : Nat) (x : Cq) : (s.setCq h q x).walks = s.walks := rfl
@[simp] theorem State.setCq_skeins (s : State) (h q : Nat) (x : Cq) : (s.setCq h q x).skeins = s.skeins := rfl
@[simp] theorem State.setCq_catalogue (s : State) (h q : Nat) (x : Cq) : (s.setCq h q x).catalogue = s.catalogue := rfl
@[simp] theorem State.setCq_ctxs (s : State) (h q : Nat) (x : Cq) : (s.setCq h q x).ctxs = s.ctxs := rfl
@[simp] theorem State.setCq_knots (s : State) (h q : Nat) (x : Cq) : (s.setCq h q x).knots = s.knots := rfl
@[simp] theorem State.setCq_heldKnots (s : State) (h q : Nat) (x : Cq) : (s.setCq h q x).heldKnots = s.heldKnots := rfl
@[simp] theorem State.setCq_chkOpen (s : State) (h q : Nat) (x : Cq) : (s.setCq h q x).chkOpen = s.chkOpen := rfl
@[simp] theorem State.setCq_kdbg (s : State) (h q : Nat) (x : Cq) : (s.setCq h q x).kdbg = s.kdbg := rfl
@[simp] theorem State.setCq_turns (s : State) (h q : Nat) (x : Cq) : (s.setCq h q x).turns = s.turns := rfl
@[simp] theorem State.setCq_buckets (s : State) (h q : Nat) (x : Cq) : (s.setCq h q x).buckets = s.buckets := rfl
@[simp] theorem State.setCq_links (s : State) (h q : Nat) (x : Cq) : (s.setCq h q x).links = s.links := rfl
@[simp] theorem State.setCq_sessions (s : State) (h q : Nat) (x : Cq) : (s.setCq h q x).sessions = s.sessions := rfl
@[simp] theorem State.setCq_remotes (s : State) (h q : Nat) (x : Cq) : (s.setCq h q x).remotes = s.remotes := rfl
@[simp] theorem State.setCq_rotations (s : State) (h q : Nat) (x : Cq) : (s.setCq h q x).rotations = s.rotations := rfl
@[simp] theorem State.setCq_fatal (s : State) (h q : Nat) (x : Cq) : (s.setCq h q x).fatal = s.fatal := rfl
@[simp] theorem State.setCq_entered (s : State) (h q : Nat) (x : Cq) : (s.setCq h q x).entered = s.entered := rfl
@[simp] theorem State.setCq_zeroOwed (s : State) (h q : Nat) (x : Cq) : (s.setCq h q x).zeroOwed = s.zeroOwed := rfl
@[simp] theorem State.setCq_pipes (s : State) (h q : Nat) (x : Cq) : (s.setCq h q x).pipes = s.pipes := rfl
@[simp] theorem State.setCq_gone (s : State) (h q : Nat) (x : Cq) : (s.setCq h q x).gone = s.gone := rfl
@[simp] theorem State.setCq_rot (s : State) (h q : Nat) (x : Cq) : (s.setCq h q x).rot = s.rot := rfl
@[simp] theorem State.setCq_pm (s : State) (h q : Nat) (x : Cq) : (s.setCq h q x).pm = s.pm := rfl
@[simp] theorem State.setCq_svc (s : State) (h q : Nat) (x : Cq) : (s.setCq h q x).svc = s.svc := rfl
@[simp] theorem State.setCq_island (s : State) (h q : Nat) (x : Cq) : (s.setCq h q x).island = s.island := rfl
@[simp] theorem State.setCq_pcie (s : State) (h q : Nat) (x : Cq) : (s.setCq h q x).pcie = s.pcie := rfl
@[simp] theorem State.setCq_camCtls (s : State) (h q : Nat) (x : Cq) : (s.setCq h q x).camCtls = s.camCtls := rfl
@[simp] theorem State.setCq_freeRefused (s : State) (h q : Nat) (x : Cq) : (s.setCq h q x).freeRefused = s.freeRefused := rfl
@[simp] theorem State.setCq_turnsOf (s : State) (h q : Nat) (x : Cq) : (s.setCq h q x).turnsOf = s.turnsOf := rfl
@[simp] theorem State.setCq_pending (s : State) (h q : Nat) (x : Cq) : (s.setCq h q x).pending = s.pending := rfl

@[simp] theorem State.setObj_part (s : State) (k : Nat) (o : Obj) : (s.setObj k o).part = s.part := rfl
@[simp] theorem State.setObj_now (s : State) (k : Nat) (o : Obj) : (s.setObj k o).now = s.now := rfl
@[simp] theorem State.setObj_sub (s : State) (k : Nat) (o : Obj) : (s.setObj k o).sub = s.sub := rfl
@[simp] theorem State.setObj_ts (s : State) (k : Nat) (o : Obj) : (s.setObj k o).ts = s.ts := rfl
@[simp] theorem State.setObj_regs (s : State) (k : Nat) (o : Obj) : (s.setObj k o).regs = s.regs := rfl
@[simp] theorem State.setObj_latch (s : State) (k : Nat) (o : Obj) : (s.setObj k o).latch = s.latch := rfl
@[simp] theorem State.setObj_readData (s : State) (k : Nat) (o : Obj) : (s.setObj k o).readData = s.readData := rfl
@[simp] theorem State.setObj_partials (s : State) (k : Nat) (o : Obj) : (s.setObj k o).partials = s.partials := rfl
@[simp] theorem State.setObj_faults (s : State) (k : Nat) (o : Obj) : (s.setObj k o).faults = s.faults := rfl
@[simp] theorem State.setObj_freeCtr (s : State) (k : Nat) (o : Obj) : (s.setObj k o).freeCtr = s.freeCtr := rfl
@[simp] theorem State.setObj_nextId (s : State) (k : Nat) (o : Obj) : (s.setObj k o).nextId = s.nextId := rfl
@[simp] theorem State.setObj_rules (s : State) (k : Nat) (o : Obj) : (s.setObj k o).rules = s.rules := rfl
@[simp] theorem State.setObj_tus (s : State) (k : Nat) (o : Obj) : (s.setObj k o).tus = s.tus := rfl
@[simp] theorem State.setObj_pendFires (s : State) (k : Nat) (o : Obj) : (s.setObj k o).pendFires = s.pendFires := rfl
@[simp] theorem State.setObj_pricks (s : State) (k : Nat) (o : Obj) : (s.setObj k o).pricks = s.pricks := rfl
@[simp] theorem State.setObj_hoops (s : State) (k : Nat) (o : Obj) : (s.setObj k o).hoops = s.hoops := rfl
@[simp] theorem State.setObj_cqs (s : State) (k : Nat) (o : Obj) : (s.setObj k o).cqs = s.cqs := rfl
@[simp] theorem State.setObj_eqs (s : State) (k : Nat) (o : Obj) : (s.setObj k o).eqs = s.eqs := rfl
@[simp] theorem State.setObj_eqRings (s : State) (k : Nat) (o : Obj) : (s.setObj k o).eqRings = s.eqRings := rfl
@[simp] theorem State.setObj_msiSent (s : State) (k : Nat) (o : Obj) : (s.setObj k o).msiSent = s.msiSent := rfl
@[simp] theorem State.setObj_vfEnable (s : State) (k : Nat) (o : Obj) : (s.setObj k o).vfEnable = s.vfEnable := rfl
@[simp] theorem State.setObj_numVfs (s : State) (k : Nat) (o : Obj) : (s.setObj k o).numVfs = s.numVfs := rfl
@[simp] theorem State.setObj_allocs (s : State) (k : Nat) (o : Obj) : (s.setObj k o).allocs = s.allocs := rfl
@[simp] theorem State.setObj_retiring (s : State) (k : Nat) (o : Obj) : (s.setObj k o).retiring = s.retiring := rfl
@[simp] theorem State.setObj_moves (s : State) (k : Nat) (o : Obj) : (s.setObj k o).moves = s.moves := rfl
@[simp] theorem State.setObj_flights (s : State) (k : Nat) (o : Obj) : (s.setObj k o).flights = s.flights := rfl
@[simp] theorem State.setObj_waits (s : State) (k : Nat) (o : Obj) : (s.setObj k o).waits = s.waits := rfl
@[simp] theorem State.setObj_walks (s : State) (k : Nat) (o : Obj) : (s.setObj k o).walks = s.walks := rfl
@[simp] theorem State.setObj_skeins (s : State) (k : Nat) (o : Obj) : (s.setObj k o).skeins = s.skeins := rfl
@[simp] theorem State.setObj_catalogue (s : State) (k : Nat) (o : Obj) : (s.setObj k o).catalogue = s.catalogue := rfl
@[simp] theorem State.setObj_ctxs (s : State) (k : Nat) (o : Obj) : (s.setObj k o).ctxs = s.ctxs := rfl
@[simp] theorem State.setObj_knots (s : State) (k : Nat) (o : Obj) : (s.setObj k o).knots = s.knots := rfl
@[simp] theorem State.setObj_heldKnots (s : State) (k : Nat) (o : Obj) : (s.setObj k o).heldKnots = s.heldKnots := rfl
@[simp] theorem State.setObj_chkOpen (s : State) (k : Nat) (o : Obj) : (s.setObj k o).chkOpen = s.chkOpen := rfl
@[simp] theorem State.setObj_kdbg (s : State) (k : Nat) (o : Obj) : (s.setObj k o).kdbg = s.kdbg := rfl
@[simp] theorem State.setObj_turns (s : State) (k : Nat) (o : Obj) : (s.setObj k o).turns = s.turns := rfl
@[simp] theorem State.setObj_buckets (s : State) (k : Nat) (o : Obj) : (s.setObj k o).buckets = s.buckets := rfl
@[simp] theorem State.setObj_links (s : State) (k : Nat) (o : Obj) : (s.setObj k o).links = s.links := rfl
@[simp] theorem State.setObj_sessions (s : State) (k : Nat) (o : Obj) : (s.setObj k o).sessions = s.sessions := rfl
@[simp] theorem State.setObj_remotes (s : State) (k : Nat) (o : Obj) : (s.setObj k o).remotes = s.remotes := rfl
@[simp] theorem State.setObj_rotations (s : State) (k : Nat) (o : Obj) : (s.setObj k o).rotations = s.rotations := rfl
@[simp] theorem State.setObj_fatal (s : State) (k : Nat) (o : Obj) : (s.setObj k o).fatal = s.fatal := rfl
@[simp] theorem State.setObj_entered (s : State) (k : Nat) (o : Obj) : (s.setObj k o).entered = s.entered := rfl
@[simp] theorem State.setObj_zeroOwed (s : State) (k : Nat) (o : Obj) : (s.setObj k o).zeroOwed = s.zeroOwed := rfl
@[simp] theorem State.setObj_pipes (s : State) (k : Nat) (o : Obj) : (s.setObj k o).pipes = s.pipes := rfl
@[simp] theorem State.setObj_gone (s : State) (k : Nat) (o : Obj) : (s.setObj k o).gone = s.gone := rfl
@[simp] theorem State.setObj_rot (s : State) (k : Nat) (o : Obj) : (s.setObj k o).rot = s.rot := rfl
@[simp] theorem State.setObj_pm (s : State) (k : Nat) (o : Obj) : (s.setObj k o).pm = s.pm := rfl
@[simp] theorem State.setObj_svc (s : State) (k : Nat) (o : Obj) : (s.setObj k o).svc = s.svc := rfl
@[simp] theorem State.setObj_island (s : State) (k : Nat) (o : Obj) : (s.setObj k o).island = s.island := rfl
@[simp] theorem State.setObj_pcie (s : State) (k : Nat) (o : Obj) : (s.setObj k o).pcie = s.pcie := rfl
@[simp] theorem State.setObj_camCtls (s : State) (k : Nat) (o : Obj) : (s.setObj k o).camCtls = s.camCtls := rfl
@[simp] theorem State.setObj_freeRefused (s : State) (k : Nat) (o : Obj) : (s.setObj k o).freeRefused = s.freeRefused := rfl
@[simp] theorem State.setObj_turnsOf (s : State) (k : Nat) (o : Obj) : (s.setObj k o).turnsOf = s.turnsOf := rfl
@[simp] theorem State.setObj_pending (s : State) (k : Nat) (o : Obj) : (s.setObj k o).pending = s.pending := rfl

@[simp] theorem State.setRule_part (s : State) (r : Nat) (x : Rule) : (s.setRule r x).part = s.part := rfl
@[simp] theorem State.setRule_now (s : State) (r : Nat) (x : Rule) : (s.setRule r x).now = s.now := rfl
@[simp] theorem State.setRule_sub (s : State) (r : Nat) (x : Rule) : (s.setRule r x).sub = s.sub := rfl
@[simp] theorem State.setRule_ts (s : State) (r : Nat) (x : Rule) : (s.setRule r x).ts = s.ts := rfl
@[simp] theorem State.setRule_regs (s : State) (r : Nat) (x : Rule) : (s.setRule r x).regs = s.regs := rfl
@[simp] theorem State.setRule_latch (s : State) (r : Nat) (x : Rule) : (s.setRule r x).latch = s.latch := rfl
@[simp] theorem State.setRule_readData (s : State) (r : Nat) (x : Rule) : (s.setRule r x).readData = s.readData := rfl
@[simp] theorem State.setRule_partials (s : State) (r : Nat) (x : Rule) : (s.setRule r x).partials = s.partials := rfl
@[simp] theorem State.setRule_faults (s : State) (r : Nat) (x : Rule) : (s.setRule r x).faults = s.faults := rfl
@[simp] theorem State.setRule_freeCtr (s : State) (r : Nat) (x : Rule) : (s.setRule r x).freeCtr = s.freeCtr := rfl
@[simp] theorem State.setRule_nextId (s : State) (r : Nat) (x : Rule) : (s.setRule r x).nextId = s.nextId := rfl
@[simp] theorem State.setRule_tus (s : State) (r : Nat) (x : Rule) : (s.setRule r x).tus = s.tus := rfl
@[simp] theorem State.setRule_pendFires (s : State) (r : Nat) (x : Rule) : (s.setRule r x).pendFires = s.pendFires := rfl
@[simp] theorem State.setRule_pricks (s : State) (r : Nat) (x : Rule) : (s.setRule r x).pricks = s.pricks := rfl
@[simp] theorem State.setRule_hoops (s : State) (r : Nat) (x : Rule) : (s.setRule r x).hoops = s.hoops := rfl
@[simp] theorem State.setRule_cqs (s : State) (r : Nat) (x : Rule) : (s.setRule r x).cqs = s.cqs := rfl
@[simp] theorem State.setRule_eqs (s : State) (r : Nat) (x : Rule) : (s.setRule r x).eqs = s.eqs := rfl
@[simp] theorem State.setRule_eqRings (s : State) (r : Nat) (x : Rule) : (s.setRule r x).eqRings = s.eqRings := rfl
@[simp] theorem State.setRule_msiSent (s : State) (r : Nat) (x : Rule) : (s.setRule r x).msiSent = s.msiSent := rfl
@[simp] theorem State.setRule_vfEnable (s : State) (r : Nat) (x : Rule) : (s.setRule r x).vfEnable = s.vfEnable := rfl
@[simp] theorem State.setRule_numVfs (s : State) (r : Nat) (x : Rule) : (s.setRule r x).numVfs = s.numVfs := rfl
@[simp] theorem State.setRule_objs (s : State) (r : Nat) (x : Rule) : (s.setRule r x).objs = s.objs := rfl
@[simp] theorem State.setRule_allocs (s : State) (r : Nat) (x : Rule) : (s.setRule r x).allocs = s.allocs := rfl
@[simp] theorem State.setRule_retiring (s : State) (r : Nat) (x : Rule) : (s.setRule r x).retiring = s.retiring := rfl
@[simp] theorem State.setRule_moves (s : State) (r : Nat) (x : Rule) : (s.setRule r x).moves = s.moves := rfl
@[simp] theorem State.setRule_flights (s : State) (r : Nat) (x : Rule) : (s.setRule r x).flights = s.flights := rfl
@[simp] theorem State.setRule_waits (s : State) (r : Nat) (x : Rule) : (s.setRule r x).waits = s.waits := rfl
@[simp] theorem State.setRule_walks (s : State) (r : Nat) (x : Rule) : (s.setRule r x).walks = s.walks := rfl
@[simp] theorem State.setRule_skeins (s : State) (r : Nat) (x : Rule) : (s.setRule r x).skeins = s.skeins := rfl
@[simp] theorem State.setRule_catalogue (s : State) (r : Nat) (x : Rule) : (s.setRule r x).catalogue = s.catalogue := rfl
@[simp] theorem State.setRule_ctxs (s : State) (r : Nat) (x : Rule) : (s.setRule r x).ctxs = s.ctxs := rfl
@[simp] theorem State.setRule_knots (s : State) (r : Nat) (x : Rule) : (s.setRule r x).knots = s.knots := rfl
@[simp] theorem State.setRule_heldKnots (s : State) (r : Nat) (x : Rule) : (s.setRule r x).heldKnots = s.heldKnots := rfl
@[simp] theorem State.setRule_chkOpen (s : State) (r : Nat) (x : Rule) : (s.setRule r x).chkOpen = s.chkOpen := rfl
@[simp] theorem State.setRule_kdbg (s : State) (r : Nat) (x : Rule) : (s.setRule r x).kdbg = s.kdbg := rfl
@[simp] theorem State.setRule_turns (s : State) (r : Nat) (x : Rule) : (s.setRule r x).turns = s.turns := rfl
@[simp] theorem State.setRule_buckets (s : State) (r : Nat) (x : Rule) : (s.setRule r x).buckets = s.buckets := rfl
@[simp] theorem State.setRule_links (s : State) (r : Nat) (x : Rule) : (s.setRule r x).links = s.links := rfl
@[simp] theorem State.setRule_sessions (s : State) (r : Nat) (x : Rule) : (s.setRule r x).sessions = s.sessions := rfl
@[simp] theorem State.setRule_remotes (s : State) (r : Nat) (x : Rule) : (s.setRule r x).remotes = s.remotes := rfl
@[simp] theorem State.setRule_rotations (s : State) (r : Nat) (x : Rule) : (s.setRule r x).rotations = s.rotations := rfl
@[simp] theorem State.setRule_fatal (s : State) (r : Nat) (x : Rule) : (s.setRule r x).fatal = s.fatal := rfl
@[simp] theorem State.setRule_entered (s : State) (r : Nat) (x : Rule) : (s.setRule r x).entered = s.entered := rfl
@[simp] theorem State.setRule_zeroOwed (s : State) (r : Nat) (x : Rule) : (s.setRule r x).zeroOwed = s.zeroOwed := rfl
@[simp] theorem State.setRule_pipes (s : State) (r : Nat) (x : Rule) : (s.setRule r x).pipes = s.pipes := rfl
@[simp] theorem State.setRule_gone (s : State) (r : Nat) (x : Rule) : (s.setRule r x).gone = s.gone := rfl
@[simp] theorem State.setRule_rot (s : State) (r : Nat) (x : Rule) : (s.setRule r x).rot = s.rot := rfl
@[simp] theorem State.setRule_pm (s : State) (r : Nat) (x : Rule) : (s.setRule r x).pm = s.pm := rfl
@[simp] theorem State.setRule_svc (s : State) (r : Nat) (x : Rule) : (s.setRule r x).svc = s.svc := rfl
@[simp] theorem State.setRule_island (s : State) (r : Nat) (x : Rule) : (s.setRule r x).island = s.island := rfl
@[simp] theorem State.setRule_pcie (s : State) (r : Nat) (x : Rule) : (s.setRule r x).pcie = s.pcie := rfl
@[simp] theorem State.setRule_camCtls (s : State) (r : Nat) (x : Rule) : (s.setRule r x).camCtls = s.camCtls := rfl
@[simp] theorem State.setRule_freeRefused (s : State) (r : Nat) (x : Rule) : (s.setRule r x).freeRefused = s.freeRefused := rfl
@[simp] theorem State.setRule_turnsOf (s : State) (r : Nat) (x : Rule) : (s.setRule r x).turnsOf = s.turnsOf := rfl
@[simp] theorem State.setRule_pending (s : State) (r : Nat) (x : Rule) : (s.setRule r x).pending = s.pending := rfl

@[simp] theorem State.setTs_part (s : State) (t : SceneTime) : (s.setTs t).part = s.part := rfl
@[simp] theorem State.setTs_now (s : State) (t : SceneTime) : (s.setTs t).now = s.now := rfl
@[simp] theorem State.setTs_sub (s : State) (t : SceneTime) : (s.setTs t).sub = s.sub := rfl
@[simp] theorem State.setTs_regs (s : State) (t : SceneTime) : (s.setTs t).regs = s.regs := rfl
@[simp] theorem State.setTs_latch (s : State) (t : SceneTime) : (s.setTs t).latch = s.latch := rfl
@[simp] theorem State.setTs_readData (s : State) (t : SceneTime) : (s.setTs t).readData = s.readData := rfl
@[simp] theorem State.setTs_partials (s : State) (t : SceneTime) : (s.setTs t).partials = s.partials := rfl
@[simp] theorem State.setTs_faults (s : State) (t : SceneTime) : (s.setTs t).faults = s.faults := rfl
@[simp] theorem State.setTs_freeCtr (s : State) (t : SceneTime) : (s.setTs t).freeCtr = s.freeCtr := rfl
@[simp] theorem State.setTs_nextId (s : State) (t : SceneTime) : (s.setTs t).nextId = s.nextId := rfl
@[simp] theorem State.setTs_rules (s : State) (t : SceneTime) : (s.setTs t).rules = s.rules := rfl
@[simp] theorem State.setTs_tus (s : State) (t : SceneTime) : (s.setTs t).tus = s.tus := rfl
@[simp] theorem State.setTs_pendFires (s : State) (t : SceneTime) : (s.setTs t).pendFires = s.pendFires := rfl
@[simp] theorem State.setTs_pricks (s : State) (t : SceneTime) : (s.setTs t).pricks = s.pricks := rfl
@[simp] theorem State.setTs_hoops (s : State) (t : SceneTime) : (s.setTs t).hoops = s.hoops := rfl
@[simp] theorem State.setTs_cqs (s : State) (t : SceneTime) : (s.setTs t).cqs = s.cqs := rfl
@[simp] theorem State.setTs_eqs (s : State) (t : SceneTime) : (s.setTs t).eqs = s.eqs := rfl
@[simp] theorem State.setTs_eqRings (s : State) (t : SceneTime) : (s.setTs t).eqRings = s.eqRings := rfl
@[simp] theorem State.setTs_msiSent (s : State) (t : SceneTime) : (s.setTs t).msiSent = s.msiSent := rfl
@[simp] theorem State.setTs_vfEnable (s : State) (t : SceneTime) : (s.setTs t).vfEnable = s.vfEnable := rfl
@[simp] theorem State.setTs_numVfs (s : State) (t : SceneTime) : (s.setTs t).numVfs = s.numVfs := rfl
@[simp] theorem State.setTs_objs (s : State) (t : SceneTime) : (s.setTs t).objs = s.objs := rfl
@[simp] theorem State.setTs_allocs (s : State) (t : SceneTime) : (s.setTs t).allocs = s.allocs := rfl
@[simp] theorem State.setTs_retiring (s : State) (t : SceneTime) : (s.setTs t).retiring = s.retiring := rfl
@[simp] theorem State.setTs_moves (s : State) (t : SceneTime) : (s.setTs t).moves = s.moves := rfl
@[simp] theorem State.setTs_flights (s : State) (t : SceneTime) : (s.setTs t).flights = s.flights := rfl
@[simp] theorem State.setTs_waits (s : State) (t : SceneTime) : (s.setTs t).waits = s.waits := rfl
@[simp] theorem State.setTs_walks (s : State) (t : SceneTime) : (s.setTs t).walks = s.walks := rfl
@[simp] theorem State.setTs_skeins (s : State) (t : SceneTime) : (s.setTs t).skeins = s.skeins := rfl
@[simp] theorem State.setTs_catalogue (s : State) (t : SceneTime) : (s.setTs t).catalogue = s.catalogue := rfl
@[simp] theorem State.setTs_ctxs (s : State) (t : SceneTime) : (s.setTs t).ctxs = s.ctxs := rfl
@[simp] theorem State.setTs_knots (s : State) (t : SceneTime) : (s.setTs t).knots = s.knots := rfl
@[simp] theorem State.setTs_heldKnots (s : State) (t : SceneTime) : (s.setTs t).heldKnots = s.heldKnots := rfl
@[simp] theorem State.setTs_chkOpen (s : State) (t : SceneTime) : (s.setTs t).chkOpen = s.chkOpen := rfl
@[simp] theorem State.setTs_kdbg (s : State) (t : SceneTime) : (s.setTs t).kdbg = s.kdbg := rfl
@[simp] theorem State.setTs_turns (s : State) (t : SceneTime) : (s.setTs t).turns = s.turns := rfl
@[simp] theorem State.setTs_buckets (s : State) (t : SceneTime) : (s.setTs t).buckets = s.buckets := rfl
@[simp] theorem State.setTs_links (s : State) (t : SceneTime) : (s.setTs t).links = s.links := rfl
@[simp] theorem State.setTs_sessions (s : State) (t : SceneTime) : (s.setTs t).sessions = s.sessions := rfl
@[simp] theorem State.setTs_remotes (s : State) (t : SceneTime) : (s.setTs t).remotes = s.remotes := rfl
@[simp] theorem State.setTs_rotations (s : State) (t : SceneTime) : (s.setTs t).rotations = s.rotations := rfl
@[simp] theorem State.setTs_fatal (s : State) (t : SceneTime) : (s.setTs t).fatal = s.fatal := rfl
@[simp] theorem State.setTs_entered (s : State) (t : SceneTime) : (s.setTs t).entered = s.entered := rfl
@[simp] theorem State.setTs_zeroOwed (s : State) (t : SceneTime) : (s.setTs t).zeroOwed = s.zeroOwed := rfl
@[simp] theorem State.setTs_pipes (s : State) (t : SceneTime) : (s.setTs t).pipes = s.pipes := rfl
@[simp] theorem State.setTs_gone (s : State) (t : SceneTime) : (s.setTs t).gone = s.gone := rfl
@[simp] theorem State.setTs_rot (s : State) (t : SceneTime) : (s.setTs t).rot = s.rot := rfl
@[simp] theorem State.setTs_pm (s : State) (t : SceneTime) : (s.setTs t).pm = s.pm := rfl
@[simp] theorem State.setTs_svc (s : State) (t : SceneTime) : (s.setTs t).svc = s.svc := rfl
@[simp] theorem State.setTs_island (s : State) (t : SceneTime) : (s.setTs t).island = s.island := rfl
@[simp] theorem State.setTs_pcie (s : State) (t : SceneTime) : (s.setTs t).pcie = s.pcie := rfl
@[simp] theorem State.setTs_camCtls (s : State) (t : SceneTime) : (s.setTs t).camCtls = s.camCtls := rfl
@[simp] theorem State.setTs_freeRefused (s : State) (t : SceneTime) : (s.setTs t).freeRefused = s.freeRefused := rfl
@[simp] theorem State.setTs_turnsOf (s : State) (t : SceneTime) : (s.setTs t).turnsOf = s.turnsOf := rfl
@[simp] theorem State.setTs_pending (s : State) (t : SceneTime) : (s.setTs t).pending = s.pending := rfl

@[simp] theorem State.countHeld_part (s : State) (n : Nat) : (s.countHeld n).part = s.part := rfl
@[simp] theorem State.countHeld_now (s : State) (n : Nat) : (s.countHeld n).now = s.now := rfl
@[simp] theorem State.countHeld_sub (s : State) (n : Nat) : (s.countHeld n).sub = s.sub := rfl
@[simp] theorem State.countHeld_ts (s : State) (n : Nat) : (s.countHeld n).ts = s.ts := rfl
@[simp] theorem State.countHeld_latch (s : State) (n : Nat) : (s.countHeld n).latch = s.latch := rfl
@[simp] theorem State.countHeld_readData (s : State) (n : Nat) : (s.countHeld n).readData = s.readData := rfl
@[simp] theorem State.countHeld_partials (s : State) (n : Nat) : (s.countHeld n).partials = s.partials := rfl
@[simp] theorem State.countHeld_faults (s : State) (n : Nat) : (s.countHeld n).faults = s.faults := rfl
@[simp] theorem State.countHeld_freeCtr (s : State) (n : Nat) : (s.countHeld n).freeCtr = s.freeCtr := rfl
@[simp] theorem State.countHeld_nextId (s : State) (n : Nat) : (s.countHeld n).nextId = s.nextId := rfl
@[simp] theorem State.countHeld_rules (s : State) (n : Nat) : (s.countHeld n).rules = s.rules := rfl
@[simp] theorem State.countHeld_tus (s : State) (n : Nat) : (s.countHeld n).tus = s.tus := rfl
@[simp] theorem State.countHeld_pendFires (s : State) (n : Nat) : (s.countHeld n).pendFires = s.pendFires := rfl
@[simp] theorem State.countHeld_pricks (s : State) (n : Nat) : (s.countHeld n).pricks = s.pricks := rfl
@[simp] theorem State.countHeld_hoops (s : State) (n : Nat) : (s.countHeld n).hoops = s.hoops := rfl
@[simp] theorem State.countHeld_cqs (s : State) (n : Nat) : (s.countHeld n).cqs = s.cqs := rfl
@[simp] theorem State.countHeld_eqs (s : State) (n : Nat) : (s.countHeld n).eqs = s.eqs := rfl
@[simp] theorem State.countHeld_eqRings (s : State) (n : Nat) : (s.countHeld n).eqRings = s.eqRings := rfl
@[simp] theorem State.countHeld_msiSent (s : State) (n : Nat) : (s.countHeld n).msiSent = s.msiSent := rfl
@[simp] theorem State.countHeld_vfEnable (s : State) (n : Nat) : (s.countHeld n).vfEnable = s.vfEnable := rfl
@[simp] theorem State.countHeld_numVfs (s : State) (n : Nat) : (s.countHeld n).numVfs = s.numVfs := rfl
@[simp] theorem State.countHeld_objs (s : State) (n : Nat) : (s.countHeld n).objs = s.objs := rfl
@[simp] theorem State.countHeld_allocs (s : State) (n : Nat) : (s.countHeld n).allocs = s.allocs := rfl
@[simp] theorem State.countHeld_retiring (s : State) (n : Nat) : (s.countHeld n).retiring = s.retiring := rfl
@[simp] theorem State.countHeld_moves (s : State) (n : Nat) : (s.countHeld n).moves = s.moves := rfl
@[simp] theorem State.countHeld_flights (s : State) (n : Nat) : (s.countHeld n).flights = s.flights := rfl
@[simp] theorem State.countHeld_waits (s : State) (n : Nat) : (s.countHeld n).waits = s.waits := rfl
@[simp] theorem State.countHeld_walks (s : State) (n : Nat) : (s.countHeld n).walks = s.walks := rfl
@[simp] theorem State.countHeld_skeins (s : State) (n : Nat) : (s.countHeld n).skeins = s.skeins := rfl
@[simp] theorem State.countHeld_catalogue (s : State) (n : Nat) : (s.countHeld n).catalogue = s.catalogue := rfl
@[simp] theorem State.countHeld_ctxs (s : State) (n : Nat) : (s.countHeld n).ctxs = s.ctxs := rfl
@[simp] theorem State.countHeld_knots (s : State) (n : Nat) : (s.countHeld n).knots = s.knots := rfl
@[simp] theorem State.countHeld_heldKnots (s : State) (n : Nat) : (s.countHeld n).heldKnots = s.heldKnots := rfl
@[simp] theorem State.countHeld_chkOpen (s : State) (n : Nat) : (s.countHeld n).chkOpen = s.chkOpen := rfl
@[simp] theorem State.countHeld_kdbg (s : State) (n : Nat) : (s.countHeld n).kdbg = s.kdbg := rfl
@[simp] theorem State.countHeld_turns (s : State) (n : Nat) : (s.countHeld n).turns = s.turns := rfl
@[simp] theorem State.countHeld_buckets (s : State) (n : Nat) : (s.countHeld n).buckets = s.buckets := rfl
@[simp] theorem State.countHeld_links (s : State) (n : Nat) : (s.countHeld n).links = s.links := rfl
@[simp] theorem State.countHeld_sessions (s : State) (n : Nat) : (s.countHeld n).sessions = s.sessions := rfl
@[simp] theorem State.countHeld_remotes (s : State) (n : Nat) : (s.countHeld n).remotes = s.remotes := rfl
@[simp] theorem State.countHeld_rotations (s : State) (n : Nat) : (s.countHeld n).rotations = s.rotations := rfl
@[simp] theorem State.countHeld_fatal (s : State) (n : Nat) : (s.countHeld n).fatal = s.fatal := rfl
@[simp] theorem State.countHeld_entered (s : State) (n : Nat) : (s.countHeld n).entered = s.entered := rfl
@[simp] theorem State.countHeld_zeroOwed (s : State) (n : Nat) : (s.countHeld n).zeroOwed = s.zeroOwed := rfl
@[simp] theorem State.countHeld_pipes (s : State) (n : Nat) : (s.countHeld n).pipes = s.pipes := rfl
@[simp] theorem State.countHeld_gone (s : State) (n : Nat) : (s.countHeld n).gone = s.gone := rfl
@[simp] theorem State.countHeld_rot (s : State) (n : Nat) : (s.countHeld n).rot = s.rot := rfl
@[simp] theorem State.countHeld_pm (s : State) (n : Nat) : (s.countHeld n).pm = s.pm := rfl
@[simp] theorem State.countHeld_svc (s : State) (n : Nat) : (s.countHeld n).svc = s.svc := rfl
@[simp] theorem State.countHeld_island (s : State) (n : Nat) : (s.countHeld n).island = s.island := rfl
@[simp] theorem State.countHeld_pcie (s : State) (n : Nat) : (s.countHeld n).pcie = s.pcie := rfl
@[simp] theorem State.countHeld_camCtls (s : State) (n : Nat) : (s.countHeld n).camCtls = s.camCtls := rfl
@[simp] theorem State.countHeld_freeRefused (s : State) (n : Nat) : (s.countHeld n).freeRefused = s.freeRefused := rfl
@[simp] theorem State.countHeld_turnsOf (s : State) (n : Nat) : (s.countHeld n).turnsOf = s.turnsOf := rfl
@[simp] theorem State.countHeld_pending (s : State) (n : Nat) : (s.countHeld n).pending = s.pending := rfl

@[simp] theorem State.advance_part (s : State) (dt : Nat) : (s.advance dt).part = s.part := rfl
@[simp] theorem State.advance_sub (s : State) (dt : Nat) : (s.advance dt).sub = s.sub := rfl
@[simp] theorem State.advance_ts (s : State) (dt : Nat) : (s.advance dt).ts = s.ts := rfl
@[simp] theorem State.advance_latch (s : State) (dt : Nat) : (s.advance dt).latch = s.latch := rfl
@[simp] theorem State.advance_readData (s : State) (dt : Nat) : (s.advance dt).readData = s.readData := rfl
@[simp] theorem State.advance_partials (s : State) (dt : Nat) : (s.advance dt).partials = s.partials := rfl
@[simp] theorem State.advance_faults (s : State) (dt : Nat) : (s.advance dt).faults = s.faults := rfl
@[simp] theorem State.advance_freeCtr (s : State) (dt : Nat) : (s.advance dt).freeCtr = s.freeCtr := rfl
@[simp] theorem State.advance_nextId (s : State) (dt : Nat) : (s.advance dt).nextId = s.nextId := rfl
@[simp] theorem State.advance_rules (s : State) (dt : Nat) : (s.advance dt).rules = s.rules := rfl
@[simp] theorem State.advance_tus (s : State) (dt : Nat) : (s.advance dt).tus = s.tus := rfl
@[simp] theorem State.advance_pendFires (s : State) (dt : Nat) : (s.advance dt).pendFires = s.pendFires := rfl
@[simp] theorem State.advance_pricks (s : State) (dt : Nat) : (s.advance dt).pricks = s.pricks := rfl
@[simp] theorem State.advance_hoops (s : State) (dt : Nat) : (s.advance dt).hoops = s.hoops := rfl
@[simp] theorem State.advance_cqs (s : State) (dt : Nat) : (s.advance dt).cqs = s.cqs := rfl
@[simp] theorem State.advance_eqs (s : State) (dt : Nat) : (s.advance dt).eqs = s.eqs := rfl
@[simp] theorem State.advance_eqRings (s : State) (dt : Nat) : (s.advance dt).eqRings = s.eqRings := rfl
@[simp] theorem State.advance_msiSent (s : State) (dt : Nat) : (s.advance dt).msiSent = s.msiSent := rfl
@[simp] theorem State.advance_vfEnable (s : State) (dt : Nat) : (s.advance dt).vfEnable = s.vfEnable := rfl
@[simp] theorem State.advance_numVfs (s : State) (dt : Nat) : (s.advance dt).numVfs = s.numVfs := rfl
@[simp] theorem State.advance_objs (s : State) (dt : Nat) : (s.advance dt).objs = s.objs := rfl
@[simp] theorem State.advance_allocs (s : State) (dt : Nat) : (s.advance dt).allocs = s.allocs := rfl
@[simp] theorem State.advance_retiring (s : State) (dt : Nat) : (s.advance dt).retiring = s.retiring := rfl
@[simp] theorem State.advance_moves (s : State) (dt : Nat) : (s.advance dt).moves = s.moves := rfl
@[simp] theorem State.advance_flights (s : State) (dt : Nat) : (s.advance dt).flights = s.flights := rfl
@[simp] theorem State.advance_waits (s : State) (dt : Nat) : (s.advance dt).waits = s.waits := rfl
@[simp] theorem State.advance_walks (s : State) (dt : Nat) : (s.advance dt).walks = s.walks := rfl
@[simp] theorem State.advance_skeins (s : State) (dt : Nat) : (s.advance dt).skeins = s.skeins := rfl
@[simp] theorem State.advance_catalogue (s : State) (dt : Nat) : (s.advance dt).catalogue = s.catalogue := rfl
@[simp] theorem State.advance_ctxs (s : State) (dt : Nat) : (s.advance dt).ctxs = s.ctxs := rfl
@[simp] theorem State.advance_knots (s : State) (dt : Nat) : (s.advance dt).knots = s.knots := rfl
@[simp] theorem State.advance_heldKnots (s : State) (dt : Nat) : (s.advance dt).heldKnots = s.heldKnots := rfl
@[simp] theorem State.advance_chkOpen (s : State) (dt : Nat) : (s.advance dt).chkOpen = s.chkOpen := rfl
@[simp] theorem State.advance_kdbg (s : State) (dt : Nat) : (s.advance dt).kdbg = s.kdbg := rfl
@[simp] theorem State.advance_turns (s : State) (dt : Nat) : (s.advance dt).turns = s.turns := rfl
@[simp] theorem State.advance_buckets (s : State) (dt : Nat) : (s.advance dt).buckets = s.buckets := rfl
@[simp] theorem State.advance_links (s : State) (dt : Nat) : (s.advance dt).links = s.links := rfl
@[simp] theorem State.advance_sessions (s : State) (dt : Nat) : (s.advance dt).sessions = s.sessions := rfl
@[simp] theorem State.advance_remotes (s : State) (dt : Nat) : (s.advance dt).remotes = s.remotes := rfl
@[simp] theorem State.advance_rotations (s : State) (dt : Nat) : (s.advance dt).rotations = s.rotations := rfl
@[simp] theorem State.advance_fatal (s : State) (dt : Nat) : (s.advance dt).fatal = s.fatal := rfl
@[simp] theorem State.advance_entered (s : State) (dt : Nat) : (s.advance dt).entered = s.entered := rfl
@[simp] theorem State.advance_zeroOwed (s : State) (dt : Nat) : (s.advance dt).zeroOwed = s.zeroOwed := rfl
@[simp] theorem State.advance_pipes (s : State) (dt : Nat) : (s.advance dt).pipes = s.pipes := rfl
@[simp] theorem State.advance_gone (s : State) (dt : Nat) : (s.advance dt).gone = s.gone := rfl
@[simp] theorem State.advance_rot (s : State) (dt : Nat) : (s.advance dt).rot = s.rot := rfl
@[simp] theorem State.advance_pm (s : State) (dt : Nat) : (s.advance dt).pm = s.pm := rfl
@[simp] theorem State.advance_svc (s : State) (dt : Nat) : (s.advance dt).svc = s.svc := rfl
@[simp] theorem State.advance_island (s : State) (dt : Nat) : (s.advance dt).island = s.island := rfl
@[simp] theorem State.advance_pcie (s : State) (dt : Nat) : (s.advance dt).pcie = s.pcie := rfl
@[simp] theorem State.advance_camCtls (s : State) (dt : Nat) : (s.advance dt).camCtls = s.camCtls := rfl
@[simp] theorem State.advance_freeRefused (s : State) (dt : Nat) : (s.advance dt).freeRefused = s.freeRefused := rfl
@[simp] theorem State.advance_turnsOf (s : State) (dt : Nat) : (s.advance dt).turnsOf = s.turnsOf := rfl
@[simp] theorem State.advance_pending (s : State) (dt : Nat) : (s.advance dt).pending = s.pending := rfl

@[simp] theorem State.advance16_part (s : State) (n : Nat) : (s.advance16 n).part = s.part := rfl
@[simp] theorem State.advance16_ts (s : State) (n : Nat) : (s.advance16 n).ts = s.ts := rfl
@[simp] theorem State.advance16_latch (s : State) (n : Nat) : (s.advance16 n).latch = s.latch := rfl
@[simp] theorem State.advance16_readData (s : State) (n : Nat) : (s.advance16 n).readData = s.readData := rfl
@[simp] theorem State.advance16_partials (s : State) (n : Nat) : (s.advance16 n).partials = s.partials := rfl
@[simp] theorem State.advance16_faults (s : State) (n : Nat) : (s.advance16 n).faults = s.faults := rfl
@[simp] theorem State.advance16_freeCtr (s : State) (n : Nat) : (s.advance16 n).freeCtr = s.freeCtr := rfl
@[simp] theorem State.advance16_nextId (s : State) (n : Nat) : (s.advance16 n).nextId = s.nextId := rfl
@[simp] theorem State.advance16_rules (s : State) (n : Nat) : (s.advance16 n).rules = s.rules := rfl
@[simp] theorem State.advance16_tus (s : State) (n : Nat) : (s.advance16 n).tus = s.tus := rfl
@[simp] theorem State.advance16_pendFires (s : State) (n : Nat) : (s.advance16 n).pendFires = s.pendFires := rfl
@[simp] theorem State.advance16_pricks (s : State) (n : Nat) : (s.advance16 n).pricks = s.pricks := rfl
@[simp] theorem State.advance16_hoops (s : State) (n : Nat) : (s.advance16 n).hoops = s.hoops := rfl
@[simp] theorem State.advance16_cqs (s : State) (n : Nat) : (s.advance16 n).cqs = s.cqs := rfl
@[simp] theorem State.advance16_eqs (s : State) (n : Nat) : (s.advance16 n).eqs = s.eqs := rfl
@[simp] theorem State.advance16_eqRings (s : State) (n : Nat) : (s.advance16 n).eqRings = s.eqRings := rfl
@[simp] theorem State.advance16_msiSent (s : State) (n : Nat) : (s.advance16 n).msiSent = s.msiSent := rfl
@[simp] theorem State.advance16_vfEnable (s : State) (n : Nat) : (s.advance16 n).vfEnable = s.vfEnable := rfl
@[simp] theorem State.advance16_numVfs (s : State) (n : Nat) : (s.advance16 n).numVfs = s.numVfs := rfl
@[simp] theorem State.advance16_objs (s : State) (n : Nat) : (s.advance16 n).objs = s.objs := rfl
@[simp] theorem State.advance16_allocs (s : State) (n : Nat) : (s.advance16 n).allocs = s.allocs := rfl
@[simp] theorem State.advance16_retiring (s : State) (n : Nat) : (s.advance16 n).retiring = s.retiring := rfl
@[simp] theorem State.advance16_moves (s : State) (n : Nat) : (s.advance16 n).moves = s.moves := rfl
@[simp] theorem State.advance16_flights (s : State) (n : Nat) : (s.advance16 n).flights = s.flights := rfl
@[simp] theorem State.advance16_waits (s : State) (n : Nat) : (s.advance16 n).waits = s.waits := rfl
@[simp] theorem State.advance16_walks (s : State) (n : Nat) : (s.advance16 n).walks = s.walks := rfl
@[simp] theorem State.advance16_skeins (s : State) (n : Nat) : (s.advance16 n).skeins = s.skeins := rfl
@[simp] theorem State.advance16_catalogue (s : State) (n : Nat) : (s.advance16 n).catalogue = s.catalogue := rfl
@[simp] theorem State.advance16_ctxs (s : State) (n : Nat) : (s.advance16 n).ctxs = s.ctxs := rfl
@[simp] theorem State.advance16_knots (s : State) (n : Nat) : (s.advance16 n).knots = s.knots := rfl
@[simp] theorem State.advance16_heldKnots (s : State) (n : Nat) : (s.advance16 n).heldKnots = s.heldKnots := rfl
@[simp] theorem State.advance16_chkOpen (s : State) (n : Nat) : (s.advance16 n).chkOpen = s.chkOpen := rfl
@[simp] theorem State.advance16_kdbg (s : State) (n : Nat) : (s.advance16 n).kdbg = s.kdbg := rfl
@[simp] theorem State.advance16_turns (s : State) (n : Nat) : (s.advance16 n).turns = s.turns := rfl
@[simp] theorem State.advance16_buckets (s : State) (n : Nat) : (s.advance16 n).buckets = s.buckets := rfl
@[simp] theorem State.advance16_links (s : State) (n : Nat) : (s.advance16 n).links = s.links := rfl
@[simp] theorem State.advance16_sessions (s : State) (n : Nat) : (s.advance16 n).sessions = s.sessions := rfl
@[simp] theorem State.advance16_remotes (s : State) (n : Nat) : (s.advance16 n).remotes = s.remotes := rfl
@[simp] theorem State.advance16_rotations (s : State) (n : Nat) : (s.advance16 n).rotations = s.rotations := rfl
@[simp] theorem State.advance16_fatal (s : State) (n : Nat) : (s.advance16 n).fatal = s.fatal := rfl
@[simp] theorem State.advance16_entered (s : State) (n : Nat) : (s.advance16 n).entered = s.entered := rfl
@[simp] theorem State.advance16_zeroOwed (s : State) (n : Nat) : (s.advance16 n).zeroOwed = s.zeroOwed := rfl
@[simp] theorem State.advance16_pipes (s : State) (n : Nat) : (s.advance16 n).pipes = s.pipes := rfl
@[simp] theorem State.advance16_gone (s : State) (n : Nat) : (s.advance16 n).gone = s.gone := rfl
@[simp] theorem State.advance16_rot (s : State) (n : Nat) : (s.advance16 n).rot = s.rot := rfl
@[simp] theorem State.advance16_pm (s : State) (n : Nat) : (s.advance16 n).pm = s.pm := rfl
@[simp] theorem State.advance16_svc (s : State) (n : Nat) : (s.advance16 n).svc = s.svc := rfl
@[simp] theorem State.advance16_island (s : State) (n : Nat) : (s.advance16 n).island = s.island := rfl
@[simp] theorem State.advance16_pcie (s : State) (n : Nat) : (s.advance16 n).pcie = s.pcie := rfl
@[simp] theorem State.advance16_camCtls (s : State) (n : Nat) : (s.advance16 n).camCtls = s.camCtls := rfl
@[simp] theorem State.advance16_freeRefused (s : State) (n : Nat) : (s.advance16 n).freeRefused = s.freeRefused := rfl
@[simp] theorem State.advance16_turnsOf (s : State) (n : Nat) : (s.advance16 n).turnsOf = s.turnsOf := rfl
@[simp] theorem State.advance16_pending (s : State) (n : Nat) : (s.advance16 n).pending = s.pending := rfl

@[simp] theorem dev_part (f : State → State) (s : State) : (dev f s).part = s.part := rfl
@[simp] theorem dev_now (f : State → State) (s : State) : (dev f s).now = s.now := rfl
@[simp] theorem dev_sub (f : State → State) (s : State) : (dev f s).sub = s.sub := rfl
@[simp] theorem dev_ts (f : State → State) (s : State) : (dev f s).ts = s.ts := rfl
@[simp] theorem dev_regs (f : State → State) (s : State) : (dev f s).regs = (f s).regs := rfl
@[simp] theorem dev_latch (f : State → State) (s : State) : (dev f s).latch = (f s).latch := rfl
@[simp] theorem dev_readData (f : State → State) (s : State) : (dev f s).readData = (f s).readData := rfl
@[simp] theorem dev_partials (f : State → State) (s : State) : (dev f s).partials = (f s).partials := rfl
@[simp] theorem dev_faults (f : State → State) (s : State) : (dev f s).faults = (f s).faults := rfl
@[simp] theorem dev_freeCtr (f : State → State) (s : State) : (dev f s).freeCtr = (f s).freeCtr := rfl
@[simp] theorem dev_nextId (f : State → State) (s : State) : (dev f s).nextId = (f s).nextId := rfl
@[simp] theorem dev_rules (f : State → State) (s : State) : (dev f s).rules = (f s).rules := rfl
@[simp] theorem dev_tus (f : State → State) (s : State) : (dev f s).tus = (f s).tus := rfl
@[simp] theorem dev_pendFires (f : State → State) (s : State) : (dev f s).pendFires = (f s).pendFires := rfl
@[simp] theorem dev_pricks (f : State → State) (s : State) : (dev f s).pricks = (f s).pricks := rfl
@[simp] theorem dev_hoops (f : State → State) (s : State) : (dev f s).hoops = (f s).hoops := rfl
@[simp] theorem dev_cqs (f : State → State) (s : State) : (dev f s).cqs = (f s).cqs := rfl
@[simp] theorem dev_eqs (f : State → State) (s : State) : (dev f s).eqs = (f s).eqs := rfl
@[simp] theorem dev_eqRings (f : State → State) (s : State) : (dev f s).eqRings = (f s).eqRings := rfl
@[simp] theorem dev_msiSent (f : State → State) (s : State) : (dev f s).msiSent = (f s).msiSent := rfl
@[simp] theorem dev_vfEnable (f : State → State) (s : State) : (dev f s).vfEnable = (f s).vfEnable := rfl
@[simp] theorem dev_numVfs (f : State → State) (s : State) : (dev f s).numVfs = (f s).numVfs := rfl
@[simp] theorem dev_objs (f : State → State) (s : State) : (dev f s).objs = (f s).objs := rfl
@[simp] theorem dev_allocs (f : State → State) (s : State) : (dev f s).allocs = (f s).allocs := rfl
@[simp] theorem dev_retiring (f : State → State) (s : State) : (dev f s).retiring = (f s).retiring := rfl
@[simp] theorem dev_moves (f : State → State) (s : State) : (dev f s).moves = (f s).moves := rfl
@[simp] theorem dev_flights (f : State → State) (s : State) : (dev f s).flights = (f s).flights := rfl
@[simp] theorem dev_waits (f : State → State) (s : State) : (dev f s).waits = (f s).waits := rfl
@[simp] theorem dev_walks (f : State → State) (s : State) : (dev f s).walks = (f s).walks := rfl
@[simp] theorem dev_skeins (f : State → State) (s : State) : (dev f s).skeins = (f s).skeins := rfl
@[simp] theorem dev_catalogue (f : State → State) (s : State) : (dev f s).catalogue = (f s).catalogue := rfl
@[simp] theorem dev_ctxs (f : State → State) (s : State) : (dev f s).ctxs = (f s).ctxs := rfl
@[simp] theorem dev_knots (f : State → State) (s : State) : (dev f s).knots = (f s).knots := rfl
@[simp] theorem dev_heldKnots (f : State → State) (s : State) : (dev f s).heldKnots = (f s).heldKnots := rfl
@[simp] theorem dev_chkOpen (f : State → State) (s : State) : (dev f s).chkOpen = (f s).chkOpen := rfl
@[simp] theorem dev_kdbg (f : State → State) (s : State) : (dev f s).kdbg = (f s).kdbg := rfl
@[simp] theorem dev_turns (f : State → State) (s : State) : (dev f s).turns = (f s).turns := rfl
@[simp] theorem dev_buckets (f : State → State) (s : State) : (dev f s).buckets = (f s).buckets := rfl
@[simp] theorem dev_links (f : State → State) (s : State) : (dev f s).links = (f s).links := rfl
@[simp] theorem dev_sessions (f : State → State) (s : State) : (dev f s).sessions = (f s).sessions := rfl
@[simp] theorem dev_remotes (f : State → State) (s : State) : (dev f s).remotes = (f s).remotes := rfl
@[simp] theorem dev_rotations (f : State → State) (s : State) : (dev f s).rotations = (f s).rotations := rfl
@[simp] theorem dev_fatal (f : State → State) (s : State) : (dev f s).fatal = (f s).fatal := rfl
@[simp] theorem dev_entered (f : State → State) (s : State) : (dev f s).entered = (f s).entered := rfl
@[simp] theorem dev_zeroOwed (f : State → State) (s : State) : (dev f s).zeroOwed = (f s).zeroOwed := rfl
@[simp] theorem dev_pipes (f : State → State) (s : State) : (dev f s).pipes = (f s).pipes := rfl
@[simp] theorem dev_gone (f : State → State) (s : State) : (dev f s).gone = (f s).gone := rfl
@[simp] theorem dev_rot (f : State → State) (s : State) : (dev f s).rot = (f s).rot := rfl
@[simp] theorem dev_pm (f : State → State) (s : State) : (dev f s).pm = (f s).pm := rfl
@[simp] theorem dev_svc (f : State → State) (s : State) : (dev f s).svc = (f s).svc := rfl
@[simp] theorem dev_island (f : State → State) (s : State) : (dev f s).island = (f s).island := rfl
@[simp] theorem dev_pcie (f : State → State) (s : State) : (dev f s).pcie = (f s).pcie := rfl
@[simp] theorem dev_camCtls (f : State → State) (s : State) : (dev f s).camCtls = (f s).camCtls := rfl
@[simp] theorem dev_freeRefused (f : State → State) (s : State) : (dev f s).freeRefused = (f s).freeRefused := rfl
@[simp] theorem dev_turnsOf (f : State → State) (s : State) : (dev f s).turnsOf = (f s).turnsOf := rfl
@[simp] theorem dev_pending (f : State → State) (s : State) : (dev f s).pending = s.pending := rfl

end Sys2Proof.Machine
end

