-- ==== Sys2Proof/Safety.lean ====
section
/-! DEFINITION. The terms in which claims speak: commands answered, writes that reach their register, the sender's position, and
what a cold reset may undo. -/

namespace Sys2Proof.Machine

/-- Command `c` runs in `s`, and the state it leaves meets `p`. -/
def completes (c : Instr) (s : State) (p : State → Prop) : Prop := ∃ t, exec c s = .next t ∧ p t

/-- Command `c` runs in `s`: its own effect leaves `u` with `p u`, and then `g` follows (such as `State.settled`: whatever can
commit commits). -/
def completesThen (c : Instr) (s : State) (g : State → State) (p : State → Prop) : Prop :=
  ∃ u, exec c s = .next (dev (fun _ => g u) s) ∧ p u

/-- Commands `c` and `d` both run in `s` and leave the same state. -/
def sameEffect (c d : Instr) (s : State) : Prop := ∃ t, exec c s = .next t ∧ exec d s = .next t

/-- A write by hoop `f` at `a` reaches an ordinary register: the page is in the hoop's view (R84), the unit is there (R9), its
domain is on (R109), and the offset is neither an expert nor a debug one (R99, R101). -/
def State.reaches (s : State) (f a : Nat) : Bool :=
  s.inView f a && match blkAt a with
    | none => false
    | some (b, i, off) => present s.part b i && s.domainOn (blkRow b).domain && decide (off % 0x1000 < 0x800)

/-- A write by hoop `f` at `a` of a register that gives its block work is taken: it reaches the register, and the block is ON (R103). -/
def State.accepts (s : State) (f a : Nat) : Bool := s.reaches f a && s.onAt a

/-- Is command `c` in `s` one that may be a cold reset, an exit from OFF, or an entry to OFF (R23, R573)? -/
def resetsCold (c : Instr) (s : State) : Bool :=
  match c with
  | .coldReset _ => true
  | .sysclkReturn => s.pm.clockStopped
  | .wakeInEvent _ _ => decide (s.pm.mode = .off)
  | .entryComplete .. => decide (s.pm.target = 6)
  | _ => false

/-- The canonical form of the stores: the register file, the knots and the object table list their keys in rising order, and none of
them lists an entry at its reset value. -/
def State.canonical (s : State) : Bool :=
  mwf (regReset s.part) 0 s.regs && mwf (fun _ => (0 : W32)) 0 s.knots && mwf (fun _ => Obj.dflt) 0 s.objs

/-- The stores that hold a program's work are as before: objects and what is allocated, moves, commands in flight and queues, knots,
contexts, the catalogue and the links. -/
def keepsStore (s t : State) : Prop :=
  t.objs = s.objs ∧ t.allocs = s.allocs ∧ t.moves = s.moves ∧ t.flights = s.flights ∧ t.cqs = s.cqs ∧ t.knots = s.knots ∧ t.ctxs = s.ctxs ∧
  t.catalogue = s.catalogue ∧ t.links = s.links

/-- Commands that only measure, report, or set a control of their own block. -/
def isControl : Instr → Bool
  | .referenceEdge .. | .generatedBoundary | .refLost | .tsSourceWrite .. | .hostPosGo .. | .captureReq .. | .loadGo .. | .stitchLoRead .. => true
  | .ruleWrite .. | .ruleRead .. | .trigPartWrite .. | .outOfViewAccess .. | .readClear .. | .stampLoRead .. | .expertSelWrite .. => true
  | .expertKeyWrite .. | .faultMaskWrite .. | .query .. | .lookup .. | .catalogueList .. | .ctxQuery .. => true
  | .ctxList .. | .actGuarWrite .. | .clGbHashWrite .. | .chkOpen .. | .chkClose .. | .shareWrite .. | .regulatorWrite .. | .lkPkgIdWrite .. => true
  | .pdmLineStuck .. | .pdmLineRecover .. | .tdmPortLost .. | .tdmPortLocked .. | .hwMuteRelease | .ringClearComplete | .islSwMuteWrite .. => true
  | .rchWrite .. | .coChallenge .. | .coAuth .. | .coAuthExpiry | .coAuthHoldoffEnd | .coLogout .. | .enrollCo .. | .advanceSvn .. => true
  | .entropyTestFail | .entropyRetest .. | .getVersion | .getCapabilities | .negotiateAlgorithms | .getDigests | .getCertificate | .getMeasurements => true
  | .jtagInstruction .. | .pmeTurnOff | .wakeStuck .. | .wakeStuckClear .. | .powerMeasure .. | .plTargetWrite .. | .levelChangeDone .. => true
  | .pmMemLevelWrite .. | .fwActivate .. | .fwSafeTimeout | .fwConfirm .. | .telemetrySnapshot | .telSeqLoRead .. | .telSeqHiRead .. => true
  | .smbReadPmStatus | .smbReadPmTemp | .smbReadPmPower | .smbReadResetCause | .smbReadDevPart | .smbReadDevStatus | .smbAlertResponse => true
  | _ => false

/-- The core is idle and ON, and step `t`, the next one of stream `k` of command `f`, is the one it runs now: the first of those able to start
whose turn it is (R285, R408). -/
def starts (s : State) (core : Fin 64) (f : InFlight) (k : Nat) (t : Step) : Prop :=
  let s0 := s.openTurn (core / 8)
  s0.coreBusy core = false ∧ s0.isOn .core core = true ∧ s0.nextOn core (s0.turnAdmits core) = some (f, k) ∧ f.nextStep k = some t

/-- What a step reads with: its command's view as the core starts it. -/
def startView (s : State) (core : Fin 64) (f : InFlight) (k : Nat) (t : Step) : StepRun :=
  (s.openTurn (core / 8)).viewOf f core k ((f.streams[k]?.map (·.step)).getD 0) t

/-- No walk of the command has entries left to issue at the step: its layer has begun before, or it walks nothing (R193). -/
def noWalk (s : State) (f : InFlight) (t : Step) : Prop := stLayer t ∈ f.layersBegun ∨ ∀ w ∈ s.walks, w.id ≠ f.id

/-- Stream `k` of command `f` stands after the step that it ran on the core, in some begun command of `u` (R285). -/
def stepEnded (u : State) (f : InFlight) (k : Nat) : Prop :=
  let now_ := fun (x : Stream) => (x.core, x.step, x.running, x.done)
  ∃ g ∈ u.flights, g.id = f.id ∧ g.streams.map now_ = (f.advance k).streams.map now_

/-- A message is delivered: its link is UP, it is the session's next, the compute domain is on, and the receiving hoop admits the sending hoop and is READY (R435, R437). -/
def delivered (s : State) (m : MsgHdr) : Prop :=
  (s.lk m.link).mode = .up ∧ m.dseq.toNat = (s.session (s.lk m.link).peer).rxDseq ∧ s.domainOn .compute = true ∧ s.pm.mode = .active ∧
  bit (s.reg (R.LK_HOOP_MAP m.link m.receiver)) (16 + m.sender) = true ∧ (s.hoop m.receiver).phase = .ready

/-- The state in which a delivered message of `bytes` bytes acts: the session expects the next one, and the bytes are counted. -/
def accepted (s : State) (m : MsgHdr) (bytes : Nat) : State :=
  let x := s.session (s.lk m.link).peer
  (s.setSession (s.lk m.link).peer { x with rxDseq := x.rxDseq + 1 }).addPieces (R.LK_RX_MB m.link) 1000000 bytes

/-- What a command of the clock's family answers: the state `u`, with the part and the waiting commands as before. -/
def answersTime (c : Instr) (s u : State) : Prop := exec c s = .next { u with part := s.part, pending := s.pending }

end Sys2Proof.Machine
end

