-- ==== Sys2Proof/Laws/Registers.lean ====
section
/-! SUPPORT. What the shared operations on registers, records and faults do, said once; and what a command of the device's blocks
answers. -/

namespace Sys2Proof.Machine

variable (s : State) (a a' n : Nat) (v : W32)

/-! ## Registers -/

/-- A register reads as what was stored in it. -/
@[simp] theorem reg_setReg_same : (s.setReg a v).reg a = v := by simp [State.reg, State.setReg]

/-- A store leaves every other register as it was. -/
theorem reg_setReg_ne (h : a' ≠ a) : (s.setReg a v).reg a' = s.reg a' := by
  simp only [State.reg, State.setReg]; exact mget_mset_ne _ _ _ _ _ _ h

/-- A store elsewhere or here, as one equation. -/
theorem reg_setReg : (s.setReg a v).reg a' = if a' = a then v else s.reg a' := by
  by_cases h : a' = a
  · subst h; simp
  · simp [h, reg_setReg_ne]

theorem addReg_eq : s.addReg a n = s.setReg a (satAdd (s.reg a) n) := rfl
theorem orReg_eq : s.orReg a v = s.setReg a (s.reg a ||| v) := rfl
theorem setRegFld_eq (lo len x : Nat) : s.setRegFld a lo len x = s.setReg a (setFld (s.reg a) lo len x) := rfl

@[simp] theorem reg_addReg_same : (s.addReg a n).reg a = satAdd (s.reg a) n := by simp [addReg_eq]
theorem reg_addReg_ne (h : a' ≠ a) : (s.addReg a n).reg a' = s.reg a' := by simp [addReg_eq, reg_setReg_ne, h]

@[simp] theorem reg_latchReg : (s.latchReg a v).reg a' = s.reg a' := rfl
@[simp] theorem reg_setRead : (s.setRead n).reg a' = s.reg a' := rfl
@[simp] theorem reg_setTs (t : SceneTime) : (s.setTs t).reg a = s.reg a := rfl
@[simp] theorem reg_setHoop (x : Hoop) : (s.setHoop n x).reg a = s.reg a := rfl
@[simp] theorem reg_setEq (h e : Nat) (x : Eq) : (s.setEq h e x).reg a = s.reg a := rfl
@[simp] theorem reg_setCq (h q : Nat) (x : Cq) : (s.setCq h q x).reg a = s.reg a := rfl
@[simp] theorem reg_setObj (o : Obj) : (s.setObj n o).reg a = s.reg a := rfl
@[simp] theorem reg_setRule (x : Rule) : (s.setRule n x).reg a = s.reg a := rfl

/-- Cycles that pass change no register but CT_FULL_CYCLES. -/
theorem reg_countHeld (h : a ≠ R.CT_FULL_CYCLES) : (s.countHeld n).reg a = s.reg a := by
  have e : (s.addReg R.CT_FULL_CYCLES n).reg a = s.reg a := reg_addReg_ne s R.CT_FULL_CYCLES a n h
  simp only [State.reg, State.countHeld] at *
  split <;> [exact e; rfl]
theorem reg_advance (h : a ≠ R.CT_FULL_CYCLES) : (s.advance n).reg a = s.reg a := reg_countHeld s a n h

/-- A register of a device command's result is that of its operation: the part is the same. -/
theorem reg_dev (f : State → State) (h : (f s).part = s.part) : (dev f s).reg a = (f s).reg a := by simp [State.reg, h]

/-! ## Records and faults -/

@[simp] theorem post_part (r : Rec) : (s.post r).part = s.part := by simp only [State.post]; split <;> rfl
@[simp] theorem post_regs (r : Rec) : (s.post r).regs = s.regs := by simp only [State.post]; split <;> rfl
@[simp] theorem post_ts (r : Rec) : (s.post r).ts = s.ts := by simp only [State.post]; split <;> rfl
@[simp] theorem post_now (r : Rec) : (s.post r).now = s.now := by simp only [State.post]; split <;> rfl
@[simp] theorem reg_post (r : Rec) : (s.post r).reg a = s.reg a := by simp [State.reg]

variable (b : Blk) (i bitNo code flags detail : Nat)

@[simp] theorem raiseWith_part : (s.raiseWith b i bitNo code flags detail).part = s.part := by
  simp only [State.raiseWith]; split <;> [rfl; (split <;> simp)]
@[simp] theorem raiseWith_ts : (s.raiseWith b i bitNo code flags detail).ts = s.ts := by
  simp only [State.raiseWith]; split <;> [rfl; (split <;> simp)]
@[simp] theorem raiseWith_now : (s.raiseWith b i bitNo code flags detail).now = s.now := by
  simp only [State.raiseWith]; split <;> [rfl; (split <;> simp)]

/-- A fault occurrence changes no register but the page's FAULT_STATUS. -/
theorem reg_raiseWith_ne (h : a ≠ R.FAULT_STATUS (pageOf b i)) : (s.raiseWith b i bitNo code flags detail).reg a = s.reg a := by
  simp only [State.raiseWith]
  split
  · rfl
  · split <;> simp [reg_setReg_ne, h] <;> rfl

@[simp] theorem raise_part : (s.raise b i bitNo code).part = s.part := by simp [State.raise]
@[simp] theorem raise_ts : (s.raise b i bitNo code).ts = s.ts := by simp [State.raise]
@[simp] theorem raise_now : (s.raise b i bitNo code).now = s.now := by simp [State.raise]
theorem reg_raise_ne (h : a ≠ R.FAULT_STATUS (pageOf b i)) : (s.raise b i bitNo code).reg a = s.reg a := by
  simp [State.raise, reg_raiseWith_ne, h]


/-! ## Writes and answers -/

/-- A write that is let through acts. -/
theorem reach_of_reaches (f : Nat) (act : State → State) (h : s.reaches f a = true) : s.reach f a act = act s := by
  simp only [State.reaches, Bool.and_eq_true] at h
  obtain ⟨h1, h2⟩ := h
  unfold State.reach
  rw [h1]
  revert h2
  cases blkAt a with
  | none => simp
  | some x =>
    obtain ⟨b, i, off⟩ := x
    intro h2
    simp only [Bool.and_eq_true, decide_eq_true_eq] at h2
    obtain ⟨⟨h2, h3⟩, h4⟩ := h2
    have h5 : ¬ 0xF00 ≤ off % 0x1000 := by omega
    have h6 : ¬ 0x800 ≤ off % 0x1000 := by omega
    simp [h2, h3, h5, h6]

/-- A write of a command register that is taken acts. -/
theorem command_of_accepts (f : Nat) (act : State → State) (h : s.accepts f a = true) : s.command f a act = act s := by
  simp only [State.accepts, Bool.and_eq_true] at h
  simp [State.command, reach_of_reaches s a f _ h.1, h.2]

/-- A device command runs, and leaves the part, the clock, scene time and the waiting commands as they are. -/
theorem run_next (f : State → State) : run f s = .next (dev f s) := rfl

/-- An event of a domain that is on happens. -/
theorem runIn_on (d : Domain) (f : State → State) (h : s.domainOn d = true) : runIn d f s = .next (dev f s) := by
  simp [runIn, run, dev, h]

end Sys2Proof.Machine
end

