-- ==== Sys2Proof/Certificates/Slice0/Obligations.lean ====
section
/-! DEFINITION. The statements for the provers: what the commands of the Mervis do, by the rules of the manual that each docstring names
first. Where a clause rests on a choice of the model's, the docstring says so. -/

section Sys2ProofObligations
open Sys2Proof Sys2Proof.Machine

/-! ## The queue of commands, and what no command breaks -/

/-- Model's choice (the queue of waiting commands, log entry 3): a step runs the command at the front with the queue's rest, and idles on an empty queue. -/
def Obligations.StepRunsFrontCommand : Prop :=
  (∀ c rest s, s.pending = c :: rest → step s = exec c { s with pending := rest }) ∧
  (∀ c s, step { s with pending := c :: s.pending } = exec c s) ∧
  (∀ s, s.pending = [] → step s = .next s)

/-- R23: until a cold reset, or an entry to or exit from OFF, no command makes the device's position fall; a cold reset and an exit from OFF set it to 0;
a warm reset, a PCIe reset and a hoop reset leave it as it is, and so does a reset of the scene-time unit, which returns the unit's configuration
registers to their reset values. -/
def Obligations.PositionNeverFalls : Prop :=
  (∀ c s t, resetsCold c s = false → exec c s = .next t → s.pos ≤ t.pos) ∧
  (∀ s : State,
    (∀ why : Fin 4, why ≠ 3 → completes (.coldReset why) s fun t => t.pos = 0) ∧
    (s.pm.clockStopped = true → s.pm.tripped = false → completes .sysclkReturn s fun t => t.pos = 0) ∧
    (s.pm.mode = .off → s.pm.tripped = false → s.pm.clockStopped = false → completes (.coldReset 3) s fun t => t.pos = 0)) ∧
  (∀ (s : State) (f h : Fin 16) (v : W32) (pg : Fin 5),
    ∀ c ∈ [Instr.warmReset, .pmResetWarm f v, .powerGoodTimeout, .powerGoodLost pg, .conventionalReset, .functionLevelReset h, .hoopReset f h],
      completes c s fun t => t.pos = s.pos) ∧
  (∀ (s : State) (f : Fin 16) (page : Fin 16384), headerAt page = some (.sceneTime, 0) → s.reaches f (R.BLOCK_CTRL (page * 0x1000)) = true →
    completes (.blockReset f page) s fun t => t.pos = s.pos ∧ t.ts.mode = .free ∧ ∀ a, 0x10100 ≤ a → a < 0x11000 → t.reg a = regReset t.part a)

/-- Every step keeps the canonical form of the register file, the knots and the object table: their entries stay in rising order, and none stands at its
reset value, so that equal contents are equal data. -/
def Obligations.StepsKeepTheCanonicalForm : Prop :=
  ∀ s t, s.canonical = true → step s = .next t → t.canonical = true

/-- Every command that a sender can send runs: it answers a next state whatever the state; no command faults; only a term that no sender can send is
refused, under the name `illFormed`. And the frame of the commands: none but a cold reset, and no other than the listed commands of scene time and of
the power states, changes the clock, the scene-time unit, and so the position; none changes the part or the queue of waiting commands; and those that
only measure, report or set a control of their own block leave objects, allocations, moves, queues, commands, knots, contexts, the catalogue and the
links as they are. -/
def Obligations.CommandsRunAndKeepTheRest : Prop :=
  (∀ c s, (c.wellFormed = true → ∃ t, exec c s = .next t) ∧ (c.wellFormed = false → exec c s = .refused .illFormed)) ∧
  (∀ c s t, exec c s = .next t → t.part = s.part ∧ t.pending = s.pending ∧ (isControl c = true → keepsStore s t) ∧
    ((match c with
      | .referenceEdge .. | .generatedBoundary | .refLost | .tsSourceWrite .. | .hostPosGo .. | .loadGo .. | .positionReached .. | .blockReset ..
      | .registerWrite .. | .bootComplete .. | .entryComplete .. | .exitComplete .. | .thermalTrip | .wakeInEvent .. | .coldReset .. | .sysclkStop | .sysclkReturn => False
      | _ => True) → t.now = s.now ∧ t.ts = s.ts ∧ t.pos = s.pos))

/-! ## Scene time -/

/-- R26, R29, R30, R31, R32, R33, R35: an edge of the selected pin that passes the filter and the divider in LOCKED, TS_MIN_PERIOD or more after the last
one, ends a stitch: the count moves on by the whole number of periods nearest to the time passed (at least one; a tie counts up, which is the model's
choice, log entry 117), the periods beyond the first are counted as missed, and the period estimate becomes the mean of the last 8 accepted intervals,
or of as many as there are (the model's choice, log entry 121). (The first edge after a slew is left out: log entry 10.) An edge shorter than
MIN_PULSE is counted as a glitch and does nothing else. A generated boundary ends the stitch one interval after the last boundary; the one that
absorbs the rest of a correction ends the slew; and the loss of the reference in LOCKED leads to HOLDOVER with HOLD_CAUSE LOST, TS_LOST_PERIODS
stitches on, with the intervals forgotten and LOST_COUNT one higher. The boundary takes effect 64 cycles after the capture (R39); that the command
ends with that boundary is the model's choice (log entry 8). -/
def Obligations.EdgesAndBoundaries : Prop :=
  ((∀ (s : State) (dt : Nat) (falling : Bool) (width : Nat),
    let mp := s.minPulse
    let cap := s.now + dt + mp
    let n := max 1 ((((cap + 64 : Nat) : Rat) - s.ts.baseAt) / s.ts.period + 1 / 2).floor.toNat
    s.pm.mode ≠ .off → s.ts.mode = .locked → s.ts.slewEnd = false → s.ts.loadPending = false → (s.tsSrc = 1 ∨ s.tsSrc = 2) → mp ≤ width → bit (s.reg R.TS_SOURCE) 8 = falling →
    fld (s.reg R.TS_DIVIDER) 0 16 ≤ s.ts.divCount → (∀ l, s.ts.lastAccepted = some l → s.tsMinPeriod ≤ (cap : Rat) - (l : Rat)) →
    completes (.referenceEdge dt falling width false) s fun t =>
      t.now = cap + 64 ∧ t.ts.mode = .locked ∧ t.ts.base = s.ts.base + 65536 * n ∧ t.ts.baseAt = ((cap + 64 : Nat) : Rat) ∧ t.ts.divCount = 0 ∧
      t.ts.lastEdge = some cap ∧ t.ts.lastAccepted = some cap ∧ (let l := edgeIntervals s.ts.lastEdge s.ts.intervals cap
        l ≠ [] → t.ts.period = ((l.take 8).sum : Rat) / ((l.take 8).length : Rat)) ∧ t.reg R.MISSED_COUNT = satAdd (s.reg R.MISSED_COUNT) (n - 1)) ∧
  (∀ (s : State) (dt : Nat) (falling : Bool) (width : Nat),
    s.pm.mode ≠ .off → (s.tsSrc = 1 ∨ s.tsSrc = 2) → width < s.minPulse →
    completes (.referenceEdge dt falling width false) s fun t =>
      t.now = s.now + dt ∧ t.ts = s.ts ∧ t.reg R.GLITCH_COUNT = satAdd (s.reg R.GLITCH_COUNT) 1)) ∧
  ((∀ s : State, s.pm.mode ≠ .off → s.ts.generated = true → s.ts.mode ≠ .slewing → s.ts.loadPending = false →
    completes .generatedBoundary s fun t =>
      t.ts.mode = s.ts.mode ∧ t.ts.base = s.ts.base + 65536 ∧ t.ts.baseAt = s.ts.baseAt + s.ts.ival ∧
      t.ts.ival = s.lengthen (s.basePeriod s.ts.mode) ∧ t.now = max s.now (s.ts.baseAt + s.ts.ival).ceil.toNat) ∧
  (∀ s : State, s.pm.mode ≠ .off → s.ts.mode = .slewing → s.ts.loadPending = false → s.ts.slewAbs = (s.ts.corr.natAbs : Int) →
    completes .generatedBoundary s fun t =>
      t.ts.mode = s.afterCorr ∧ t.ts.base = s.ts.base + 65536 ∧ t.ts.corr = 0) ∧
  (∀ s : State, s.pm.mode ≠ .off → s.ts.mode = .locked →
    let n := (s.force R.TS_LOST_PERIODS).toNat
    completes .refLost s fun t =>
      t.ts.mode = .holdover ∧ t.ts.holdCause = 1 ∧ t.ts.base = s.ts.base + 65536 * n ∧ t.ts.baseAt = s.ts.baseAt + (n : Rat) * s.ts.period ∧
      t.ts.intervals = [] ∧ t.ts.lastEdge = none ∧ t.reg R.LOST_COUNT = satAdd (s.reg R.LOST_COUNT) 1))

/-- R25, R37, R38, R50, and R48's latching reads: writes of the scene-time registers that reach the page. A write of TS_SOURCE with a source that does not
exist is refused and changes the source in nothing; one to INTERNAL from another source enters FREE with no correction; one to an edge source from
FREE enters ACQUIRING. HOST_POS_GO outside host time changes nothing. A capture leaves the position in the CAPTURE registers. A load takes effect at
once when it is ahead of the count, and is refused when it is not. -/
def Obligations.SceneTimeWrites : Prop :=
  (∀ (s : State) (f : Fin 16) (v : W32), s.reaches f R.TS_SOURCE = true →
    (s.tsSourceRefused v = true → completes (.tsSourceWrite f v) s fun t =>
      t.ts.srcRefused = true ∧ t.ts.mode = s.ts.mode ∧ t.ts.base = s.ts.base ∧ t.reg R.TS_SOURCE = s.reg R.TS_SOURCE) ∧
    (fld v 0 3 = 0 → s.tsSrc ≠ 0 → completes (.tsSourceWrite f v) s fun t =>
      t.ts.mode = .free ∧ t.ts.corr = 0 ∧ t.ts.intervals = [] ∧ t.ts.everLocked = false ∧ t.ts.base = s.ts.base) ∧
    ((fld v 0 3 = 1 ∨ (fld v 0 3 = 2 ∧ fld v 4 4 ≤ 3)) → s.tsSrc = 0 → s.ts.mode = .free → completes (.tsSourceWrite f v) s fun t =>
      t.ts.mode = .acquiring ∧ t.ts.generated = true ∧ t.ts.intervals = [] ∧ t.ts.divCount = 0 ∧ t.ts.everLocked = false)) ∧
  (∀ (s : State) (f : Fin 16) (v : W32), s.reaches f R.HOST_POS_GO = true → bit v 0 = true →
    (s.tsSrc ≠ 5 → completes (.hostPosGo f v) s fun t => t = s) ∧
    (s.tsSrc = 5 → bit (s.reg R.TS_SOURCE) 9 = true → completes (.hostPosGo f v) s fun t =>
      let p := ((s.reg R.HOST_POS_HI).toNat * 2 ^ 32 + (s.reg R.HOST_POS_LO).toNat) * 65536 + fld (s.reg R.HOST_POS_PHASE) 0 16
      t.ts.mode = .host ∧ t.ts.corr = 0 ∧ t.ts.base = p / 65536 * 65536 ∧ t.reg R.STEP_COUNT = satAdd (s.reg R.STEP_COUNT) 1)) ∧
  (∀ (s : State) (f : Fin 16) (v : W32), s.reaches f R.CAPTURE_REQ = true → bit v 0 = true →
    completes (.captureReq f v) s fun t =>
      t.reg R.CAPTURE_LO = w32 (s.count % 2 ^ 32) ∧ t.reg R.CAPTURE_HI = w32 (s.count / 2 ^ 32) ∧ t.reg R.CAPTURE_PHASE = w32 s.phase) ∧
  (∀ (s : State) (f : Fin 16) (v : W32), s.reaches f R.LOAD_CTRL = true → bit v 0 = true →
    let ld := (s.reg R.LOAD_HI).toNat * 2 ^ 32 + (s.reg R.LOAD_LO).toNat
    (bit v 1 = true → completes (.loadGo f v) s fun t => t.ts.loadPending = true ∧ t.ts.loadVal = ld ∧ t.ts.base = s.ts.base ∧ t.pos = s.pos) ∧
    (bit v 1 = false → s.count < ld → completes (.loadGo f v) s fun t => t.ts.base = ld * 65536 ∧ t.ts.baseAt = s.ts.resolve s.time ∧ ld ≤ t.count) ∧
    (bit v 1 = false → ld ≤ s.count → completes (.loadGo f v) s fun t => t.ts.loadRefused = true ∧ t.ts.base = s.ts.base ∧ t.pos = s.pos)) ∧
  (∀ s : State, s.pm.mode ≠ .off → mget none s.latch R.STITCH_LO = none → completes (.stitchLoRead 0) s fun t =>
    t.readData = s.count % 2 ^ 32 ∧ mget none t.latch R.STITCH_HI = some (w32 (s.count / 2 ^ 32)) ∧ mget none t.latch R.PHASE = some (w32 s.phase))

/-! ## Records, trigger units and prickings -/

/-- R45, R141, R147: the next held record takes the hoop's next sequence number, and an enabled event queue with room takes it at TAIL, with the phase bit
of its lap. Waited positions (R44, R133): time passes, and an AT_STITCH at a queue's head whose target is reached leaves the head as a complete
command. -/
def Obligations.RecordsAreSequenced : Prop :=
  (∀ (s : State) (h : Fin 16) (r : Rec), s.domainOn .compute = true → (s.hoop h).phase ≠ .resetting → nextHeld (s.hoop h).held = some r → r.hoop = h.val →
    let q := s.eq h r.eq
    q.en = true → q.held = [] → s.eqFull h r.eq = false →
    completesThen (.recordSequenced h) s State.settled fun u =>
      (u.hoop h).seq = ((s.hoop h).seq + 1) % 2 ^ 32 ∧ (u.hoop h).held = (s.hoop h).held.erase r ∧ (u.eq h r.eq).tail = (q.tail + 1) % 2 ^ 32 ∧
      mget 0 u.eqRings ((h * 16 + r.eq) * 65536 + q.tail % s.eqSize h r.eq) =
        setBit (setBit (packRec r (s.hoop h).seq false false) 31 (decide (q.tail / s.eqSize h r.eq % 2 = 0))) 25 q.loss) ∧
  (∀ (s : State) (dt : Nat) (sub : Fin 16) (a : Nat) (c : Cmd),
    let later := s.advance16 (16 * dt + sub)
    let s' := if dt = 0 then later else later.phasesEnd
    s'.reachedAts = [(a, c)] → s'.reachedFirst a = true → s'.ctxGone c = false →
    ∃ u : State, exec (.positionReached dt sub) s = .next (dev (fun _ => u.settled) later) ∧ (u.cq c.hoop c.cq).head = none ∧
      ∃ f, u.flights = s'.flights ++ [f] ∧ f.cmd = c ∧ f.done = true) ∧
  (∀ (s : State) (dt : Nat) (sub : Fin 16), completes (.positionReached dt sub) s fun t =>
    t.now = s.now + (16 * dt + sub + s.sub) / 16 ∧ t.sub = (16 * dt + sub + s.sub) % 16 ∧ t.ts = s.ts)

/-- R56, R59, R60: a rule that is offered a record is evaluated once: a record inside its refractory time is counted as suppressed; an IDLE rule whose ARM
level the record meets, and whose FIRE level it does not meet, becomes ARMED with the record's stamp; an ARMED rule whose FIRE level it meets before
its deadline fires and is HELD until its refractory time ends; one whose deadline the record's stamp has reached is disarmed instead (R70); a HELD
rule that the record releases is IDLE. -/
def Obligations.RuleEvaluation : Prop :=
  ∀ (s s1 : State) (u : Fin 16) (rec : Rec) (r : Nat), s.domainOn .compute = true → s.isOn .triggerUnit u = true → s.unitFull u = false →
    s.nextOffer u (2 * (s.tu u).inq.length + 3) = (s1, some (rec, r)) →
    let x := s1.rule r
    let intime := ∀ d, x.deadline = some d → rec.stamp < d
    (rec.stamp < x.refractoryEnd → (x.state = 1 → intime) → completesThen (.ruleEvaluate u) s State.settled fun t =>
      (t.rule r).suppressed = min 65535 (x.suppressed + 1) ∧ (t.rule r).state = x.state) ∧
    (x.refractoryEnd ≤ rec.stamp → x.state = 0 → rec.fromSrc x.armSrc = true → x.meets (x.val x.armSrc rec) x.armL = true →
      (rec.fromSrc x.fireSrc && x.meets (x.val x.fireSrc rec) x.fireL) = false → x.actPrefetch = false →
      completesThen (.ruleEvaluate u) s State.settled fun t =>
        (t.rule r).state = 1 ∧ (t.rule r).armStamp = rec.stamp ∧ (t.rule r).armCtx = rec.context ∧
        (t.rule r).deadline = if x.armTimeout = 0 then none else some (rec.stamp + 65536 * x.armTimeout)) ∧
    (x.refractoryEnd ≤ rec.stamp → x.state = 1 → intime → rec.fromSrc x.fireSrc = true →
      x.meets (x.val x.fireSrc rec) x.fireL = true → x.actFire = false →
      completesThen (.ruleEvaluate u) s State.settled fun t =>
        (t.rule r).state = 2 ∧ (t.rule r).deadline = none ∧ (t.rule r).refractoryEnd = rec.stamp + 65536 * x.refractory) ∧
    (x.refractoryEnd ≤ rec.stamp → x.state = 2 → x.island = false → x.released (x.val x.armSrc rec) = true →
      completesThen (.ruleEvaluate u) s State.settled fun t => (t.rule r).state = 0) ∧
    (∀ d, x.refractoryEnd ≤ rec.stamp → x.state = 1 → x.deadline = some d → d ≤ rec.stamp → x.island = false → x.released (x.val x.armSrc rec) = false →
      completesThen (.ruleEvaluate u) s State.settled fun t => (t.rule r).state = 2 ∧ (t.rule r).refractoryEnd = x.refractoryEnd)

/-- R67, R69, R70: a waiting block whose queue has room enters it whole; one that has waited FIRE_HOLD stitches without room is dropped and counted; an
ARMED rule whose deadline is reached is disarmed. -/
def Obligations.WaitingFiresAndDeadlines : Prop :=
  (∀ (s : State) (h : Fin 16) (q : Fin 64) (p : PendFire), s.domainOn .compute = true →
    s.pendFires.find? (fun p => decide (p.hoop = h.val ∧ p.cq = q.val)) = some p → s.cqDevice h q = true → s.ringRoom h q p.cmds.length = true → p.cmds ≠ [] →
    completesThen (.pendingFireAppend h q) s State.heldForces fun t =>
      t.pendFires = s.pendFires.erase p ∧ (t.cq h q).tail = ((s.cq h q).tail + p.cmds.length) % 2 ^ 32) ∧
  (∀ (s : State) (h : Fin 16) (q : Fin 64) (p : PendFire) (u : Nat), s.domainOn .compute = true →
    s.pendFires.find? (fun p => decide (p.hoop = h.val ∧ p.cq = q.val)) = some p → p.unit = some u → p.since + 65536 * (s.reg (R.FIRE_HOLD h)).toNat ≤ s.pos → s.ringRoom h q p.cmds.length = false →
    completesThen (.fireHoldExpiry h q) s State.heldForces fun t =>
      t.pendFires = s.pendFires.erase p ∧ t.reg (R.FIRE_DROP_COUNT u) = satAdd (s.reg (R.FIRE_DROP_COUNT u)) 1) ∧
  (∀ (s : State) (r : Fin 8192) (d : Nat), s.domainOn .compute = true → (s.rule r).state = 1 → (s.rule r).deadline = some d → d ≤ s.pos → s.recordBefore r d = false →
    s.reachedFirst d = true → completes (.disarm r) s fun t => (t.rule r).state = 2 ∧ (t.rule r).deadline = none ∧ (t.rule r).armObjs = [])

/-- R60, R69, R81: RULE_CMD on a rule of the hoop's range. WRITE copies the 32 words of RULE_DATA into a disabled rule, and is refused on an enabled one;
READ copies the rule into RULE_DATA; ENABLE of a rule that its checks pass makes it enabled and IDLE, and otherwise reports the check that failed;
DISABLE leaves it disabled and IDLE. A selection beyond the range is OUT_OF_RANGE. The three forces on an enabled rule act at the current position:
FORCE_ARM arms a rule that is not ARMED, FORCE_FIRE fires any that its unit has room for, FORCE_DISARM disarms an ARMED one into REFRACTORY; a force
that the rule's state, or a trigger unit that is not ON, does not take changes no rule (of the unit: the model's choice, log entry 130), and one on a
disabled rule is NOT_ENABLED. -/
def Obligations.RuleCommands : Prop :=
  (∀ (s : State) (f h : Fin 16), s.accepts f (R.RULE_CMD h) = true → bit (s.reg (R.RULE_CMD_STATUS h)) 0 = true →
    let sel := (s.reg (R.RULE_SEL h)).toNat
    let r := s.ruleBase h + sel
    let done := fun (t : State) (res : Nat) => t.reg (R.RULE_CMD_STATUS h) = w32 (1 + 16 * res)
    (s.ruleCount h ≤ sel → ∀ c ∈ [Instr.ruleWrite f h, .ruleRead f h, .ruleEnable f h, .ruleDisable f h, .forceArm f h, .forceFire f h, .forceDisarm f h],
      completes c s fun t => done t 1 ∧ t.rules = s.rules) ∧
    (sel < s.ruleCount h →
      ((s.rule r).enabled = false → completes (.ruleWrite f h) s fun t =>
        done t 0 ∧ (∀ i < 32, (t.rule r).b (4 * i) 4 = (s.reg (R.RULE_DATA h i)).toNat) ∧ (t.rule r).enabled = false) ∧
      ((s.rule r).enabled = true → completes (.ruleWrite f h) s fun t => done t 2 ∧ t.rules = s.rules) ∧
      (completes (.ruleRead f h) s fun t => done t 0 ∧ (∀ i < 32, t.reg (R.RULE_DATA h i) = w32 ((s.rule r).b (4 * i) 4)) ∧ t.rules = s.rules) ∧
      (s.ruleCheck h r = 0 → completes (.ruleEnable f h) s fun t =>
        done t 0 ∧ (t.rule r).enabled = true ∧ (t.rule r).state = 0 ∧ (t.rule r).bits = (s.rule r).bits) ∧
      (s.ruleCheck h r ≠ 0 → completes (.ruleEnable f h) s fun t => done t (s.ruleCheck h r) ∧ t.rules = s.rules) ∧
      ((s.rule r).enabled = true → completes (.ruleDisable f h) s fun t =>
        done t 0 ∧ (t.rule r).enabled = false ∧ (t.rule r).state = 0 ∧ (t.rule r).deadline = none))) ∧
  (∀ (s : State) (f h : Fin 16), s.accepts f (R.RULE_CMD h) = true → bit (s.reg (R.RULE_CMD_STATUS h)) 0 = true →
    (s.reg (R.RULE_SEL h)).toNat < s.ruleCount h →
    let r := s.ruleBase h + (s.reg (R.RULE_SEL h)).toNat
    let x := s.rule r
    let on := s.isOn .triggerUnit (r / 512)
    let done := fun (t : State) (res : Nat) => t.reg (R.RULE_CMD_STATUS h) = w32 (1 + 16 * res)
    (x.enabled = true → x.state ≠ 1 → on = true → completes (.forceArm f h) s fun t =>
      done t 0 ∧ (t.rule r).state = 1 ∧ (t.rule r).armStamp = s.pos ∧ t.reg (R.ARM_COUNT (r / 512)) = satAdd (s.reg (R.ARM_COUNT (r / 512))) 1) ∧
    (x.enabled = true → on = true → s.unitFull (r / 512) = false → completes (.forceFire f h) s fun t =>
      done t 0 ∧ (t.rule r).state = 2 ∧ (t.rule r).refractoryEnd = s.pos + 65536 * x.refractory ∧
      t.reg (R.FIRE_COUNT (r / 512)) = satAdd (s.reg (R.FIRE_COUNT (r / 512))) 1) ∧
    (x.enabled = true → x.state = 1 → completes (.forceDisarm f h) s fun t =>
      done t 0 ∧ (t.rule r).state = 2 ∧ (t.rule r).deadline = none) ∧
    (x.enabled = true → (x.state = 1 ∨ on = false) → completes (.forceArm f h) s fun t => done t 0 ∧ t.rules = s.rules) ∧
    (x.enabled = true → on = false → s.unitFull (r / 512) = false → completes (.forceFire f h) s fun t => done t 0 ∧ t.rules = s.rules) ∧
    (x.enabled = true → x.state ≠ 1 → completes (.forceDisarm f h) s fun t => done t 0 ∧ t.rules = s.rules) ∧
    (x.enabled = false → ∀ c ∈ [Instr.forceArm f h, .forceFire f h, .forceDisarm f h], completes c s fun t => done t 9 ∧ t.rules = s.rules))

/-- R79: a write of TRIG_PART[h] that would overlap another hoop's range, exceed 8,192 or leave an enabled rule outside its hoop's range is refused, with
the partition unchanged and PART_REFUSED set; any other takes effect at once. -/
def Obligations.RuleRangesArePartitioned : Prop :=
  ∀ (s : State) (f h : Fin 16) (v : W32), s.reaches f (R.TRIG_PART h) = true →
    let b := fld v 0 13
    let n := fld v 16 14
    let free := (∀ g < 16, g = h.val ∨ s.ruleCount g = 0 ∨ n = 0 ∨ s.ruleBase g + s.ruleCount g ≤ b ∨ b + n ≤ s.ruleBase g) ∧ b + n ≤ 8192 ∧
      (∀ e ∈ s.rules, e.2.enabled = true → s.ruleOf h e.1 = true → b ≤ e.1 ∧ e.1 < b + n)
    (free → completes (.trigPartWrite f h v) s fun t => t.reg (R.TRIG_PART h) = w32 (b + n * 2 ^ 16)) ∧
    (¬ free → completes (.trigPartWrite f h v) s fun t => t.reg (R.TRIG_PART h) = s.reg (R.TRIG_PART h) ∧ fld (t.reg (R.TU_STATUS 0)) 16 1 = 1)

/-- R73, R74, R75, R76: enabling a pricking engine loads and pins a table in order, and one that does not resolve is refused; an engine that is enabled
keeps its place, and disabling it forgets its table. An entry whose target is reached acts (one that waits for room in a trigger unit apart) and the
next one follows, the last one ending the table or beginning its next lap; one that is too late under SKIP is counted. -/
def Obligations.Prickings : Prop :=
  (∀ (s : State) (f h : Fin 16) (n : Fin 4) (v : W32), s.reaches f (R.PRICK_CTRL h n) = true →
    let en := bit (s.reg (R.PRICK_CTRL h n)) 0
    let table := s.resolve h (s.reg (R.PRICK_TABLE h n)).toNat
    let period := (s.reg (R.PRICK_PERIOD h n)).toNat
    (∀ k es, bit v 0 = true → en = false → table = some k → (s.obj k).kind = 11 → (s.obj k).tier = 2 → (s.obj k).homed = true →
      (s.obj k).pricking period = some es → completes (.prickEnable f h n v) s fun t =>
        t.reg (R.PRICK_CTRL h n) = w32 (1 + 2 * fld v 1 2) ∧ (t.prick h n).entries = es ∧ (t.prick h n).entry = 0 ∧ (t.prick h n).lap = 0 ∧
        (t.prick h n).refused = false ∧ (t.obj k).pins = (s.obj k).pins + 1) ∧
    (bit v 0 = true → en = false →
      (∀ k, table = some k → (s.obj k).kind ≠ 11 ∨ (s.obj k).tier ≠ 2 ∨ (s.obj k).homed = false ∨ (s.obj k).pricking period = none) →
      completes (.prickEnable f h n v) s fun t => bit (t.reg (R.PRICK_CTRL h n)) 0 = false ∧ (t.prick h n).refused = true) ∧
    (bit v 0 = true → en = true → completes (.prickEnable f h n v) s fun t =>
      t.reg (R.PRICK_CTRL h n) = w32 (1 + 2 * fld v 1 2) ∧ t.prick h n = s.prick h n) ∧
    (bit v 0 = false → completes (.prickEnable f h n v) s fun t =>
      t.reg (R.PRICK_CTRL h n) = w32 (2 * fld v 1 2) ∧ (t.prick h n).entries = [] ∧ (t.prick h n).table = none)) ∧
  (∀ (s : State) (h : Fin 16) (n : Fin 4), s.domainOn .compute = true →
    let x := s.prick h n
    let target := s.prickTarget h n x.lap x.entry
    let period := (s.reg (R.PRICK_PERIOD h n)).toNat
    let late := 65536 * (target + (s.reg (R.PRICK_LATE_TOL h n)).toNat) < s.pos
    s.prickDue h n = true → s.reachedFirst (65536 * target) = true → s.prickWaits h n x.entry = false →
    (completesThen (.prickingEntry h n) s State.settled fun t =>
      (x.entry + 1 < x.entries.length → t.prick h n = { x with entry := x.entry + 1 }) ∧
      (x.entries.length ≤ x.entry + 1 → period = 0 → t.prick h n = { x with entry := x.entry + 1, done := true }) ∧
      (x.entries.length ≤ x.entry + 1 → period ≠ 0 → t.prick h n = { x with entry := 0, lap := x.lap + 1 })) ∧
    (late → fld (s.reg (R.PRICK_CTRL h n)) 1 2 = 1 → completesThen (.prickingEntry h n) s State.settled fun t =>
      t.reg (R.PRICK_SKIP_COUNT h n) = satAdd (s.reg (R.PRICK_SKIP_COUNT h n)) 1))

/-! ## Pages, views and the enable state machine -/

/-- R104, R94: EN written on a page whose block is not ALWAYS_ON. From OFF, with no fence pending, EN = 1 enters STARTING at the count of that moment; in
STOPPING it enters PENDING_ENABLE; in ON it changes nothing in BLOCK_STATE. EN = 0 in ON enters STOPPING, and then the unit's own work ends; in
STARTING it sets PENDING_DISABLE; in PENDING_ENABLE it enters STOPPING. -/
def Obligations.EnableRequests : Prop :=
  ∀ (s : State) (f : Fin 16) (page : Fin 16384) (b : Blk) (i : Nat), headerAt page = some (b, i) →
    s.reaches f (R.BLOCK_CTRL (page * 0x1000)) = true → (blkRow b).alwaysOn = false →
    let p := pageOf b i
    let stamped := fun (t : State) => t.reg (R.STAMP_LO p) = w32 (s.count % 2 ^ 32) ∧ t.reg (R.STAMP_HI p) = w32 (s.count / 2 ^ 32)
    (s.stOf b i = 0 → s.fencePending b i = false → (b = .hostIf → (s.hoop i).phase = .ready) →
      completes (.blockEnable f page) s fun t => t.stOf b i = 1 ∧ t.en b i = true ∧ stamped t) ∧
    (s.stOf b i = 3 → s.fencePending b i = false → completes (.blockEnable f page) s fun t => t.stOf b i = 4 ∧ t.en b i = true ∧ stamped t) ∧
    (s.stOf b i = 2 → completes (.blockEnable f page) s fun t => t.reg (R.BLOCK_STATE p) = s.reg (R.BLOCK_STATE p) ∧ t.en b i = true) ∧
    (s.stOf b i = 2 → completesThen (.blockDisable f page) s (fun u => (u.stopUnit b i).settled) fun u =>
      u.stOf b i = 3 ∧ u.en b i = false ∧ stamped u) ∧
    (s.stOf b i = 1 → completesThen (.blockDisable f page) s State.settled fun u =>
      u.stOf b i = 1 ∧ u.en b i = false ∧ bit (u.reg (R.BLOCK_STATE p)) 4 = true) ∧
    (s.stOf b i = 4 → completesThen (.blockDisable f page) s State.settled fun u => u.stOf b i = 3 ∧ u.en b i = false ∧ stamped u)

/-- R94, R104, R108: fences and returns. Hoop 0's fence of a FENCEABLE block that is OFF fences it with cause 1; one that is ON enters STOPPING with the
request and FENCE_PENDING standing. A return of a block fenced by software is accepted: the block leaves FENCED for STARTING or OFF by EN, with no
cause; a return of a block fenced at the factory or by a failed start, or of one that is not FENCED, is refused and its state stays. Another hoop's
request, or one on a block that cannot be fenced, changes no state and sets ACCESS_REFUSED. -/
def Obligations.FenceAndReturnRequests : Prop :=
  ∀ (s : State) (f : Fin 16) (page : Fin 16384) (b : Blk) (i : Nat), headerAt page = some (b, i) →
    s.reaches f (R.BLOCK_CTRL (page * 0x1000)) = true →
    let p := pageOf b i
    let cause := fun (t : State) => fld (t.reg (R.BLOCK_STATE p)) 8 3
    (f = 0 → fenceable b = true →
      (s.stOf b i = 0 → completesThen (.fenceReq f page) s State.settled fun u =>
        u.stOf b i = 5 ∧ cause u = 1 ∧ u.fencePending b i = false ∧ bit (u.reg (R.BLOCK_CTRL p)) 8 = false) ∧
      (s.stOf b i = 2 → completesThen (.fenceReq f page) s (fun u => (u.stopUnit b i).settled) fun u =>
        u.stOf b i = 3 ∧ u.fencePending b i = true ∧ bit (u.reg (R.BLOCK_CTRL p)) 8 = true) ∧
      (s.stOf b i = 5 → cause s = 1 →
        completesThen (.returnReq f page) s (fun u => ((if u.stOf b i = 1 then u.startUnit b i else u).startMoves).settled) fun u =>
          u.stOf b i = (if s.en b i = true ∧ s.mayStart b i = true then 1 else 0) ∧ cause u = 0 ∧ bit (u.reg (R.BLOCK_STATE p)) 12 = false) ∧
      ((s.stOf b i ≠ 5 ∨ cause s = 3 ∨ cause s = 4) → completesThen (.returnReq f page) s State.settled fun u =>
        u.stOf b i = s.stOf b i ∧ cause u = cause s ∧ bit (u.reg (R.BLOCK_STATE p)) 12 = true)) ∧
    ((f ≠ 0 ∨ fenceable b = false) → ∀ c ∈ [Instr.fenceReq f page, .returnReq f page], completes c s fun t =>
      t.reg (R.BLOCK_STATE p) = s.reg (R.BLOCK_STATE p) ∧ bit (t.reg (R.FAULT_STATUS p)) 28 = true)

/-- R104, R107, R108, R587, R590, R621: no start or stop passes in zero time. A start that completes enters ON, or STOPPING where EN is 0 or a fence is
pending; one that fails enters FENCED with cause 4. A stop that completes, once the unit has done its own part, enters FENCED where a fence is
pending, OFF otherwise, and STARTING from PENDING_ENABLE. A DRAM stack whose drain times out is FENCED, and what was left on it is counted as lost. A
health check ends a waiting return. -/
def Obligations.StartsStopsAndChecksComplete : Prop :=
  ∀ (s : State) (page : Fin 16384) (b : Blk) (i : Nat), headerAt page = some (b, i) →
    let p := pageOf b i
    let cause := fun (t : State) => fld (t.reg (R.BLOCK_STATE p)) 8 3
    (s.stOf b i = 1 → s.domainOn (blkRow b).domain = true → s.timePassed b i = true → mget false s.zeroOwed p = false →
      (completesThen (.blockStartComplete page true) s (fun u => (if u.stOf b i = 3 then u.stopUnit b i else u).startMoves.settled) fun u =>
        u.stOf b i = (if s.en b i = true ∧ s.fencePending b i = false then 2 else 3) ∧ bit (u.reg (R.BLOCK_STATE p)) 4 = false) ∧
      (completesThen (.blockStartComplete page false) s (fun u => (u.stopUnit b i).settled) fun u =>
        u.stOf b i = 5 ∧ cause u = 4 ∧ bit (u.reg (R.FAULT_STATUS p)) 30 = true)) ∧
    ((s.stOf b i = 3 ∨ s.stOf b i = 4) → s.stopMay b i = true → s.timePassed b i = true →
      completesThen (.blockStopComplete page) s (fun u => (if u.stOf b i = 1 then u.startUnit b i else u).startMoves.settled) fun u =>
        let s' := s.stopUnitDone b i
        (s'.stOf b i = 4 → u.stOf b i = if s'.mayStart b i then 1 else 0) ∧ (s'.stOf b i = 3 → s'.fencePending b i = true → u.stOf b i = 5 ∧ u.fencePending b i = false) ∧
        (s'.stOf b i = 3 → s'.fencePending b i = false → u.stOf b i = 0)) ∧
    (∀ left : List (Fin 16 × Fin 1048576 × Nat), b = .dramStack → (hi : i < 6) → s.stOf .dramStack i = 3 → s.fencePending .dramStack i = true → s.timePassed .dramStack i = true →
      completesThen (.stackDrainTimeout ⟨i, hi⟩ left) s State.settled fun u => u.stOf .dramStack i = 5 ∧
        (mget 0 s.fatal p = 0 → cause u = 1) ∧ (mget 0 s.fatal p = 2 → cause u = 2) ∧
        (left = [] → u.objs = s.objs ∧ u.reg R.RAS_LOST_TILES = s.reg R.RAS_LOST_TILES)) ∧
    (s.stOf b i = 5 → bit (s.reg (R.BLOCK_CTRL p)) 9 = true → cause s = 2 →
      (completesThen (.healthCheckComplete page true) s (fun u => ((if u.stOf b i = 1 then u.startUnit b i else u).startMoves).settled) fun u =>
        u.stOf b i = (if s.en b i = true ∧ s.mayStart b i = true then 1 else 0) ∧ cause u = 0) ∧
      (completesThen (.healthCheckComplete page false) s State.settled fun u =>
        u.stOf b i = 5 ∧ bit (u.reg (R.BLOCK_STATE p)) 12 = true ∧ bit (u.reg (R.BLOCK_CTRL p)) 9 = false)) ∧
    (s.timePassed b i = false → ∀ c ∈ [Instr.blockStartComplete page true, .blockStartComplete page false, .blockStopComplete page], completes c s fun t => t = s)

/-- R108, R104, R96, R100: a per-block reset, its work ended, returns every register of the instance that a reset does not keep to its reset value, and
leaves the block OFF, STARTING where it is ALWAYS_ON, or FENCED where it was. EXPERT_SEL is set only while the page is unlocked and cleared at any
time; a write of the page's key unlocks it and any other write locks it. -/
def Obligations.BlockResetAndExpertAccess : Prop :=
  ∀ (s : State) (f : Fin 16) (page : Fin 16384) (b : Blk) (i : Nat), headerAt page = some (b, i) →
    let p := pageOf b i
    (s.reaches f (R.BLOCK_CTRL (page * 0x1000)) = true →
      (b ≠ .sceneTime → completesThen (.blockReset f page) s (fun u => u.heldForces.startMoves.settled) fun u =>
        u.stOf b i = (if s.stOf b i = 5 then 5 else if (blkRow b).alwaysOn then 1 else 0) ∧
        (∀ a, p ≤ a → a < p + (blkRow b).stride → keptAtReset a = false → a ≠ R.BLOCK_STATE p → u.reg a = regReset u.part a)) ∧
      (bit (s.reg (R.EXPERT_KEY p)) 16 = true → completes (.expertSelWrite f page true) s fun t =>
        bit (t.reg (R.BLOCK_CTRL p)) 1 = true ∧ bit (t.reg (R.BLOCK_STATE p)) 6 = true) ∧
      (bit (s.reg (R.EXPERT_KEY p)) 16 = false → bit (s.reg (R.BLOCK_CTRL p)) 1 = false → completes (.expertSelWrite f page true) s fun t =>
        t.reg (R.BLOCK_CTRL p) = s.reg (R.BLOCK_CTRL p) ∧ bit (t.reg (R.FAULT_STATUS p)) 28 = true) ∧
      (completes (.expertSelWrite f page false) s fun t => bit (t.reg (R.BLOCK_CTRL p)) 1 = false ∧ bit (t.reg (R.BLOCK_STATE p)) 6 = false)) ∧
    (s.reaches f (page * 0x1000) = true → ∀ v : W32, completes (.expertKeyWrite f page v) s fun t =>
      t.reg (R.EXPERT_KEY p) = (if (blkRow b).key = some (fld v 0 16) then 0x10000 else 0))

/-- R97, R110, R111, R113, R591: hoop 0 changes the owner of an assignable page (a cluster's and its cores' apart) whose block is OFF or FENCED, which
locks the page and sends its faults to hoop 0; any other write of OWNER is refused. A write of FAULT_MASK stores it, and posts nothing where no set
bit becomes unmasked. An injected fault sets its bit on an unlocked page. A fatal error sets ECC_FATAL and takes a block that is ON into STOPPING. -/
def Obligations.OwnersAndFaults : Prop :=
  ∀ (s : State) (f : Fin 16) (page : Fin 16384) (b : Blk) (i : Nat), headerAt page = some (b, i) → s.reaches f (page * 0x1000) = true →
    let p := pageOf b i
    let o := s.reg (R.HOOP_OWNER p)
    (∀ v : W32, f = 0 → b ≠ .core → b ≠ .cluster → bit o 8 = false → bit o 9 = false → (s.stOf b i = 0 ∨ s.stOf b i = 5) →
      completes (.hoopOwnerWrite f page v) s fun t =>
        t.reg (R.HOOP_OWNER p) = w32 (fld v 0 4) ∧ t.reg (R.EXPERT_KEY p) = 0 ∧ t.reg (R.FAULT_ROUTE p) = 0) ∧
    (∀ v : W32, (f ≠ 0 ∨ b = .core ∨ bit o 8 = true ∨ bit o 9 = true ∨ (s.stOf b i ≠ 0 ∧ s.stOf b i ≠ 5)) →
      completes (.hoopOwnerWrite f page v) s fun t => t.reg (R.HOOP_OWNER p) = o ∧ bit (t.reg (R.FAULT_STATUS p)) 28 = true) ∧
    (∀ v : W32, completes (.faultMaskWrite f page v) s fun t =>
      t.reg (R.FAULT_MASK p) = v ∧ t.reg (R.FAULT_STATUS p) = s.reg (R.FAULT_STATUS p) ∧
      (s.reg (R.FAULT_MASK p) &&& ~~~v &&& s.reg (R.FAULT_STATUS p) = 0 → t.hoops = s.hoops)) ∧
    (∀ (v : W32) (n : Nat), n < 32 → bit v n = true → (faultCode b n).isSome = true → bit (s.reg (R.EXPERT_KEY p)) 16 = true →
      completes (.faultInject f page v) s fun t => bit (t.reg (R.FAULT_STATUS p)) n = true) ∧
    (s.stOf b i = 2 → completesThen (.fatalStateError page) s (fun u =>
        let t := (u.stopUnit b i).settled
        if t.fwPhase = 3 ∧ drives t.fwCtl b i = true ∧ bit (t.reg (R.FAULT_STATUS p)) 31 = true then t.revertTrial else t) fun u =>
        u.stOf b i = 3 ∧ u.fencePending b i = true ∧ bit (u.reg (R.FAULT_STATUS p)) 31 = true)

/-- R84, R85, R98, R92: accesses that no other row names. One outside the function's view is counted and reads 0. A 4-byte write stores an RW register
that has no rule of its own, brought into its range; a write that is not of 4 or 8 aligned bytes is discarded and counted. A read of a counter that
clears on read returns its value and leaves 0; a read of a stamp's low word latches the high word beside it. -/
def Obligations.RegisterAccesses : Prop :=
  (∀ (s : State) (f : Fin 16) (a : Fin 88080384) (write : Bool), s.sees f a = false → completes (.outOfViewAccess f a write) s fun t =>
    t.reg R.VIEW_VIOLATION_COUNT = satAdd (s.reg R.VIEW_VIOLATION_COUNT) 1 ∧ bit (t.reg (R.FAULT_STATUS (pageOf .devGlobal 0))) 0 = true ∧
    (write = false → t.readData = 0)) ∧
  (∀ (s : State) (f : Fin 16) (a : Fin 88080384) (v : W64) (b : Blk) (u off i j : Nat) (r : RegRow), a.val % 4 = 0 → a.val / 0x1000 ≠ 0x10 →
    s.reaches f a = true → blkAt a = some (b, u, off) → (doorbellBase ≤ a.val ∨ 0x30 ≤ off % 0x1000) → rowAt b u off = some (r, i, j) → r.acc = .RW →
    storeWrite f b u r.name i (v.setWidth 32) s = none → workWrite f b u r.name i j (v.setWidth 32) s = none →
    deviceWrite f b u r.name i j (v.setWidth 32) s = none →
    completes (.registerWrite f a 4 v) s fun t => t.reg a = applyLimit r.limit (v.setWidth 32) ∧ ∀ a', a' ≠ a.val → t.reg a' = s.reg a') ∧
  (∀ (s : State) (f : Fin 16) (a : Fin 88080384) (n : Fin 4097) (v : W64), ¬ (n.val = 4 ∧ a.val % 4 = 0) → ¬ (n.val = 8 ∧ a.val % 8 = 0) → s.sees f a = true →
    completes (.registerWrite f a n v) s fun t =>
      t.reg R.BAD_ACCESS_COUNT = satAdd (s.reg R.BAD_ACCESS_COUNT) 1 ∧ bit (t.reg (R.FAULT_STATUS (pageOf .devGlobal 0))) 1 = true) ∧
  (∀ (s : State) (f : Fin 16) (a : Fin 88080384), a.val % 4 = 0 → s.reaches f a = true → accAt a = some .RC → mget none s.latch a = none →
    completes (.readClear f a 4) s fun t => t.readData = (s.value a).toNat ∧ t.reg a = 0) ∧
  (∀ (s : State) (f : Fin 16) (a : Fin 83886080), s.reaches f a = true → isStampLo a = true → mget none s.latch (canonAt a) = none →
    completes (.stampLoRead f a) s fun t => t.readData = (s.value a).toNat ∧ mget none t.latch (canonAt a + 4) = some (s.value (canonAt a + 4)))

/-! ## Host rings, queues, events and hoops -/

/-- R122: a write of T to CQ_DB_TAIL of a host ring is accepted only when the ring's LOC is 0, (T - TAIL) mod 2^32 < 2^31 and T - DONE is at most the
ring's size; an accepted write makes TAIL equal to T, any other leaves TAIL unchanged and sets TAIL_REFUSED; and a read of CQ_DB_TAIL returns TAIL. In
DOZE the write is a wake besides, as a doorbell is. -/
def Obligations.DoorbellTailWrites : Prop :=
  ∀ (s : State) (f h : Fin 16) (q : Fin 64) (t : W32), s.reaches f (R.CQ_DB_TAIL h q) = true → (s.hoop h).phase ≠ .resetting →
    let x := s.cq h q
    let ok := s.cqDevice h q = false ∧ posDiff x.tail t.toNat < 2 ^ 31 ∧ posDiff x.done t.toNat ≤ s.cqSize h q
    s.value (R.CQ_DB_TAIL h q) = w32 x.tail ∧
    (ok → completesThen (.cqDbTail f h q t) s (·.wake 7) fun u => (u.cq h q).tail = t.toNat ∧ (u.cq h q).done = x.done) ∧
    (¬ ok → completesThen (.cqDbTail f h q t) s (·.wake 7) fun u => (u.cq h q).tail = x.tail ∧ (u.cq h q).tailRefused = true)

/-- R123, R125, R126, R128, R138: an append to a device ring of an enabled queue with room puts the staged command at TAIL and answers OK; to a host ring,
a disabled queue or a full one it is refused with its result. A fetched command that passes the checks becomes the head of its queue; one that fails
the checksum, the opcode or the operands ends with that code, halts its queue and is counted. -/
def Obligations.AppendsAndFetches : Prop :=
  ((∀ (s : State) (f h : Fin 16) (q : Fin 64) (v : W32), s.reaches f (R.APPEND_GO h q) = true → (s.hoop h).phase ≠ .resetting → bit v 0 = true →
    let x := s.cq h q
    let answers := fun (u : State) (n : Nat) => u.reg (R.APPEND_RESULT h q) = w32 (1 + 2 * n)
    let en := bit (s.reg (cqCtrl h q)) 0
    (s.cqDevice h q = false → completesThen (.appendGo f h q v) s (·.wake 7) fun u => answers u 2 ∧ u.cqs = s.cqs) ∧
    (s.cqDevice h q = true → en = false → completesThen (.appendGo f h q v) s (·.wake 7) fun u => answers u 3 ∧ u.cqs = s.cqs) ∧
    (s.cqDevice h q = true → en = true → s.ringRoom h q 1 = false → completesThen (.appendGo f h q v) s (·.wake 7) fun u =>
      answers u 1 ∧ (u.cq h q).appendFull = true ∧ (u.cq h q).tail = x.tail) ∧
    (∀ k, s.cqDevice h q = true → en = true → s.ringRoom h q 1 = true → s.cqRing h q = some k →
      completesThen (.appendGo f h q v) s (·.wake 7) fun u => answers u 0 ∧ (u.cq h q).tail = nextPos x.tail ∧
        ∀ i < 64, mget 0 (u.obj k).data (64 * (x.tail % s.cqSize h q) + i) = BitVec.ofNat 8 (bytesAt (s.appendData h q) i 1)))) ∧
  (∀ (s : State) (h : Fin 16) (q : Fin 64) (bits : Line), s.canFetch h q = true → s.cqDevice h q = false →
    let p := s.fetchPos h q
    let c : Cmd := ⟨h, q, p, bits⟩
    let s0 := if (s.cq h q).asked then s else (s.draw h 2 64 (.fetch h q)).setCq h q { s.cq h q with asked := true }
    let s1 := (s0.issueTlps [⟨.ringRead, h, s0.ringBase h q + 64 * (p % s0.cqSize h q), 64, true⟩]).setCq h q { s.cq h q with read := nextPos p, asked := false }
    (s0.drawHeld (.fetch h q) = true → completes (.commandFetched h q bits 0) s fun t =>
      (t.cq h q).asked = true ∧ (t.cq h q).head = none ∧ (t.cq h q).read = (s.cq h q).read ∧ t.flights = s.flights) ∧
    (s0.drawHeld (.fetch h q) = false → (∀ f ∈ s1.flights, f.cmd ≠ c) →
    (s1.fetchCheck c = 0 → c.opcode ≠ 3 → completesThen (.commandFetched h q bits 0) s State.settled fun u =>
      (u.cq h q).head = some c ∧ (u.cq h q).read = nextPos p) ∧
    (s1.fetchCheck c ≠ 0 → bit (s1.reg (cqCtrl h q)) 2 = true → completesThen (.commandFetched h q bits 0) s State.settled fun u =>
      (u.cq h q).mode = .halted ∧ (u.cq h q).failed = p ∧ (u.cq h q).read = nextPos p) ∧
    (s1.fetchCheck c ≠ 0 → bit (s1.reg (cqCtrl h q)) 2 = false → completesThen (.commandFetched h q bits 0) s State.settled fun u =>
      u.reg (R.CMD_FAULT_COUNT h) = satAdd (s1.reg (R.CMD_FAULT_COUNT h)) 1 ∧ (u.cq h q).mode = (s1.cq h q).mode) ∧
    (c.b 12 4 ≠ (cmdChecksum bits).toNat → s1.fetchCheck c = 0x200)))

/-- R125, R129, R133, R134, R135: a NOP, a POST_EVENT, an AT_STITCH whose position is reached, and a FENCE behind which nothing is outstanding, at the
head of their queue outside an entry to sleep, leave the head as complete commands; COMMAND_BEGIN does for any head what the row of its opcode does. -/
def Obligations.HeadCommandsBegin : Prop :=
  (∀ (s : State) (h : Fin 16) (q : Fin 64) (c : Cmd), s.pm.mode ≠ .entering → (s.cq h q).head = some c → c.hoop = h.val → c.cq = q.val → s.ctxGone c = false →
    let begun := fun (u : State) => (u.cq h q).head = none ∧ ∃ f : InFlight, u.flights = s.flights ++ [f] ∧ f.cmd = c ∧ f.done = true ∧ f.begin_ = s.pos
    (c.opcode = 0 → completesThen (.nop h q) s State.settled begun) ∧
    (c.opcode = 7 → completesThen (.postEvent h q) s State.settled begun) ∧
    (c.opcode = 5 → c.atPos ≤ s.pos → completesThen (.atStitch h q) s State.settled begun) ∧
    (c.opcode = 5 → s.pos < c.atPos → completes (.atStitch h q) s fun t => t = s) ∧
    (c.opcode = 6 → s.earlierDone c = true → (∀ r ∈ (s.hoop h).held, cmdRecType r.ty = false ∨ r.ty = 2) → (∀ e < 16, (s.eq h e).held = []) →
      (∀ e ∈ s.sessions, ∀ m ∈ e.2.unacked ++ e.2.queued.map (·.2), m.hoop ≠ h ∨ (commitMsg m.ty = false ∧ m.ty ≠ 9)) →
      completesThen (.fence h q) s State.settled begun)) ∧
  (∀ (s : State) (h : Fin 16) (q : Fin 64) (c : Cmd) (host : List Byte), (s.cq h q).head = some c →
    (c.opcode = 0 → sameEffect (.commandBegin h q host) (.nop h q) s) ∧
    (c.opcode = 1 → c.armOnly = false → sameEffect (.commandBegin h q host) (.runPattern h q) s) ∧
    (c.opcode = 1 → c.armOnly = true → sameEffect (.commandBegin h q host) (.runPatternArmOnly h q) s) ∧
    (c.opcode = 2 → sameEffect (.commandBegin h q host) (.move h q host) s) ∧
    (c.opcode = 3 → sameEffect (.commandBegin h q host) (.knotWait h q) s) ∧
    (c.opcode = 4 → sameEffect (.commandBegin h q host) (.knotSignal h q) s) ∧
    (c.opcode = 5 → sameEffect (.commandBegin h q host) (.atStitch h q) s) ∧
    (c.opcode = 6 → sameEffect (.commandBegin h q host) (.fence h q) s) ∧
    (c.opcode = 7 → sameEffect (.commandBegin h q host) (.postEvent h q) s) ∧
    (c.opcode = 8 → sameEffect (.commandBegin h q host) (.contextOpen h q) s) ∧
    (c.opcode = 9 → sameEffect (.commandBegin h q host) (.contextClose h q) s) ∧
    (c.opcode = 10 → sameEffect (.commandBegin h q host) (.sealLoad h q host) s))

/-- R120, R136, R140, R146: a complete command in its turn that holds nothing (no output, input, context, knot or segment) commits: DONE moves past its
position, and with EVENT_ON_COMMIT its COMMAND_DONE record, with its tag, joins the hoop's sequencer. -/
def Obligations.CommandsCommit : Prop :=
  ∀ (s : State) (f : InFlight), s.flights.find? (fun g => decide (g.cmd.hoop = f.cmd.hoop ∧ g.cmd.cq = f.cmd.cq ∧ g.cmd.pos = f.cmd.pos)) = some f →
    (hh : f.cmd.hoop < 16) → (hq : f.cmd.cq < 64) → (hp : f.cmd.pos < 2 ^ 32) → s.committable f = true →
    f.outs = [] → f.ins = [] → f.segs = [] → f.ctxs = [] → f.appended = [] → f.carried = [] → f.stageRec = none →
    (∀ x ∈ s.heldKnots, x.cmd ≠ f.id) → (f.cmd.opcode = 0 ∨ f.cmd.opcode = 5 ∨ f.cmd.opcode = 6) → f.code = 0 →
    (s.cq f.cmd.hoop f.cmd.cq).done = f.cmd.pos → (s.cq f.cmd.hoop f.cmd.cq).marks = [] → (s.cq f.cmd.hoop f.cmd.cq).ended = [] → (s.hoop f.cmd.hoop).phase = .ready →
    completesThen (.commandCommit ⟨f.cmd.hoop, hh⟩ ⟨f.cmd.cq, hq⟩ (BitVec.ofNat 32 f.cmd.pos)) s (fun u => u.startMoves.settled) fun u =>
      (u.cq f.cmd.hoop f.cmd.cq).done = nextPos f.cmd.pos ∧
      (f.cmd.eventOnCommit = true ∨ f.cmd.opcode = 6 → ∃ r : Rec, (u.hoop f.cmd.hoop).held = (s.hoop f.cmd.hoop).held ++ [r] ∧
        r.ty = (if f.cmd.opcode = 6 then 4 else 1) ∧ r.pay 24 4 = f.cmd.tag ∧ r.fault = false ∧ r.stamp = s.pos) ∧
      (f.cmd.eventOnCommit = false → f.cmd.opcode ≠ 6 → u.hoops = s.hoops)

/-- R139, R121, R156: CQ_CMD and CQ_CTRL. RESUME and RETRY set a halted queue running, RETRY from the failed position; CLEAR_FLAGS clears the sticky
flags. An enable with a good ring, while the hoop is neither RESETTING nor SCRUBBING, runs it, from position 0 where it held nothing and otherwise
from DONE; with a bad ring it is refused. A disable takes an enabled queue to STOPPING with READ at DONE, and it is DISABLED as time passes (that the
next passing of time ends the stop is the model's choice, log entry 74). -/
def Obligations.QueueControl : Prop :=
  ∀ (s : State) (f h : Fin 16) (q : Fin 64),
    let x := s.cq h q
    (s.reaches f (R.CQ_CMD h (q % 32) (q / 32)) = true →
      (x.mode = .halted → completes (.cqResume f h q) s fun t => (t.cq h q).mode = .running) ∧
      (x.mode = .halted → completes (.cqRetry f h q) s fun t => (t.cq h q).mode = .running ∧ (t.cq h q).read = x.failed) ∧
      (x.mode ≠ .halted → completes (.cqResume f h q) s (· = s) ∧ completes (.cqRetry f h q) s (· = s)) ∧
      (completes (.cqClearFlags f h q) s fun t =>
        (t.cq h q).tailRefused = false ∧ (t.cq h q).appendFull = false ∧ (t.cq h q).cfgRefused = false ∧ (t.cq h q).mode = x.mode)) ∧
    (s.reaches f (cqCtrl h q) = true → ∀ v : W32,
      (bit (s.reg (cqCtrl h q)) 0 = false → s.hoopResetting h = false → s.ringOk h q (cqLimit (v ||| 1)) = true →
        completes (.cqEnable f h q v) s fun t => t.reg (cqCtrl h q) = cqLimit (v ||| 1) ∧ (t.cq h q).mode = .running ∧
          (x.tail = x.done → (t.cq h q).tail = 0 ∧ (t.cq h q).done = 0) ∧ (x.tail ≠ x.done → (t.cq h q).tail = x.tail ∧ (t.cq h q).read = x.done)) ∧
      (bit (s.reg (cqCtrl h q)) 0 = false → (s.hoopResetting h = true ∨ s.ringOk h q (cqLimit (v ||| 1)) = false) →
        completes (.cqEnable f h q v) s fun t => bit (t.reg (cqCtrl h q)) 0 = false ∧ (t.cq h q).cfgRefused = true ∧ (t.cq h q).mode = x.mode) ∧
      (bit (s.reg (cqCtrl h q)) 0 = true → completesThen (.cqDisable f h q v) s (fun u => u.startMoves.settled) fun u =>
        (u.cq h q).mode = .stopping ∧ (u.cq h q).read = (u.cq h q).done ∧ (u.cq h q).head = none ∧ bit (u.reg (cqCtrl h q)) 0 = false)) ∧
    (∀ (dt : Nat) (sub : Fin 16), 0 < dt → x.mode = .stopping → (∀ k < 16, (s.hoop k).phase ≠ .resetting) →
      ∃ u : State, exec (.positionReached dt sub) s = .next (dev (fun _ => u.wakeAts) (s.advance16 (16 * dt + sub))) ∧ (u.cq h q).mode = .disabled)

/-- R148, R149, R158: an enabled event queue starts at HEAD and TAIL 0; a disabled one drops, and counts, what was held for it. A HEAD within what is
pending frees its entries, any other is refused. Arming a queue that holds enough records, or the passing of COAL_STITCHES on an armed one, sends its
message once and disarms it. -/
def Obligations.EventQueues : Prop :=
  ∀ (s : State) (f h e : Fin 16),
    let q := s.eq h e
    let size := max 1 (fld (s.reg (R.EQ_CTRL h e)) 16 16)
    let sent := fun (t : State) => mget 0 t.msiSent (h * 16 + e)
    (s.reaches f (R.EQ_CTRL h e) = true → ∀ v : W32,
      (s.hoopResetting h = false → bit (s.reg (R.EQ_CTRL h e)) 0 = false → completes (.eqEnable f h e v) s fun t =>
        (t.eq h e).en = true ∧ (t.eq h e).head = 0 ∧ (t.eq h e).tail = 0 ∧ t.reg (R.EQ_CTRL h e) = eqLimit (v ||| 1)) ∧
      (s.hoopResetting h = true → completes (.eqEnable f h e v) s fun t =>
        (t.eq h e).cfgRefused = true ∧ (t.eq h e).en = q.en ∧ (t.eq h e).head = q.head ∧ (t.eq h e).tail = q.tail) ∧
      (s.hoopResetting h = false → bit (s.reg (R.EQ_CTRL h e)) 0 = true → completesThen (.eqEnable f h e v) s (fun u => ((u.releaseHeld h e q.held.length).coalesce h e).settled) fun u =>
        (u.eq h e).head = 0 ∧ (u.eq h e).tail = 0) ∧
      ((∀ g ∈ s.flights, g.done = false) → completesThen (.eqDisable f h e v) s State.settled fun u =>
        (u.eq h e).en = false ∧ (u.eq h e).held = [] ∧ u.reg (R.EQ_DROP_COUNT h e) = satAdd (s.reg (R.EQ_DROP_COUNT h e)) q.held.length)) ∧
    (s.reaches f (R.EQ_DB_HEAD h e) = true → (s.hoop h).phase ≠ .resetting → ∀ v : W32,
      (posDiff q.head v.toNat ≤ q.pendingCount → completesThen (.eqDbHead f h e v) s (fun u => (u.releaseHeld h e q.held.length).settled.wake 7) fun u =>
        (u.eq h e).head = v.toNat ∧ (u.eq h e).tail = q.tail ∧ (u.eq h e).headRefused = false) ∧
      (q.pendingCount < posDiff q.head v.toNat → completesThen (.eqDbHead f h e v) s (·.wake 7) fun u =>
        (u.eq h e).head = q.head ∧ (u.eq h e).headRefused = true)) ∧
    (s.reaches f (R.EQ_DB_ARM h e) = true → (s.hoop h).phase ≠ .resetting → ∀ v : W32, bit v 0 = true →
      (size ≤ q.pendingCount → bit (s.reg (R.MSIX_TABLE h (4 * e + 3))) 0 = false → completesThen (.eqDbArm f h e v) s (·.wake 7) fun u =>
        (u.eq h e).armed = false ∧ sent u = sent s + 1) ∧
      (q.pendingCount = 0 → completesThen (.eqDbArm f h e v) s (·.wake 7) fun u => (u.eq h e).armed = true ∧ sent u = sent s)) ∧
    (∀ x r, q.armed = true → 0 < q.pendingCount → q.pendStamps = x :: r → s.reg (R.EQ_COAL_STITCHES h e) ≠ 0 →
      x / 65536 + (s.reg (R.EQ_COAL_STITCHES h e)).toNat ≤ s.count → bit (s.reg (R.MSIX_TABLE h (4 * e + 3))) 0 = false →
      completes (.eqCoalesceExpiry h e) s fun t => (t.eq h e).armed = false ∧ sent t = sent s + 1)

/-- R118, R119, R151, R152, R153: the request of a reset takes a hoop to RESETTING with the rules of its range disabled and its waiting blocks gone; as
time passes it is SCRUBBING, with no record held, SEQ 0 and its measurement register cleared, and it has a new memory key, or none in CRITICAL_ERROR
(that the next passing of time ends the phase is the model's choice, log entry 74). A function-level reset of hoop h resets it so. One already under
way absorbs the request (R152). One of function 0, and a conventional reset while the device is ACTIVE or IDLE, reset hoop 0 without its pages, clear
VF Enable, and so take every other READY hoop to RESETTING; in DOZE and LISTEN a conventional reset is kept for the return of the link and is a wake.
EN of a hoop but 0, whose EN is fixed, is stored, and the VF settings are taken, before the hoops are matched to them. PCIE_LINK_UP with no such reset
kept releases WAKE#. A completed scrub leaves the hoop ABSENT with no rule of its range left, from where it becomes READY if R118 allows it. A filled
unit of DRAM leaves one fewer to fill. -/
def Obligations.HoopsResetAndScrub : Prop :=
  ∀ (s : State) (h : Fin 16),
    let resets := fun (u : State) (h : Nat) (pages : Bool) => (u.hoop h).phase = .resetting ∧ (u.hoop h).resetPages = pages ∧
      (∀ r, s.ruleOf h r = true → (u.rule r).enabled = false) ∧ ∀ p ∈ u.pendFires, p.hoop ≠ h
    let mayReset := fun (h : Nat) => (s.hoop h).phase ≠ .resetting ∧ (s.hoop h).phase ≠ .scrubbing
    let noVfs := fun (u : State) => u.vfEnable = false ∧ u.numVfs = 0 ∧ ∀ k < 16, k ≠ 0 → (s.hoop k).phase = .ready → (u.matchHoops.hoop k).phase = .resetting
    (∀ f : Fin 16, s.reaches f (R.HOOP_TABLE h) = true →
      (mayReset h → completesThen (.hoopReset f h) s (fun u => u.startMoves.settled) (resets · h true)) ∧
      (¬ mayReset h → completesThen (.hoopReset f h) s (fun u => u.startMoves.settled) (· = s)) ∧
      (∀ v : W32, h = 0 → completes (.hoopEnableWrite f h v) s (· = s)) ∧
      (∀ v : W32, h ≠ 0 → completesThen (.hoopEnableWrite f h v) s (fun u => (u.matchHoops.startMoves).settled) fun u =>
        fld (u.reg (R.HOOP_TABLE h)) 0 1 = fld v 0 1)) ∧
    (h ≠ 0 → mayReset h → completesThen (.functionLevelReset h) s (fun u => u.startMoves.settled) (resets · h true)) ∧
    (mayReset 0 → completesThen (.functionLevelReset 0) s (fun u => (u.matchHoops.startMoves).settled) fun u =>
      resets u 0 false ∧ noVfs u) ∧
    (mayReset 0 → (s.pm.mode = .active ∨ s.pm.mode = .idle) → completesThen .conventionalReset s
      (fun u => let u := u.matchHoops; ({ u with rot := { u.rot with session := 0, answer := .none, ide := [] } }).startMoves.settled) fun u =>
      resets u 0 false ∧ noVfs u) ∧
    (∀ (dt : Nat) (sub : Fin 16), 0 < dt → (∀ k < 16, (s.hoop k).phase = .resetting ↔ k = h.val) →
      let later := s.advance16 (16 * dt + sub)
      ∃ u : State, exec (.positionReached dt sub) s = .next (dev (fun _ => ((u.startMoves.settled).stopsEnd fun _ => true).wakeAts) later) ∧
        (u.hoop h).phase = .scrubbing ∧ (u.hoop h).held = [] ∧ (u.hoop h).seq = 0 ∧ u.hoopSec h = HoopSec.dflt ∧
        mget 0 u.rot.memKeys h = (if u.rot.mode = .criticalError then 0 else u.rot.drbg)) ∧
    ((s.pm.mode = .doze ∨ s.pm.mode = .listen) → completesThen .conventionalReset s (·.wake 9) fun u => u.pm.perst = true) ∧
    (∀ (en : Bool) (num : Fin 16), completesThen (.vfEnableChange en num) s (fun u => (u.matchHoops.startMoves).settled) fun u =>
      u.vfEnable = en ∧ u.numVfs = num) ∧
    (s.pm.perst = false → completes .pcieLinkUp s fun t => t.pm.wakeN = false ∧ t.hoops = s.hoops) ∧
    ((s.hoop h).phase = .scrubbing → completesThen (.scrubComplete h none) s (fun u => ((if u.hoopAllowed h then u.becomeReady h else u).startMoves).settled) fun u =>
      (u.hoop h).phase = .absent ∧ ∀ e ∈ u.rules, s.ruleOf h e.1 = false) ∧
    (completesThen (.dramZeroFill h) s State.startMoves fun u => (u.hoop h).scrubUnits = (s.hoop h).scrubUnits - 1)

/-! ## Objects, pools and moves -/

/-- R159, R163, R191, R195, R196: object commands while DONE is 1. CREATE gives the lowest free index a new generation and the object its arguments, at
once where there is room, and otherwise waits with DONE 0; bad arguments and a full table are reported. DESTROY frees an entry that nothing uses,
keeping its generation; PIN and UNPIN change PIN_COUNT; QUERY returns the 32-byte record; a handle that names nothing is BAD_HANDLE. -/
def Obligations.ObjectCommands : Prop :=
  ∀ (s : State) (f h : Fin 16), s.accepts f (R.OBJ_CMD h) = true → bit (s.reg (R.OBJ_RESULT h)) 0 = true →
    let answers := fun (t : State) (n : Nat) => t.reg (R.OBJ_RESULT h) = w32 (1 + 16 * n)
    let o := s.createObj h
    let unit := locUnit o.tier o.loc
    (createBad o = true → completes (.create f h) s fun t => answers t 2 ∧ t.objs = s.objs) ∧
    (createBad o = false → s.freeIndex h = none → completes (.create f h) s fun t => answers t 3 ∧ t.objs = s.objs) ∧
    (∀ i, createBad o = false → s.freeIndex h = some i → s.locAbsent o.tier o.loc true = false → (o.homed = true → s.createFits h o = true) → completesThen (.create f h) s State.startMoves fun u => answers u 0 ∧
        let k := oKey h i
        (u.obj k).used = true ∧ (u.obj k).gen = nextGen (s.obj k).gen ∧ (u.obj k).kind = o.kind ∧ (u.obj k).size = o.size ∧ (u.obj k).tier = o.tier ∧
        (u.obj k).homed = o.homed ∧ (u.obj k).age = s.pos ∧ u.reg (R.OBJ_OUT h 0) = w32 (u.handleOf k)) ∧
    (∀ i, createBad o = false → s.freeIndex h = some i → o.homed = true → s.locAbsent o.tier o.loc true = false → s.createFits h o = false →
      s.reachable h o = true → completesThen (.create f h) s (fun u => (u.askRoom h o.tier unit o.bytes).startMoves) fun u => u.reg (R.OBJ_RESULT h) = 0 ∧ u.objs = s.objs) ∧
    (s.resolve h (s.objHandle h) = none → ∀ c ∈ [Instr.destroy f h, .pin f h, .unpin f h, .query f h], completes c s fun t => answers t 1 ∧ t.objs = s.objs) ∧
    (∀ k, s.resolve h (s.objHandle h) = some k →
      ((s.obj k).ctxState = false → s.busy k = false → s.moving k = false → (s.obj k).pins = 0 → completesThen (.destroy f h) s State.startMoves fun u =>
        answers u 0 ∧ u.obj k = { Obj.dflt with gen := (s.obj k).gen }) ∧
      ((s.obj k).ctxState = false → (s.busy k = true ∨ s.moving k = true) → completes (.destroy f h) s fun t => answers t 5 ∧ t.objs = s.objs) ∧
      ((s.obj k).homed = true → (s.obj k).pins < 57343 → ((s.obj k).tier ≤ 4 → 0 < (s.obj k).pins ∨ s.pinned h (s.obj k).tier (locUnit (s.obj k).tier (s.obj k).loc) + (s.obj k).bytes ≤
          s.guarBytes (s.obj k).tier (s.reg (R.PIN_LIMIT (s.obj k).tier h)).toNat) →
        completes (.pin f h) s fun t => answers t 0 ∧ (t.obj k).pins = (s.obj k).pins + 1 ∧ (t.obj k).data = (s.obj k).data) ∧
      (completesThen (.unpin f h) s State.startMoves fun u => answers u 0 ∧ (u.obj k).pins = (s.obj k).pins - 1) ∧
      (completes (.query f h) s fun t => answers t 0 ∧ t.objs = s.objs ∧ ∀ i < 8, t.reg (R.OBJ_OUT h i) = w32 (bytesAt (s.queryRecord k) (4 * i) 4)))

/-- R160, R171, R186, R189, R216, R222, R223, R230: a table is resized where its entries in use and T2 allow it, a guarantee set where the sum of all
keeps the pool's capacity, and both are refused otherwise. A CREATE that waits is made once it fits. Replaced allocations that nobody reads return to
their pools. A head that the write budget delayed is begun again. The catalogue commands while stack 0 is ON and its controller is READY. PRESERVE
turns a free T3 object into an extent under its key and frees its entry; ADOPT makes the extent an object of the hoop, with its content; DISCARD drops
it; LOOKUP and LIST report it. A key in use is EXISTS for PRESERVE, and a key not in the catalogue is NOT_FOUND for the others. -/
def Obligations.TablesPoolsAndCatalogue : Prop :=
  ((∀ (s : State) (f h : Fin 16) (v : W32), s.reaches f (R.OT_ENTRIES h) = true →
    let n := applyLimit (.whole 0 1048576) v
    let bad := (0 < s.highIndex h ∧ n.toNat < s.highIndex h + 1) ∨ s.freeRoom h 2 0 < (n.toNat - s.otEntries h) * 64
    (¬ bad → completesThen (.otEntriesWrite f h v) s State.startMoves fun u => u.otEntries h = n.toNat) ∧
    (bad → completes (.otEntriesWrite f h v) s fun t => t.otEntries h = s.otEntries h ∧ bit (t.reg (R.POOL_STATUS 2)) 1 = true)) ∧
  (∀ (s : State) (f : Fin 16) (tier : Fin 5) (h : Fin 16) (v : W32), s.reaches f (R.GUAR tier h) = true → tier ≠ 4 →
    let sum := (List.range 16).foldl (fun a g => a + if g = h.val then v.toNat else (s.reg (R.GUAR tier g)).toNat) 0
    let bad := (tier ≤ 1 ∧ 256 < sum) ∨ (2 ≤ tier ∧ s.poolCap tier 0 < sum * 2 ^ 20)
    (¬ bad → completesThen (.guarWrite f tier h v) s State.startMoves fun u => u.reg (R.GUAR tier h) = v) ∧
    (bad → completes (.guarWrite f tier h v) s fun t => t.reg (R.GUAR tier h) = s.reg (R.GUAR tier h) ∧ bit (t.reg (R.POOL_STATUS tier)) 0 = true)) ∧
  (∀ (s : State) (w : AllocWait) (o : Obj) (i : Nat), s.waits = [w] → w.move = none → w.cq = none → w.create = some o → s.createFits w.hoop o = true →
    s.freeIndex w.hoop = some i → completesThen .allocationGranted s (fun u => u.startMoves.startMoves.settled) fun u =>
      u.waits = [] ∧ u.reg (R.OBJ_RESULT w.hoop) = 1 ∧ (u.obj (oKey w.hoop i)).used = true ∧ (u.obj (oKey w.hoop i)).size = o.size) ∧
  (∀ (s : State) (h : Fin 16) (idx : Fin 1048576), completesThen (.retiringRelease h idx) s State.startMoves fun u =>
    (∀ r ∈ u.retiring, r ∈ s.retiring ∧ (r.obj = oKey h idx → r.readers ≠ [])) ∧ (∀ r ∈ s.retiring, r.obj ≠ oKey h idx → r ∈ u.retiring)) ∧
  (∀ (s : State) (h : Fin 16) (q : Fin 64) (x : Cq), s.cqs.filter (fun e => e.2.headDelayed) = [(h.val * 64 + q.val, x)] →
    ∃ u : State, exec (.commandBegin h q []) s = .next (dev (fun _ => u) s) ∧ exec .budgetAdmitted s = .next (dev (fun _ => u.startMoves.settled) s))) ∧
  (∀ (s : State) (f : Fin 16), s.reaches f R.CAT_CMD = true → (s.sk 0).ready = true → s.isOn .skein 0 = true →
    let answers := fun (t : State) (n : Nat) => t.reg R.CAT_RESULT = w32 (1 + 16 * n)
    (s.catBadArg true true = false →
      (∀ k, s.resolve s.catHoop s.catHandle = some k → (s.obj k).homed = true → (s.obj k).tier = 3 → (s.obj k).sealed = false → (s.obj k).pins = 0 → s.busy k = false →
        s.moving k = false → s.isRetiring k = false → (s.obj k).ctxState = false →
        (s.extent s.catKey = none → s.catalogue.length < 4096 → completes (.preserve f) s fun t =>
          answers t 0 ∧ (t.obj k).used = false ∧ (t.obj k).gen = (s.obj k).gen ∧ t.catalogue.length = s.catalogue.length + 1 ∧
          ∃ e ∈ t.catalogue, e.key = s.catKey ∧ e.obj = s.obj k ∧ e.kind = (s.obj k).kind) ∧
        ((s.extent s.catKey).isSome = true → completes (.preserve f) s fun t => answers t 6 ∧ t.objs = s.objs ∧ t.catalogue = s.catalogue)) ∧
      (∀ e i, s.extent s.catKey = some e → (∀ t < e.obj.ntiles, s.live .skein (e.obj.tileStack t) = true) → s.freeIndex s.catHoop = some i → completes (.adopt f) s fun t =>
        let o := t.obj (oKey s.catHoop i)
        answers t 0 ∧ o.used = true ∧ o.size = e.obj.size ∧ o.data = e.obj.data ∧ o.tier = e.obj.tier ∧ o.pins = 0 ∧ (∀ x ∈ t.catalogue, x.key ≠ e.key)) ∧
      (s.extent s.catKey = none → completes (.adopt f) s fun t => answers t 7 ∧ t.objs = s.objs)) ∧
    (s.catBadArg false true = false →
      (∀ e, s.extent s.catKey = some e →
        (completesThen (.discard f) s State.startMoves fun u => answers u 0 ∧ ∀ x ∈ u.catalogue, x.key ≠ e.key) ∧
        (completes (.lookup f) s fun t => answers t 0 ∧ t.reg (R.CAT_OUT 0) = w32 (e.obj.size % 2 ^ 32) ∧ t.catalogue = s.catalogue)) ∧
      (s.extent s.catKey = none → ∀ c ∈ [Instr.discard f, .lookup f], completes c s fun t => answers t 7 ∧ t.catalogue = s.catalogue)) ∧
    (∀ e, s.catalogue[s.catHandle]? = some e → completes (.catalogueList f) s fun t =>
      answers t 0 ∧ t.reg (R.CAT_OUT 0) = w32 (e.key % 2 ^ 32) ∧ t.reg (R.CAT_OUT 1) = w32 (e.key / 2 ^ 32)))

/-- R132, R180, R181, R182, R184: a MOVE whose operands pass its checks begins: one within the package, of a DECLARED object, or behind another move of
the object, adds a move of the object to the tier and location named; one to or from a peer that is reachable, and does not name the object's own
place, adds a remote move. ARM_ONLY begins the prefetch moves of a pattern homed in T1 to T3. Once its requests have their tokens, the end of a
shuttle's or codec's range is counted before the range is marked done; until then nothing is counted. At the end of a copying move its object is homed
at the move's tier and location with the content it had and, for a MOVE, the commit's age; the move is gone, and every other object is as it was. -/
def Obligations.MovesRangesAndCommits : Prop :=
  ((∀ (s : State) (h : Fin 16) (q : Fin 64) (host : List Byte) (c : Cmd) (k : Nat), s.headOp h q 2 = some c → s.ctxGone c = false → s.moveCheck c = 0 →
    s.resolve h c.mvObject = some k →
    ((s.obj k).homed = false ∨ (c.mvTier ≠ 5 ∧ (s.obj k).tier ≠ 5) ∨ s.moving k = true → completesThen (.move h q host) s (fun u => u.startMoves.settled) fun u =>
      ∃ m : Move, u.moves = s.moves ++ [m] ∧ m.obj = k ∧ m.tier = c.mvTier ∧ m.loc = c.mvLocation ∧ m.codec = c.mvCodec ∧ m.started = false ∧
        ∃ f ∈ u.flights, f.cmd = c ∧ f.done = false ∧ m.kind = .command f.id) ∧
    ((s.obj k).homed = true → (c.mvTier = 5 ∨ (s.obj k).tier = 5) → s.moving k = false → ¬ (c.mvTier = 5 ∧ (s.obj k).tier = 5 ∧ c.mvLocation = (s.obj k).loc ∧ c.mvCodec = 0) →
      s.remoteError { Move.dflt with
        id := s.nextId, kind := .command s.nextId, hoop := h, obj := k, tier := c.mvTier, loc := c.mvLocation, codec := c.mvCodec, param := c.mvParam,
        nshuttle := c.mvShuttles, payer := h, hostBytes := if (s.obj k).tier = 4 then msetList 0 [] 0 host else [] } = none →
      completesThen (.move h q host) s (fun u => u.startMoves.settled) fun u =>
        ∃ r : Remote, u.remotes = s.remotes ++ [r] ∧ r.obj = k ∧ ∃ f ∈ u.flights, f.cmd = c ∧ f.done = false ∧ r.cmd = f.id)) ∧
  (∀ (s : State) (h : Fin 16) (q : Fin 64) (c : Cmd) (k : Nat), s.headOp h q 1 = some c → c.armOnly = true → s.ctxGone c = false → s.resolve h c.pattern = some k →
    s.earlierWrites c k = false → (s.obj k).kind = 7 → (s.obj k).homed = true → (s.obj k).tier ≠ 0 → (s.obj k).tier < 4 → c.nslot = (s.obj k).pNslot → locOk c.armTier (if c.armTier ≤ 1 then c.armTarget else 0) = true → (c.armTier ≤ 1 → s.locAbsent c.armTier c.armTarget false = false) →
    completesThen (.runPatternArmOnly h q) s (fun u => (u.prefetch (.armOnly s.nextId) h c.pattern c.armTier (if c.armTier ≤ 1 then c.armTarget else 0) c.armDepth s.pos).1.settled) fun u =>
      u.nextId = s.nextId + 1 ∧ ∃ f : InFlight, u.flights = s.flights ++ [f] ∧ f.cmd = c ∧ f.id = s.nextId ∧ f.done = false) ∧
  (∀ (s : State) (u : Fin 32) (cyc : W32) (m : Move) (i : Nat), s.rangeOf (fun r => decide (r.shuttle = some u.val) && r.codec.isNone) = some (m, i) → (s.obj m.obj).tier ≠ 4 →
    let bytes := 4096 * ((m.ranges[i]?).map (·.count) |>.getD 0)
    let s' := if m.drew i then s else s.drawMove m i bytes bytes
    (s'.drawHeld (.range m.id i) = true → completes (.shuttleRangeDone u cyc []) s fun t => t.moves = s'.moves ∧ t.reg (R.SH_RANGES u) = s.reg (R.SH_RANGES u)) ∧
    (s'.drawHeld (.range m.id i) = false → completesThen (.shuttleRangeDone u cyc []) s (fun t => t.rangeDone m.id i []) fun t =>
      t.reg (R.SH_RANGES u) = satAdd (s.reg (R.SH_RANGES u)) 1 ∧ t.reg (R.SH_BUSY_CYCLES u) = satAdd (s.reg (R.SH_BUSY_CYCLES u)) cyc.toNat ∧ t.moves = s'.moves)) ∧
  (∀ (s : State) (u : Fin 4) (cyc stall : W32) (m : Move) (i : Nat) (r : Range), s.rangeOf (fun r => decide (r.codec = some u.val)) = some (m, i) → m.ranges[i]? = some r →
    s.moves.find? (fun x => decide (x.id = m.id)) = some m →
    let w := s.codecWork m r.first r.count
    let s' := if r.drawn then s else s.drawMove m i w.inBytes w.outBytes
    (s'.drawHeld (.range m.id i) = true → completes (.codecRangeDone u cyc stall []) s fun t => t.moves = s'.moves ∧ t.reg (R.PC_BLOCKS_CODED u) = s.reg (R.PC_BLOCKS_CODED u)) ∧
    (s'.drawHeld (.range m.id i) = false → completesThen (.codecRangeDone u cyc stall []) s (fun t => t.rangeDone m.id i []) fun t =>
      t.reg (R.PC_BLOCKS_CODED u) = satAdd (s.reg (R.PC_BLOCKS_CODED u)) w.coded ∧ t.reg (R.PC_BUSY_CYCLES u) = satAdd (s.reg (R.PC_BUSY_CYCLES u)) cyc.toNat ∧
      t.reg (R.PC_LAST_BLOCK u) = w32 (r.first + r.count - 1) ∧ t.moves = s'.moves))) ∧
  (∀ (s : State) (m : Move), m.codec = 0 → m.tier ≤ 3 → (s.obj m.obj).homed = true → (s.obj m.obj).tier ≤ 2 → m.bad = [] →
    let t := (s.moveCommit m).1
    (t.obj m.obj).tier = m.tier ∧ (t.obj m.obj).loc = m.loc ∧ (t.obj m.obj).data = (s.obj m.obj).data ∧ (t.obj m.obj).tiles = (s.obj m.obj).tiles ∧
    (m.ageStamp = none → (t.obj m.obj).age = s.pos) ∧ (∀ x ∈ t.moves, x.id ≠ m.id) ∧ (∀ k, k ≠ m.obj → t.obj k = s.obj k) ∧
    (∀ a ∈ t.allocs, a.holder ≠ .move m.id))

/-! ## The skein store -/

/-- R207, R208, R209, R210, R211, R212, R215, R219, R225, R589: a flash read counts on its block and its codewords by outcome and, when uncorrectable,
fails the tile in the plain copies that carry it, the command of a move that uses its content, or the command that reads it; the patrol counts its
reads and shows its progress; a reclamation returns a block of the user area to the spares with no reads against it, and the end of a fenced die's
copy (R589) leaves the stack without one; a cap lowers a balance above it; a reloaded controller is READY. -/
def Obligations.SkeinReadsAndBudget : Prop :=
  (∀ (s : State) (n : Fin 2) (b bits : Nat) (o0 o1 : Fin 4) (h : Fin 16) (idx : Fin 1048576) (tile : Nat), present s.part .skein n = true →
    s.domainOn .ioMain = true → s.live .skein n = true → (s.sk n).ready = true → s.readable n b 1 = true →
    let count := fun (o : Fin 4) => b2n (decide (o0 = o)) + b2n (decide (o1 = o))
    let counted := fun (t : State) => mget 0 (t.sk n).reads b = mget 0 (s.sk n).reads b + 1 ∧ t.reg (R.LDPC_CORR n) = satAdd (s.reg (R.LDPC_CORR n)) (count 1) ∧
      t.reg (R.LDPC_RETRY n) = satAdd (s.reg (R.LDPC_RETRY n)) (count 2) ∧ t.reg (R.LDPC_UNCORR n) = satAdd (s.reg (R.LDPC_UNCORR n)) (count 3)
    (o0 ≠ 3 → o1 ≠ 3 → completes (.flashPageRead n b bits o0 o1 h idx tile none) s fun t => counted t ∧ t.objs = s.objs ∧ t.moves = s.moves) ∧
    (o0 = 3 ∨ o1 = 3 → (s.obj (oKey h idx)).used = true → tile < (s.obj (oKey h idx)).ntiles →
      ((s.moves.map (·.id)).Nodup → (∀ m ∈ s.moves, m.obj = oKey h idx → m.started = true → m.codec = 0 ∧ m.tier < 4) →
        completes (.flashPageRead n b bits o0 o1 h idx tile none) s fun t => counted t ∧
          t.moves = s.moves.map fun m => if m.obj = oKey h idx ∧ m.started = true then { m with bad := m.bad ++ [tile] } else m) ∧
      (∀ (m : Move) (id : Nat), s.moves = [m] → m.obj = oKey h idx → m.started = true → (m.codec ≠ 0 ∨ 4 ≤ m.tier) → m.kind = .command id →
        completes (.flashPageRead n b bits o0 o1 h idx tile none) s fun t => counted t ∧ t.moves = s.moves ∧ ∀ f ∈ t.flights, f.id = id → ∃ d, f.fail = some (0x300, d)) ∧
      (∀ (q : Fin 64) (pos : W32) (g : InFlight), s.flights.find? (fun g => decide (g.cmd.hoop = h.val ∧ g.cmd.cq = q.val ∧ g.cmd.pos = pos.toNat)) = some g →
        completesThen (.flashPageRead n b bits o0 o1 h idx tile (some (q, pos))) s State.settled fun u =>
          counted u ∧ u.reg (R.TILE_CHECK_COUNT h) = satAdd (s.reg (R.TILE_CHECK_COUNT h)) 1 ∧ ∀ x ∈ u.flights, x.cmd ≠ g.cmd))) ∧
  (∀ (s : State) (n : Fin 2) (b bits permille corr retry uncorr : Nat), s.live .skein n = true → (s.sk n).ready = true → s.readable n b blockPages = true →
    completes (.patrolRead n b bits permille corr retry uncorr) s fun t =>
      mget 0 (t.sk n).reads b = mget 0 (s.sk n).reads b + blockPages ∧ t.reg (R.LDPC_CORR n) = satAdd (s.reg (R.LDPC_CORR n)) corr ∧ t.reg (R.PATROL_PROGRESS n) = w32 (min permille 1000) ∧
      (2 * (s.force (R.REFRESH_BITS n)).toNat < bits → b ∈ (t.sk n).retire)) ∧
  (∀ (s : State) (n : Fin 2) (b bytes : Nat), present s.part .skein n = true → (s.sk n).ready = true →
    (b < s.part.skeinBlocks → completes (.internalWorkDone n 2 b bytes) s fun t => (t.sk n).spare = (s.sk n).spare + 1 ∧ mget 0 (t.sk n).reads b = 0) ∧
    (b < s.part.skeinBlocks → completes (.internalWorkDone n 3 b bytes) s fun t => (t.sk n).spare = (s.sk n).spare - 1 ∧ (t.sk n).retired = (s.sk n).retired + 1) ∧
    (completes (.internalWorkDone n 0 b bytes) s fun t => t.reg (R.RELOC_COUNT n) = satAdd (s.reg (R.RELOC_COUNT n)) 1) ∧
    (completes (.internalWorkDone n 4 b bytes) s fun t => (t.sk n).dieCopy = none ∧ (t.sk n).spare = (s.sk n).spare)) ∧
  (∀ (s : State) (f : Fin 16) (n : Fin 2) (v : W32),
    (s.reaches f (R.BUDGET_CAP_MB n) = true → completes (.budgetCapWrite f n v) s fun t =>
      t.reg (R.BUDGET_CAP_MB n) = applyLimit (.whole 1 4294967295) v ∧ (t.sk n).balance ≤ t.budgetCap n ∧ (t.sk n).balance ≤ (s.sk n).balance) ∧
    (s.reaches f (R.BUDGET_RATE_MB n) = true → completes (.budgetRateWrite f n v) s fun t =>
      t.reg (R.BUDGET_RATE_MB n) = v ∧ (t.sk n).balance = (s.sk n).balance)) ∧
  (∀ (s : State) (n : Fin 2), s.live .skein n = true → s.domainOn .ioMain = true →
    completesThen (.skeinReloadComplete n) s State.startMoves fun u => (u.sk n).ready = true ∧ (u.sk n).balance = (s.sk n).balance)

/-! ## Patterns, knots and contexts as commands -/

/-- R131, R167, R284, R402: a RUN_PATTERN whose pattern, contexts, cores, knots and outputs are in order and whose reservations are obtained begins: it
leaves the head, its cores are the ones the header names, its inputs are the objects as they stand now, what it reserved and the knots it holds are
its own. One whose pattern handle names nothing, or no pattern, ends with CMD_OPERAND; one with a core that is starting waits, and so does one whose
pattern, or a list that its checks read, an earlier command of its queue still writes (R137). -/
def Obligations.PatternsBegin : Prop :=
  ∀ (s : State) (h : Fin 16) (q : Fin 64) (c : Cmd), s.headOp h q 1 = some c → c.armOnly = false → c.hoop = h.val → c.cq = q.val →
    (s.resolve h c.pattern = none → (∀ f ∈ s.flights, f.cmd ≠ c) → completesThen (.runPattern h q) s State.settled fun u =>
      u.reg (R.CMD_FAULT_COUNT h) = satAdd (s.reg (R.CMD_FAULT_COUNT h)) 1 ∧ (u.cq h q).head = none) ∧
    (∀ k, s.resolve h c.pattern = some k →
      let p := s.obj k
      let knots := (p.haloKnots ++ p.stepKnots).eraseDups
      let written := s.earlierWrites c k || (decide (p.kind = 7) && (s.listObjs c p).any (s.earlierWrites c))
      (written = true → completes (.runPattern h q) s fun t => t = s) ∧
      (written = false → (s.ctxsGone c = true ∨ p.kind ≠ 7 ∨ p.homed = false ∨ 4 ≤ p.tier ∨ (p.tier = 0 ∧ p.loc ∉ c.cores)) → (∀ f ∈ s.flights, f.cmd ≠ c) → completesThen (.runPattern h q) s State.settled fun u =>
        u.reg (R.CMD_FAULT_COUNT h) = satAdd (s.reg (R.CMD_FAULT_COUNT h)) 1 ∧ (u.cq h q).head = none) ∧
      (written = false → s.ctxsGone c = false → p.kind = 7 → p.homed = true → p.tier < 4 → (p.tier = 0 → p.loc ∈ c.cores) → s.coreCheck c = 0 → p.badTile = none → s.patternError c p = none → s.sealError c k p = none → s.segSlots c = [] →
        ((∃ n ∈ c.cores, 1 ∈ s.coreStates n ∨ 4 ∈ s.coreStates n) → completes (.runPattern h q) s fun t => t = s) ∧
        (∀ s1, (∀ n ∈ c.cores, ∀ x ∈ s.coreStates n, x = 2) → (∀ e ∈ s.patternNeeds c p (s.stateTiles c k), e.2.2 ≤ s.poolCap e.1 h) →
          (∀ n ∈ c.cores, (s.flights.filter fun f => f.cores.contains n).length + s.entriesKept 0 (some n) < 128) → (∀ i ∈ s.cmdCtxs c, s.resident i = true) → (∀ x ∈ knots, s.knotHeld h x = false) →
          (∀ x ∈ s.outKeys c p ++ s.stateKeys c, s.moving x = false) → (∀ x ∈ s.outKeys c p, (s1.obj x).tier ≠ 3) → s.reserve c (s.patternNeeds c p (s.stateTiles c k)) = (s1, true) → p.prefetchList = [] →
          completesThen (.runPattern h q) s (fun u => u.startMoves.settled.finish s1.nextId) fun u =>
            (u.cq h q).head = none ∧ u.nextId = s1.nextId + 1 ∧
            (∃ f : InFlight, u.flights = s1.flights ++ [f] ∧ f.cmd = c ∧ f.id = s1.nextId ∧ f.cores = c.cores ∧ f.pat = k ∧ f.done = false ∧ f.begin_ = s1.pos ∧
              ∀ e ∈ f.ins, e.2 = s1.obj e.1) ∧
            (∀ a ∈ u.allocs, a.holder ≠ .head (h.val * 64 + q.val)) ∧ u.heldKnots = s1.heldKnots ++ knots.map fun x => ⟨knotKey h x, s1.knot h x, q, s1.nextId⟩)))

/-- R395, R398, R399, R236, R238, R239, R240: a KNOT_WAIT whose condition holds, or whose TIMEOUT the position has passed, and a KNOT_SIGNAL in this
package, leave the head as complete commands; a wait that is not satisfied stays. The satisfied wait's DETAIL holds the knot's value, and the
timed-out one's FLAGS say so. a CONTEXT_OPEN in order takes the index asked for, or the lowest free one, opens it with its knots, and is complete at
once when it is cold and not to be pinned; otherwise it waits at the head, its context asking for residency. One with a reason of R238 ends and is
counted. A CONTEXT_CLOSE begins and its context is closing. -/
def Obligations.KnotAndContextCommands : Prop :=
  (∀ (s : State) (h : Fin 16) (q : Fin 64) (c : Cmd), s.ctxGone c = false → c.hoop = h.val → c.cq = q.val →
    let v := s.knot h c.knot
    let begun := fun (u : State) (flags : Nat) (d : BitVec 192) => (u.cq h q).head = none ∧ ∃ f : InFlight, u.flights = s.flights ++ [f] ∧ f.cmd = c ∧ f.done = true ∧ f.flags = flags ∧ f.detail = d
    (s.headOp h q 3 = some c →
      (knotCond c.knotOp v c.knotValue = true → completesThen (.knotWait h q) s State.settled fun u =>
        begun u 0 (detailOf [(40, 4, v.toNat)]) ∧ u.reg (R.KN_WAIT_COUNT h) = satAdd (s.reg (R.KN_WAIT_COUNT h)) 1) ∧
      (knotCond c.knotOp v c.knotValue = false → completes (.knotWait h q) s fun t => t = s) ∧
      (knotCond c.knotOp v c.knotValue = false → c.knotTimeout ≠ 0 → (s.cq h q).headSince + c.knotTimeout ≤ s.count → completesThen (.knotWaitTimeout h q) s State.settled fun u =>
        begun u 2 (detailOf [(40, 4, v.toNat)]) ∧ u.reg (R.KN_TIMEOUT_COUNT h) = satAdd (s.reg (R.KN_TIMEOUT_COUNT h)) 1)) ∧
    (s.headOp h q 4 = some c → (c.knotRemote = false ∨ s.peerUp c.knotPeer = true) → completesThen (.knotSignal h q) s State.settled fun u => begun u 0 0)) ∧
  (∀ (s : State) (h : Fin 16) (q : Fin 64) (c : Cmd), c.hoop = h.val → c.cq = q.val →
    (s.headOp h q 8 = some c → (∀ e ∈ s.ctxs, e.2.opener ≠ some (h.val * 64 + q.val)) →
      let i := s.openIndexOf c
      let opened := fun (u : State) => (u.ctx i).isOpen = true ∧ (u.ctx i).hoop = h.val ∧ (u.ctx i).pins = 0 ∧
        (u.ctx i).knots.map (·.1) = (List.range c.openNknot).map c.openKnot
      (s.openReason c = 0 → c.openCold = true → c.openPin = false → completesThen (.contextOpen h q) s State.settled fun u =>
        opened u ∧ (u.ctx i).opener = none ∧ (u.cq h q).head = none ∧ ∃ f ∈ u.flights, f.cmd = c ∧ f.done = true ∧ f.ctxs = [i]) ∧
      (s.openReason c = 0 → (c.openCold = false ∨ c.openPin = true) → completesThen (.contextOpen h q) s State.settled fun u =>
        opened u ∧ (u.ctx i).opener = some (h.val * 64 + q.val) ∧ u.cqs = s.cqs ∧ u.flights = s.flights) ∧
      (s.openReason c ≠ 0 → (∀ f ∈ s.flights, f.cmd ≠ c) → completesThen (.contextOpen h q) s State.settled fun u =>
        u.reg (R.CMD_FAULT_COUNT h) = satAdd (s.reg (R.CMD_FAULT_COUNT h)) 1 ∧ (u.cq h q).head = none)) ∧
    (s.headOp h q 9 = some c → s.ctxGone c = false → completesThen (.contextClose h q) s State.settled fun u =>
      (u.ctx c.context).closing = true ∧ (u.cq h q).head = none ∧ ∃ f : InFlight, u.flights = s.flights ++ [f] ∧ f.cmd = c ∧ f.done = false))

/-! ## The context manager -/

/-- R242, R251, R255, R256: the commands of a context-manager page while DONE is 1, and its guarantee. A context that is not open is NOT_OPEN; QUERY
returns the descriptor and LIST the lowest open index; PIN and UNPIN change PIN_COUNT; RESTORE of a resident context is done at once, one of a context
that is being spilled or restored waits, as one does from the kills of an entry to sleep on (R252), and one with no stack present has NO_ROOM; PARK is
refused BUSY, PINNED or BUDGET in this order, and of a context with nothing in T2 it only leaves the active set. -/
def Obligations.ContextManagerPages : Prop :=
  ∀ (s : State) (f h : Fin 16), (s.accepts f (R.CTX_CMD h) = true → bit (s.reg (R.CTX_RESULT h)) 0 = true →
    let answers := fun (t : State) (n : Nat) => t.reg (R.CTX_RESULT h) = w32 (1 + 16 * n)
    let i := fld (s.reg (R.CTX_ARG0 h)) 0 18
    (s.ctxOpen h i = false → ∀ c ∈ [Instr.ctxQuery f h, .ctxPin f h, .ctxUnpin f h, .ctxRestore f h, .park f h], completes c s fun t => answers t 1 ∧ t.ctxs = s.ctxs) ∧
    (s.ctxOpen h i = true →
      let x := s.ctx i
      let busy := s.ctxStatus i = 3 ∨ s.ctxStatus i = 6 ∨ s.isRestoring i = true ∨ x.spilling = true
      (completes (.ctxQuery f h) s fun t => answers t 0 ∧ t.ctxs = s.ctxs ∧ ∀ j < 32, t.reg (R.CTX_OUT h j) = w32 (bytesAt (s.ctxDesc i) (4 * j) 4)) ∧
      (s.pinAllowed i = false → completes (.ctxPin f h) s fun t => answers t 3 ∧ t.ctxs = s.ctxs) ∧
      (s.pinAllowed i = true → s.resident i = true → completes (.ctxPin f h) s fun t => answers t 0 ∧ t.ctx i = { x with pins := x.pins + 1 }) ∧
      (completes (.ctxUnpin f h) s fun t => answers t 0 ∧ t.ctx i = { x with pins := x.pins - 1 }) ∧
      (s.resident i = true → completes (.ctxRestore f h) s fun t => answers t 0 ∧ t.ctxs = s.ctxs) ∧
      (s.resident i = false → (x.spilling = true ∨ x.restoring = true ∨ s.pmFrozen = true) → completes (.ctxRestore f h) s fun t => t.reg (R.CTX_RESULT h) = 0 ∧ t.ctx i = { x with ask := 1 }) ∧
      (s.resident i = false → s.pinAllowed i = true → (x.spilling = true ∨ x.restoring = true ∨ s.pmFrozen = true) → completes (.ctxPin f h) s fun t => t.reg (R.CTX_RESULT h) = 0 ∧ t.ctx i = { x with ask := 2 }) ∧
      (s.resident i = false → x.spilling = false → x.restoring = false → s.pmFrozen = false → s.maskStacks 2 (s.t2Loc h) = [] → completes (.ctxRestore f h) s fun t => answers t 2 ∧ t.objs = s.objs ∧ t.moves = s.moves) ∧
      (busy → completes (.park f h) s fun t => answers t 4 ∧ t.ctxs = s.ctxs) ∧
      (¬ busy → 0 < x.pins → completes (.park f h) s fun t => answers t 6 ∧ t.ctxs = s.ctxs) ∧
      (¬ busy → x.pins = 0 → s.inT2 i = [] → completes (.park f h) s fun t => answers t 0 ∧ t.ctx i = { x with inActive := false }) ∧
      (¬ busy → x.pins = 0 → s.inT2 i ≠ [] → s.spillAdmitted i = false → completes (.park f h) s fun t => answers t 5 ∧ t.objs = s.objs ∧ t.ctxs = s.ctxs) ∧
      (¬ busy → x.pins = 0 → s.inT2 i ≠ [] → s.spillAdmitted i = true → s.pmFrozen = true → completes (.park f h) s fun t => t.reg (R.CTX_RESULT h) = 0 ∧ t.ctx i = { x with ask := 4 }) ∧
      (¬ busy → x.pins = 0 → s.inT2 i ≠ [] → s.spillAdmitted i = true → s.pmFrozen = false → completesThen (.park f h) s (fun u => ((u.spillCtx i h none).setReg (R.CTX_RESULT h) 0).settled) fun u =>
        u.ctx i = { x with ask := 4 } ∧ u.objs = s.objs)) ∧
    (∀ k x, s.ctxs.find? (fun e => e.2.isOpen && decide (e.2.hoop = h.val ∧ fld (s.reg (R.CTX_ARG1 h)) 0 18 ≤ e.1)) = some (k, x) →
      completes (.ctxList f h) s fun t => answers t 0 ∧ t.reg (R.CTX_OUT h 0) = w32 k)) ∧
  (s.reaches f (R.ACT_GUAR h) = true → ∀ v : W32,
    let sum := (List.range 16).foldl (fun a g => a + if g = h.val then v.toNat else (s.reg (R.ACT_GUAR g)).toNat) 0
    (sum ≤ 4096 → completes (.actGuarWrite f h v) s fun t => t.reg (R.ACT_GUAR h) = v) ∧
    (4096 < sum → completes (.actGuarWrite f h v) s fun t => t.reg (R.ACT_GUAR h) = s.reg (R.ACT_GUAR h) ∧ bit (t.reg R.CM_FLAGS) 0 = true))

/-- R243, R244, R245, R248, R250: with no command of a page waiting, the hoop's first runnable, non-resident context is restored where an entry of the
active set and room in T2 are there; where none of the hoop's others waits, the lack of a stack, or of an entry that no end of work can give back, is
noted as its cause; a context starved for STARVE_BOUND stitches is reported once, with its wait; the end of a quantum lets a restore that waits be
tried again. -/
def Obligations.ContextsAreRestored : Prop :=
  (∀ (s : State) (h : Fin 16) (i : Nat) (l : List Nat), s.domainOn .compute = true → s.pmFrozen = false →
    (∀ e ∈ s.ctxs, (s.ctx e.1).ask = 0 ∧ ((s.ctx e.1).restoring = true → s.resident e.1 = true)) → s.restoresOf h < (s.force R.RESTORE_PARALLEL).toNat →
    s.waitingCtxs h = i :: l →
    (s.maskStacks 2 (s.t2Loc (s.ctx i).hoop) ≠ [] → s.entryFor i true = true → (s.takeEntry i true).unmet i ≤ (s.takeEntry i true).t2Avail i →
      completesThen (.restoreStart h) s (fun u => u.restoreCtx i) fun u => (u.ctx i).inActive = true ∧ u.objs = s.objs ∧ u.moves = s.moves) ∧
    (l = [] → s.maskStacks 2 (s.t2Loc (s.ctx i).hoop) = [] →
      completes (.restoreStart h) s fun t => bit (BitVec.ofNat 32 (t.ctx i).causes) 1 = true ∧ t.objs = s.objs ∧ t.moves = s.moves) ∧
    (l = [] → s.maskStacks 2 (s.t2Loc (s.ctx i).hoop) ≠ [] → s.entryFor i true = false → s.entriesStuck i = true →
      completes (.restoreStart h) s fun t => bit (BitVec.ofNat 32 (t.ctx i).causes) 0 = true ∧ t.objs = s.objs ∧ t.moves = s.moves)) ∧
  (∀ (s : State) (i : Fin 262144) (since : Nat), s.domainOn .compute = true →
    let c := s.ctx i
    c.runnableSince = some since → s.wanting i = true → s.resident i = false → c.starved = false → since + (s.reg (R.STARVE_BOUND c.hoop)).toNat ≤ s.count →
      (s.hoop c.hoop).phase ≠ .resetting → completes (.residencyStarved i) s fun t =>
        (t.ctx i).starved = true ∧ t.reg (R.STARVED_COUNT c.hoop) = satAdd (s.reg (R.STARVED_COUNT c.hoop)) 1 ∧
        ∃ r : Rec, (t.hoop c.hoop).held = (s.hoop c.hoop).held ++ [r] ∧ r.ty = 0x30 ∧ r.context = i.val ∧ r.hoop = c.hoop ∧ r.stamp = s.pos) ∧
  (∀ (s : State) (i : Fin 262144) (h : Fin 16), s.domainOn .compute = true → s.ctxStatus i = 2 → s.resident i = true →
    (s.force R.CTX_QUANTUM).toNat ≤ s.count - (s.ctx i).residentSince →
    (∀ g : Nat, g < 16 → g ≠ h.val → ∀ u ∈ [s, doRestoreStart h s], u.waitingCtxs g = [] ∧
      ∀ e ∈ u.ctxs, e.2.hoop = g → (u.ctx e.1).ask = 0 ∧ ((u.ctx e.1).restoring = true → u.resident e.1 = true)) →
    sameEffect (.ctxQuantumElapsed i) (.restoreStart h) s)

/-! ## Steps of patterns -/

/-- R265, R268, R271, R286, R300, R307, R329, R338, R344, R350, R355, R408: on an idle core that is ON, the step that is its turn runs when it is one of
the row's kind: a GEMM, VECTOR, CONV, DWCONV, POOL, RESIZE, ARGMAX, BOXDEC, KV_APPEND, ATTN_FWD, ATTN_BWD, REC_LINEAR, REC_GRU or REC_LSTM writes what
its definition gives into its command's own buffers, its stream runs, its layer has begun, and the saturations and NaNs it wrote are counted. A step
that fails marks its command, and one that would write into T0 of another core fails with reason 25. With no step able to start, nothing starts. -/
def Obligations.ComputeStepsRun : Prop :=
  ∀ (s : State) (core : Fin 64) (c : Instr) (op : Nat) (act : StepRun → Except StepErr StepOut),
    ((c = .gemm core ∧ op = 0x01 ∧ act = StepRun.gemm) ∨ (c = .vector core ∧ op = 0x02 ∧ act = StepRun.vector) ∨ (c = .conv core ∧ op = 0x10 ∧ act = StepRun.conv) ∨
      (c = .dwconv core ∧ op = 0x11 ∧ act = StepRun.dwconv) ∨ (c = .pool core ∧ op = 0x12 ∧ act = StepRun.pool) ∨ (c = .resize core ∧ op = 0x13 ∧ act = StepRun.resize) ∨
      (c = .argmax core ∧ op = 0x14 ∧ act = StepRun.argmax) ∨ (c = .boxdec core ∧ op = 0x15 ∧ act = StepRun.boxdec) ∨ (c = .kvAppend core ∧ op = 0x20 ∧ act = StepRun.kvAppend) ∨
      (c = .attnFwd core ∧ op = 0x21 ∧ act = StepRun.attnFwd) ∨ (c = .attnBwd core ∧ op = 0x22 ∧ act = StepRun.attnBwd) ∨ (c = .recLinear core ∧ op = 0x28 ∧ act = StepRun.recLinear) ∨
      (c = .recGru core ∧ op = 0x29 ∧ act = (StepRun.recGated · false)) ∨ (c = .recLstm core ∧ op = 0x2A ∧ act = (StepRun.recGated · true))) →
    let s0 := s.openTurn (core / 8)
    (s0.coreBusy core = false → s0.isOn .core core = true → s0.nextOn core (s0.turnAdmits core) = none → completes c s fun t => t = s0) ∧
    (∀ f k t, starts s core f k t → stOp t = op →
      let run_ := startView s core f k t
      let fails := fun (e : StepErr) => completesThen c s State.settled fun u => ∃ g ∈ u.flights, g.id = f.id ∧ g.cmd = f.cmd ∧ g.fail = some e
      (∀ x, act run_ = .ok x → (x.empty = true ∨ s0.outElsewhere f core t = false) →
        completesThen c s (fun u => if stLayer t ∈ f.layersBegun then u else u.walkBegin f.id (stLayer t)) fun u =>
          (∃ g ∈ u.flights, g.id = f.id ∧ g.outs = (f.applyOut core x).outs ∧ (∃ e ∈ g.streams, e.core = core.val ∧ e.running = true) ∧ stLayer t ∈ g.layersBegun) ∧
          u.reg (R.SAT_COUNT core) = satAdd (s.reg (R.SAT_COUNT core)) x.cnt.sat ∧ u.reg (R.NAN_OUT_COUNT core) = satAdd (s.reg (R.NAN_OUT_COUNT core)) x.cnt.nan ∧
          u.objs = s.objs ∧ u.knots = s.knots) ∧
      (∀ x, act run_ = .ok x → x.empty = false → s0.outElsewhere f core t = true → fails (0x202, reasonDetail 25 ((f.streams[k]?.map (·.step)).getD 0))) ∧
      (∀ e, act run_ = .error e → fails e))

/-- R285, R287, R289, R318, R401: the end of a step, whose requests have their tokens (R412): the stream stands at its next step, or has finished; the
core's counters rise by what it counted. A KNOT_WAIT step that is satisfied, of a layer already begun or a command that walks nothing, ends as it
starts; a KNOT_SIGNAL step adds to its knot and ends; the copy of a HALO_PUT into its slot, and of a HALO_GET into its image, is made as it starts,
with READY or FREE one higher (that the copy is whole at once is the model's choice, log entry 42). -/
def Obligations.StepsEndAndSignal : Prop :=
  ∀ (s : State) (core : Fin 64) (f : InFlight) (k : Nat),
    let up := fun (r : Nat) (v : Nat) (u : State) => u.reg r = satAdd (s.reg r) v
    let after := fun (u : State) => u.afterStep f.id f.layersDone (f.advance k).layersDone
    (∀ slots vec bank stage knot port : W32,
      s.flights.find? (fun f => f.streams.any fun t => decide (t.core = core.val) && t.running) = some f →
      f.streams.findIdx? (fun t => decide (t.core = core.val) && t.running) = some k →
      (s.stepHeld core = true → completes (.stepComplete core slots vec bank stage knot port) s fun t => t = s) ∧
      (s.stepHeld core = false → completesThen (.stepComplete core slots vec bank stage knot port) s (fun u => (after u).startMoves) fun u =>
        stepEnded u f k ∧ up (R.STEPS_DONE core) 1 u ∧ up (R.ARRAY_ISSUE_SLOTS core) slots.toNat u ∧ up (R.VECTOR_BUSY_CYCLES core) vec.toNat u ∧
        up (R.BANK_STALL_CYCLES core) bank.toNat u ∧ up (R.STAGE_STALL_CYCLES core) stage.toNat u ∧ up (R.KNOT_STALL_CYCLES core) knot.toNat u ∧
        up (R.CL_PORT_WAIT_CYCLES (core / 8)) port.toNat u ∧ u.objs = s.objs ∧ u.knots = s.knots)) ∧
    (∀ t, starts s core f k t → noWalk s f t →
      (∀ cyc : W32, stOp t = 3 → completesThen (.knotWaitStep core cyc) s after fun u =>
        stepEnded u f k ∧ up (R.STEPS_DONE core) 1 u ∧ up (R.KNOT_STALL_CYCLES core) cyc.toNat u ∧ u.objs = s.objs ∧ u.knots = s.knots) ∧
      (stOp t = 4 → completesThen (.knotSignalStep core) s (fun u => after (u.testWaits f.cmd.hoop (st2 t 4)).settled) fun u =>
        stepEnded u f k ∧ up (R.STEPS_DONE core) 1 u ∧ u.knot f.cmd.hoop (st2 t 4) = s.knot f.cmd.hoop (st2 t 4) + w32 (st4 t 8) ∧ u.objs = s.objs) ∧
      (∀ x, stOp t = 0x18 → (startView s core f k t).haloPut (f.cores.getD (st1 t 10) 0 / 8) = .ok x → completesThen (.haloPut core) s (fun u => (u.testWaits f.cmd.hoop (st2 t 20)).settled) fun u =>
        u.knot f.cmd.hoop (st2 t 20) = s.knot f.cmd.hoop (st2 t 20) + 1 ∧ u.objs = s.objs ∧
        ∃ g ∈ u.flights, g.id = f.id ∧ g.scr1 = (f.applyOut core x).scr1 ∧ ∃ e ∈ g.streams, e.core = core.val ∧ e.running = true) ∧
      (∀ x, stOp t = 0x19 → (startView s core f k t).haloGet = .ok x → (x.empty = true ∨ (s.openTurn (core / 8)).outElsewhere f core t = false) →
        completesThen (.haloGet core) s (fun u => (u.testWaits f.cmd.hoop (st2 t 20 + 1)).settled) fun u =>
          u.knot f.cmd.hoop (st2 t 20 + 1) = s.knot f.cmd.hoop (st2 t 20 + 1) + 1 ∧ u.objs = s.objs ∧
          ∃ g ∈ u.flights, g.id = f.id ∧ g.outs = (f.applyOut core x).outs ∧ ∃ e ∈ g.streams, e.core = core.val ∧ e.running = true))

/-- R260, R268: the codes of every format without blocks, FP32 and INT32 included, survive being read and written: whatever code is read, and is no NaN,
its value is written back, without stochastic rounding and without SAT, as the same code, and nothing is counted. -/
def Obligations.ElementCodesRoundTrip : Prop :=
  ∀ f ∈ [0, 1, 2, 3, 4, 5, 6, 7, 11], ∀ raw < 2 ^ elemBits f, (decodeElem f raw).isNan = false →
    convert f false none (decodeElem f raw) = (raw, ⟨0, 0⟩)

/-! ## Knots, clusters, shares, regulators, pre-emption -/

/-- R396, R397, R404, R405: a write in the knot window adds to a knot or resets it, unless a begun command holds it; then it is discarded and counted. A
hand-set stores its value, is logged and counted, and is discarded in the same way. CHK OPEN records the enabled knots' values, CLOSE compares them
and reports the knots that differ; CLOSE without an open check is NOT_OPEN, OPEN with one is ALREADY_OPEN, and a knot beyond 16,383 is BAD_KNOT. -/
def Obligations.KnotWindowAndChecks : Prop :=
  (∀ (s : State) (f h : Fin 16) (k : Fin 16384) (v : W32), (f = 0 ∨ f = h) → s.domainOn .compute = true →
    (s.knotHeld h k = false →
      (completesThen (.kwAdd f h k v) s (fun u => (u.testWaits h k).settled) fun u => u.knot h k = s.knot h k + v ∧ u.reg (R.KN_SIGNAL_COUNT h) = satAdd (s.reg (R.KN_SIGNAL_COUNT h)) 1) ∧
      (completesThen (.kwReset f h k) s (fun u => (u.testWaits h k).settled) fun u => u.knot h k = 0 ∧ ∀ j ≠ k.val, u.knot h j = s.knot h j)) ∧
    (s.knotHeld h k = true → ∀ c ∈ [Instr.kwAdd f h k v, .kwReset f h k], completesThen c s State.settled fun u =>
      u.knots = s.knots ∧ u.reg (R.KN_HELD_DISCARDS h) = satAdd (s.reg (R.KN_HELD_DISCARDS h)) 1)) ∧
  (∀ (s : State) (f h : Fin 16) (k : Fin 16384) (v : W32), f ≠ 0 → f ≠ h → ∀ c ∈ [Instr.kwAdd f h k v, .kwReset f h k], completes c s fun t => t.knots = s.knots) ∧
  (∀ (s : State) (f : Fin 16) (v : W32), s.inView f R.KDBG_SET = true → present s.part .knot 0 = true → s.domainOn (blkRow .knot).domain = true →
    let k := fld (s.reg R.KDBG_SEL) 0 14
    let h := fld (s.reg R.KDBG_SEL) 16 4
    let logged := fun (u : State) => u.reg R.KDBG_SET_COUNT = satAdd (s.reg R.KDBG_SET_COUNT) 1 ∧ u.kdbg = (⟨s.count, h, k, s.knot h k, v, s.knotHeld h k⟩ :: s.kdbg).take 16
    (s.knotHeld h k = false → completesThen (.kdbgSet f v) s (fun u => (u.testWaits h k).settled) fun u => logged u ∧ u.knot h k = v ∧ bit (u.reg R.DEV_STATUS) 1 = true) ∧
    (s.knotHeld h k = true → completes (.kdbgSet f v) s fun t => logged t ∧ t.knots = s.knots)) ∧
  (∀ (s : State) (f h : Fin 16), s.accepts f (R.CHK_CMD h) = true →
    let es := s.chkEntries h
    let leaks := es.foldl (fun (a : Nat) (e : Nat × Nat) => if s.knot h e.2 = s.reg (R.CHK_OPEN_VAL h e.1) then a else a + 2 ^ e.1) 0
    let answers := fun (t : State) (n mask : Nat) => t.reg (R.CHK_RESULT h) = w32 (1 + 16 * n + 2 ^ 16 * mask)
    (s.chkIsOpen h = true → completes (.chkOpen f h) s fun t => answers t 3 0) ∧
    (s.chkIsOpen h = false → completes (.chkClose f h) s fun t => answers t 2 0) ∧
    ((∃ e ∈ es, 16383 < e.2) → (s.chkIsOpen h = false → completes (.chkOpen f h) s fun t => answers t 4 0 ∧ t.chkIsOpen h = false) ∧
      (s.chkIsOpen h = true → completes (.chkClose f h) s fun t => answers t 4 0 ∧ t.chkIsOpen h = true)) ∧
    ((∀ e ∈ es, e.2 ≤ 16383) →
      (s.chkIsOpen h = false → completes (.chkOpen f h) s fun t => answers t 0 0 ∧ t.chkIsOpen h = true ∧ ∀ e ∈ es, t.reg (R.CHK_OPEN_VAL h e.1) = s.knot h e.2) ∧
      (s.chkIsOpen h = true → leaks = 0 → completes (.chkClose f h) s fun t => answers t 0 0 ∧ t.chkIsOpen h = false) ∧
      (s.chkIsOpen h = true → leaks ≠ 0 → completes (.chkClose f h) s fun t => answers t 1 leaks ∧ t.chkIsOpen h = false ∧
        t.reg (R.KN_LEAK_COUNT h) = satAdd (s.reg (R.KN_LEAK_COUNT h)) 1)))

/-- R290, R406, R407, R408, R412, R413, R424: a cluster is assigned only while it is OFF or FENCED, and its pages' HOOP_OWNER follows; a share, a
regulator's value and, in a cluster that holds nothing in T1, the ground-buffer hash are stored, limited; a turn ends at its limit or when its hoop
has nothing to run, and not before; a held request, where no other hoop asks and the port is not held, is issued, 4,096 bytes of it at most, once its
bucket holds no less than 0 and its RATE is not 0; a hoop of weight 0 is not served while one of another weight asks. -/
def Obligations.ClustersAndRegulators : Prop :=
  (∀ (s : State) (f : Fin 16) (n : Fin 8) (v : W32), s.reaches f (R.SCH_CLUSTER n) = true →
    let st := s.blkState (pageOf .cluster n)
    let x := applyLimit (.fields [(0,1,0,1), (4,4,0,15)]) v
    ((st = 0 ∨ st = 5) → completes (.schClusterWrite f n v) s fun t => t.reg (R.SCH_CLUSTER n) = x ∧
      t.reg (R.HOOP_OWNER (pageOf .cluster n)) = (if bit x 0 then w32 (2 ^ 9) else w32 (fld x 4 4)) ∧ (t.turn n).active = false ∧ t.reg (R.SCH_TURN_HOOP n) = 0) ∧
    (st ≠ 0 → st ≠ 5 → completes (.schClusterWrite f n v) s fun t => t.reg (R.SCH_CLUSTER n) = s.reg (R.SCH_CLUSTER n) ∧ bit (t.reg R.SCH_FLAGS) 0 = true)) ∧
  (∀ (s : State) (f h : Fin 16) (n : Fin 8) (v : W32),
    (s.reaches f (R.SHARE h n) = true → completes (.shareWrite f n h v) s fun t => t.reg (R.SHARE h n) = applyLimit (.whole 0 255) v ∧ t.turns = s.turns) ∧
    (s.reaches f (R.CL_GB_HASH n) = true →
      let used := s.clusterReserved n ≠ 0 ∨ ∃ e ∈ s.objs, e.2.used = true ∧ e.2.homed = true ∧ e.2.tier = 1 ∧ e.2.loc = n.val
      (¬ used → completes (.clGbHashWrite f n v) s fun t => t.reg (R.CL_GB_HASH n) = applyLimit (.fields [(0,1,0,1)]) v) ∧
      (used → completes (.clGbHashWrite f n v) s fun t => t.reg (R.CL_GB_HASH n) = s.reg (R.CL_GB_HASH n)))) ∧
  (∀ (s : State) (n : Fin 8),
    let t := s.turn n
    (t.active = true → (t.start + t.limit ≤ s.now ∨ s.hoopHasWork n t.hoop = false) → completesThen (.turnEnd n) s (·.openTurn n) fun u =>
      (u.turn n).active = false ∧ u.reg (R.SCH_TURN_HOOP n) = 0 ∧ mget 0 (u.turn n).ends t.hoop = min s.now (t.start + t.limit)) ∧
    ((t.active = false ∨ (s.now < t.start + t.limit ∧ s.hoopHasWork n t.hoop = true)) → completes (.turnEnd n) s fun t => t = s)) ∧
  (∀ (s : State) (f h : Fin 16) (r : Fin 4) (v : W32),
    (s.reaches f (R.REG_RATE r h) = true → completes (.regulatorWrite f h r 0 v) s fun t => t.reg (R.REG_RATE r h) = v) ∧
    (s.reaches f (R.REG_BURST r h) = true → completes (.regulatorWrite f h r 1 v) s fun t => t.reg (R.REG_BURST r h) = applyLimit (.whole 4 1048576) v ∧
      (t.bucket h r).tokens ≤ (t.reg (R.REG_BURST r h)).toNat * 1024) ∧
    (s.reaches f (R.REG_WEIGHT r h) = true → completes (.regulatorWrite f h r 2 v) s fun t => t.reg (R.REG_WEIGHT r h) = applyLimit (.whole 0 255) v) ∧
    (∀ n since what rest, (s.bucket h r).waiting = (n, since, what) :: rest →
      ((s.noBucket h r = true ∨ (0 ≤ (s.bucket h r).tokens ∧ s.rateOf h r ≠ 0)) → s.portHeld r = false → (∀ g ≠ h.val, s.portAsks r g = false) →
        completesThen (.tokenIssue h r) s (fun u => match what with | .msg p ticket => if 4096 < n then u else u.launchHeld p ticket | _ => u) fun u =>
          (u.bucket h r).waiting = (if 4096 < n then (n - 4096, since, what) :: rest else rest) ∧
          u.reg (R.OWN_THROTTLE h r) = satAdd (s.reg (R.OWN_THROTTLE h r)) (s.now - since)) ∧
      (s.noBucket h r = false → ((s.bucket h r).tokens < 0 ∨ s.rateOf h r = 0) → completes (.tokenIssue h r) s fun t => t = s) ∧
      (s.portHeld r = true → completes (.tokenIssue h r) s fun t => t = s) ∧
      (s.weight r h = 0 → (∃ g < 16, s.portAsks r g = true ∧ 0 < s.weight r g) → completes (.tokenIssue h r) s fun t => t = s)))

/-- R415, R416, R418, R420: PREEMPT, while DONE is 1 and the hoop it serves is READY, answers with the number of commands killed, and a selected running
queue stands PREEMPTED with READ at DONE; RELEASE sets the preempted ones of the selected queues running and says whether there were others; a hoop
that is not READY is BAD_HOOP. -/
def Obligations.PreemptAndRelease : Prop :=
  ∀ (s : State) (f h : Fin 16) (cyc : W32), s.accepts f (R.PRE_CMD h) = true → bit (s.reg (R.PRE_RESULT h)) 0 = true →
    let g := s.preHoop h
    let answers := fun (t : State) (n killed : Nat) => t.reg (R.PRE_RESULT h) = w32 (1 + 16 * n + 2 ^ 16 * killed)
    ((s.hoop g).phase ≠ .ready → (completes (.preempt f h cyc) s fun t => answers t 2 0 ∧ t.cqs = s.cqs) ∧ (completes (.release f h) s fun t => answers t 2 0 ∧ t.cqs = s.cqs)) ∧
    ((s.hoop g).phase = .ready →
      let run_ := (s.preMask h).filter fun q => decide ((s.cq g q).mode = .running)
      (run_ = [] → completesThen (.preempt f h cyc) s (fun u => u.startMoves.settled) fun u => answers u 0 0 ∧ u.cqs = s.cqs) ∧
      (∀ q, run_ = [q] → completesThen (.preempt f h cyc) s (fun u => u.startMoves.settled) fun u =>
        answers u 0 (s.killCount g q) ∧ (u.cq g q).mode = .preempted ∧ (u.cq g q).read = (u.cq g q).done ∧ (u.cq g q).head = none ∧
        ∀ x ∈ u.flights, ¬ (x.cmd.hoop = g ∧ x.cmd.cq = q)) ∧
      (completesThen (.preempt f h cyc) s (fun u => u.startMoves.settled) fun u => answers u 0 ((run_.map (s.killCount g)).foldl (· + ·) 0)) ∧
      (completes (.release f h) s fun t =>
        answers t (if ∃ q ∈ s.preMask h, (s.cq g q).mode ≠ .preempted then 1 else 0) 0 ∧
        ∀ q, (t.cq g q).mode = (if q ∈ s.preMask h ∧ (s.cq g q).mode = .preempted then .running else (s.cq g q).mode)))

/-! ## Package links -/

/-- R426, R427, R428, R430, R433, R434: a link that trains, with the widest width of its good lanes that is allowed, with its expected peer is STANDBY
with a new key, and carries the session where no other does; too few lanes leave it DOWN, a missing verification KEYING. A link that goes down hands
over to the lowest STANDBY link to its peer, or the peer counts as lost from now. A faulty lane is noted and the link retrains. A rekey takes the next
epoch, CTR from 0. LK_PKG_ID is written only with every link OFF. -/
def Obligations.LinksTrainAndFail : Prop :=
  (∀ (s : State) (n : Fin 8) (lanes : BitVec 8) (peer : Fin 4) (keyOk : Bool), (s.lk n).mode = .training → s.timePassed .link n = true →
    let l := s.lk n
    let w := laneWidth (lanes &&& ~~~(BitVec.ofNat 8 (l.lanesOut ||| l.without))).toNat
    let rightPeer := peer.val ≠ fld (s.reg (R.LK_PKG_ID)) 0 2 ∧ peer.val = fld (s.reg (R.LK_CTRL n)) 0 2
    (w < s.minWidth n → completesThen (.linkTrainingComplete n lanes peer keyOk) s (·.startDone .link n) fun u => (u.lk n).mode = .down ∧ (u.lk n).width = 0) ∧
    (s.minWidth n ≤ w → rightPeer → keyOk = false → completes (.linkTrainingComplete n lanes peer keyOk) s fun t => (t.lk n).mode = .keying ∧ (t.lk n).width = w) ∧
    (s.minWidth n ≤ w → rightPeer → keyOk = true → completesThen (.linkTrainingComplete n lanes peer keyOk) s
      (fun u => if u.stOf .link n ≠ 2 then u.setLk n { u.lk n with mode := .down, width := 0 } else if (u.upLink peer).isSome then u else u.carry n) fun u =>
        (u.lk n).mode = .standby ∧ (u.lk n).width = w ∧ (u.lk n).peer = peer.val ∧ (u.lk n).epoch = (l.epoch + 1) % 2 ^ 31 ∧ (u.lk n).txCtr = 0)) ∧
  (∀ (s : State) (n : Fin 8), (s.lk n).mode = .up →
    let other := (List.range 8).find? fun k => decide (k ≠ n.val ∧ (s.lk k).mode = .standby ∧ (s.lk k).peer = (s.lk n).peer)
    (other = none → completes (.linkDown n) s fun t => (t.lk n).mode = .down ∧ (t.session (s.lk n).peer).lostSince = some s.count) ∧
    (∀ k, other = some k → completesThen (.linkDown n) s (·.carry k) fun u => (u.lk n).mode = .down ∧ (u.lk n).width = 0) ∧
    (other = none → ∀ lane : Fin 8, completes (.laneFault n lane) s fun t => (t.lk n).mode = .training ∧ (t.lk n).laneFault = (s.lk n).laneFault ||| 2 ^ lane.val ∧
      t.reg (R.LK_RETRAIN_COUNT n) = satAdd (s.reg (R.LK_RETRAIN_COUNT n)) 1)) ∧
  (∀ (s : State) (n : Fin 8), (s.lk n).mode = .up ∨ (s.lk n).mode = .standby → completes (.linkRekey n) s fun t =>
    (t.lk n).epoch = ((s.lk n).epoch + 1) % 2 ^ 31 ∧ (t.lk n).txCtr = 0 ∧ (t.lk n).rxNew = true ∧ t.reg (R.LK_KEY_EPOCH n) = w32 (((s.lk n).epoch + 1) % 2 ^ 31)) ∧
  (∀ (s : State) (f : Fin 16) (v : W32), s.reaches f R.LK_PKG_ID = true →
    let off := ∀ n < 8, present s.part .link n = true → s.stOf .link n = 0
    (off → completes (.lkPkgIdWrite f v) s fun t => t.reg R.LK_PKG_ID = w32 (v.toNat % 4)) ∧
    (¬ off → completes (.lkPkgIdWrite f v) s fun t => t.reg R.LK_PKG_ID = s.reg R.LK_PKG_ID))

/-- R429, R430, R434: a flit with a bad CRC that is to be kept is NAKed, and one with a good CRC out of its turn too, and nothing it carries is taken; the
next one in sequence is accepted, and a message it completes passes the counter check or is dropped and counted. A NAK of the oldest unacknowledged
flit is a replay, and LK_RETRY_LIMIT of them without progress retrain the link. -/
def Obligations.FlitsAndReplay : Prop :=
  ∀ (s : State) (n : Fin 8), (s.lk n).mode = .up ∨ (s.lk n).mode = .standby →
    (∀ (ftype : Byte) (fseq ack : Fin 4096) (cls : Fin 3) (credits : BitVec 16) (tag : Fin 3) (ctr : W64) (d : Option W64), ftype = 1 ∨ ftype = 3 →
      let p := (s.lk n).peer
      let u := s.setLk n (addCredits (ackFlits (s.lk n) ack) cls credits.toNat)
      let s1 := if ftype = 3 ∧ (s.session p).resync = true then u.exchange p (d.map (·.toNat)) else match d with | some x => u.ackSession p x.toNat | none => u.transmit p
      let next := if (s1.lk n).rxNew = true ∧ ctr.toNat = 0 then 0 else match (s1.lk n).rxCtr with | none => 0 | some c => c + 1
      (completes (.flitReceived n ftype false fseq ack cls credits tag ctr d) s fun t => t.lk n = { s.lk n with nakSent := some (s.lk n).rxSeq }) ∧
      (fseq.val ≠ (s.lk n).rxSeq → completes (.flitReceived n ftype true fseq ack cls credits tag ctr d) s fun t => t.lk n = { s.lk n with nakSent := some (s.lk n).rxSeq } ∧ t.sessions = s.sessions) ∧
      (fseq.val = (s.lk n).rxSeq →
        (tag = 0 → completes (.flitReceived n ftype true fseq ack cls credits tag ctr d) s fun t => t.lk n = { s1.lk n with rxSeq := (fseq.val + 1) % 4096, nakSent := none }) ∧
        (tag = 1 → ctr.toNat = next → completes (.flitReceived n ftype true fseq ack cls credits tag ctr d) s fun t =>
          t.lk n = { s1.lk n with rxSeq := (fseq.val + 1) % 4096, nakSent := none, rxCtr := some ctr.toNat, rxNew := (s1.lk n).rxNew && decide (ctr.toNat ≠ 0) }) ∧
        (tag ≠ 0 → ctr.toNat < next → completes (.flitReceived n ftype true fseq ack cls credits tag ctr d) s fun t =>
          (t.lk n).rxCtr = (s1.lk n).rxCtr ∧ t.reg (R.LK_REPLAY_COUNT n) = satAdd (s1.reg (R.LK_REPLAY_COUNT n)) 1))) ∧
    ((s.lk n).ackSeq < 4096 → (s.lk n).ackSeq ≠ (s.lk n).txSeq → ∀ f : Fin 4096, f.val = (s.lk n).ackSeq →
      ((s.lk n).replays + 1 < (s.force (R.LK_RETRY_LIMIT n)).toNat → completes (.nak n f) s fun t =>
        (t.lk n).replays = (s.lk n).replays + 1 ∧ (t.lk n).mode = (s.lk n).mode ∧ t.reg (R.LK_RETRY_COUNT n) = satAdd (s.reg (R.LK_RETRY_COUNT n)) 1) ∧
      ((s.force (R.LK_RETRY_LIMIT n)).toNat ≤ (s.lk n).replays + 1 → completesThen (.nak n f) s (·.retrain n) fun u =>
        (u.lk n).replays = 0 ∧ u.reg (R.LK_RETRY_COUNT n) = satAdd (s.reg (R.LK_RETRY_COUNT n)) 1))

/-! ## Remote moves, signals and records -/

/-- R437, R438, R439, R440, R441: the messages of a remote move, delivered. A MOVE_REQ that the pool can hold opens an inbound object, and one of a return
lends an object that is homed here, is no context's state, and is neither pinned nor sealed; a PULL_REQ that comes before the object is ready to be
sent is remembered, and one after that is answered with a message for every tile, and PREPARED behind them in a return; a tile that verifies is kept;
PREPARED completes the pushing command, tells a returning one that it has its tiles, or ends it with the code it brings; REFUSED ends the command that
asked; COMMITTED homes the taker's object with the content it received, or releases the lent one; CANCEL forgets the move. -/
def Obligations.RemoteMoveMessages : Prop :=
  ∀ (s : State) (m : MsgHdr), delivered s m →
    let p := (s.lk m.link).peer
    let a := accepted s m
    (∀ (handle : W32) (kind : Fin 16) (size objSize : Fin 68719476737) (param : W32) (compressed coded : Bool),
      (∀ s1 k, size.val ≠ 0 → 4096 * ceilDiv (if coded = true then objSize.val else size.val) 4096 ≤ (a (msgBytes 5)).poolCap 2 m.receiver →
        (a (msgBytes 5)).fresh.1.newObj m.receiver { Obj.dflt with kind := kind, tier := 2, size := if coded = true then objSize.val else size.val, compressed := compressed && !coded } = some (s1, k) →
        completesThen (.moveReq m false handle kind size objSize param compressed coded) s (fun u => u.startMoves.settled) fun u =>
          u.objs = s1.objs ∧ ∃ r : Remote, u.remotes = s1.remotes ++ [r] ∧ r.role = .inbound ∧ r.peer = p ∧ r.obj = k ∧ r.peerHandle = handle.toNat ∧ r.size = size.val ∧ r.pos = m.pos.toNat) ∧
      (∀ k, s.resolve m.receiver handle.toNat = some k → (s.obj k).homed = true → (s.obj k).tier ≠ 5 → (s.obj k).ctxState = false → (s.obj k).pins = 0 → (s.obj k).sealed = false →
        completesThen (.moveReq m true handle kind size objSize param compressed coded) s State.startMoves fun u =>
          u.objs = s.objs ∧ ∃ r : Remote, u.remotes = s.remotes ++ [r] ∧ r.role = .lent ∧ r.peer = p ∧ r.obj = k ∧ r.coded = coded)) ∧
    (∀ r, s.taggedRemote p m [.pushInit, .lent] = some r →
      (r.alloc = 0 → completes (.pullReq m) s fun t => ∃ r' ∈ t.remotes, r'.obj = r.obj ∧ r'.prepared = true) ∧
      (r.alloc ≠ 0 → completes (.pullReq m) s fun t => t.objs = s.objs ∧ t.remotes = s.remotes ∧
        let waiting := fun (x : Session) => x.unacked.length + x.queued.length
        waiting (t.session p) = waiting (s.session p) + ceilDiv r.size 4096 + b2n (decide (r.role = .lent)))) ∧
    (∀ r (tile : Fin 16777216) (crc : W32) (bytes : List Byte), bytes.length = 4096 →
      (s.taggedRemote p m [.inbound] = some r ∨ (s.taggedRemote p m [.inbound] = none ∧ s.replyTo p m = some r ∧ r.role = .returnInit)) → r.got.contains tile.val = false → tile.val < ceilDiv r.size 4096 →
      crc32c bytes = crc →
        let r' := { r with data := msetList 0 r.data (4096 * tile.val) (bytes.take (r.size - 4096 * tile.val)), got := r.got ++ [tile.val] }
        completesThen (.pullData m tile crc bytes) s (·.takerReady r') fun u => r' ∈ u.remotes ∧ u.objs = s.objs) ∧
    (∀ r, s.replyTo p m = some r →
      (∀ (handle code over_ under_ : W32) (size : Fin 68719476737) (compressed : Bool), code.toNat ≠ 0x300 → code.toNat ≠ 0x202 → code.toNat ≠ 0x3 → r.role = .pushInit →
        completesThen (.prepared m handle code over_ under_ size compressed) s State.settled fun u =>
          (∃ r' ∈ u.remotes, r'.prepared = true ∧ r'.peerHandle = handle.toNat ∧ r'.cmd = r.cmd) ∧ ∃ f ∈ u.flights, f.id = r.cmd ∧ f.done = true ∧ f.code = code.toNat) ∧
      (∀ (handle code over_ under_ : W32) (size : Fin 68719476737) (compressed : Bool), code.toNat ≠ 0x300 → code.toNat ≠ 0x202 → code.toNat ≠ 0x3 → r.role = .returnInit →
        let r' := { r with prepared := true, size := size.val, compressed := compressed }
        completesThen (.prepared m handle code over_ under_ size compressed) s (·.takerReady r') fun u => r' ∈ u.remotes ∧ u.objs = s.objs) ∧
      (∀ (handle code over_ under_ : W32) (size : Fin 68719476737) (compressed : Bool), (code.toNat = 0x300 ∨ code.toNat = 0x202 ∨ code.toNat = 0x3) →
        completesThen (.prepared m handle code over_ under_ size compressed) s (fun u => u.startMoves.settled) fun u => ∃ f ∈ s.flights, f.id = r.cmd ∧ ∀ g ∈ u.flights, g.cmd ≠ f.cmd) ∧
      (∀ gone : Bool, completesThen (.refused m gone) s (fun u => u.startMoves.settled) fun u => ∃ f ∈ s.flights, f.id = r.cmd ∧ ∀ g ∈ u.flights, g.cmd ≠ f.cmd)) ∧
    (∀ r, s.noticedRemote p m = some r →
      (r.role = .inbound → completesThen (.committed m) s (fun u => u.startMoves.settled) fun u => r ∉ u.remotes ∧
        (u.obj r.obj).homed = true ∧ (u.obj r.obj).tier = 2 ∧ (u.obj r.obj).data = r.data ∧ (u.obj r.obj).size = r.size ∧ (u.obj r.obj).kind = r.kind) ∧
      (r.role = .lent → completesThen (.committed m) s (fun u => u.startMoves.settled) fun u => r ∉ u.remotes ∧ (u.obj r.obj).used = false) ∧
      (completesThen (.cancel m) s (fun u => u.startMoves.settled) fun u => r ∉ u.remotes ∧ (r.role = .inbound → (u.obj r.obj).used = false) ∧ (r.role = .lent → u.objs = s.objs)))

/-- R435, R436, R437, R442, R443: a message out of its turn, or on a link that is not UP, does nothing; one that the receiving hoop does not admit only
counts. A delivered knot signal is applied to the receiving hoop's knot without being counted as its signal; a delivered record takes the hoop's next
SEQ. a peer's new session starts the exchange of messages afresh under a new key, and counts the messages lost; a peer unreachable for LK_DOWN_HOLD
stitches ends the commands with a remote operation there, remote knot signals that wait for their commit among them, and not before. -/
def Obligations.SignalsRecordsAndSessions : Prop :=
  ((∀ (s : State) (m : MsgHdr), ((s.lk m.link).mode ≠ .up ∨ m.dseq.toNat ≠ (s.session (s.lk m.link).peer).rxDseq) →
    ∀ (w : W32) (x : Fin 68719476737) (g : Bool) (k : Fin 16384) (op : Fin 2) (e : Fin 16) (line : Line) (kind : Fin 16),
      ∀ c ∈ [Instr.moveReq m g w kind x x w g g, .pullReq m, .prepared m w w w w x g, .refused m g, .committed m, .cancel m, .knotSig m k op w, .eventFwd m e line],
        completes c s fun t => t = s) ∧
  (∀ (s : State) (m : MsgHdr) (k : Fin 16384) (op : Fin 2) (v : W32), delivered s m →
    let a := accepted s m (msgBytes 3)
    (s.knotHeld m.receiver k = false → completesThen (.knotSig m k op v) s (fun u => (u.testWaits m.receiver k).settled) fun u =>
      u.knot m.receiver k = (if op = 1 then 0 else s.knot m.receiver k + v) ∧ u.regs = a.regs) ∧
    (s.knotHeld m.receiver k = true → completesThen (.knotSig m k op v) s State.settled fun u => u.knots = s.knots)) ∧
  (∀ (s : State) (m : MsgHdr) (e : Fin 16) (line : Line), delivered s m → completesThen (.eventFwd m e line) s
    (·.deliver (forwardedRec m.receiver e s.now line) (s.hoop m.receiver).seq) fun u => (u.hoop m.receiver).seq = ((s.hoop m.receiver).seq + 1) % 2 ^ 32) ∧
  (∀ (s : State) (m : MsgHdr) (k : Fin 16384) (op : Fin 2) (v : W32), (s.lk m.link).mode = .up → m.dseq.toNat = (s.session (s.lk m.link).peer).rxDseq → s.domainOn .compute = true →
    s.pm.mode = .active → bit (s.reg (R.LK_HOOP_MAP m.link m.receiver)) (16 + m.sender) = false → completes (.knotSig m k op v) s fun t =>
      t.knots = s.knots ∧ t.reg (R.LK_IN_REFUSED m.link) = satAdd (s.reg (R.LK_IN_REFUSED m.link)) 1)) ∧
  ((∀ (s : State) (p : Fin 4) (n : Nat), s.peerLink p = some n → s.upLink p = some n →
    (completesThen (.peerNewSession p) s (fun u => (u.newKey n).startMoves.settled) fun u =>
      u.session p = { Session.dflt with lostSince := (s.session p).lostSince } ∧ (u.lk n).sessionNew = true) ∧
    (s.remotes = [] → completesThen (.peerNewSession p) s (fun u => (u.newKey n).startMoves.settled) fun u =>
      u.reg (R.LK_LOST_MSGS n) = satAdd (s.reg (R.LK_LOST_MSGS n)) (s.session p).unacked.length)) ∧
  (∀ (s : State) (p : Fin 4) (c n : Nat), (s.session p).lostSince = some c → s.peerLink p = some n →
    (s.count < c + (s.force (R.LK_DOWN_HOLD n)).toNat → completes (.peerUnreachableTimeout p) s fun t => t = s) ∧
    (c + (s.force (R.LK_DOWN_HOLD n)).toNat ≤ s.count → completesThen (.peerUnreachableTimeout p) s (fun u => u.startMoves.settled) fun u =>
      ∀ f ∈ u.flights, ¬ (f.cmd.opcode = 4 ∧ f.cmd.knotRemote = true ∧ f.cmd.knotPeer = p.val) ∧ ∀ r ∈ s.remotes, r.cmd = f.id → r.peer = p.val → r.role ≠ .pushInit ∧ r.role ≠ .returnInit)))

/-! ## The eyelet island -/

/-- R450, R471, R472, R473: a PDM line that goes out of bounds is STUCK and counted until it recovers; a TDM port that loses its clock is LOST and counted
until it locks. The mute switch clears the ring, takes every detector to IDLE, is counted and stamped, and stays until it is released; kept records
stay. A software mute is stored; a clear takes the frames of the channels named and of no other. -/
def Obligations.IslandInputsAndMutes : Prop :=
  (∀ (s : State) (l : Fin 16), s.islandOn = true →
    (bit (s.reg R.PDM_STATUS) l = false → completes (.pdmLineStuck l) s fun t => bit (t.reg R.PDM_STATUS) l = true ∧ t.reg R.PDM_STUCK_COUNT = satAdd (s.reg R.PDM_STUCK_COUNT) 1) ∧
    (completes (.pdmLineRecover l) s fun t => bit (t.reg R.PDM_STATUS) l = false ∧ ∀ j < 16, j ≠ l.val → bit (t.reg R.PDM_STATUS) j = bit (s.reg R.PDM_STATUS) j)) ∧
  (∀ (s : State) (p : Fin 4) (counts : Bool),
    (fld (s.reg (R.TDM_STATUS p)) 0 2 = 1 → completes (.tdmPortLost p counts) s fun t => t.reg (R.TDM_STATUS p) = 2 ∧ t.reg (R.TDM_LOST_COUNT p) = satAdd (s.reg (R.TDM_LOST_COUNT p)) 1) ∧
    (bit (s.reg (R.TDM_CTRL p)) 0 = true → completes (.tdmPortLocked p) s fun t => t.reg (R.TDM_STATUS p) = 1) ∧
    (bit (s.reg (R.TDM_CTRL p)) 0 = false → completes (.tdmPortLocked p) s fun t => t = s)) ∧
  (∀ s : State, s.domainOn .aon = true →
    (s.island.hwMuted = false → completes .hwMuteAssert s fun t => t.island.hwMuted = true ∧ t.island.clearing = true ∧ (∀ c < 16, (t.chan c).frames = []) ∧
      (∀ g d, (t.det g d).st = 0) ∧ t.island.kept = s.island.kept ∧ t.reg R.MUTE_COUNT = satAdd (s.reg R.MUTE_COUNT) 1 ∧
      t.reg R.MUTE_STAMP_LO = w32 (s.count % 2 ^ 32) ∧ t.reg R.MUTE_STAMP_HI = w32 (s.count / 2 ^ 32)) ∧
    (completes .hwMuteRelease s fun t => t.island.hwMuted = false ∧ t.island.chans = s.island.chans ∧ t.regs = s.regs)) ∧
  (∀ s : State, completes .ringClearComplete s fun t => t.island = { s.island with clearing := false }) ∧
  (∀ (s : State) (f : Fin 16) (v : W32),
    (s.reaches f R.ISL_SW_MUTE = true → completes (.islSwMuteWrite f v) s fun t => t.reg R.ISL_SW_MUTE = w32 (v.toNat % 2 ^ 17) ∧ t.island.kept = s.island.kept ∧ t.island.hwMuted = s.island.hwMuted ∧ ∀ c < 16, (t.chan c).frames.length = (s.chan c).frames.length) ∧
    (s.reaches f R.ISL_CLEAR = true → completes (.islClear f v) s fun t => ∀ c < 16, (t.chan c).frames = if bit v c then [] else (s.chan c).frames))

/-- R451, R452, R454, R455, R456, R458: the ring is divided, and cleared, only while the island's engines are off; a channel's source is changed only
while no enabled group uses it; a group is enabled where its channels share a clock and the ring has them. A ring frame begins at the position now
with the channel's next number; a muted or gap frame decodes to zeros. The decoder of a coded run ends at the value that the encoder carries. A
segment whose samples are there is made an object and given to the head that waits for it. -/
def Obligations.RingGroupsAndSegments : Prop :=
  (∀ (s : State) (f : Fin 16) (v : W32), s.reaches f R.RING_NCH = true →
    (bit (s.reg R.ISL_CTRL) 0 = false → completes (.ringNchWrite f v) s fun t => t.reg R.RING_NCH = w32 (clamp 1 16 v.toNat) ∧
      t.reg R.RING_FRAMES = w32 (11397 / (clamp 1 16 v.toNat)) ∧ ∀ c < 16, (t.chan c).frames = []) ∧
    (bit (s.reg R.ISL_CTRL) 0 = true → completes (.ringNchWrite f v) s fun t => t.reg R.RING_NCH = s.reg R.RING_NCH ∧ t.island = s.island)) ∧
  (∀ (s : State) (f c : Fin 16) (v : W32), s.reaches f (R.RCH c) = true →
    let x := applyLimit (.fields [(0,2,0,2), (4,4,0,15), (8,4,0,15), (16,5,0,30), (24,1,0,1), (28,4,0,15)]) v
    let on := fun (y : W32) => fld y 0 2 ≠ 0 ∧ s.grpOn (fld y 28 4) = true
    (¬ on (s.reg (R.RCH c)) → ¬ on x → completes (.rchWrite f c v) s fun t => t.reg (R.RCH c) = x) ∧
    (on (s.reg (R.RCH c)) ∨ on x → completes (.rchWrite f c v) s fun t => t.reg (R.RCH c) = s.reg (R.RCH c))) ∧
  (∀ (s : State) (f g : Fin 16) (v : W32), s.reaches f (R.GRP_CTRL g) = true → s.grpOn g = false →
    (s.grpOk g = true → completes (.groupEnable f g v) s fun t => t.grpOn g = true ∧ (∀ d < 3, t.det g d = Det.dflt)) ∧
    (s.grpOk g = false → completes (.groupEnable f g v) s fun t => t.grpOn g = false ∧ bit (t.reg R.ISL_STATUS) 10 = true)) ∧
  (∀ (s : State) (c : Fin 16) (words : List W32), words.length = 512 → s.islandOn = true → bit (s.reg R.ISL_CTRL) 0 = true → fld (s.reg (R.RCH c)) 0 2 ≠ 0 →
    s.grpOn (fld (s.reg (R.RCH c)) 28 4) = true → c < (s.reg R.RING_NCH).toNat → 0 < (s.reg R.RING_FRAMES).toNat → completes (.ringFrame c words) s fun t =>
      (t.chan c).frames.length ≤ (s.reg R.RING_FRAMES).toNat ∧ (t.chan c).fseq = ((s.chan c).fseq + 1) % 65536 ∧
      ∃ x, (t.chan c).frames.getLast? = some x ∧ x.pos = s.pos ∧ x.fseq = (s.chan c).fseq ∧ (s.chanMuted c = true ∨ s.chanGap c = true → x.samples = List.replicate 512 0)) ∧
  (∀ (p : Int) (i : Nat) (xs : List Int), (filetDecode p i (filetEncode p i xs).1).getLastD p = (filetEncode p i xs).2.1) ∧
  (∀ (s : State) (h : Fin 16) (q : Fin 64) (slot : Fin 8) (c : Cmd) (g i : Nat), (s.cq h q).head = some c → c.hoop = h.val → c.cq = q.val → slot.val ∈ s.segSlots c →
    (∀ e ∈ (s.cq h q).segs, e.1 ≠ slot.val) → s.segGroup c = some g → s.island.clearing = false →
    let start := c.slot slot + c.slot (slot + 1 : Nat) * 2 ^ 32
    let stop := c.slot (slot + 2 : Nat) + c.slot (slot + 3 : Nat) * 2 ^ 32
    s.reachedFirst (65536 * stop) = true →
    let made := s.segBytes g start stop (s.segMinKib c slot)
    (s.segReached g stop = false → s.segWaitOver g = false → completesThen (.segmentReady h q slot) s (·.startMoves.settled) fun u => u = s) ∧
    ((s.segReached g stop = true ∨ s.segWaitOver g = true) → s.roomFor h 2 0 (4096 * ceilDiv made.1 4096 + 8 * ceilDiv made.1 4096) = true → s.freeIndex h = some i →
      completesThen (.segmentReady h q slot) s (·.startMoves.settled) fun u => (u.cq h q).segs = (s.cq h q).segs ++ [(slot.val, oKey h i)] ∧ (u.obj (oKey h i)).kind = 6 ∧ (u.obj (oKey h i)).homed = true ∧ (u.obj (oKey h i)).size = made.1 ∧
        (u.obj (oKey h i)).data = made.2 ∧ u.reg R.SEG_COUNT = satAdd (s.reg R.SEG_COUNT) 1))

/-- R462, R463, R465, R467, R481: a hop of an enabled group is remembered with its position and energy, the newest first, before its detectors score it. A
detector that is IDLE and scores at least ARM, but not FIRE, arms, or falls back where its score is below the hysteresis; at FIRE it fires until the
refractory time is over and its score is low. A model is loaded, or stopped, at once where no group listens and at their next hop boundaries
otherwise; bad loads name their reason. -/
def Obligations.DetectorsAndModels : Prop :=
  (∀ (s : State) (g : Fin 16) (chans : List (List (BitVec 16))), (∀ l ∈ chans, l.length = 160) → s.islandOn = true → s.grpOn g = true →
    (∀ d < 2, (s.model d).next = none ∧ (s.model d).unload = false) →
      completesThen (.detectorHop g chans) s (fun u => ((List.range 3).filter fun d => bit (s.reg (R.GRP_CTRL g)) (12 + d)).foldl (fun s d => s.hopDet g d) u) fun u =>
        (u.group g).hops.head? = some ⟨s.pos - s.sampleSpan 159, hopEnergy (s.mixHop g chans), s.isOnset (s.group g).hops (hopEnergy (s.mixHop g chans))⟩ ∧
        (u.group g).hops.length ≤ 300 ∧ (u.group g).mix.length ≤ 24400 ∧ u.regs = s.regs ∧ u.island.dets = s.island.dets) ∧
  (∀ (s : State) (g d : Nat),
    let y := s.det g d
    let score := s.detScore g d (s.group g)
    let v := fun (a : Nat) => fp32 (s.reg a)
    let t := s.hopDet g d
    let low := (v (R.DET_ARM d)).sub (v (R.DET_HYST d))
    (t.det g d).score = score ∧
    (y.st = 0 → (v (R.DET_ARM d)).le (fp32 score) = false → (t.det g d).st = 0) ∧
    (y.st = 0 → (v (R.DET_ARM d)).le (fp32 score) = true → (v (R.DET_FIRE d)).le (fp32 score) = false → (t.det g d).st = if (fp32 score).lt low then 0 else 1) ∧
    (y.st ≠ 2 → (v (R.DET_ARM d)).le (fp32 score) = true → (v (R.DET_FIRE d)).le (fp32 score) = true → (t.det g d).st = 2 ∧
      (t.det g d).refractoryEnd = s.pos + 65536 * (s.reg (R.DET_REFRACTORY d)).toNat) ∧
    (y.st = 2 → (t.det g d).st = if y.refractoryEnd ≤ s.pos ∧ (fp32 score).lt low = true then 0 else 2)) ∧
  (∀ (s : State) (f : Fin 16), s.accepts f R.MODEL_CMD = true → bit (s.reg R.MODEL_RESULT) 0 = true →
    let d := (s.reg R.MODEL_DET).toNat
    let answers := fun (t : State) (n : Nat) => t.reg R.MODEL_RESULT = w32 (1 + 16 * n)
    (2 ≤ d → ∀ c ∈ [Instr.modelLoad f, .modelUnload f], completes c s fun t => answers t 4 ∧ t.island = s.island) ∧
    (d < 2 →
      (s.islandOn = true → s.liveGroups ≠ [] → completes (.modelUnload f) s fun t => t.reg R.MODEL_RESULT = 0 ∧ (t.model d).unload = true ∧ (t.model d).loaded = (s.model d).loaded) ∧
      (s.liveGroups = [] → (s.model d).next = none → completes (.modelUnload f) s fun t => answers t 0 ∧ (t.model d).loaded = false) ∧
      (s.domainOn .compute = false → completes (.modelLoad f) s fun t => answers t 5 ∧ t.island = s.island) ∧
      (s.domainOn .compute = true →
        (s.resolve 0 (s.reg R.MODEL_HANDLE).toNat = none → completes (.modelLoad f) s fun t => answers t 1 ∧ t.island = s.island) ∧
        (∀ k, s.resolve 0 (s.reg R.MODEL_HANDLE).toNat = some k →
          let o := s.obj k
          let good := o.homed = true ∧ o.allValid = true ∧ modelOk o.data o.size d = true
          let size := rdAt o.data 12 4
          let room := (if d = 0 then 320 else 96) * 1024
          (¬ good → completes (.modelLoad f) s fun t => answers t 2 ∧ t.island = s.island) ∧
          (good → room < size → completes (.modelLoad f) s fun t => answers t 3 ∧ t.island = s.island) ∧
          (good → size ≤ room → s.islandOn = true → s.liveGroups ≠ [] → completes (.modelLoad f) s fun t => t.reg R.MODEL_RESULT = 0 ∧
            (t.model d).next = some (o.data.filter fun e => decide (e.1 < size)) ∧ (t.model d).image = (s.model d).image) ∧
          (good → size ≤ room → s.liveGroups = [] → completes (.modelLoad f) s fun t => answers t 0 ∧ (t.model d).loaded = true ∧
            (t.model d).image = (o.data.filter fun e => decide (e.1 < size)) ∧ (t.model d).buf = !(s.model d).buf)))))

/-! ## Camera pipelines -/

/-- R483, R486, R487, R492, R493, R500, R501: packets of a bound channel on a port that receives. A bad header only counts. A frame start applies the
pending set, numbers the frame and takes room for it, or drops it with its reason; a line is added, in or out of the window, with its errors noted;
the frame end, or a frame timeout, ends the frame; an ended frame commits its objects and is counted, or is dropped for want of a table entry. -/
def Obligations.CameraFrames : Prop :=
  (∀ (s : State) (port vc : Fin 16) (hdr : Fin 3) (csi : BitVec 16) (n : Nat), s.portOn port = true →
    let s0 := if hdr = 1 then s.addReg (R.HDR_ECC_CORR port) 1 else s
    (hdr = 2 → completes (.csiFrameStart port vc hdr csi) s fun t => t.pipes = s.pipes ∧ t.reg (R.HDR_ECC_DROP port) = satAdd (s.reg (R.HDR_ECC_DROP port)) 1) ∧
    (hdr ≠ 2 → s0.fedBy port vc = some n → s.isOn .pipeline n = true → (s.pipe n).frame = none →
      let s1 := (s0.applySet n).setPipe n { (s0.applySet n).pipe n with starts := ((s0.applySet n).pipe n).starts + 1, blank := false }
      let x := s1.pipe n
      let outs := s1.outsOf n x.set ++ s1.tapsOf n x.set
      let own := s1.pipeOwner n
      (64 ≤ x.ended.length + b2n x.mem.isSome → completes (.csiFrameStart port vc hdr csi) s fun t => (t.pipe n).frame = none ∧ t.reg (R.LAST_DROP n) = 4) ∧
      (x.ended.length + b2n x.mem.isSome < 64 → s1.roomFor own 2 0 (outsBytes outs) = false → completes (.csiFrameStart port vc hdr csi) s fun t =>
        t.reg (R.LAST_DROP n) = 2) ∧
      (x.ended.length + b2n x.mem.isSome < 64 → s1.roomFor own 2 0 (outsBytes outs) = true → s1.freeEntries own < outs.length → completes (.csiFrameStart port vc hdr csi) s fun t =>
        (t.pipe n).frame = none ∧ t.reg (R.LAST_DROP n) = 3) ∧
      (x.ended.length + b2n x.mem.isSome < 64 → s1.roomFor own 2 0 (outsBytes outs) = true → outs.length ≤ s1.freeEntries own → completes (.csiFrameStart port vc hdr csi) s fun t =>
        ∃ f, (t.pipe n).frame = some f ∧ f.fseq = x.starts ∧ f.csi = csi.toNat ∧ f.fs = s.pos ∧ f.received = 0 ∧ f.lines = [] ∧ f.set = (match (s.pipe n).next with | some y => y | none => (s.pipe n).set)))) ∧
  (∀ (s : State) (port vc : Fin 16) (dt : Byte) (pixels : List (BitVec 16)) (occ : Fin 196609) (n ty : Nat) (f : CamFrame), s.portOn port = true → pixels.length ≤ 65535 →
    s.fedBy port vc = some n → (s.pipe n).frame = some f → rawType dt.toNat = some ty →
    let g := s.inSet f.set
    let size := g (R.FMT_SIZE n)
    let org := g (R.FMT_ORIGIN n)
    let inside := hi14 org ≤ f.received ∧ f.received < hi14 org + hi14 size
    (fld (g (R.FMT_CTRL n)) 0 3 ≠ ty → completes (.csiLine port vc 0 dt true pixels occ) s fun t => (t.pipe n).frame = some { f with lastAt := s.now } ∧ t.reg (R.PORT_DT_DROPS port) = satAdd (s.reg (R.PORT_DT_DROPS port)) 1) ∧
    (fld (g (R.FMT_CTRL n)) 0 3 = ty → f.received < hi14 (g (R.FMT_SRC n)) →
      (¬ inside → completes (.csiLine port vc 0 dt true pixels occ) s fun t => ∃ f', (t.pipe n).frame = some f' ∧ f'.received = f.received + 1 ∧ f'.lines = f.lines ∧ f'.lastAt = s.now) ∧
      (inside → occ.val + lo14 size ≤ fifoPixels (lo14 size) → pixels.length = lo14 (g (R.FMT_SRC n)) → lo14 org + lo14 size ≤ pixels.length →
        completes (.csiLine port vc 0 dt true pixels occ) s fun t => ∃ f', (t.pipe n).frame = some f' ∧ f'.received = f.received + 1 ∧ f'.flags = f.flags ∧ f'.errs = f.errs ∧
          ∃ line, f'.lines = f.lines ++ [line] ∧ line.length = lo14 size ∧
            ∀ x < lo14 size, ∀ v, (pixels.drop (lo14 org + x)).head? = some v → (line.drop x).head? = some (v.toNat % 2 ^ (8 + 2 * ty) * 2 ^ (16 - (8 + 2 * ty)))) ∧
      (inside → fifoPixels (lo14 size) < occ.val + lo14 size → completes (.csiLine port vc 0 dt true pixels occ) s fun t => (t.pipe n).frame = none ∧ t.reg (R.LAST_DROP n) = 1))) ∧
  (∀ (s : State) (n : Nat) (f : CamFrame), (s.pipe n).frame = some f →
    let ends := fun (t : State) => (t.pipe n).frame = none ∧ ∃ x, (t.pipe n).ended = (s.pipe n).ended ++ [x] ∧ x.fseq = f.fseq ∧ x.fe = s.pos ∧
      x.lines.length = max f.lines.length (hi14 (s.inSet f.set (R.FMT_SIZE n)))
    (∀ port vc : Fin 16, s.portOn port = true → s.fedBy port vc = some n → completes (.csiFrameEnd port vc 0) s ends) ∧
    (∀ hn : n < 16, f.lastAt + 1000 * (s.reg (R.FRAME_TIMEOUT n)).toNat ≤ s.now → completes (.frameTimeout ⟨n, hn⟩) s ends) ∧
    (∀ hn : n < 16, s.now < f.lastAt + 1000 * (s.reg (R.FRAME_TIMEOUT n)).toNat → completes (.frameTimeout ⟨n, hn⟩) s fun t => t = s)) ∧
  (∀ (s : State) (n : Fin 16) (f : CamFrame) (rest : List CamFrame), (s.pipe n).ended = f :: rest →
    let outs := s.outsOf n f.set ++ s.tapsOf n f.set
    let dropped := completes (.frameCommit n) s fun t => (t.pipe n).ended = rest ∧ t.objs = s.objs ∧ t.reg (R.FRAMES_DROPPED n) = satAdd (s.reg (R.FRAMES_DROPPED n)) 1 ∧ t.reg (R.LAST_DROP n) = 3
    let done := completesThen (.frameCommit n) s (fun u => ((u.askFrame n).blanking n).startMoves.settled) fun u => (u.pipe n).ended = rest ∧ (u.pipe n).dropped = 0 ∧ u.reg (R.FSEQ n) = w32 f.fseq
    (dropped ∨ done) ∧ (outs = [] → done) ∧ (outs ≠ [] → s.freeIndex (s.pipeOwner n) = none → dropped))

/-- R485, R492, R504, R505, R506, R507: the commands of a pipeline's page. BIND answers its reason or binds the channel; UNBIND releases it and drops the
frame in progress; MEM_RUN takes a raw frame, or answers BUSY or BAD_OBJECT, and does nothing on a pipeline that is not ON; MEM_ABORT ends the job
KILLED; a job whose object is gone ends with its reason, and one with nothing to write is done and numbered; a valid shadow set pends, and an invalid
one only shows APPLY_ERR. -/
def Obligations.CameraPageCommands : Prop :=
  ∀ (s : State) (f n : Fin 16),
    let answers := fun (t : State) (k : Nat) => t.reg (R.PIPE_RESULT n) = w32 (1 + 16 * k)
    (s.reaches f (R.PIPE_CMD n) = true →
      (s.bindResult n ≠ 0 → completes (.bind f n) s fun t => answers t (s.bindResult n) ∧ t.reg (R.PIPE_BOUND n) = s.reg (R.PIPE_BOUND n) ∧ t.pipes = s.pipes) ∧
      (s.bindResult n = 0 → completesThen (.bind f n) s (·.askFrame n) fun u =>
          answers u 0 ∧ u.reg (R.PIPE_BOUND n) = w32 (fld (s.reg (R.PIPE_ARG n)) 0 4 + 256 * fld (s.reg (R.PIPE_ARG n)) 8 4 + 4096) ∧ (u.pipe n).starts = 0) ∧
      (completes (.unbind f n) s fun t => answers t 0 ∧ bit (t.reg (R.PIPE_BOUND n)) 12 = false ∧ (t.pipe n).frame = none ∧ (t.pipe n).ended = [] ∧ (t.pipe n).mem = none) ∧
      (s.live .pipeline n = false → completes (.memRun f n) s fun t => answers t 1 ∧ t.pipes = s.pipes) ∧
      (s.live .pipeline n = true → s.isOn .pipeline n = false → completes (.memRun f n) s fun t => t = s) ∧
      (s.live .pipeline n = true → s.isOn .pipeline n = true → (s.pipe n).mem ≠ none → completes (.memRun f n) s fun t => answers t 8 ∧ t.pipes = s.pipes) ∧
      (s.live .pipeline n = true → s.isOn .pipeline n = true → (s.pipe n).mem = none →
        (s.resolve (s.pipeOwner n) (s.reg (R.PIPE_ARG n)).toNat = none → completes (.memRun f n) s fun t => answers t 9 ∧ t.pipes = s.pipes) ∧
        (∀ k, s.resolve (s.pipeOwner n) (s.reg (R.PIPE_ARG n)).toNat = some k →
          (s.memOk k = false → completes (.memRun f n) s fun t => answers t 9 ∧ t.pipes = s.pipes) ∧
          (s.memOk k = true → completes (.memRun f n) s fun t => answers t 0 ∧ t.reg (R.MEM_RESULT n) = 0 ∧ ∃ j, (t.pipe n).mem = some j ∧ j.obj = k ∧ j.start = s.pos))) ∧
      (completes (.memAbort f n) s fun t => answers t 0 ∧ (t.pipe n).mem = none ∧ ((s.pipe n).mem ≠ none → t.reg (R.MEM_RESULT n) = w32 (1 + 16 * 3)))) ∧
    (∀ j, (s.pipe n).mem = some j → s.memTurn n = true → (s.pipe n).ended.length < 64 →
      (s.resolve (s.pipeOwner n) j.handle ≠ some j.obj → completes (.memJobCommit n) s fun t => (t.pipe n).mem = none ∧ t.reg (R.MEM_RESULT n) = w32 (1 + 16 * 1)) ∧
      (s.resolve (s.pipeOwner n) j.handle = some j.obj → (s.obj j.obj).homed = true → (s.obj j.obj).allValid = true → s.outsOf n j.set = [] → s.roomFor (s.pipeOwner n) 2 0 0 = true →
        completesThen (.memJobCommit n) s (·.startMoves.settled) fun u => (u.pipe n).mem = none ∧ u.reg (R.MEM_RESULT n) = 1 ∧ u.reg (R.MEM_SEQ n) = w32 ((s.reg (R.MEM_SEQ n)).toNat + 1))) ∧
    (s.reaches f (R.PIPE_APPLY n) = true →
      (s.setValid n (s.shadow n) = true → completes (.pipeApply f n) s fun t => (t.pipe n).next = some (s.shadow n) ∧ (t.pipe n).set = (s.pipe n).set) ∧
      (s.setValid n (s.shadow n) = false → completes (.pipeApply f n) s fun t => t.pipes = s.pipes ∧ bit (t.reg (R.PIPE_STATUS n)) 5 = true))

/-! ## The root of trust -/

/-- R526, R527, R528, R529: of a package that no earlier command of its queue still writes and whose header and manifest read well, a SEAL_LOAD that fails
a check ends with CMD_OPERAND and is counted for its hoop; one whose package opens and whose room is reserved begins complete, with its new objects
and its package, and leaves the head. -/
def Obligations.SealedPackagesOpen : Prop :=
  ∀ (s : State) (h : Fin 16) (q : Fin 64) (host : List Byte) (c : Cmd), s.headOp h q 10 = some c → s.ctxGone c = false → c.hoop = h.val → c.cq = q.val → s.locAbsent c.slTier c.slLoc false = false →
    let p := s.resolve h c.slPackage
    let t := s.resolve h c.slTable
    let s0 := match p with | some k => if (s.obj k).tier = 4 ∧ host ≠ [] then s.modObj k (fun o => { o with data := msetList 0 [] 0 host }) else s | none => s
    let read := ∀ pk, p = some pk → (∀ g ∈ s.flights, g.cmd.hoop = h.val → g.cmd.cq = q.val → ∀ w ∈ g.outs, w.obj ≠ pk) ∧
      ((s0.obj pk).tier = 4 ∨ (s0.obj pk).homed = false ∨ (s0.obj pk).sealHeadBad = none)
    read → (s0.sealReason c p t ≠ 0 → (∀ f ∈ s.flights, f.cmd ≠ c) → completesThen (.sealLoad h q host) s State.settled fun u =>
      u.reg (R.SEAL_FAIL_COUNT h) = satAdd (s.reg (R.SEAL_FAIL_COUNT h)) 1 ∧ u.reg (R.CMD_FAULT_COUNT h) = satAdd (s.reg (R.CMD_FAULT_COUNT h)) 1 ∧ (u.cq h q).head = none) ∧
    (∀ pk tk s1 ck plain, p = some pk → t = some tk → s0.sealReason c p t = 0 → c.slTier = 2 →
      let o := s0.obj pk
      let needs := (o.sealEntries.map fun e => (c.slTier, c.slLoc, 4096 * ceilDiv e.size 4096)) ++ [(2, (s.obj tk).loc, s.outBytes tk)]
      (o.tier = 4 ∨ o.badTile = none) → (∀ e ∈ needs, e.2.2 ≤ s.poolCap e.1 h) → o.sealEntries.length ≤ s.freeEntries h → s.moving tk = false → s.reserve c needs = (s1, true) →
      Config.keyUnwrap (Config.kek (o.rdList 80 97) o.sealId) (o.rdList 184 40) = some ck → o.openAll ck o.sealEntries.zipIdx = some plain →
        completesThen (.sealLoad h q host) s State.settled fun u => (u.cq h q).head = none ∧
          ∃ f ∈ u.flights, f.cmd = c ∧ f.done = true ∧ ∃ x d, f.package = some (x, d) ∧ x.id = o.sealId ∧ x.nobj = o.sealEntries.length)

/-- R516, R518, R525, R533, R536, R541, R543, R545: the mailbox of a root of trust in OPERATIONAL, while DONE is 1: page 0's commands are refused to the
other pages; a report and the chain go into an object that holds them; EXTEND extends the hoop's measurement register; a challenge is fresh and serves
one attempt at CO_AUTH, three of which in a row that fail are held off; the Crypto Officer's key is enrolled, an SVN advanced, and every key
destroyed, only as R516, R525 and R543 allow. -/
def Obligations.MailboxCommands : Prop :=
  (∀ (s : State) (f h : Fin 16) (host : List Byte), s.accepts f (R.MB_CMD h) = true → bit (s.reg (R.MB_RESULT h)) 0 = true → s.rot.mode = .operational →
    let answers := fun (t : State) (n : Nat) => t.reg (R.MB_RESULT h) = w32 (1 + 16 * n)
    (h ≠ 0 → ∀ c ∈ [Instr.coChallenge f h, .coAuth f h host, .coLogout f h, .enrollCo f h host, .advanceSvn f h, .zeroise f h], completes c s fun t => answers t 3 ∧ t.rot = s.rot) ∧
    (s.mbObject h = none → ∀ c ∈ [Instr.attest f h, .getChain f h], completes c s fun t => answers t 1 ∧ t.objs = s.objs) ∧
    (∀ k, s.mbObject h = some k →
      let r := s.report h ((List.range 12).flatMap fun i => toBytes 4 (s.mbArg h (1 + i)))
      (r.length ≤ (s.obj k).size → completes (.attest f h) s fun t => answers t 0 ∧ (t.obj k).rdList 0 r.length = r ∧ t.reg (R.MB_OUT h 0) = w32 r.length ∧
        t.reg (R.ATTEST_COUNT h) = satAdd (s.reg (R.ATTEST_COUNT h)) 1) ∧
      ((s.obj k).size < r.length → completes (.attest f h) s fun t => answers t 5 ∧ t.objs = s.objs) ∧
      (s.chain.length ≤ (s.obj k).size → completes (.getChain f h) s fun t => answers t 0 ∧ (t.obj k).rdList 0 s.chain.length = s.chain)) ∧
    (completes (.extend f h) s fun t => answers t 0 ∧ (t.hoopSec h).extends_ = (s.hoopSec h).extends_ + 1 ∧
      (t.hoopSec h).mr = Config.sha384 (toBytes 48 (s.hoopSec h).mr ++ toBytes 48 (ofBytes 384 ((List.range 12).flatMap fun i => toBytes 4 (s.mbArg h i))))) ∧
    (completes (.selfTest f h true) s fun t => answers t 0 ∧ t.rot = s.rot) ∧ (completes (.selfTest f h false) s fun t => answers t 4)) ∧
  (∀ (s : State) (f : Fin 16) (host : List Byte), s.accepts f (R.MB_CMD 0) = true → bit (s.reg (R.MB_RESULT 0)) 0 = true → s.rot.mode = .operational →
    let answers := fun (t : State) (n : Nat) => t.reg (R.MB_RESULT 0) = w32 (1 + 16 * n)
    (completes (.coChallenge f 0) s fun t => answers t 0 ∧ t.rot.challenge = some (Config.drbg (s.rot.drbg + 1)) ∧ t.rot.drbg = s.rot.drbg + 1 ∧
      ∀ i < 12, t.reg (R.MB_OUT 0 i) = w32 (fld (Config.drbg (s.rot.drbg + 1)) (32 * i) 32)) ∧
    (s.coHeld = true → completes (.coAuth f 0 host) s fun t => answers t 3 ∧ t.rot = s.rot) ∧
    (∀ k, s.coHeld = false → s.mbObject 0 = some k → 96 ≤ (s.obj k).size →
      (∀ key v, s.rot.coKey = some key → s.rot.challenge = some v →
        Config.ecdsaVerify key (s.mbBytes k 96 host) (toBytes 48 (Config.sha384 (toBytes 48 v ++ toBytes 48 Config.deviceId))) = true → completes (.coAuth f 0 host) s fun t =>
          answers t 0 ∧ t.rot.coAuth = some s.now ∧ t.rot.coFails = 0 ∧ t.rot.challenge = none) ∧
      ((s.rot.coKey = none ∨ s.rot.challenge = none) → completes (.coAuth f 0 host) s fun t => answers t 6 ∧ t.rot.coAuth = s.rot.coAuth ∧
        (s.rot.coFails = 2 → t.rot.coHold = some s.now ∧ t.rot.coFails = 0) ∧ (s.rot.coFails < 2 → t.rot.coFails = s.rot.coFails + 1))) ∧
    (completes (.coLogout f 0) s fun t => answers t 0 ∧ t.rot = { s.rot with coAuth := none }) ∧
    (s.rot.coKey ≠ none → s.coOn = false → completes (.enrollCo f 0 host) s fun t => answers t 3 ∧ t.rot = s.rot) ∧
    (∀ k, (s.rot.coKey = none ∨ s.coOn = true) → s.mbObject 0 = some k → 97 ≤ (s.obj k).size → completes (.enrollCo f 0 host) s fun t =>
      answers t 0 ∧ t.rot = { s.rot with coKey := some (s.mbBytes k 97 host) }) ∧
    (s.coOn = false → ∀ c ∈ [Instr.advanceSvn f 0, .zeroise f 0], completes c s fun t => answers t 3 ∧ t.rot = s.rot) ∧
    (s.coOn = true →
      let a := s.mbArg 0 0
      let c := fld a 0 8
      let n := fld a 8 8
      let lo := if c = 1 then 8 else 16
      (∀ i, fld a 16 16 = 0 → 1 ≤ c → c ≤ 6 → mget none s.rot.running c = some i → fld s.rot.fuse lo 8 ≤ n → n ≤ i.svn → completes (.advanceSvn f 0) s fun t =>
        answers t 0 ∧ fld t.rot.fuse lo 8 = n) ∧
      (∀ i, fld a 16 16 = 0 → 1 ≤ c → c ≤ 6 → mget none s.rot.running c = some i → (n < fld s.rot.fuse lo 8 ∨ i.svn < n) → completes (.advanceSvn f 0) s fun t =>
        answers t 7 ∧ t.rot = s.rot) ∧
      (a.toNat ≠ 0x5A45524F → completes (.zeroise f 0) s fun t => answers t 2 ∧ t.rot = s.rot) ∧
      (a.toNat = 0x5A45524F → completes (.zeroise f 0) s fun t => answers t 0 ∧ t.rot.coKey = none ∧ t.rot.sealCert = false ∧ t.rot.zeroised = true)))

/-- R516, R532, R535, R541, R542: an entropy failure takes OPERATIONAL to SOFT_ERROR, three passes in a row take it back, and 10 s of it become
CRITICAL_ERROR, which drops the Crypto Officer and the volatile keys; an authentication ends 3,600 s after it began and a hold-off after 60 s; IDCODE
reads out the code of R616; under the debug lock a TAP instruction beyond the three allowed ones becomes BYPASS. -/
def Obligations.ErrorStatesAndTheTap : Prop :=
  (∀ s : State, s.rot.mode = .operational → completes .entropyTestFail s fun t => t.rot.mode = .softError ∧ t.rot.softSince = s.now ∧ t.rot.retests = 0) ∧
  (∀ s : State, s.rot.mode = .softError →
    (completes (.entropyRetest false) s fun t => t.rot.mode = .softError ∧ t.rot.retests = 0) ∧
    (s.rot.retests < 2 → completes (.entropyRetest true) s fun t => t.rot.mode = .softError ∧ t.rot.retests = s.rot.retests + 1) ∧
    (2 ≤ s.rot.retests → completes (.entropyRetest true) s fun t => t.rot.mode = .operational ∧ t.rot.retests = 0) ∧
    (s.now < s.rot.softSince + 10000000000 → completes .softErrorTimeout s fun t => t = s) ∧
    (s.rot.softSince + 10000000000 ≤ s.now → completesThen .softErrorTimeout s (fun u => u.startMoves.settled) fun u =>
      u.rot.mode = .criticalError ∧ u.rot.coAuth = none ∧ u.rot.challenge = none ∧ u.rot.ide = [] ∧ u.rot.session = 0)) ∧
  (∀ s : State,
    (s.coOn = false → completes .coAuthExpiry s fun t => t.rot.coAuth = none) ∧ (s.coOn = true → completes .coAuthExpiry s fun t => t = s) ∧
    (s.coHeld = false → completes .coAuthHoldoffEnd s fun t => t.rot.coHold = none) ∧ (s.coHeld = true → completes .coAuthHoldoffEnd s fun t => t = s)) ∧
  (∀ (s : State) (k : Fin 4), s.domainOn .ioMain = false → completes (.jtagInstruction k) s fun t => t = s) ∧
  (∀ (s : State) (k : Fin 4), s.domainOn .ioMain = true →
    (k ≠ 3 → completes (.jtagInstruction k) s fun t => t.rot = { s.rot with jtag := k.val } ∧ t.regs = s.regs ∧ (k = 1 → t.readData = s.devPart / 2 ^ 16 % 16 * 2 ^ 28 + 0x04D3274F)) ∧
    (s.debugLock = false → completes (.jtagInstruction 3) s fun t => t.rot.jtag = 3 ∧ t.rot.debugUsed = true) ∧
    (s.debugLock = true → completes (.jtagInstruction 3) s fun t => t.rot.jtag = 0 ∧ t.rot.debugUsed = s.rot.debugUsed))

/-- R116, R518, R537: the SPDM responder of an I/O die that is up answers each request, and in SELF_TEST and CRITICAL_ERROR answers an error; KEY_EXCHANGE
begins a session, a verified FINISH completes it, END_SESSION ends it and its IDE keys; KEY_PROG keys a stream only inside a session and for an
authenticated Crypto Officer, at most 16 besides stream 0, the link's (that stream 0 is the link's, and the error beyond 16, are the model's choice,
log entry 102). -/
def Obligations.SpdmRequests : Prop :=
  ∀ (s : State) (nonce : BitVec 256) (pub : List Byte) (stream : Byte), s.domainOn .ioMain = true →
    let gives := fun (t : State) (a : SpdmAnswer) => t.rot.answer = a
    ((s.rot.mode = .selfTest ∨ s.rot.mode = .criticalError) →
      ∀ c ∈ [Instr.getVersion, .getCapabilities, .negotiateAlgorithms, .getDigests, .getCertificate, .challenge nonce, .getMeasurements, .keyExchange pub, .finish true, .endSession, .keyProg stream],
        completes c s fun t => t.rot = { s.rot with answer := .error }) ∧
    (s.rot.mode = .operational →
      (completes .getVersion s fun t => gives t .version) ∧ (completes .getCapabilities s fun t => gives t .capabilities) ∧ (completes .negotiateAlgorithms s fun t => gives t .algorithms) ∧
      (completes .getDigests s fun t => gives t (.digests (Config.sha384 s.chain))) ∧ (completes .getCertificate s fun t => gives t (.certificate s.chain)) ∧
      (completes (.challenge nonce) s fun t => gives t (.challenge (Config.spdmSign (toBytes 32 nonce ++ toBytes 48 (Config.sha384 s.chain))))) ∧
      (completes .getMeasurements s fun t => gives t (.measurements s.fwEntries)) ∧
      (completes (.keyExchange pub) s fun t => t.rot.session = 1 ∧ t.rot.ide = [] ∧ t.rot.drbg = s.rot.drbg + 1 ∧
        gives t (.keyExchange (Config.spdmSign (pub ++ toBytes 48 (Config.drbg (s.rot.drbg + 1)))))) ∧
      (s.rot.session = 1 → completes (.finish true) s fun t => t.rot.session = 2 ∧ gives t .finish) ∧
      (completes (.finish false) s fun t => t.rot.session = s.rot.session ∧ gives t .error) ∧
      (s.rot.session = 2 → (completes .endSession s fun t => t.rot.session = 0 ∧ t.rot.ide = [] ∧ gives t .ended) ∧
        (s.coOn = false → completes (.keyProg stream) s fun t => gives t .unauthorised ∧ t.rot.ide = s.rot.ide) ∧
        (s.coOn = true →
          let selective := (s.rot.ide.filter fun x => decide (x ≠ 0)).length
          ((stream.toNat ∈ s.rot.ide ∨ stream.toNat = 0 ∨ selective < 16) → completes (.keyProg stream) s fun t =>
            gives t .keyed ∧ stream.toNat ∈ t.rot.ide ∧ ∀ x ∈ s.rot.ide, x ∈ t.rot.ide) ∧
          (stream.toNat ∉ s.rot.ide → stream.toNat ≠ 0 → 16 ≤ selective → completes (.keyProg stream) s fun t => gives t .error ∧ t.rot.ide = s.rot.ide))) ∧
      (s.rot.session ≠ 2 → (completes .endSession s fun t => gives t .error ∧ t.rot.session = s.rot.session) ∧ (completes (.keyProg stream) s fun t => gives t .error ∧ t.rot.ide = s.rot.ide)))

/-! ## Power states, wakes, levels and resets -/

/-- R556, R557, R558, R570, R579: a request for DOZE, LISTEN or OFF is refused with its first reason, or accepted: the device is ENTERING, and its work is
drained or killed. A drain that is over kills nothing but stops the queues; one that lasts too long, or a PME_Turn_Off that does not come, refuses the
request. The completed entry is OFF, DOZE or LISTEN, and the wakes that stand then act. -/
def Obligations.SleepRequestsAndEntry : Prop :=
  (∀ (s : State) (f : Fin 16) (work : Bool), s.domainOn .ioMain = true → s.accepts f R.PM_STATE_REQ = true →
    (∀ c target, (c, target) ∈ [(Instr.stateRequestDoze f work, 2), (.stateRequestListen f work, 3), (.stateRequestOff f work, 6)] →
      let s1 := (s.setRegFld R.PM_STATE_REQ 0 3 target).setRegFld R.PM_STATE_REQ 4 1 (b2n work)
      let r := s1.requestCheck target
      let entering := fun (u : State) => u.pm.mode = .entering ∧ u.pm.target = target ∧ u.pm.draining = work ∧ u.pm.reqAt = s.now ∧ u.reg R.PM_REQ_RESULT = 0
      (r ≠ 0 → completes c s fun t => t.reg R.PM_REQ_RESULT = w32 (1 + 16 * r) ∧ t.pm = s.pm) ∧
      (r = 0 → work = true → completes c s entering) ∧ (r = 0 → work = false → completesThen c s (fun u => u.pmKill.settled) entering)) ∧
    (completesThen (.stateRequestActive f work) s (·.wake 10) fun u => u.pm = s.pm ∧ fld (u.reg R.PM_STATE_REQ) 0 3 = 0)) ∧
  (∀ (s : State) (dt : W32), s.pm.mode = .entering →
    (s.pm.draining = true → s.flights = [] → completesThen .drainComplete s State.settled fun u => u.pm.killed = true ∧ u.pm.computeUp = false ∧ u.pm.draining = false ∧ u.flights = []) ∧
    (s.pm.draining = true → s.flights ≠ [] → completes .drainComplete s fun t => t = s) ∧
    (s.pm.draining = true → s.pm.reqAt + (s.force R.DRAIN_TIMEOUT_MS).toNat * 1000000 ≤ s.now → s.pm.exitFrom ≠ .doze → completes .drainTimeout s fun t =>
      t.reg R.PM_REQ_RESULT = w32 (1 + 16 * 5) ∧ t.pm.mode = .active) ∧
    (completes .pmeTurnOff s fun t => t.pm = { s.pm with pme := true }) ∧
    (s.pm.target ≠ 2 → s.pm.pme = false → s.pm.reqAt + 1000000000 ≤ s.now → s.pm.exitFrom ≠ .doze → completesThen .pmeTimeout s State.settled fun u =>
      u.reg R.PM_REQ_RESULT = w32 (1 + 16 * 8) ∧ u.pm.mode = .active) ∧
    (s.pm.killed = false → completes (.entryComplete dt) s fun t => t = s) ∧
    (s.pm.killed = true → s.pm.target = 6 → s.pm.pme = true → s.pm.wakes = [] → completes (.entryComplete dt) s fun t =>
      let took := max 1 dt.toNat + (if (unitsWhere (stopsFor 6)).any (fun e => decide (s.stOf e.1 e.2 = 1)) then 1 else 0)
      t.pm.mode = .off ∧ t.island = Island.dflt ∧ t.reg R.PM_REQ_RESULT = 1 ∧ t.now = s.now + took ∧ t.reg R.PM_ENTRY_US = w32 ((s.now + took - s.pm.reqAt) / 1000)) ∧
    (s.pm.killed = true → (s.pm.target = 2 ∨ (s.pm.target = 3 ∧ s.pm.pme = true)) → ∃ u : State, answersTime (.entryComplete dt) s ((s.pm.wakes ++ u.entryWakes).foldl (fun v w => v.wake w) u) ∧
      u.pm.mode = (if s.pm.target = 2 then .doze else .listen) ∧ u.pm.target = 0 ∧ u.pm.wakes = [] ∧ u.reg R.PM_REQ_RESULT = 1))

/-- R77, R548, R555, R561, R563, R566, R567: in LISTEN, a pricking's wake that is due and an enabled level wake start the exit, with their source; a
disabled pin's level only shows. A pin held asserted for STUCK × 100 ms while ACTIVE is STUCK until it has been deasserted for 20 ms. A power-good
that fails while its supply is powered is a warm reset with its cause. The completed exit is ACTIVE, the starts of its blocks having taken some time;
with nothing running or able to start the device is IDLE. -/
def Obligations.WakesAndExit : Prop :=
  (∀ s : State, s.pm.mode = .listen →
    (∀ t ∈ s.wakeTargets, t ≤ s.count → completes .prickingWake s fun u => u.pm.mode = .exiting ∧ u.pm.exitFrom = .listen ∧ fld (u.reg R.PM_WAKE_STATUS) 8 4 = 6) ∧
    ((∀ t ∈ s.wakeTargets, s.count < t) → completes .prickingWake s fun t => t = s) ∧
    (∀ (pin : Fin 4) (level : Bool),
      let c := s.reg R.PM_WAKE_CTRL
      (bit c (4 + pin) = false → completes (.wakeInEvent pin level) s fun t => t.pm = { s.pm with wakeAt := t.pm.wakeAt } ∧
        mget 0 t.pm.wakeAt pin = (if bit (s.reg R.PM_WAKE_STATUS) pin = level then mget 0 s.pm.wakeAt pin else s.now) ∧ bit (t.reg R.PM_WAKE_STATUS) pin = level) ∧
      (bit c (4 + pin) = true → bit c (8 + pin) = true → (level ^^ bit c (12 + pin)) = true → bit (s.reg R.PM_WAKE_STATUS) (4 + pin) = false → completes (.wakeInEvent pin level) s fun t =>
        t.pm.mode = .exiting ∧ t.pm.wakes = [2 + pin.val] ∧ fld (t.reg R.PM_WAKE_STATUS) 8 4 = 2 + pin.val))) ∧
  (∀ (s : State) (pin : Fin 4),
    (s.pm.mode = .active → max (mget 0 s.pm.wakeAt pin) s.pm.activeAt + fld (s.reg R.PM_WAKE_CTRL) 24 8 * 100000000 ≤ s.now → s.wakeInAsserted pin = true → bit (s.reg R.PM_WAKE_CTRL) (8 + pin) = true → bit (s.reg R.PM_WAKE_STATUS) (4 + pin) = false → completes (.wakeStuck pin) s fun t =>
      bit (t.reg R.PM_WAKE_STATUS) (4 + pin) = true ∧ t.reg R.WAKE_STUCK_COUNT = satAdd (s.reg R.WAKE_STUCK_COUNT) 1) ∧
    (s.wakeInAsserted pin = false → mget 0 s.pm.wakeAt pin + 20000000 ≤ s.now → completes (.wakeStuckClear pin) s fun t => bit (t.reg R.PM_WAKE_STATUS) (4 + pin) = false) ∧
    (s.wakeInAsserted pin = true ∨ s.now < mget 0 s.pm.wakeAt pin + 20000000 → completes (.wakeStuckClear pin) s fun t => t = s)) ∧
  (∀ (s : State) (pg : Fin 5),
    let reset := fun (t : State) => t.pm.mode = .boot ∧ t.reg R.RESET_CAUSE = 8 ∧ t.pm.computeUp = false
    (s.pm.mode = .boot ∨ s.pm.mode = .exiting → completes .powerGoodTimeout s reset) ∧ (s.pm.mode = .active → completes .powerGoodTimeout s fun t => t = s) ∧
    (s.pm.mode ≠ .off → s.supplyOn pg = true → completes (.powerGoodLost pg) s reset) ∧ (s.supplyOn pg = false → completes (.powerGoodLost pg) s fun t => t = s)) ∧
  (∀ (s : State) (dt : W32), s.pm.mode = .exiting → ∃ u v : State, answersTime (.exitComplete dt) s (dev (fun _ => (u.matchHoops.startMoves).settled) v) ∧
    v.now = s.now + max 1 dt.toNat ∧ u.reg R.PM_EXIT_US = w32 ((v.now - s.pm.exitAt) / 1000) ∧ u.pm.mode = .active ∧ u.pm.computeUp = true ∧ u.pm.marked = [] ∧ bit (u.reg R.DEV_STATUS) 2 = true) ∧
  (∀ s : State, s.pm.mode = .active → (∀ f ∈ s.flights, ∀ t ∈ f.streams, t.running = false) → (∀ m ∈ s.moves, ∀ r ∈ m.ranges, r.done = true ∨ r.shuttle = none) → (∀ n < 8, ∀ h < 16, s.hoopAble n h = false) → completes .idleEntry s fun t => t.pm = { s.pm with mode := .idle })

/-- R549, R550, R551, R552, R553: a cluster's target is stored and its level in force becomes the slowest of the target and the ceilings; the DRAM level
likewise. A measurement joins the trailing ones and its mean shows; above the cap the fastest cluster's ceiling falls by one level after 200 us. A
cluster at or above the soft limit is lowered after 1 ms, one more than 5 degrees below it raised after 10 ms. A trip drops everything to OFF with its
cause. -/
def Obligations.LevelsCapAndHeat : Prop :=
  (∀ (s : State) (f : Fin 16) (n : Fin 8) (v : W32),
    (s.reaches f (R.PL_TARGET n) = true → completes (.plTargetWrite f n v) s fun t => t.reg (R.PL_TARGET n) = applyLimit (.whole 0 7) v ∧ t.pm.inForce = s.pm.inForce) ∧
    (completes (.levelChangeDone n) s fun t => mget 0 t.pm.inForce n = max (s.plTarget n) (max (s.thermCeil n) (s.capCeil n)) ∧ t.regs = s.regs) ∧
    (s.reaches f R.PM_MEM_LEVEL = true → completes (.pmMemLevelWrite f v) s fun t => fld (t.reg R.PM_MEM_LEVEL) 0 2 = min 2 (fld v 0 2) ∧ t.pm = s.pm) ∧
    (completesThen .memLevelChangeDone s State.startMoves fun u => u.pm.memForce = min 2 (fld (s.reg R.PM_MEM_LEVEL) 0 2 + s.pm.memDown))) ∧
  (∀ (s : State) (mw : W32), s.pm.mode ≠ .off →
    let l := (mw.toNat :: s.pm.powers).take 100
    let avg := l.foldl (· + ·) 0 / l.length
    let cap := (s.reg R.PM_CAP_MW).toNat
    (completes (.powerMeasure mw) s fun t => t.pm.powers = l ∧ t.reg R.PM_POWER_MW = w32 avg) ∧
    (∀ n, 98 * cap < 100 * avg → s.pm.capAt + 200000 ≤ s.now → s.capNext = some n → completes (.powerMeasure mw) s fun t =>
      t.capCeil n = s.capCeil n + 1 ∧ t.pm.capDown = n :: s.pm.capDown ∧ t.pm.capAt = s.now ∧ t.pm.alert = true) ∧
    (95 * cap ≤ 100 * avg → 100 * avg ≤ 98 * cap → completes (.powerMeasure mw) s fun t => t.pm.capCeil = s.pm.capCeil)) ∧
  (∀ (s : State) (cl dr sk : List Byte) (n : Nat) (x : Byte), s.pm.mode ≠ .off → cl.length = 8 → dr.length = 6 → sk.length = 2 → cl[n]? = some x →
    let c := s.thermCeil n
    let last := mget 0 s.pm.thermAt n
    completes (.thermalStep cl dr sk) s fun t => mget 25 t.svc.temps n = x.toInt ∧
      t.thermCeil n = (if s.softTemp ≤ x.toInt ∧ last + 1000000 ≤ s.now ∧ c < 7 then c + 1 else if x.toInt < s.softTemp - 5 ∧ last + 10000000 ≤ s.now ∧ 0 < c then c - 1 else c)) ∧
  (∀ s : State, s.pm.mode ≠ .off → completes .thermalTrip s fun t => t.pm.mode = .off ∧ t.pm.tripped = true ∧ t.pm.alert = true ∧ t.reg R.RESET_CAUSE = 4 ∧ t.objs = s.objs)

/-- R524, R572, R573, R574, R614: a warm reset takes a device that is not OFF to boot with its cause; a cold reset leaves the machine as after power-on
but for the part, the catalogue, what is stored for good and the cause. Boot completes with a root-of-trust image whose SVN is accepted, and with none
the device stays in reset. A stopped SYSCLK holds the device, and its return is a cold reset, but after a thermal trip only PORST_N ends OFF; a
stopped AUDCLK makes every PDM line STUCK where a channel listens to one. -/
def Obligations.ResetsAndBoot : Prop :=
  (∀ (s : State) (f : Fin 16) (v : W32), s.pm.mode ≠ .off →
    let warm := fun (cause : Nat) (t : State) => t.pm.mode = .boot ∧ t.reg R.RESET_CAUSE = w32 cause ∧ t.pm.computeUp = false ∧ t.pm.marked = [] ∧ t.vfEnable = false
    (s.reaches f R.PM_RESET = true → bit v 0 = true → completes (.pmResetWarm f v) s (warm 7)) ∧ (completes .warmReset s (warm 6))) ∧
  (∀ s : State,
    let cold := fun (cause : Nat) (t : State) => t.reg R.RESET_CAUSE = w32 cause ∧ t.pm = State.reset.pm ∧ t.ts = State.reset.ts ∧ t.now = 0 ∧ t.objs = [] ∧ t.cqs = [] ∧ t.flights = [] ∧
      t.catalogue = s.catalogue ∧ t.part = s.part ∧ t.pending = s.pending ∧ t.rot.fuse = s.rot.fuse ∧ t.rot.coKey = s.rot.coKey
    (completes (.coldReset 0) s (cold 1)) ∧ (s.pm.tripped = false → completes (.coldReset 1) s (cold 2)) ∧ (s.pm.tripped = true → completes (.coldReset 1) s (cold 4)) ∧
    (completes (.coldReset 2) s (cold 5)) ∧ (s.pm.mode = .off → s.pm.tripped = false → s.pm.clockStopped = false → completes (.coldReset 3) s (cold 3)) ∧
    (s.pm.clockStopped = true → s.pm.tripped = false → completes .sysclkReturn s (cold 5)) ∧
    (s.pm.clockStopped = true → s.pm.tripped = true → completes .sysclkReturn s fun t => t.pm = { s.pm with clockStopped := false } ∧ t.regs = s.regs) ∧ (s.pm.clockStopped = false → completes .sysclkReturn s fun t => t = s) ∧
    (completes .sysclkStop s fun t => t.pm.mode = .off ∧ t.pm.clockStopped = true ∧ t.regs = s.regs)) ∧
  (∀ (s : State) (images : List (Fin 7 × Fin 4 × Byte × W64 × BitVec 384)) (dt : W32),
    let accepted := fun (e : Fin 7 × Fin 4 × Byte × W64 × BitVec 384) => s.svnOk e.1 e.2.2.1.toNat
    ((∀ e ∈ images, accepted e = true → e.1 ≠ 1) → completes (.bootComplete images dt) s fun t => t = s) ∧
    (s.pm.mode = .boot → (∃ e ∈ images, accepted e = true ∧ e.1 = 1) → ∃ u v : State, answersTime (.bootComplete images dt) s (dev (fun _ => (u.matchHoops.startMoves).settled) v) ∧
      v.now = s.now + max 1 dt.toNat ∧ u.pm.mode = .active ∧ u.pm.computeUp = true ∧ bit (u.reg R.DEV_STATUS) 2 = true ∧ mget none u.rot.running 1 ≠ none)) ∧
  (∀ s : State, s.islandOn = true →
    ((∃ c < 16, fld (s.reg (R.RCH c)) 0 2 = 1) → completes .audclkStop s fun t => ∀ l < 16, bit (t.reg R.PDM_STATUS) l = true) ∧
    ((∀ c < 16, fld (s.reg (R.RCH c)) 0 2 ≠ 1) → completes .audclkStop s fun t => t = s))

/-! ## Live update, dies and lanes, memory errors, telemetry, and the SMBus port -/

/-- R581, R582, R583: an image that does not verify is refused and a verified one is staged in slot B; an activation waits for the controller's safe
point, where the staged image starts its trial, or is given up after FW_SAFE_TIMEOUT_MS; a confirmed image moves to slot A, and a trial that is
reverted, misses its heartbeat or expires restarts the image of slot A with REVERTED set. -/
def Obligations.FirmwareUpdates : Prop :=
  (∀ (s : State) (f : Fin 16), s.accepts f R.SVC_CMD = true → bit (s.reg R.SVC_RESULT) 0 = true →
    let answers := fun (r : Nat) (t : State) => t.reg R.SVC_RESULT = w32 (1 + 16 * r)
    let c := (s.svcArg 0).toNat
    let stages := 1 ≤ c ∧ c ≤ 6 ∧ (c = 5 → 2 ≤ s.part.ioDies) ∧ (c = 1 → s.coOn = true)
    (∀ (v : Option (Fin 7 × Byte × W64)) (host : List Byte),
      (s.fwPhase ≠ 0 → completes (.fwStage f v host) s fun t => answers 1 t ∧ t.rot = s.rot) ∧
      (s.fwPhase = 0 → (c = 0 ∨ 6 < c) → completes (.fwStage f v host) s fun t => answers 10 t ∧ t.rot = s.rot) ∧
      (s.fwPhase = 0 → stages → s.resolve 0 (s.svcArg 1).toNat = none → completes (.fwStage f v host) s fun t => answers 2 t ∧ t.rot = s.rot) ∧
      (∀ k, s.fwPhase = 0 → stages → s.resolve 0 (s.svcArg 1).toNat = some k → (s.obj k).kind = 0 → (s.obj k).homed = true → ((s.obj k).tier = 2 ∨ (s.obj k).tier = 4) →
        (v = none → completes (.fwStage f v host) s fun t => answers 3 t ∧ t.rot = s.rot) ∧
        (∀ e, v = some e → e.1.val = c → s.svnOk c e.2.1.toNat = true → completes (.fwStage f v host) s fun t =>
          answers 0 t ∧ t.fwPhase = 1 ∧ t.fwCtl = c ∧ t.svc.slotB = some c ∧ ∃ i, mget none t.rot.slots (c * 4 + 1) = some i ∧ i.svn = e.2.1.toNat))) ∧
    (2 ≤ s.fwPhase → completes (.fwActivate f) s fun t => answers 1 t ∧ t.svc = s.svc) ∧
    (s.fwPhase < 2 → s.svc.slotB = none → completes (.fwActivate f) s fun t => answers 4 t ∧ t.svc = s.svc) ∧
    (∀ b, s.fwPhase < 2 → s.svc.slotB = some b → b ≤ 6 → (b = 1 → s.coOn = true) → (s.pm.mode = .active ∨ s.pm.mode = .idle) → completes (.fwActivate f) s fun t =>
      t.fwPhase = 2 ∧ t.fwCtl = b ∧ t.reg R.SVC_RESULT = 0 ∧ t.svc.activateAt = s.now) ∧
    (s.fwPhase ≠ 3 → (completes (.fwConfirm f) s fun t => answers 5 t ∧ t.rot = s.rot) ∧ (completes (.fwRevert f) s fun t => answers 5 t ∧ t.rot = s.rot)) ∧
    (∀ i, s.fwPhase = 3 → mget none s.rot.running s.fwCtl = some i → completes (.fwConfirm f) s fun t =>
      answers 0 t ∧ t.fwPhase = 0 ∧ t.svc.slotB = none ∧ mget none t.rot.running s.fwCtl = some { i with slot := 0 } ∧ mget none t.rot.slots (s.fwCtl * 4) = some { i with slot := 0 }) ∧
    (∀ i, s.fwPhase = 3 → s.fwCtl ≠ 1 → mget none s.rot.slots (s.fwCtl * 4) = some i → completes (.fwRevert f) s fun t =>
      answers 0 t ∧ t.fwPhase = 0 ∧ bit (t.reg R.FW_STATUS) 8 = true ∧ mget none t.rot.running s.fwCtl = some i ∧ t.svc = s.svc)) ∧
  (∀ s : State,
    (s.fwPhase = 2 → s.safePoint s.fwCtl = false → completes .fwSafePoint s fun t => t = s) ∧
    (∀ i, s.fwPhase = 2 → s.safePoint s.fwCtl = true → mget none s.rot.slots (s.fwCtl * 4 + 1) = some i → completes .fwSafePoint s fun t =>
      t.fwPhase = 3 ∧ t.reg R.SVC_RESULT = 1) ∧
    (let due := s.svc.activateAt + (s.force R.FW_SAFE_TIMEOUT_MS).toNat * 1000000;
      (s.fwPhase = 2 → due ≤ s.now → completes .fwSafeTimeout s fun t => t.fwPhase = 1 ∧ t.reg R.SVC_RESULT = w32 (1 + 16 * 6) ∧ t.rot = s.rot) ∧
      (s.now < due → completes .fwSafeTimeout s fun t => t = s)) ∧
    (s.fwPhase ≠ 3 → (completes .heartbeatMissed s fun t => t = s) ∧ (completes .trialExpiry s fun t => t = s)) ∧
    (s.fwPhase = 3 → s.now < s.svc.trialAt + (s.force R.TRIAL_MS).toNat * 1000000 → completes .trialExpiry s fun t => t = s) ∧
    (s.fwPhase = 3 → s.fwCtl = 1 → s.pm.mode ≠ .off → completes .heartbeatMissed s fun t => t.pm.mode = .boot ∧ t.reg R.RESET_CAUSE = 7) ∧
    (∀ i, s.fwPhase = 3 → s.fwCtl ≠ 1 → mget none s.rot.slots (s.fwCtl * 4) = some i →
      (completes .heartbeatMissed s fun t => t.fwPhase = 0 ∧ bit (t.reg R.FW_STATUS) 8 = true ∧ mget none t.rot.running s.fwCtl = some i ∧ t.reg R.SVC_RESULT = s.reg R.SVC_RESULT) ∧
      (s.svc.trialAt + (s.force R.TRIAL_MS).toNat * 1000000 ≤ s.now → sameEffect .heartbeatMissed .trialExpiry s)))

/-- R589, R590, R592, R593, R594: a die is taken out of service where what is held fits the rest, and comes back when its check passes, and while its data
is copied both are BUSY; a link's lanes are taken out and put back; a corrected error of a core's memory is counted for the core and its type, and
sets CE_LIMIT at the limit; an uncorrectable one poisons its tile, or, while a move reads the tile, what that move writes; a patrol that finds nothing
changes nothing of its own. -/
def Obligations.RepairsAndErrors : Prop :=
  (∀ (s : State) (f : Fin 16), s.accepts f R.SVC_CMD = true → bit (s.reg R.SVC_RESULT) 0 = true →
    let answers := fun (r : Nat) (t : State) => t.reg R.SVC_RESULT = w32 (1 + 16 * r)
    (∀ (bad : List (Fin 16 × Fin 1048576 × Nat)),
      (s.svcDie = none → completes (.dieFence f bad) s fun t => answers 10 t ∧ t.skeins = s.skeins) ∧
      (∀ n d, s.svcDie = some (n, d) → (s.sk n).dieCopy ≠ none → completes (.dieFence f bad) s fun t => answers 1 t ∧ t.skeins = s.skeins ∧ t.objs = s.objs) ∧
      (∀ n d, s.svcDie = some (n, d) → (s.sk n).dieCopy = none → d ∉ (s.sk n).fencedDies → (1024 - 64 * ((s.sk n).fencedDies.length + 1)) * 2 ^ 30 < s.skHeld n + s.skPreserved n →
        completes (.dieFence f bad) s fun t => answers 9 t ∧ t.skeins = s.skeins ∧ t.objs = s.objs) ∧
      (∀ n d, s.svcDie = some (n, d) → (s.sk n).dieCopy = none → d ∉ (s.sk n).fencedDies → s.skHeld n + s.skPreserved n ≤ (1024 - 64 * ((s.sk n).fencedDies.length + 1)) * 2 ^ 30 →
        completes (.dieFence f bad) s fun t => answers 0 t ∧ (t.sk n).fencedDies = (s.sk n).fencedDies ++ [d] ∧ (t.sk n).dieCopy = some d ∧ (bad = [] → t.objs = s.objs))) ∧
    (s.svcDie = none → completes (.dieReturn f true) s fun t => answers 10 t ∧ t.skeins = s.skeins) ∧
    (∀ n d, s.svcDie = some (n, d) → (s.sk n).dieCopy ≠ none → completes (.dieReturn f true) s fun t => answers 1 t ∧ t.skeins = s.skeins) ∧
    (∀ n d, s.svcDie = some (n, d) → (s.sk n).dieCopy = none → d ∈ (s.sk n).fencedDies → (completesThen (.dieReturn f true) s State.startMoves fun u => answers 0 u ∧ (u.sk n).fencedDies = (s.sk n).fencedDies.filter (· ≠ d)) ∧
      (completes (.dieReturn f false) s fun t => t.skeins = s.skeins ∧ bit (t.reg R.SVC_RESULT) 0 = true)) ∧
    (s.svcLanes = none → sameEffect (.laneFence f) (.laneReturn f) s) ∧
    (∀ n m, s.svcLanes = some (n, m) → (s.lk n).mode ≠ .up → (s.lk n).mode ≠ .standby →
      (completes (.laneFence f) s fun t => answers 0 t ∧ t.lk n = { s.lk n with lanesOut := (s.lk n).lanesOut ||| m }) ∧
      (completes (.laneReturn f) s fun t => answers 0 t ∧ t.lk n = { s.lk n with lanesOut := (BitVec.ofNat 8 (s.lk n).lanesOut &&& ~~~(BitVec.ofNat 8 m)).toNat })) ∧
    (∀ n m, s.svcLanes = some (n, m) → (s.lk n).mode = .standby →
      (completes (.laneFence f) s fun t => answers 0 t ∧ (t.lk n).mode = .training ∧ t.reg (R.LK_RETRAIN_COUNT n) = satAdd (s.reg (R.LK_RETRAIN_COUNT n)) 1))) ∧
  (∀ (s : State) (page : Fin 16384) (i : Nat) (row : Fin 4294967296), headerAt page = some (.core, i) → present s.part .core i = true → s.domainOn (blkRow .core).domain = true →
    (let l := lastHour s.now (mget [] s.svc.errors (sourceId .core i)) ++ [s.now];
      let limit := (s.force (R.RAS_CE_LIMIT 0)).toNat;
      let counted := fun (u : State) => u.reg (R.SRAM_ECC_CORR i) = satAdd (s.reg (R.SRAM_ECC_CORR i)) 1 ∧ u.reg (R.RAS_CE 0) = satAdd (s.reg (R.RAS_CE 0)) 1 ∧ u.objs = s.objs;
      ((limit = 0 ∨ l.length < limit) → completesThen (.eccError page true row none none) s State.settled fun u => counted u ∧ u.reg R.RAS_STATUS = s.reg R.RAS_STATUS) ∧
      (limit ≠ 0 → limit ≤ l.length → bit (s.force R.RAS_AUTO_FENCE) 0 = false → completesThen (.eccError page true row none none) s State.settled fun u =>
        counted u ∧ bit (u.reg R.RAS_STATUS) 0 = true ∧ u.reg R.RAS_LAST_UNIT = w32 (sourceId .core i)) ∧
      sameEffect (.eccError page true row none none) (.sramPatrol [page]) s) ∧
    (∀ (h : Fin 16) (k : Fin 1048576) (n : Nat), (s.obj (oKey h k)).used = true → n < (s.obj (oKey h k)).ntiles →
      let read := ∃ m ∈ s.moves, m.obj = oKey h k ∧ m.started = true
      (¬ read → completes (.eccError page false row (some (h, k, n)) none) s fun t => ((t.obj (oKey h k)).tile n).st = .poisoned ∧ t.regs = s.regs) ∧
      (read → completes (.eccError page false row (some (h, k, n)) none) s fun t => t.objs = s.objs ∧ ∀ m ∈ t.moves, m.obj = oKey h k → m.started = true → n ∈ m.bad))) ∧
  (∀ s : State, completesThen (.sramPatrol []) s State.settled fun u => u = s)

/-- R596, R615: a snapshot is counted and shown unless the page is frozen, which a read of TEL_SEQ_LO does until TEL_SEQ_HI is read. The SMBus commands
return the registers they name, and, in OFF, all but two return ones; an alert response reads the device's address while the alert is asserted, and
the alert goes when no limit holds. -/
def Obligations.TelemetryAndSmbus : Prop :=
  (∀ s : State, s.domainOn .aon = true →
    (s.svc.frozen = false → completes .telemetrySnapshot s fun t => t.svc.snaps = s.svc.snaps + 1 ∧ t.svc.latest = s.snapshot ∧ t.svc.drawn = [] ∧
      t.reg R.TEL_SEQ_LO = w32 ((s.svc.snaps + 1) % 2 ^ 32) ∧ t.reg R.TEL_SEQ_HI = w32 ((s.svc.snaps + 1) / 2 ^ 32) ∧ t.reg R.TEL_POWER_MW = s.reg R.PM_POWER_MW) ∧
    (s.svc.frozen = true → completes .telemetrySnapshot s fun t => t.svc.snaps = s.svc.snaps + 1 ∧ t.svc.frozen = true ∧ t.regs = s.regs) ∧
    (completes (.telSeqLoRead 0) s fun t => t.svc.frozen = true ∧ t.regs = s.regs) ∧
    (s.svc.frozen = false → completes (.telSeqHiRead 0) s fun t => t.svc = s.svc ∧ t.regs = s.regs) ∧
    (s.svc.frozen = true → completes (.telSeqHiRead 0) s fun t => t.svc.frozen = false ∧
      t.reg R.TEL_SEQ_LO = w32 (s.svc.snaps % 2 ^ 32) ∧ t.reg R.TEL_SEQ_HI = w32 (s.svc.snaps / 2 ^ 32))) ∧
  (∀ s : State,
    let address := if s.pm.alert = true then w32 s.part.smbAddress else s.svc.smb
    (∀ c v, (c, v) ∈ [(Instr.smbReadPmStatus, s.pmStatus), (.smbReadPmTemp, s.pmTemp), (.smbReadPmPower, (s.reg R.PM_POWER_MW).toNat), (.smbReadDevStatus, s.devStatus)] →
      completes c s fun t => t = { s with svc := { s.svc with smb := if s.pm.mode = .off then 0xFFFFFFFF else w32 v } }) ∧
    (∀ c v, (c, v) ∈ [(Instr.smbReadResetCause, (s.reg R.RESET_CAUSE).toNat), (.smbReadDevPart, s.devPart)] →
      completes c s fun t => t = { s with svc := { s.svc with smb := w32 v } }) ∧
    (s.capLimited = false → s.thermLimited = false → completes .smbAlertResponse s fun t => t = { s with svc := { s.svc with smb := address }, pm := { s.pm with alert := false } }) ∧
    (s.capLimited = true ∨ s.thermLimited = true → completes .smbAlertResponse s fun t => t = { s with svc := { s.svc with smb := address } }))

/-- R24, R79, R128, R166, R403, R573: what reset leaves: the free-running clock at position 0, RESET_CAUSE POR, no hoop but hoop 0 ready, no queue
running, and no object, allocation, rule, knot or waiting command, with the stores in their canonical form. The reset values that the model chose (the
part, and the registers without one in the manual) are no part of this statement. -/
def Obligations.ResetLeavesNothing : Prop :=
  let s := State.reset
  s.pos = 0 ∧ s.ts.mode = .free ∧ s.tsSrc = 0 ∧ s.reg R.RESET_CAUSE = 1 ∧ (s.hoop 0).phase = .ready ∧ (∀ h, h ≠ 0 → (s.hoop h).phase ≠ .ready) ∧
  (∀ h q, (s.cq h q).mode ≠ .running) ∧ (∀ k, (s.obj k).used = false) ∧ s.allocs = [] ∧ s.flights = [] ∧ s.moves = [] ∧ s.rules = [] ∧ (∀ h k, s.knot h k = 0) ∧
  (∀ n, (s.lk n).mode = .down) ∧ s.pending = [] ∧ s.canonical = true

end Sys2ProofObligations
end

