-- ==== Sys2Proof/Laws/Bits.lean ====
section
/-! SUPPORT. Bit fields: what a field reads after it, or another field beside it, is written (R12). -/

namespace Sys2Proof.Machine

/-- A number is its part above a field, the field, and its part below. -/
theorem split_field (n lo len : Nat) : n = n / 2 ^ (lo + len) * 2 ^ (lo + len) + n / 2 ^ lo % 2 ^ len * 2 ^ lo + n % 2 ^ lo := by
  have h1 := Nat.div_add_mod n (2 ^ lo)
  have h2 := Nat.div_add_mod (n / 2 ^ lo) (2 ^ len)
  rw [Nat.div_div_eq_div_mul] at h2
  rw [pow_add]
  calc n = 2 ^ lo * (n / 2 ^ lo) + n % 2 ^ lo := h1.symm
    _ = 2 ^ lo * (2 ^ len * (n / (2 ^ lo * 2 ^ len)) + n / 2 ^ lo % 2 ^ len) + n % 2 ^ lo := by rw [h2]
    _ = _ := by ring

/-- A field is smaller than its size. -/
theorem fld_lt {w : Nat} (v : BitVec w) (lo len : Nat) : fld v lo len < 2 ^ len := Nat.mod_lt _ (by positivity)

/-- A word with one field replaced, as a number. -/
theorem setFld_toNat {w : Nat} (v : BitVec w) (lo len x : Nat) (h : lo + len ≤ w) :
    (setFld v lo len x).toNat = v.toNat / 2 ^ (lo + len) * 2 ^ (lo + len) + x % 2 ^ len * 2 ^ lo + v.toNat % 2 ^ lo := by
  have hs := split_field v.toNat lo len
  have hx : x % 2 ^ len < 2 ^ len := Nat.mod_lt _ (by positivity)
  have hr : v.toNat % 2 ^ lo < 2 ^ lo := Nat.mod_lt _ (by positivity)
  have hw : v.toNat / 2 ^ (lo + len) < 2 ^ (w - (lo + len)) := by
    rw [Nat.div_lt_iff_lt_mul (by positivity), ← pow_add, Nat.sub_add_cancel h]; exact v.isLt
  have hlt : v.toNat / 2 ^ (lo + len) * 2 ^ (lo + len) + x % 2 ^ len * 2 ^ lo + v.toNat % 2 ^ lo < 2 ^ w := by
    have e1 : (2 : Nat) ^ w = 2 ^ (w - (lo + len)) * 2 ^ (lo + len) := by rw [← pow_add, Nat.sub_add_cancel h]
    have e2 : (v.toNat / 2 ^ (lo + len) + 1) * 2 ^ (lo + len) ≤ 2 ^ (w - (lo + len)) * 2 ^ (lo + len) := Nat.mul_le_mul_right _ hw
    have e3 : (x % 2 ^ len + 1) * 2 ^ lo ≤ 2 ^ len * 2 ^ lo := Nat.mul_le_mul_right _ hx
    have e4 : (2 : Nat) ^ (lo + len) = 2 ^ len * 2 ^ lo := by rw [pow_add, Nat.mul_comm]
    rw [e1]; nlinarith
  have hf : fld v lo len = v.toNat / 2 ^ lo % 2 ^ len := rfl
  have hsub : v.toNat - fld v lo len * 2 ^ lo + x % 2 ^ len * 2 ^ lo =
      v.toNat / 2 ^ (lo + len) * 2 ^ (lo + len) + x % 2 ^ len * 2 ^ lo + v.toNat % 2 ^ lo := by
    rw [hf]; omega
  rw [setFld, BitVec.toNat_ofNat, hsub, Nat.mod_eq_of_lt hlt]

/-- A field reads as what was written to it. -/
theorem fld_setFld_same {w : Nat} (v : BitVec w) (lo len x : Nat) (h : lo + len ≤ w) : fld (setFld v lo len x) lo len = x % 2 ^ len := by
  have hr : v.toNat % 2 ^ lo < 2 ^ lo := Nat.mod_lt _ (by positivity)
  have e : v.toNat / 2 ^ (lo + len) * 2 ^ (lo + len) + x % 2 ^ len * 2 ^ lo + v.toNat % 2 ^ lo =
      v.toNat % 2 ^ lo + 2 ^ lo * (x % 2 ^ len + 2 ^ len * (v.toNat / 2 ^ (lo + len))) := by rw [pow_add]; ring
  rw [fld, setFld_toNat v lo len x h, e, Nat.add_mul_div_left _ _ (by positivity), Nat.div_eq_of_lt hr, Nat.zero_add,
    Nat.add_mul_mod_self_left, Nat.mod_mod]

/-- A field below the one written stays. -/
theorem fld_setFld_below {w : Nat} (v : BitVec w) (lo len x lo' len' : Nat) (h : lo + len ≤ w) (hb : lo' + len' ≤ lo) :
    fld (setFld v lo len x) lo' len' = fld v lo' len' := by
  have key : ∀ n : Nat, n / 2 ^ lo' % 2 ^ len' = n % 2 ^ lo / 2 ^ lo' % 2 ^ len' := by
    intro n
    have e : (2 : Nat) ^ lo = 2 ^ lo' * (2 ^ len' * 2 ^ (lo - (lo' + len'))) := by
      rw [← pow_add, ← pow_add]; congr 1; omega
    conv_lhs => rw [← Nat.div_add_mod n (2 ^ lo)]
    rw [e, Nat.mul_assoc, Nat.mul_add_div (by positivity), Nat.mul_assoc, Nat.mul_add_mod]
  have hm : (setFld v lo len x).toNat % 2 ^ lo = v.toNat % 2 ^ lo := by
    rw [setFld_toNat v lo len x h, pow_add]
    have e : v.toNat / (2 ^ lo * 2 ^ len) * (2 ^ lo * 2 ^ len) + x % 2 ^ len * 2 ^ lo + v.toNat % 2 ^ lo =
        v.toNat % 2 ^ lo + 2 ^ lo * (x % 2 ^ len + 2 ^ len * (v.toNat / (2 ^ lo * 2 ^ len))) := by ring
    rw [e, Nat.add_mul_mod_self_left, Nat.mod_mod]
  rw [fld, key, hm, ← key]; rfl

/-- A field above the one written stays. -/
theorem fld_setFld_above {w : Nat} (v : BitVec w) (lo len x lo' len' : Nat) (h : lo + len ≤ w) (ha : lo + len ≤ lo') :
    fld (setFld v lo len x) lo' len' = fld v lo' len' := by
  have hd : (setFld v lo len x).toNat / 2 ^ (lo + len) = v.toNat / 2 ^ (lo + len) := by
    rw [setFld_toNat v lo len x h]
    have hx : x % 2 ^ len < 2 ^ len := Nat.mod_lt _ (by positivity)
    have hr : v.toNat % 2 ^ lo < 2 ^ lo := Nat.mod_lt _ (by positivity)
    have hl : x % 2 ^ len * 2 ^ lo + v.toNat % 2 ^ lo < 2 ^ (lo + len) := by
      have : (x % 2 ^ len + 1) * 2 ^ lo ≤ 2 ^ len * 2 ^ lo := Nat.mul_le_mul_right _ hx
      rw [pow_add, Nat.mul_comm (2 ^ lo)]; nlinarith
    rw [Nat.add_assoc, Nat.mul_comm, Nat.mul_add_div (by positivity), Nat.div_eq_of_lt hl, Nat.add_zero]
  have key : ∀ n : Nat, n / 2 ^ lo' = n / 2 ^ (lo + len) / 2 ^ (lo' - (lo + len)) := by
    intro n; rw [Nat.div_div_eq_div_mul, ← pow_add]; congr 2; omega
  rw [fld, fld, key, hd, ← key]

/-- A bit is a field of one bit. -/
theorem bit_eq_fld {w : Nat} (v : BitVec w) (i : Nat) : bit v i = decide (fld v i 1 = 1) := by
  simp only [bit, fld, BitVec.getLsbD, Nat.testBit_eq_decide_div_mod_eq, pow_one]

/-- A bit reads as what was written to it. -/
theorem bit_setFld_same {w : Nat} (v : BitVec w) (i x : Nat) (h : i < w) : bit (setFld v i 1 x) i = decide (x % 2 = 1) := by
  rw [bit_eq_fld, fld_setFld_same v i 1 x (by omega), pow_one]

/-- Another bit stays. -/
theorem bit_setFld_ne {w : Nat} (v : BitVec w) (lo len x i : Nat) (h : lo + len ≤ w) (hn : i < lo ∨ lo + len ≤ i) :
    bit (setFld v lo len x) i = bit v i := by
  rcases hn with hn | hn
  · rw [bit_eq_fld, bit_eq_fld, fld_setFld_below v lo len x i 1 h (by omega)]
  · rw [bit_eq_fld, bit_eq_fld, fld_setFld_above v lo len x i 1 h hn]

end Sys2Proof.Machine
end

