-- ==== Sys2Proof/Machine/Package.lean ====
section
/-! DEFINITION. The package (R546, R554, R571, R603 to R610, R613): its supplies and their enables, the map of its balls, the places of
the DRAM stacks, the clocks it takes, and what its outputs do while their domain is off. -/

namespace Sys2Proof.Machine

/-! ## Supplies (R546, R554, R609) -/

/-- The regulator enables of the power manager. -/
inductive Enable where
  | core | sram | io | hbm | flash
  deriving DecidableEq, Repr

/-- The supplies of the balls (R546), and ground. -/
inductive Supply where
  | vss | vddCore | vddSram | vddIod | vddAon | vddioAon | vddio33 | vddio18 | vddaPcie | vddaLink | vddaCsi | vddaPll | vddHbm | vddqHbm | vppHbm
  | vccFlash | vccqFlash
  deriving DecidableEq, Repr

/-- The enable that switches a supply; none for one that is always on (R546). -/
def Supply.enable : Supply → Option Enable
  | .vss | .vddAon | .vddioAon | .vddio33 => none
  | .vddCore => some .core
  | .vddSram => some .sram
  | .vddIod | .vddio18 | .vddaPcie | .vddaLink | .vddaCsi | .vddaPll => some .io
  | .vddHbm | .vddqHbm | .vppHbm => some .hbm
  | .vccFlash | .vccqFlash => some .flash

/-- Lowest and highest nominal voltage in mV (R546). [DESIGN CHOICE, log entry 98] -/
def Supply.nominalMv : Supply → Nat × Nat
  | .vss => (0, 0)
  | .vddCore => (750, 950)
  | .vddSram => (800, 800)
  | .vddIod | .vddAon => (750, 750)
  | .vddioAon | .vddio18 | .vddaPll | .vppHbm => (1800, 1800)
  | .vddio33 => (3300, 3300)
  | .vddaPcie | .vddaLink => (850, 850)
  | .vddaCsi | .vccqFlash => (1200, 1200)
  | .vddHbm => (1100, 1100)
  | .vddqHbm => (400, 400)
  | .vccFlash => (2500, 2500)

/-- Largest current in mA (R609); ground has none of its own. -/
def Supply.maxMa : Supply → Nat
  | .vss => 0
  | .vddCore => 210000
  | .vddSram => 40000
  | .vddIod => 55000
  | .vddHbm => 105000
  | .vddqHbm => 70000
  | .vppHbm => 6000
  | .vccFlash => 5000
  | .vccqFlash => 3000
  | .vddaLink => 12000
  | .vddaPcie => 4000
  | .vddaCsi => 2000
  | .vddaPll => 500
  | .vddAon => 200
  | .vddio18 => 300
  | .vddioAon => 100
  | .vddio33 => 50

/-- Voltage of a performance level in mV (R549). -/
def levelMv (l : Nat) : Nat := ([850, 800, 750, 700, 650, 620, 580] : List Nat).getD l 550

/-- What the power manager sets VDD_CORE to, in mV: 100 mV above the highest voltage of any cluster's level in force, and at least
750 mV (R546). -/
def State.vddCoreMv (s : State) : Nat := max 750 (100 + (List.range 8).foldl (fun v n => max v (levelMv (mget 0 s.pm.inForce n))) 0)

/-- Does the power manager hold an enable high (R554)? During an exit and a boot every enable rises (R563, R574). [DESIGN CHOICE, log entry 98] -/
def State.venHigh (s : State) (e : Enable) : Bool :=
  let doze := match e with
    | .core => false
    | .sram => decide (s.reg R.PM_GB_RETAIN ≠ 0)
    | _ => true
  match s.pm.mode with
  | .off => false
  | .listen => decide (e = .hbm) && !s.pm.dramOff
  | .doze => doze
  | .entering => decide (s.pm.exitFrom ≠ .doze) || doze
  | _ => true

/-! ## Outputs whose domain is off (R571, R612) -/

/-- The output groups of R571. -/
inductive OutGroup where
  | enables | avs | pdmClk | micPower | muteInd | xspiCs | xspiClk | i3c | camControl | lanes | wakeLogic
  deriving DecidableEq, Repr

/-- Does a group float: the AON ones in OFF, those of I/O main in LISTEN and OFF, the wake logic's never (R571)? -/
def State.floats (s : State) : OutGroup → Bool
  | .i3c | .camControl | .lanes => !s.domainOn .ioMain
  | .wakeLogic => false
  | _ => decide (s.pm.mode = .off)

/-! ## Clocks (R613) -/

/-- The clock inputs: kHz and tolerance in ppm. -/
structure ClockIn where
  name : String
  khz : Nat
  ppm : Nat
  deriving DecidableEq, Repr

def clockIns : List ClockIn := [⟨"REFCLK", 100000, 300⟩, ⟨"SYSCLK", 25000, 20⟩, ⟨"AUDCLK", 24576, 50⟩]

/-! ## The balls (R603 to R608) -/

/-- The row letters, in order (R603). -/
def rowLetters : List String := ["A", "B", "C", "D", "E", "F", "G", "H", "J", "K", "L", "M", "N", "P", "T", "U", "V", "W", "Y"]

/-- The name of the row of index 1 to 73 (R603). -/
def rowName (r : Nat) : String := ["", "A", "B", "C"].getD ((r - 1) / 19) "" ++ rowLetters.getD ((r - 1) % 19) ""

/-- The name of a ball (R603). -/
def ballName (r c : Nat) : String := rowName r ++ toString c

/-- What a ball carries. -/
inductive Ball where
  | signal (name : String)
  | dnc
  | supply (s : Supply)
  deriving DecidableEq, Repr

def polarity (x : Nat) : String := if x = 0 then "_P" else "_N"

/-- The wire of a camera port at place `p` of row `j` of its block (R605). -/
def csiWire (j p : Nat) : Option String :=
  ([["CLK_P", "CLK_N", "D0_P", "D0_N"], ["D1_P", "D1_N", "D2_P", "D2_N"], ["D3_P", "D3_N"]].getD j [])[p]?

/-- Links and camera PHYs of one I/O die at row 1 to 6, columns 25 to 72 (R605): `link` and `port` are the die's first ones. -/
def phySignal (link port r c : Nat) : Option String :=
  if 25 ≤ c ∧ c ≤ 56 then
    let k := link + (c - 25) / 8
    let l := (c - 25) % 8 / 2
    let pin := fun (way : String) (l : Nat) => some ("LK" ++ toString k ++ "_" ++ way ++ toString l ++ polarity ((c - 25) % 2))
    if r = 1 then pin "TX" l else if r = 2 then pin "TX" (4 + l) else if r = 4 then pin "RX" l else if r = 5 then pin "RX" (4 + l) else none
  else if 57 ≤ c ∧ c ≤ 72 then
    let k := port + (c - 57) / 4 + (if r ≤ 3 then 0 else 4)
    (csiWire ((r - 1) % 3) ((c - 57) % 4)).map fun w => "CSI" ++ toString k ++ "_" ++ w
  else none

/-- PCIe at rows 1 to 6, columns 1 to 24 (R605). -/
def pcieSignal (r c : Nat) : Option String :=
  let j := (c - 1) / 3
  let pin := fun (way : String) (n : Nat) => if (c - 1) % 3 = 2 then none else some ("PCIE_" ++ way ++ toString n ++ polarity ((c - 1) % 3))
  if r = 1 then pin "TX" j else if r = 4 then pin "TX" (j + 8) else if r = 3 then pin "RX" j else if r = 6 then pin "RX" (j + 8)
  else if r = 2 then (if c = 1 then some "REFCLK_P" else if c = 2 then some "REFCLK_N" else if c = 4 then some "PERST_N" else if c = 5 then some "PCIE_WAKE_N" else none)
  else none

/-- The four camera-control balls of a port, in order (R605). -/
def camControl (k p : Nat) : String :=
  let n := toString k
  if p = 0 then "CAM_MCLK" ++ n else if p = 1 then "CAM_RST_N" ++ n else if p = 2 then "I3C" ++ n ++ "_SCL" else "I3C" ++ n ++ "_SDA"

/-- Row G, columns 1 to 59 (R605). -/
def rowG (c : Nat) : Option String :=
  if c ≤ 16 then some ("PDM_DAT" ++ toString (c - 1))
  else if c ≤ 20 then some ("PDM_CLK" ++ toString (c - 17))
  else if c ≤ 32 then some ("TDM" ++ toString ((c - 21) / 3) ++ ["_BCLK", "_WS", "_DIN"].getD ((c - 21) % 3) "")
  else ["MICPWR_EN", "MUTE_N", "MUTE_IND", "AUDCLK", "REFSYNC", "PORST_N", "WARM_RST_N", "WAKE_IN0", "WAKE_IN1", "WAKE_IN2", "WAKE_IN3", "THERM_TRIP_N",
    "VEN_CORE", "VEN_SRAM", "VEN_IO", "VEN_HBM", "VEN_FLASH", "PG_CORE", "PG_SRAM", "PG_IO", "PG_HBM", "PG_FLASH", "AVS_CLK", "AVS_DATA", "AVS_SDATA",
    "VSENSE_CORE_P", "VSENSE_CORE_N"][c - 33]?

/-- Row H, columns 1 to 60 (R605). -/
def rowH (c : Nat) : Option String :=
  if c ≤ 32 then some (camControl ((c - 1) / 4) ((c - 1) % 4))
  else ["XSPI_SCK", "XSPI_CS_N", "XSPI_DQS", "XSPI_IO0", "XSPI_IO1", "XSPI_IO2", "XSPI_IO3", "XSPI_IO4", "XSPI_IO5", "XSPI_IO6", "XSPI_IO7", "XSPI_RESET_N",
    "BOOT_RECOVERY", "SMB_CLK", "SMB_DAT", "SMB_ALERT_N", "SMB_ADDR0", "SMB_ADDR1", "TCK", "TMS", "TDI", "TDO", "TRST_N", "SYSCLK", "THERMD0_A", "THERMD0_C",
    "THERMD1_A", "THERMD1_C"][c - 33]?

/-- The signal of a ball: rows A to H for I/O die 0 (R605), rows CL to CU, which mirror rows F to A, for I/O die 1 (R606). -/
def signalAt (r c : Nat) : Option String :=
  if r ≤ 6 then (if c ≤ 24 then pcieSignal r c else phySignal 0 0 r c)
  else if r = 7 then rowG c
  else if r = 8 then rowH c
  else if 68 ≤ r then
    if 73 ≤ r + 1 ∧ c ≤ 16 then some (camControl (8 + (c - 1) / 4 + (if r = 73 then 0 else 4)) ((c - 1) % 4)) else phySignal 4 8 (74 - r) c
  else none

/-- A supply field (R608): rows, columns, and its supplies with their counts of balls. -/
structure Field where
  row0 : Nat
  row1 : Nat
  col0 : Nat
  col1 : Nat
  supplies : List (Supply × Nat)
  deriving DecidableEq, Repr

def fieldF1 : Field := ⟨9, 12, 1, 73, [(.vddAon, 8), (.vddioAon, 6), (.vddio33, 4), (.vddaPll, 6), (.vddaPcie, 24), (.vddaLink, 24), (.vddaCsi, 12), (.vddio18, 4),
  (.vccFlash, 4), (.vccqFlash, 4), (.vddIod, 50)]⟩
def fieldF2 : Field := ⟨64, 67, 1, 73, [(.vddaPll, 6), (.vddaLink, 24), (.vddaCsi, 12), (.vddio18, 4), (.vccFlash, 4), (.vccqFlash, 4), (.vddIod, 50)]⟩
def fieldF3 : Field := ⟨13, 63, 10, 64, [(.vddCore, 1180), (.vddSram, 220)]⟩
def fieldF4 : Field := ⟨13, 63, 1, 9, [(.vddHbm, 120), (.vddqHbm, 90), (.vppHbm, 12)]⟩
def fieldF5 : Field := ⟨13, 63, 65, 73, [(.vddHbm, 120), (.vddqHbm, 90), (.vppHbm, 12)]⟩

/-- The supply that takes the ball of rank `n` of a field; what is left over is VSS. -/
def supplyOfRank : List (Supply × Nat) → Nat → Supply
  | [], _ => .vss
  | (s, k) :: l, n => if n < k then s else supplyOfRank l (n - k)

/-- Balls of row `r` before column `c` that the supplies of a field take: those whose row index and column sum to an odd number. -/
def Field.oddBefore (f : Field) (r c : Nat) : Nat := (c - f.col0 + (if (r + f.col0) % 2 = 1 then 1 else 0)) / 2

/-- The supply of a ball of a field (R608). -/
def Field.supplyAt (f : Field) (r c : Nat) : Supply :=
  if (r + c) % 2 = 0 then .vss
  else supplyOfRank f.supplies ((List.range (r - f.row0)).foldl (fun a i => a + f.oddBefore (f.row0 + i) (f.col1 + 1)) 0 + f.oddBefore r c)

/-- The field a ball lies in. -/
def fieldAt (r c : Nat) : Option Field := [fieldF1, fieldF2, fieldF3, fieldF4, fieldF5].find? fun f => decide (f.row0 ≤ r ∧ r ≤ f.row1 ∧ f.col0 ≤ c ∧ c ≤ f.col1)

/-- What the ball at row index `r` and column `c` carries (R605 to R608). -/
def ballAt (r c : Nat) : Ball :=
  match signalAt r c with
  | some n => .signal n
  | none =>
    if (r = 7 ∧ 60 ≤ c) ∨ (r = 8 ∧ 61 ≤ c ∧ c ≤ 63) then .dnc
    else match fieldAt r c with
      | some f => .supply (f.supplyAt r c)
      | none => .supply .vss

/-- Is the ball connected inside the package? On a part with one I/O die the signals and supplies beside I/O die 1 are not, except VSS (R607). -/
def Part.ballConnected (p : Part) (r c : Nat) : Bool :=
  match ballAt r c with
  | .dnc => false
  | .supply .vss => true
  | .supply _ => decide (2 ≤ p.ioDies) || !decide (fieldF2.row0 ≤ r ∧ r ≤ fieldF2.row1)
  | .signal _ => decide (2 ≤ p.ioDies) || decide (r < 68)

/-- The wires of a camera port that carry A, B and C of trio `t` in C-PHY mode; D3_N is unused (R606). -/
def cphyTrio (t : Nat) : List String :=
  if t = 0 then ["CLK_P", "CLK_N", "D0_P"] else if t = 1 then ["D0_N", "D1_P", "D1_N"] else if t = 2 then ["D2_P", "D2_N", "D3_P"] else []

/-! ## The DRAM positions (R610) -/

/-- Populated positions of a part, in ascending order: stack `n` lies at the `n`-th. -/
def Part.dramPositions (p : Part) : List Nat := if p.dramStacks ≤ 2 then [1, 4] else if p.dramStacks ≤ 4 then [0, 2, 3, 5] else [0, 1, 2, 3, 4, 5]

/-- The field that feeds a position. -/
def positionField (n : Nat) : Field := if n < 3 then fieldF4 else fieldF5

end Sys2Proof.Machine
end

