-- ==== Sys2Proof/Tests/Slice0.lean ====
section
/-! SUPPORT. Small tests: a command run once in a small state, with what it must leave. Each test is named after the obligation whose hypotheses its states meet; its expected results are the manual's. -/

section Sys2ProofTests
set_option Elab.async false
open Sys2Proof Sys2Proof.Machine

/-! ## Small states -/

/-- The command runs in the state, and what it leaves passes the test. -/
def ok (c : Instr) (s : State) (p : State → Bool) : Bool := match exec c s with | .next t => p t | _ => false

/-- Every check holds. -/
def allOk (l : List Bool) : Bool := l.all id

/-- The pages that the tests command, ON. -/
def onPages : SMap W32 :=
  [pageOf .triggerUnit 0, pageOf .hoopTrigger 0, pageOf .objTable 0, pageOf .dramStack 0, pageOf .ctxGlobal 0, pageOf .ctxHoop 0, pageOf .knot 0,
   pageOf .sched 0, pageOf .mailbox 0, pageOf .mailbox 2, pageOf .power 0, pageOf .service 0].foldl (fun m p => mset (regReset Part.reset (R.BLOCK_STATE p)) m (R.BLOCK_STATE p) 2) []
/-- A package that has booted: ACTIVE, at stitch 10. -/
def up : State :=
  { State.reset with regs := onPages, pm := { Pm.dflt with mode := .active, computeUp := true }, now := 650000, ts := { SceneTime.reset with base := 655360, baseAt := 625000 } }

/-! ## The queue, the words, and the checks of operands -/

theorem test_step_takes_the_front : step { up with pending := [.pmeTurnOff, .coAuthExpiry] } = exec .pmeTurnOff { up with pending := [.coAuthExpiry] } := rfl
theorem test_step_idles : step up = .next up := rfl
theorem test_no_row_gives_bits : decodeTableWord 8 0 = none ∧ up.withFetchWord 8 0 = up := ⟨rfl, rfl⟩

/-! ## Operands that no sender can send -/

/-- A message header for the tests: link 2, sender and receiver hoop 0, the first of its session. -/
def hdr0 : MsgHdr := ⟨2, 0, 0, 0, 0, 0, 0⟩

theorem test_ill_formed_operands_are_refused : allOk [
    !(Instr.pullData hdr0 0 0 [1, 2]).wellFormed,
    !(Instr.ringFrame 3 [0]).wellFormed,
    !(Instr.detectorHop 1 [[0]]).wellFormed,
    !(Instr.csiLine 0 0 0 0 0 (List.replicate 65536 0) 0).wellFormed,
    !(Instr.thermalStep [] [] []).wellFormed] = true := by decide +kernel

/-! ## Scene time -/

def locked : State :=
  { up with now := 1000000, regs := mset 0 up.regs R.TS_SOURCE 1,
            ts := { SceneTime.reset with mode := .locked, baseAt := 1000000, lastEdge := some 900000, everLocked := true } }

theorem test_PositionNeverFalls_scene_reset : allOk [
    headerAt 16 == some (Blk.sceneTime, 0),
    locked.reaches 0 (R.BLOCK_CTRL 0x10000),
    resetsCold (.blockReset 0 16) locked == false,
    ok (.blockReset 0 16) { locked with now := 1030000 } fun t => t.pos == 31457 && t.reg R.TS_SOURCE == 0] = true := by decide +kernel

theorem test_PositionNeverFalls_cold_resets : allOk [
    ok (.coldReset 1) up (fun t => t.pos == 0),
    ok .sysclkReturn { up with pm := { up.pm with clockStopped := true } } (fun t => t.pos == 0),
    ok (.coldReset 3) { up with pm := { up.pm with mode := .off } } fun t => t.pos == 0] = true := by decide +kernel

theorem test_reset_is_canonical : State.reset.canonical = true := by decide +kernel

theorem test_EdgesAndBoundaries_edge : allOk [
    locked.minPulse == 252,
    locked.tsMinPeriod ≤ ((1062252 : Rat) - 900000),
    fld (locked.reg R.TS_DIVIDER) 0 16 == 0,
    ok (.referenceEdge 62000 false 1000 false) locked (fun t => t.now == 1062316 && t.ts.base == 65536 && t.ts.period == 162252 && t.ts.lastEdge == some 1062252 && t.reg R.MISSED_COUNT == 0),
    ok (.referenceEdge 190000 false 1000 false) locked (fun t => t.reg R.MISSED_COUNT == 2),
    ok (.referenceEdge 100 false 20 false) locked (fun t => t.now == 1000100 && t.reg R.GLITCH_COUNT == 1)] = true := by decide +kernel

theorem test_EdgesAndBoundaries_generated : allOk [
    ok (.referenceEdge 1000 false 1000 false) { locked with ts := { locked.ts with lastEdge := none, slewEnd := true } } (fun t => t.ts.base == 0 && t.ts.baseAt == 1001316),
    ok (.referenceEdge 1000 false 1000 true)
      { locked with ts := { locked.ts with mode := .acquiring, prevSrc := some 2, prevPeriod := 1000, period := 62500 } }
      (fun t => t.ts.base == 65536 && t.ts.mode == .acquiring),
    ok .generatedBoundary { locked with ts := { locked.ts with mode := .holdover } } (fun t => t.ts.base == 65536 && t.now == 1062500),
    ok .generatedBoundary { locked with ts := { locked.ts with mode := .slewing, corr := 30, slewAbs := 30 } } (fun t => decide (t.ts.mode = .locked) && t.ts.corr == 0),
    ok .refLost locked fun t => decide (t.ts.mode = .holdover) && t.ts.base == 65536 * 4 && t.reg R.LOST_COUNT == 1] = true := by decide +kernel

theorem test_SceneTimeWrites : allOk [
    locked.reaches 0 R.TS_SOURCE,
    locked.tsSourceRefused 7,
    ok (.tsSourceWrite 0 7) locked (fun t => t.ts.srcRefused && t.reg R.TS_SOURCE == 1),
    ok (.tsSourceWrite 0 0) locked (fun t => decide (t.ts.mode = .free) && t.reg R.TS_SOURCE == 0),
    ok (.tsSourceWrite 0 0x32) up (fun t => decide (t.ts.mode = .acquiring)),
    up.reaches 0 R.HOST_POS_GO,
    ok (.hostPosGo 0 1) up (fun t => decide (t = up)),
    ok (.hostPosGo 0 1) ((up.setReg R.TS_SOURCE 0x205).setReg R.HOST_POS_LO 77) (fun t => t.ts.base == 77 * 65536 && t.reg R.STEP_COUNT == 1),
    up.reaches 0 R.CAPTURE_REQ,
    ok (.captureReq 0 1) up (fun t => t.reg R.CAPTURE_LO == 10 && t.reg R.CAPTURE_PHASE == 26214)] = true := by decide +kernel

theorem test_SceneTimeWrites_loads : allOk [
    up.reaches 0 R.LOAD_CTRL,
    ok (.loadGo 0 1) (up.setReg R.LOAD_LO 11) (fun t => t.count == 11),
    ok (.loadGo 0 1) (up.setReg R.LOAD_LO 10) (fun t => t.ts.loadRefused),
    ok (.loadGo 0 3) (up.setReg R.LOAD_LO 5) (fun t => t.ts.loadPending),
    ok (.stitchLoRead 0) up fun t => t.readData == 10 && mget none t.latch R.STITCH_HI == some 0] = true := by decide +kernel

/-! ## Records, trigger units and prickings -/

def rec7 : Rec := { Rec.dflt with ty := 3, stamp := 5000, payload := payAt 24 2 7 (payAt 32 4 0x40000000 0), toHost := true, eq := 2 }
def held7 : State :=
  ((up.setHoop 0 { (up.hoop 0) with held := [rec7], seq := 9 }).setEq 0 2 { Eq.dflt with en := true, tail := 3 }).setReg (R.EQ_CTRL 0 2) 0x41
def atFive : Cmd := ⟨0, 1, 4, setBytes (atStitchCmd (65536 * 2)) 0 1 5⟩
def atHead : State := up.setCq 0 1 { Cq.dflt with head := some atFive, mode := .running, tail := 5, read := 5, done := 4 }

theorem test_RecordsAreSequenced : allOk [
    nextHeld (held7.hoop 0).held == some rec7,
    held7.eqFull 0 2 == false,
    ok (.recordSequenced 0) held7 (fun t => (t.hoop 0).seq == 10 && (t.hoop 0).held == [] && (t.eq 0 2).tail == 4),
    ((atHead.advance16 16000).phasesEnd).reachedAts == [(131072, atFive)], ((atHead.advance16 16000).phasesEnd).reachedFirst 131072,
    atHead.ctxGone atFive == false,
    ok (.positionReached 1000 0) atHead fun t => t.now == 651000 && (t.cq 0 1).head == none && (t.cq 0 1).done == 5] = true := by decide +kernel

/-- A rule on stage 7: it arms at 1.0 and fires at 4.0. -/
def bits7 : RuleBits := setBytes (setBytes (setBytes (setBytes (0 : RuleBits) 4 4 (7 * 16)) 12 4 0x3f800000) 16 4 0x40800000) 28 4 10
def rule7 : Rule := { Rule.dflt with bits := bits7, enabled := true }
/-- The rule is the fourth of hoop 0's range, and the record is the next to be offered. -/
def offered (x : Rule) : State :=
  ((({ up with rules := [(3, x)] }).setTu 0 { inq := [rec7], cur := none, next := 0, fullAt := none }).setReg (R.TRIG_PART 0) (w32 (100 * 65536))).setReg (R.RULE_SEL 0) 3

theorem test_RuleEvaluation : allOk [
    !(offered rule7).unitFull 0,
    ((offered rule7).nextOffer 0 5).2 == some (rec7, 3),
    ok (.ruleEvaluate 0) (offered rule7) (fun t => (t.rule 3).state == 1 && (t.rule 3).armStamp == 5000 && (t.rule 3).deadline == some (5000 + 655360)),
    ok (.ruleEvaluate 0) (offered { rule7 with refractoryEnd := 6000 }) (fun t => (t.rule 3).state == 0 && (t.rule 3).suppressed == 1),
    ok (.ruleEvaluate 0) (offered { rule7 with state := 1, bits := setBytes bits7 16 4 0x3f800000 }) (fun t => (t.rule 3).state == 2),
    ok (.ruleEvaluate 0) (offered { rule7 with state := 2, bits := setBytes bits7 12 4 0x40400000 }) (fun t => (t.rule 3).state == 0),
    ok (.ruleEvaluate 0) (offered { rule7 with state := 1, deadline := some 5000 }) fun t => (t.rule 3).state == 2 && t.reg (R.DISARM_COUNT 0) == 1] = true := by decide +kernel

def waiting : State :=
  (({ up with pendFires := [{ hoop := 0, cq := 1, cmds := [5, 6], since := 0, drop := Rec.dflt, fired := none, unit := some 2 }] }).setCq 0 1
    { Cq.dflt with mode := .running, tail := 7, done := 7, read := 7 }).setReg (cqCtrl 0 1) 0x63

/-- The same with a ring that is full. -/
def waitingFull : State := waiting.setCq 0 1 { Cq.dflt with mode := .running, tail := 71, done := 7, read := 7 }

theorem test_WaitingFiresAndDeadlines : allOk [
    waiting.ringRoom 0 1 2,
    waiting.cqDevice 0 1,
    ok (.pendingFireAppend 0 1) waiting (fun t => t.pendFires.isEmpty && (t.cq 0 1).tail == 9),
    !waitingFull.ringRoom 0 1 2, ok (.fireHoldExpiry 0 1) (waiting.setReg (R.FIRE_HOLD 0) 10) (fun t => t.pendFires.length == 1),
    ok (.fireHoldExpiry 0 1) (waitingFull.setReg (R.FIRE_HOLD 0) 10) (fun t => t.pendFires.isEmpty && t.reg (R.FIRE_DROP_COUNT 2) == 1),
    !(offered { rule7 with state := 1, deadline := some 5 }).recordBefore 3 5, (offered { rule7 with state := 1, deadline := some 5 }).reachedFirst 5,
    ok (.disarm 3) (offered { rule7 with state := 1, deadline := some 5 }) fun t => (t.rule 3).state == 2 && (t.rule 3).deadline == none] = true := by decide +kernel

/-- The same rule with device ring 1, object 6 as its template and object 7 as its pattern; its fire level is below its arm level in `badRule`. -/
def ruleFor (s : State) : RuleBits := setBytes (setBytes (setFld bits7 288 6 1) 40 4 (s.handleOf 7)) 44 4 (s.handleOf 6)
def goodRule : State :=
  let s := (((offered rule7).setReg (cqCtrl 0 1) 0x63).setObj 6 { Obj.dflt with used := true, kind := 1, tier := 2, homed := true, size := 4096, pins := 1 }).setObj 7
    { Obj.dflt with used := true, kind := 7, tier := 2, homed := true, size := 4096 }
  s.setRule 3 { rule7 with enabled := false, bits := ruleFor s }

theorem test_RuleCommands : allOk [
    up.accepts 0 (R.RULE_CMD 0),
    ok (.ruleRead 0 0) (up.setReg (R.TRIG_PART 0) 0) (fun t => t.reg (R.RULE_CMD_STATUS 0) == 17),
    ok (.ruleWrite 0 0) ((offered { rule7 with enabled := false }).setReg (R.RULE_DATA 0 1) 77) (fun t => (t.rule 3).b 4 4 == 77 && t.reg (R.RULE_CMD_STATUS 0) == 1),
    ok (.ruleWrite 0 0) (offered rule7) (fun t => t.reg (R.RULE_CMD_STATUS 0) == 33),
    ok (.ruleRead 0 0) (offered rule7) (fun t => t.reg (R.RULE_DATA 0 1) == 112 && t.reg (R.RULE_CMD_STATUS 0) == 1),
    goodRule.ruleCheck 0 3 == 0, ok (.ruleEnable 0 0) goodRule (fun t => (t.rule 3).enabled && t.reg (R.RULE_CMD_STATUS 0) == 1),
    ok (.ruleEnable 0 0) (offered { rule7 with enabled := false, bits := setBytes bits7 4 4 0 }) (fun t => t.reg (R.RULE_CMD_STATUS 0) == 49),
    ok (.ruleDisable 0 0) (offered { rule7 with state := 1 }) fun t => (t.rule 3).enabled == false && (t.rule 3).state == 0] = true := by decide +kernel

def unitOff (s : State) : State := s.setReg (R.BLOCK_STATE (pageOf .triggerUnit 0)) 0

theorem test_RuleCommands_forces : allOk [
    ok (.forceArm 0 0) (offered rule7) (fun t => (t.rule 3).state == 1 && (t.rule 3).armStamp == up.pos && t.reg (R.ARM_COUNT 0) == 1),
    ok (.forceFire 0 0) (offered { rule7 with state := 1 }) (fun t => (t.rule 3).state == 2 && t.reg (R.FIRE_COUNT 0) == 1),
    ok (.forceDisarm 0 0) (offered { rule7 with state := 1 }) (fun t => (t.rule 3).state == 2),
    ok (.forceArm 0 0) (offered { rule7 with state := 1 }) (fun t => t.reg (R.RULE_CMD_STATUS 0) == 1 && t.rules == (offered { rule7 with state := 1 }).rules),
    ok (.forceDisarm 0 0) (offered { rule7 with state := 2 }) (fun t => t.reg (R.RULE_CMD_STATUS 0) == 1 && t.rules == (offered { rule7 with state := 2 }).rules),
    ok (.forceArm 0 0) (unitOff (offered rule7)) (fun t => t.reg (R.RULE_CMD_STATUS 0) == 1 && t.rules == (offered rule7).rules),
    ok (.forceFire 0 0) (unitOff (offered rule7)) (fun t => t.reg (R.RULE_CMD_STATUS 0) == 1 && t.rules == (offered rule7).rules),
    !(offered rule7).unitFull 0, ok (.forceFire 0 0) (offered { rule7 with enabled := false }) fun t => t.reg (R.RULE_CMD_STATUS 0) == 145] = true := by decide +kernel

/-- A pricking table of two entries, as object 5. -/
def prickTable : State :=
  (up.setObj 5 { Obj.dflt with
    used := true, kind := 11, tier := 2, homed := true, size := 96,
    data := msetList 0 [] 0 (toBytes 32 (setBytes (setBytes (0 : BitVec 256) 0 8 1) 8 1 5) ++ toBytes 32 (setBytes (setBytes (0 : BitVec 256) 0 8 2) 8 1 5))
  }).setReg (R.PRICK_TABLE 0 0) 5
def pricking : State := match exec (.prickEnable 0 0 0 3) prickTable with | .next t => t | _ => up

theorem test_Prickings : allOk [
    prickTable.reaches 0 (R.PRICK_CTRL 0 0),
    prickTable.resolve 0 5 == some 5,
    (prickTable.prick 0 0).done == false,
    pricking.reg (R.PRICK_CTRL 0 0) == 3,
    (pricking.prick 0 0).entries.length == 2,
    (pricking.obj 5).pins == 1, (prickTable.obj 5).pricking 0 |>.isSome,
    ok (.prickEnable 0 0 0 5) pricking (fun t => t.reg (R.PRICK_CTRL 0 0) == 5 && t.prick 0 0 == pricking.prick 0 0),
    ok (.prickEnable 0 0 0 2) pricking (fun t => t.reg (R.PRICK_CTRL 0 0) == 2 && (t.prick 0 0).entries.isEmpty && (t.prick 0 0).table == none),
    pricking.prickDue 0 0, pricking.reachedFirst (65536 * pricking.prickTarget 0 0 0 0), !pricking.prickWaits 0 0 0,
    ok (.prickEnable 0 0 0 3) up (fun t => bit (t.reg (R.PRICK_CTRL 0 0)) 0 == false && (t.prick 0 0).refused),
    ok (.prickingEntry 0 0) (pricking.setReg (R.PRICK_LATE_TOL 0 0) 4) fun t => (t.prick 0 0).entry == 1 && t.reg (R.PRICK_SKIP_COUNT 0 0) == 1] = true := by decide +kernel

theorem test_RuleRangesArePartitioned : allOk [
    up.reaches 0 (R.TRIG_PART 1),
    ok (.trigPartWrite 0 1 (w32 (100 + 50 * 65536))) (offered rule7) (fun t => t.reg (R.TRIG_PART 1) == w32 (100 + 50 * 65536)),
    ok (.trigPartWrite 0 1 (w32 (99 + 50 * 65536))) (offered rule7) (fun t => t.reg (R.TRIG_PART 1) == 0 && fld (t.reg (R.TU_STATUS 0)) 16 1 == 1),
    ok (.trigPartWrite 0 0 (w32 (3 * 65536))) (offered rule7) fun t => t.reg (R.TRIG_PART 0) == w32 (100 * 65536)] = true := by decide +kernel

/-! ## Pages, views and the enable state machine -/

/-- Codec 3's page, and a state of its BLOCK_STATE and BLOCK_CTRL. -/
def codecAt : Nat := pageOf .codec 3
def codecPage : Fin 16384 := Fin.ofNat _ (codecAt / 4096)
def codec (st ctrl : Nat) : State := (up.setReg (R.BLOCK_STATE codecAt) (w32 st)).setReg (R.BLOCK_CTRL codecAt) (w32 ctrl)

theorem test_EnableRequests : allOk [
    headerAt codecPage == some (Blk.codec, 3), up.reaches 0 (R.BLOCK_CTRL (codecPage * 0x1000)), !(blkRow .codec).alwaysOn,
    ok (.blockEnable 0 codecPage) (codec 0 0) (fun t => t.stOf .codec 3 == 1 && t.en .codec 3 && t.reg (R.STAMP_LO codecAt) == 10),
    ok (.blockEnable 0 codecPage) (codec 3 0) (fun t => t.stOf .codec 3 == 4),
    ok (.blockEnable 0 codecPage) (codec 2 0) (fun t => t.stOf .codec 3 == 2),
    ok (.blockDisable 0 codecPage) (codec 2 1) (fun t => t.stOf .codec 3 == 3 && !t.en .codec 3),
    ok (.blockDisable 0 codecPage) (codec 1 1) (fun t => t.stOf .codec 3 == 1 && bit (t.reg (R.BLOCK_STATE codecAt)) 4),
    ok (.blockDisable 0 codecPage) (codec 4 1) (fun t => t.stOf .codec 3 == 3)] = true := by decide +kernel

theorem test_FenceAndReturnRequests : allOk [
    fenceable .codec,
    ok (.fenceReq 0 codecPage) (codec 0 0) (fun t => t.reg (R.BLOCK_STATE codecAt) == 0x105 && !bit (t.reg (R.BLOCK_CTRL codecAt)) 8),
    ok (.fenceReq 0 codecPage) (codec 2 0) (fun t => t.stOf .codec 3 == 3 && t.fencePending .codec 3 && bit (t.reg (R.BLOCK_CTRL codecAt)) 8),
    ok (.returnReq 0 codecPage) (codec 0x105 1) (fun t => t.reg (R.BLOCK_STATE codecAt) == 1),
    ok (.returnReq 0 codecPage) (codec 0x305 1) (fun t => t.reg (R.BLOCK_STATE codecAt) == 0x1305),
    ok (.returnReq 0 codecPage) (codec 2 1) (fun t => t.reg (R.BLOCK_STATE codecAt) == 0x1002),
    headerAt 0 == some (Blk.devGlobal, 0), ok (.fenceReq 0 0) up (fun t => bit (t.reg (R.FAULT_STATUS 0)) 28)] = true := by decide +kernel

/-- The same in the nanosecond in which the codec entered its state. -/
def atOnce (s : State) : State := { s with entered := [(codecAt, s.now + 1)] }

theorem test_StartsStopsAndChecksComplete : allOk [
    ok (.blockStartComplete codecPage true) (codec 1 1) (fun t => t.stOf .codec 3 == 2),
    ok (.blockStartComplete codecPage true) (codec 1 0) (fun t => t.stOf .codec 3 == 3),
    ok (.blockStartComplete codecPage false) (codec 1 1) (fun t => t.reg (R.BLOCK_STATE codecAt) == 0x405 && bit (t.reg (R.FAULT_STATUS codecAt)) 30),
    (codec 1 1).timePassed .codec 3, !(atOnce (codec 1 1)).timePassed .codec 3, ok (.blockStartComplete codecPage true) (atOnce (codec 1 1)) (fun t => t.stOf .codec 3 == 1),
    ok (.blockStopComplete codecPage) (atOnce (codec 3 0)) (fun t => t.stOf .codec 3 == 3), (codec 3 0).stopMay .codec 3, ok (.blockStopComplete codecPage) (codec 3 0) (fun t => t.stOf .codec 3 == 0),
    ok (.blockStopComplete codecPage) (codec 4 1) (fun t => t.stOf .codec 3 == 1),
    ok (.blockStopComplete codecPage) (codec 0x83 0) (fun t => t.reg (R.BLOCK_STATE codecAt) == 0x105),
    ok (.stackDrainTimeout 2 []) (up.setReg (R.BLOCK_STATE (pageOf .dramStack 2)) 0x83) (fun t => t.stOf .dramStack 2 == 5),
    ok (.healthCheckComplete codecPage true) (codec 0x205 0x200) (fun t => t.reg (R.BLOCK_STATE codecAt) == 0),
    ok (.healthCheckComplete codecPage false) (codec 0x205 0x200) (fun t => t.reg (R.BLOCK_STATE codecAt) == 0x1205)] = true := by decide +kernel

theorem test_BlockResetAndExpertAccess : allOk [
    ok (.blockReset 0 codecPage) ((codec 2 0).setReg (R.FAULT_MASK codecAt) 0x200) (fun t => t.reg (R.BLOCK_STATE codecAt) == 0 && t.reg (R.FAULT_MASK codecAt) == 0),
    ok (.expertSelWrite 0 codecPage true) (up.setReg (R.EXPERT_KEY codecAt) 0x10000) (fun t => t.reg (R.BLOCK_STATE codecAt) == 0x40 && t.reg (R.BLOCK_CTRL codecAt) == 2),
    ok (.expertSelWrite 0 codecPage true) up (fun t => t.reg (R.BLOCK_CTRL codecAt) == 0 && bit (t.reg (R.FAULT_STATUS codecAt)) 28),
    ok (.expertSelWrite 0 codecPage false) (codec 0x42 2) (fun t => t.reg (R.BLOCK_STATE codecAt) == 2),
    up.reaches 0 0x10000, ok (.expertKeyWrite 0 16 0x51C7) up (fun t => t.reg (R.EXPERT_KEY 0x10000) == 0x10000),
    ok (.expertKeyWrite 0 16 0x51C6) up (fun t => t.reg (R.EXPERT_KEY 0x10000) == 0)] = true := by decide +kernel

theorem test_OwnersAndFaults : allOk [
    headerAt 0xC00 == some (Blk.pipeline, 0), up.reaches 0 0xC00000, up.stOf .pipeline 0 == 0,
    ok (.hoopOwnerWrite 0 (Fin.ofNat _ 0xC00) 5) up (fun t => t.reg (R.HOOP_OWNER 0xC00000) == 5),
    ok (.hoopOwnerWrite 0 16 5) up (fun t => t.reg (R.HOOP_OWNER 0x10000) == 0x100 && bit (t.reg (R.FAULT_STATUS 0x10000)) 28),
    ok (.faultMaskWrite 0 16 7) up (fun t => t.reg (R.FAULT_MASK 0x10000) == 7),
    ok (.faultInject 0 16 2) (up.setReg (R.EXPERT_KEY 0x10000) 0x10000) (fun t => t.reg (R.FAULT_STATUS 0x10000) == 2),
    ok (.fatalStateError codecPage) (codec 2 1) (fun t => t.stOf .codec 3 == 3 && t.fencePending .codec 3 && bit (t.reg (R.FAULT_STATUS codecAt)) 31)] = true := by
  decide +kernel

theorem test_RegisterAccesses : allOk [
    up.sees 3 0x10000 == false, ok (.outOfViewAccess 3 0x10000 false) up (fun t => t.reg R.VIEW_VIOLATION_COUNT == 1 && t.readData == 0),
    ok (.registerWrite 0 (Fin.ofNat _ (R.RULE_SEL 0)) 4 77) up (fun t => t.reg (R.RULE_SEL 0) == 77),
    ok (.registerWrite 0 (Fin.ofNat _ (R.RULE_SEL 0)) 3 77) up (fun t => t.reg R.BAD_ACCESS_COUNT == 1),
    decide (accAt R.GLITCH_COUNT = some .RC), ok (.readClear 0 (Fin.ofNat _ R.GLITCH_COUNT) 4) (up.setReg R.GLITCH_COUNT 9) (fun t => t.reg R.GLITCH_COUNT == 0 && t.readData == 9),
    isStampLo (R.STAMP_LO 0x10000), ok (.stampLoRead 0 (Fin.ofNat _ (R.STAMP_LO 0x10000))) up (fun t => mget none t.latch (R.STAMP_HI 0x10000) == some 0)] = true := by
  decide +kernel

/-! ## Host rings, queues, events and hoops -/

/-- Queue 1 of hoop 0, a host ring of 64 entries; the same as a device ring; and a queue with command `l` at its head or in flight. -/
def ring : State := ((up.setReg (cqCtrl 0 1) 0x1061).setCq 0 1 { Cq.dflt with mode := .running, tail := 5, read := 5, done := 4 }).setReg (R.BLOCK_STATE (pageOf .hostIf 0)) 2
def deviceRing : State :=
  (((ring.setReg (cqCtrl 0 1) 0x1063).setObj 7 { Obj.dflt with used := true, kind := 10, tier := 2, homed := true, size := 4096 }).setReg (R.CQ_BASE_LO 0 1 0) 7).setReg
    (R.APPEND_DATA 0 1 0) 0x11223344
def toFetch : State := ring.setCq 0 1 { Cq.dflt with mode := .running, tail := 6, read := 5, done := 5 }
def nopLine : Line := withChecksum (setBytes 0 8 4 0xABCD)
def atTheHead (l : Line) : State := toFetch.setCq 0 1 { Cq.dflt with mode := .running, tail := 6, read := 6, done := 5, head := some ⟨0, 1, 5, withChecksum l⟩ }
def flying (l : Line) : InFlight := InFlight.of 9 ⟨0, 1, 5, l⟩ 0 true
def inFlight (l : Line) : State := { toFetch with flights := [flying l] }

theorem test_DoorbellTailWrites : allOk [
    ring.reaches 0 (R.CQ_DB_TAIL 0 1), ring.cqSize 0 1 == 64, ring.value (R.CQ_DB_TAIL 0 1) == 5,
    ok (.cqDbTail 0 0 1 68) ring (fun t => (t.cq 0 1).tail == 68),
    ok (.cqDbTail 0 0 1 69) ring (fun t => (t.cq 0 1).tail == 5 && (t.cq 0 1).tailRefused)] = true := by decide +kernel

theorem test_AppendsAndFetches_append : allOk [
    ring.reaches 0 (R.APPEND_GO 0 1), ok (.appendGo 0 0 1 1) ring (fun t => t.reg (R.APPEND_RESULT 0 1) == 5),
    deviceRing.cqRing 0 1 == some 7, ok (.appendGo 0 0 1 1) deviceRing (fun t => t.reg (R.APPEND_RESULT 0 1) == 1 && (t.cq 0 1).tail == 6 && (t.obj 7).rd 320 4 == 0x11223344),
    ok (.appendGo 0 0 1 1) (deviceRing.setCq 0 1 { Cq.dflt with mode := .running, tail := 68, read := 5, done := 4 })
      (fun t => t.reg (R.APPEND_RESULT 0 1) == 3 && (t.cq 0 1).appendFull),
    ok (.appendGo 0 0 1 1) (deviceRing.setReg (cqCtrl 0 1) 0x1062) (fun t => t.reg (R.APPEND_RESULT 0 1) == 7)] = true := by decide +kernel

theorem test_AppendsAndFetches_fetch : allOk [
    ok (.commandFetched 0 1 nopLine 0) (toFetch.setReg (R.REG_RATE 2 0) 0) (fun t => (t.cq 0 1).asked && (t.cq 0 1).head == none && (t.cq 0 1).read == 5),
    toFetch.canFetch 0 1, ok (.commandFetched 0 1 nopLine 0) toFetch (fun t => (t.cq 0 1).head == some ⟨0, 1, 5, nopLine⟩ && (t.cq 0 1).read == 6),
    ok (.commandFetched 0 1 (nopLine ^^^ 1) 0) toFetch (fun t => (t.cq 0 1).head == none && t.reg (R.CMD_FAULT_COUNT 0) == 1),
    ok (.commandFetched 0 1 (nopLine ^^^ 1) 0) (toFetch.setReg (cqCtrl 0 1) 0x1065) (fun t => decide ((t.cq 0 1).mode = .halted) && (t.cq 0 1).failed == 5)] = true := by
  decide +kernel

theorem test_HeadCommandsBegin : allOk [
    (atTheHead 0).ctxGone ⟨0, 1, 5, withChecksum 0⟩ == false, ok (.nop 0 1) (atTheHead 0) (fun t => (t.cq 0 1).head == none && (t.cq 0 1).done == 6),
    ok (.postEvent 0 1) (atTheHead 7) (fun t => (t.cq 0 1).done == 6 && (t.hoop 0).held.length == 1),
    ok (.fence 0 1) (atTheHead 6) (fun t => (t.cq 0 1).done == 6 && (t.hoop 0).held.length == 1),
    ok (.atStitch 0 1) (atTheHead 5) (fun t => (t.cq 0 1).done == 6), ok (.atStitch 0 1) (atTheHead (atStitchCmd (65536 * 11))) (fun t => t.cqs == (atTheHead (atStitchCmd (65536 * 11))).cqs),
    ok (.commandBegin 0 1 []) (atTheHead 5) (fun t => (t.cq 0 1).done == 6)] = true := by decide +kernel

theorem test_CommandsCommit : allOk [
    (inFlight 0x100).committable (flying 0x100), ok (.commandCommit 0 1 5) (inFlight 0x100) (fun t => (t.cq 0 1).done == 6 && t.flights.isEmpty)] = true := by decide +kernel

theorem test_QueueControl : allOk [
    ok (.cqResume 0 0 1) (ring.setCq 0 1 { Cq.dflt with mode := .halted, failed := 4, done := 4 }) (fun t => decide ((t.cq 0 1).mode = .running) && (t.cq 0 1).done == 5),
    ok (.cqRetry 0 0 1) (ring.setCq 0 1 { Cq.dflt with mode := .halted, failed := 4, done := 4 }) (fun t => decide ((t.cq 0 1).mode = .running) && (t.cq 0 1).read == 4),
    ok (.cqClearFlags 0 0 1) (ring.setCq 0 1 { Cq.dflt with tailRefused := true }) (fun t => (t.cq 0 1).tailRefused == false),
    ok (.cqEnable 0 0 1 0x61) up (fun t => decide ((t.cq 0 1).mode = .running) && t.reg (cqCtrl 0 1) == 0x61),
    ok (.cqEnable 0 0 1 0x63) up (fun t => decide ((t.cq 0 1).mode = .disabled) && (t.cq 0 1).cfgRefused),
    ok (.cqDisable 0 0 1 0x60) ring (fun t => decide ((t.cq 0 1).mode = .stopping) && (t.cq 0 1).read == 4),
    ok (.positionReached 1 0) (ring.setCq 0 1 { Cq.dflt with mode := .stopping }) (fun t => decide ((t.cq 0 1).mode = .disabled))] = true := by decide +kernel

def events : State :=
  (((up.setReg (R.EQ_CTRL 0 1) 0x61).setEq 0 1 { Eq.dflt with en := true, head := 2, tail := 4, pendStamps := [65536, 65536 * 2], held := [(5, none)], armed := true }).setReg
    (R.MSIX_TABLE 0 7) 0).setReg (R.EQ_COAL_STITCHES 0 1) 9

theorem test_EventQueues : allOk [
    ok (.eqEnable 0 0 1 0x61) up (fun t => (t.eq 0 1).en && t.reg (R.EQ_CTRL 0 1) == 0x61),
    ok (.eqDisable 0 0 1 0x60) events (fun t => !(t.eq 0 1).en && t.reg (R.EQ_DROP_COUNT 0 1) == 1),
    ok (.eqEnable 0 0 1 0x61) events (fun t => (t.eq 0 1).head == 0 && (t.eq 0 1).tail ≤ 1),
    ok (.eqEnable 0 0 1 0x61) (events.setHoop 0 { Hoop.dflt with phase := .resetting }) (fun t => (t.eq 0 1).cfgRefused && (t.eq 0 1).tail == 4), events.reaches 0 (R.EQ_DB_HEAD 0 1), ok (.eqDbHead 0 0 1 4) events (fun t => (t.eq 0 1).head == 4 && (t.eq 0 1).tail == 5),
    ok (.eqDbHead 0 0 1 5) events (fun t => (t.eq 0 1).head == 2 && (t.eq 0 1).headRefused),
    ok (.eqDbArm 0 0 1 1) events (fun t => !(t.eq 0 1).armed && mget 0 t.msiSent 1 == 1),
    ok (.eqDbArm 0 0 1 1) (events.setEq 0 1 { Eq.dflt with en := true }) (fun t => (t.eq 0 1).armed && mget 0 t.msiSent 1 == 0),
    ok (.eqCoalesceExpiry 0 1) events (fun t => !(t.eq 0 1).armed && mget 0 t.msiSent 1 == 1)] = true := by decide +kernel

def scrubbing : State := up.setHoop 0 { Hoop.dflt with phase := .scrubbing, scrubUnits := 3 }

theorem test_HoopsResetAndScrub_resets : allOk [
    ring.reaches 0 (R.HOOP_TABLE 0), ok (.hoopReset 0 0) ring (fun t => decide ((t.hoop 0).phase = .resetting) && (t.hoop 0).held.isEmpty),
    ok (.positionReached 1 0) (up.setHoop 0 { Hoop.dflt with phase := .resetting }) (fun t => decide ((t.hoop 0).phase = .scrubbing)), ok (.functionLevelReset 3) ring (fun t => decide ((t.hoop 3).phase = .resetting)),
    ok (.hoopReset 0 0) scrubbing (fun t => decide ((t.hoop 0).phase = .scrubbing)), ok (.functionLevelReset 0) ring (fun t => decide ((t.hoop 0).phase = .resetting)), ok .conventionalReset ring (fun t => decide ((t.hoop 0).phase = .resetting)),
    ok .conventionalReset { up with pm := { up.pm with mode := .doze } } (fun t => t.pm.perst && decide (t.pm.mode = .exiting))] = true := by decide +kernel

theorem test_HoopsResetAndScrub_scrub : allOk [
    ok (.hoopEnableWrite 0 3 1) ring (fun t => fld (t.reg (R.HOOP_TABLE 3)) 0 1 == 1), ok (.hoopEnableWrite 0 0 1) ring (fun t => t.reg (R.HOOP_TABLE 0) == ring.reg (R.HOOP_TABLE 0)), ok (.vfEnableChange true 4) ring (fun t => t.vfEnable && t.numVfs == 4),
    ok .pcieLinkUp { up with pm := { up.pm with wakeN := true } } (fun t => !t.pm.wakeN),
    ok (.scrubComplete 0 none) scrubbing (fun t => decide ((t.hoop 0).phase = .ready)), ok (.dramZeroFill 0) scrubbing (fun t => (t.hoop 0).scrubUnits == 2)] = true := by
  decide +kernel

/-! ## Objects, pools and moves -/

/-- Hoop 0 with OBJ_RESULT's DONE set, and CREATE's or a handle command's arguments. -/
def idle0 : State := up.setReg (R.OBJ_RESULT 0) 1
def withArgs (s : State) (a0 a1 a2 : W32) : State := ((s.setReg (R.OBJ_ARG 0 0) a0).setReg (R.OBJ_ARG 0 1) a1).setReg (R.OBJ_ARG 0 2) a2
/-- The same with object 5, 4096 bytes in T2 (tier 2), and with its handle as argument 0. -/
def held5 : Obj := { Obj.dflt with used := true, kind := 1, tier := 2, homed := true, size := 4096, gen := 3 }
def has5 : State := idle0.setObj 5 held5
def asks5 : State := has5.setReg (R.OBJ_ARG 0 0) (w32 (has5.handleOf 5))
/-- CREATE of kind 1 in T2, HOMED. -/
def makes : State := withArgs idle0 0x10201 0 4096

theorem test_ObjectCommands : allOk [
    makes.accepts 0 (R.OBJ_CMD 0), !makes.locAbsent 2 0 true, asks5.busy 5 == false, asks5.moving 5 == false,
    ok (.destroy 0 0) { asks5 with moves := [{ Move.dflt with id := 4, obj := 5 }] } (fun t => t.reg (R.OBJ_RESULT 0) == 81 && (t.obj 5).used), !createBad (makes.createObj 0), makes.freeIndex 0 == some 1, makes.createFits 0 (makes.createObj 0),
    ok (.create 0 0) makes (fun t => t.reg (R.OBJ_RESULT 0) == 1 && (t.obj 1).used && (t.obj 1).size == 4096 && t.reg (R.OBJ_OUT 0 0) == w32 (t.handleOf 1)),
    ok (.create 0 0) (withArgs idle0 0x10205 0 4096) (fun t => t.reg (R.OBJ_RESULT 0) == 33),
    asks5.resolve 0 (asks5.objHandle 0) == some 5, has5.resolve 0 (has5.objHandle 0) == none,
    ok (.destroy 0 0) has5 (fun t => t.reg (R.OBJ_RESULT 0) == 17), ok (.destroy 0 0) asks5 (fun t => t.reg (R.OBJ_RESULT 0) == 1 && !(t.obj 5).used && (t.obj 5).gen == 3),
    ok (.pin 0 0) asks5 (fun t => t.reg (R.OBJ_RESULT 0) == 1 || t.reg (R.OBJ_RESULT 0) == 113),
    ok (.pin 0 0) (asks5.setReg (R.PIN_LIMIT 2 0) 1) (fun t => t.reg (R.OBJ_RESULT 0) == 1 && (t.obj 5).pins == 1),
    ok (.unpin 0 0) (asks5.setObj 5 { held5 with pins := 2 }) (fun t => t.reg (R.OBJ_RESULT 0) == 1 && (t.obj 5).pins == 1),
    ok (.create 0 0) (makes.setReg (R.OT_ENTRIES 0) 1) (fun t => t.reg (R.OBJ_RESULT 0) == 49), (makes.setReg (R.OT_ENTRIES 0) 1).freeIndex 0 == none,
    ok (.query 0 0) asks5 (fun t => t.reg (R.OBJ_OUT 0 0) == w32 (asks5.handleOf 5))] = true := by decide +kernel

/-- A CREATE of one tile that waits. -/
def aWait : AllocWait := ⟨0, 2, 0, 4096, 0, none, none, some { Obj.dflt with kind := 1, tier := 2, homed := true, size := 4096 }⟩

theorem test_TablesPoolsAndCatalogue_pools : allOk [
    ok (.otEntriesWrite 0 0 8) has5 (fun t => t.otEntries 0 == 8), ok (.otEntriesWrite 0 0 5) has5 (fun t => t.otEntries 0 == has5.otEntries 0 && bit (t.reg (R.POOL_STATUS 2)) 1),
    ok (.guarWrite 0 0 1 1) up (fun t => t.reg (R.GUAR 0 1) == 1 || bit (t.reg (R.POOL_STATUS 0)) 0),
    ok (.guarWrite 0 0 1 257) up (fun t => t.reg (R.GUAR 0 1) == up.reg (R.GUAR 0 1) && bit (t.reg (R.POOL_STATUS 0)) 0),
    ok .allocationGranted { idle0 with waits := [aWait] } (fun t => t.waits.isEmpty && t.reg (R.OBJ_RESULT 0) == 1 && (t.obj 1).used),
    ok (.retiringRelease 0 5) { has5 with retiring := [⟨5, 0, 2, 0, 4096, [], false, 0⟩, ⟨5, 0, 2, 0, 4096, [7], false, 0⟩] } (fun t => t.retiring.length == 1),
    ok .budgetAdmitted (toFetch.setCq 0 1 { (atTheHead 0).cq 0 1 with headDelayed := true }) (fun t => (t.cq 0 1).done == 6)] = true := by decide +kernel

/-- MOVE of object 5 to tier `tier`; ARM-only of pattern 5 into T2. -/
def mvCmd (tier : Nat) : Line := setFld (setBytes 2 16 4 (has5.handleOf 5)) 160 3 tier
def mvHead (o : Obj) (l : Line) : State := (atTheHead l).setObj 5 o
def armCmd : Line := setFld (setBytes 0x401 16 4 (has5.handleOf 5)) 256 3 2
/-- Object 5 on its way to T0's core 0, by shuttle 3 or, coded, by codec 2. -/
def rng : Range := ⟨some 3, none, 0, 1, false, false⟩
def carried (r : Range) (codec : Nat) : Move := { Move.dflt with id := 4, obj := 5, kind := .command 9, tier := 0, codec := codec, started := true, ranges := [r] }
def carries (r : Range) (codec : Nat) : State := { (inFlight (mvCmd 0)).setObj 5 held5 with moves := [carried r codec] }

theorem test_MovesRangesAndCommits : allOk [
    (mvHead held5 (mvCmd 3)).moveCheck ⟨0, 1, 5, withChecksum (mvCmd 3)⟩ == 0,
    ok (.move 0 1 []) (mvHead held5 (mvCmd 3)) (fun t => t.flights.any (fun f => !f.done)),
    ok (.move 0 1 []) (mvHead { held5 with homed := false } (mvCmd 3)) (fun t => (t.obj 5).tier == 3 && (t.cq 0 1).head == none),
    ok (.runPatternArmOnly 0 1) (mvHead { held5 with kind := 7 } armCmd) (fun t => (t.cq 0 1).head == none),
    ok (.shuttleRangeDone 3 40 []) (carries rng 0) (fun t => t.reg (R.SH_RANGES 3) == 1 && t.reg (R.SH_BUSY_CYCLES 3) == 40 && (t.obj 5).tier == 0),
    ok (.codecRangeDone 2 40 0 []) (carries { rng with codec := some 2 } 1) (fun t => t.reg (R.PC_BUSY_CYCLES 2) == 40),
    ok (.shuttleRangeDone 3 40 []) ((carries rng 0).setReg (R.REG_RATE 0 0) 0) (fun t => t.reg (R.SH_RANGES 3) == 0 && t.moves.any (fun m => m.drew 0)),
    ok (.codecRangeDone 2 40 0 []) ((carries { rng with codec := some 2 } 2).setReg (R.REG_RATE 0 0) 0) (fun t => t.reg (R.PC_BUSY_CYCLES 2) == 0),
    (((carries rng 0).moveCommit (carried rng 0)).1.obj 5).tier == 0] = true := by decide +kernel

/-! ## The skein store -/

def skeinUp : State := ((up.setReg (R.BLOCK_STATE (pageOf .skein 0)) 2).setSk 0 { Skein.dflt with ready := true }).setReg R.CAT_RESULT 1
/-- Extent 77, preserved from object 5 in T3, and catalogue arguments for hoop 0, the handle of object 5, the key. -/
def keptExtent : Extent := ⟨77, 1, 0, { held5 with tier := 3 }⟩
def catalogued (key : W32) : State :=
  { ((((skeinUp.setObj 5 { held5 with tier := 3 }).setReg (R.CAT_ARG 1) (w32 (has5.handleOf 5))).setReg (R.CAT_ARG 2) key)) with catalogue := [keptExtent] }

theorem test_SkeinReadsAndBudget : allOk [
    skeinUp.live .skein 0, present skeinUp.part .skein 0, skeinUp.domainOn .ioMain, skeinUp.readable 0 9 1, skeinUp.readable 0 9 blockPages,
    ok (.internalWorkDone 0 0 9 0) skeinUp (fun t => t.reg (R.RELOC_COUNT 0) == 1), ok (.internalWorkDone 0 4 9 0) skeinUp (fun t => (t.sk 0).dieCopy == none),
    ok (.flashPageRead 0 9 3 3 0 0 5 0 (some (1, 5))) ((inFlight 0x100).setObj 5 held5 |>.setReg (R.BLOCK_STATE (pageOf .skein 0)) 2 |>.setSk 0 { Skein.dflt with ready := true })
      (fun t => t.reg (R.TILE_CHECK_COUNT 0) == 1 && t.flights.isEmpty),
    ok (.flashPageRead 0 9 3 1 0 0 5 0 none) skeinUp (fun t => mget 0 (t.sk 0).reads 9 == 1 && t.reg (R.LDPC_CORR 0) == 1),
    ok (.flashPageRead 0 9 3 3 0 0 5 0 none) { skeinUp.setObj 5 held5 with moves := [carried rng 0] } (fun t => t.reg (R.LDPC_UNCORR 0) == 1 && t.moves.all (fun m => m.bad == [0])),
    ok (.flashPageRead 0 9 3 3 0 0 5 0 none) { (inFlight 2).setObj 5 held5 |>.setReg (R.BLOCK_STATE (pageOf .skein 0)) 2 |>.setSk 0 { Skein.dflt with ready := true } with moves := [carried rng 1] }
      (fun t => t.flights.all fun f => match f.fail with | some e => e.1 == 0x300 | none => false),
    ok (.patrolRead 0 9 300 20 4 2 1) skeinUp (fun t => mget 0 (t.sk 0).reads 9 == blockPages && t.reg (R.PATROL_PROGRESS 0) == 20 && t.reg (R.LDPC_CORR 0) == 4),
    ok (.internalWorkDone 0 2 9 0) skeinUp (fun t => (t.sk 0).spare == (skeinUp.sk 0).spare + 1), ok (.internalWorkDone 0 3 9 0) skeinUp (fun t => (t.sk 0).retired == 1),
    ok (.budgetCapWrite 0 0 1) skeinUp (fun t => t.reg (R.BUDGET_CAP_MB 0) == 1 && decide ((t.sk 0).balance ≤ t.budgetCap 0)),
    ok (.budgetRateWrite 0 0 5) skeinUp (fun t => t.reg (R.BUDGET_RATE_MB 0) == 5),
    ok (.skeinReloadComplete 0) (skeinUp.setSk 0 Skein.dflt) (fun t => (t.sk 0).ready)] = true := by decide +kernel

theorem test_TablesPoolsAndCatalogue_catalogue : allOk [
    (catalogued 77).reaches 0 R.CAT_CMD, ((catalogued 77).sk 0).ready, !(catalogued 77).catBadArg true true,
    ok (.preserve 0) (catalogued 78) (fun t => t.reg R.CAT_RESULT == 1 && t.catalogue.length == 2 && !(t.obj 5).used && (t.obj 5).gen == 3),
    ok (.preserve 0) (catalogued 77) (fun t => t.reg R.CAT_RESULT == 97 && t.catalogue.length == 1),
    ok (.adopt 0) (catalogued 77) (fun t => t.reg R.CAT_RESULT == 1 && t.catalogue.isEmpty && (t.obj 1).used && (t.obj 1).size == 4096),
    ok (.adopt 0) (catalogued 78) (fun t => t.reg R.CAT_RESULT == 113),
    ok (.discard 0) (catalogued 77) (fun t => t.reg R.CAT_RESULT == 1 && t.catalogue.isEmpty), ok (.lookup 0) (catalogued 77) (fun t => t.reg (R.CAT_OUT 0) == 4096),
    ok (.catalogueList 0) ((catalogued 77).setReg (R.CAT_ARG 1) 0) (fun t => t.reg (R.CAT_OUT 0) == 77)] = true := by decide +kernel

/-! ## Patterns, knots and contexts -/

/-- Fields (byte, bytes, value) of a table; a pattern for one core with two descriptors (FP32 constant 0, FP32 scratch), its steps from byte 192 on, its constants at byte 448. -/
def fieldsOf (w : Nat) (l : List (Nat × Nat × Nat)) : BitVec w := l.foldl (fun v e => setBytes v e.1 e.2.1 e.2.2) 0
def fpDesc (source : Nat) : BitVec 256 := fieldsOf 256 [(0, 1, source), (1, 1, 7), (4, 4, 1), (8, 4, 1), (12, 4, 64)]
def patHeader : BitVec 512 :=
  fieldsOf 512 [(0, 4, 0x4D565054), (4, 2, 1), (6, 1, 1), (10, 2, 1), (16, 4, 4), (28, 4, 64), (32, 2, 2), (36, 4, 128), (52, 4, 448), (56, 4, 64)]
def patOf (steps : List (BitVec 256)) (out : Nat := 0x10) : Obj :=
  { Obj.dflt with
    used := true, kind := 7, tier := 2, homed := true, size := 512, gen := 3, tileDflt := ⟨.valid, 0⟩,
    data := msetList 0 [] 0 (toBytes 64 (patHeader) ++ toBytes 32 (fpDesc 0x12) ++ toBytes 32 (fpDesc out) ++ toBytes 64 (fieldsOf 512 [(0, 4, 192), (4, 4, steps.length)]) ++
      steps.flatMap (toBytes 32 ·)) }
def vecStep : BitVec 256 := fieldsOf 256 [(0, 1, 2), (4, 1, 0), (6, 2, 0), (12, 2, 1)]
def signalStep : BitVec 256 := fieldsOf 256 [(0, 1, 4), (4, 2, 9), (8, 4, 7)]
def waitStep : BitVec 256 := fieldsOf 256 [(0, 1, 3), (4, 2, 9), (8, 4, 0)]
def runCmd : Line := withChecksum (fieldsOf 512 [(0, 1, 1), (16, 4, has5.handleOf 5), (24, 8, 1)])
/-- The pattern of `steps` is object 5, its RUN_PATTERN is at the head of queue 1, and core 0 with its cluster is ON. -/
def toRun (steps : List (BitVec 256)) : State :=
  (((atTheHead runCmd).setObj 5 (patOf steps)).setReg (R.BLOCK_STATE (pageOf .core 0)) 2).setReg (R.BLOCK_STATE (pageOf .cluster 0)) 2

theorem test_PatternsBegin : allOk [
    (toRun [vecStep]).headOp 0 1 1 == some ⟨0, 1, 5, runCmd⟩, (toRun [vecStep]).patternError ⟨0, 1, 5, runCmd⟩ (patOf [vecStep]) == none, (toRun [vecStep]).coreCheck ⟨0, 1, 5, runCmd⟩ == 0,
    ok (.runPattern 0 1) (toRun [vecStep]) (fun t => (t.cq 0 1).head == none && t.flights.any (fun f => f.cores == [0] && f.pat == 5 && !f.done)),
    ok (.runPattern 0 1) ((toRun [vecStep]).setObj 5 { patOf [vecStep] with kind := 1 }) (fun t => t.reg (R.CMD_FAULT_COUNT 0) == 1 && (t.cq 0 1).head == none),
    ok (.runPattern 0 1) { toRun [vecStep] with flights := [{ InFlight.of 8 ⟨0, 1, 4, 0⟩ 0 false with outs := [⟨5, [], [], false, 0⟩] }] } (fun t => (t.cq 0 1).head.isSome && t.flights.length == 1),
    ok (.runPattern 0 1) ((toRun [vecStep]).setReg (R.BLOCK_STATE (pageOf .core 0)) 1) (fun t => (t.cq 0 1).head.isSome && t.flights.isEmpty)] = true := by decide +kernel

def waitCmd (timeout : Nat) : Line := fieldsOf 512 [(0, 1, 3), (16, 2, 9), (18, 1, 0), (20, 4, 4), (24, 4, timeout)]
def openCmd (flags : Nat) : Line := fieldsOf 512 [(0, 1, 8), (20, 4, has5.handleOf 5), (24, 1, flags)]
/-- Its shape, object 5: one recurrent state of 4,096 bytes. -/
def toOpen (flags : Nat) : State :=
  (atTheHead (openCmd flags)).setObj 5 { held5 with kind := 8, size := 64, data := msetList 0 [] 0 (toBytes 64 (fieldsOf 512 [(0, 1, 1), (32, 1, 4), (36, 4, 4096)])) }
def ctxUp : State := (up.setReg (R.CTX_RESULT 0) 1).setReg (R.CTX_ARG0 0) 6
def openCtx : Ctx := { Ctx.dflt with isOpen := true, hoop := 0, inActive := true }

theorem test_KnotAndContextCommands : allOk [
    ok (.knotWait 0 1) (atTheHead (waitCmd 0)) (fun t => (t.cq 0 1).head.isSome),
    ok (.knotWait 0 1) ((atTheHead (waitCmd 0)).setKnot 0 9 4) (fun t => (t.cq 0 1).done == 6 && t.reg (R.KN_WAIT_COUNT 0) == 1),
    ok (.knotWaitTimeout 0 1) (atTheHead (waitCmd 3)) (fun t => (t.cq 0 1).done == 6 && t.reg (R.KN_TIMEOUT_COUNT 0) == 1),
    ok (.knotSignal 0 1) (atTheHead (fieldsOf 512 [(0, 1, 4), (16, 2, 9), (20, 4, 7)])) (fun t => (t.cq 0 1).done == 6 && t.knot 0 9 == 7),
    ok (.contextOpen 0 1) (toOpen 2) (fun t => (t.cq 0 1).done == 6 && (t.ctx 1).isOpen),
    ok (.contextOpen 0 1) (toOpen 0) (fun t => (t.ctx 1).isOpen),
    ok (.contextClose 0 1) ((atTheHead (fieldsOf 512 [(0, 1, 9), (1, 1, 8), (4, 3, 6)])).setCtx 6 openCtx) (fun t => !(t.ctx 6).isOpen && (t.cq 0 1).done == 6)] = true := by decide +kernel

/-- Every DRAM stack FENCED. -/
def fenced (s : State) : State := (List.range 6).foldl (fun (s : State) n => s.setReg (R.BLOCK_STATE (pageOf .dramStack n)) 0x105) s
/-- Context 6 with its one object, 5, in T2; with room in T3, or with no skein stack. -/
def spills : State :=
  (((ctxUp.setReg (R.BLOCK_STATE (pageOf .skein 0)) 2).setSk 0 { Skein.dflt with ready := true, balance := 1000000000 }).setObj 5 { held5 with ctxState := true, tileDflt := ⟨.valid, 0⟩ }).setCtx 6
    { openCtx with objs := [5] }
def noBudget : State := spills.setSk 0 { Skein.dflt with ready := true, balance := -1000000000 }

/-- The same from the kills of an entry to sleep on. -/
def frozen (s : State) : State := { s with pm := { s.pm with mode := .entering, killed := true } }

theorem test_ContextManagerPages : allOk [
    ctxUp.reaches 0 (R.CTX_CMD 0), ok (.ctxQuery 0 0) ctxUp (fun t => t.reg (R.CTX_RESULT 0) == 17), (ctxUp.setCtx 6 openCtx).ctxOpen 0 6,
    ok (.ctxQuery 0 0) (ctxUp.setCtx 6 openCtx) (fun t => t.reg (R.CTX_RESULT 0) == 1), ok (.ctxPin 0 0) (ctxUp.setCtx 6 openCtx) (fun t => (t.ctx 6).pins == 1 || t.reg (R.CTX_RESULT 0) == 49),
    ok (.ctxUnpin 0 0) (ctxUp.setCtx 6 { openCtx with pins := 2 }) (fun t => (t.ctx 6).pins == 1), ok (.ctxRestore 0 0) (ctxUp.setCtx 6 openCtx) (fun t => t.reg (R.CTX_RESULT 0) == 1),
    ok (.park 0 0) (ctxUp.setCtx 6 openCtx) (fun t => t.reg (R.CTX_RESULT 0) == 1 && !(t.ctx 6).inActive),
    !(ctxUp.setCtx 6 openCtx).pinAllowed 6, ok (.ctxPin 0 0) (ctxUp.setCtx 6 openCtx) (fun t => t.reg (R.CTX_RESULT 0) == 49),
    ((ctxUp.setReg (R.ACT_GUAR 0) 9).setCtx 6 openCtx).pinAllowed 6, ok (.ctxPin 0 0) ((ctxUp.setReg (R.ACT_GUAR 0) 9).setCtx 6 openCtx) (fun t => (t.ctx 6).pins == 1),
    ok (.ctxRestore 0 0) (ctxUp.setCtx 6 { openCtx with inActive := false, spilling := true }) (fun t => (t.ctx 6).ask == 1 && t.reg (R.CTX_RESULT 0) == 0),
    ok (.ctxPin 0 0) ((ctxUp.setReg (R.ACT_GUAR 0) 9).setCtx 6 { openCtx with inActive := false, spilling := true }) (fun t => (t.ctx 6).ask == 2),
    ok (.ctxRestore 0 0) (fenced (ctxUp.setCtx 6 { openCtx with inActive := false })) (fun t => t.reg (R.CTX_RESULT 0) == 33),
    ok (.park 0 0) (ctxUp.setCtx 6 { openCtx with closing := true }) (fun t => t.reg (R.CTX_RESULT 0) == 65),
    spills.inT2 6 == [5], spills.spillAdmitted 6, ok (.park 0 0) spills (fun t => (t.ctx 6).ask == 4 && t.moves.any (fun m => m.obj == 5)),
    !noBudget.spillAdmitted 6, ok (.park 0 0) noBudget (fun t => t.reg (R.CTX_RESULT 0) == 81 && t.moves.isEmpty),
    ok (.park 0 0) (ctxUp.setCtx 6 { openCtx with pins := 1 }) (fun t => t.reg (R.CTX_RESULT 0) == 97),
    ok (.ctxRestore 0 0) (frozen (ctxUp.setCtx 6 { openCtx with inActive := false })) (fun t => (t.ctx 6).ask == 1 && t.reg (R.CTX_RESULT 0) == 0),
    ok (.park 0 0) (frozen spills) (fun t => (t.ctx 6).ask == 4 && t.moves.isEmpty), ok (.ctxList 0 0) (ctxUp.setCtx 6 openCtx) (fun t => t.reg (R.CTX_OUT 0 0) == 6),
    ok (.actGuarWrite 0 1 9) up (fun t => t.reg (R.ACT_GUAR 1) == 9 || bit (t.reg R.CM_FLAGS) 0), ok (.actGuarWrite 0 1 4097) up (fun t => bit (t.reg R.CM_FLAGS) 0)] = true := by decide +kernel

/-- Context 6 is cold, with work at the head of queue 1 that names it since stitch 3. -/
def starving : State := (atTheHead (fieldsOf 512 [(0, 1, 1), (1, 1, 8), (4, 3, 6)])).setCtx 6 { openCtx with inActive := false, runnableSince := some 3 }

/-- The same with every entry of the active set taken by a pinned context (the entry list of the test repeats one of them); and with context 6 resident. -/
def crowded : State := { starving with ctxs := starving.ctxs ++ List.replicate 4096 (7, { openCtx with pins := 1 }) }
def running6 : State := ((starving.setReg R.CTX_QUANTUM 1).setCtx 6 { openCtx with runnableSince := some 3, residentSince := 1 })

theorem test_ContextsAreRestored : allOk [
    starving.waitingCtxs 0 == [6], starving.entryFor 6 true, starving.maskStacks 2 (starving.t2Loc 0) != [], decide ((starving.takeEntry 6 true).unmet 6 ≤ (starving.takeEntry 6 true).t2Avail 6),
    decide (starving.restoresOf 0 < (starving.force R.RESTORE_PARALLEL).toNat), !starving.resident 6, ok (.restoreStart 0) starving (fun t => (t.ctx 6).inActive),
    ok (.restoreStart 0) (fenced starving) (fun t => bit (BitVec.ofNat 32 (t.ctx 6).causes) 1),
    !crowded.entryFor 6 true, crowded.entriesStuck 6, (starving.ctxs.all fun e => (starving.ctx e.1).ask == 0 && !(starving.ctx e.1).restoring), bit (BitVec.ofNat 32 ((crowded.tryRestore 6 true).1.ctx 6).causes) 0,
    running6.ctxStatus 6 == 2, running6.resident 6, ok (.ctxQuantumElapsed 6) running6 (fun t => t.ctxs == running6.ctxs),
    starving.wanting 6, ok (.residencyStarved 6) (starving.setReg (R.STARVE_BOUND 0) 7) (fun t => (t.ctx 6).starved && t.reg (R.STARVED_COUNT 0) == 1 && (t.hoop 0).held.length == 1),
    ok (.residencyStarved 6) (starving.setReg (R.STARVE_BOUND 0) 8) (fun t => !(t.ctx 6).starved)] = true := by decide +kernel

/-! ## Steps -/

/-- The state in which the pattern of `steps` has begun, and stands at step `n` on core 0. -/
def begun (steps : List (BitVec 256)) (n : Nat) : State :=
  match exec (.runPattern 0 1) (toRun steps) with
  | .next t => { t with flights := t.flights.map fun f => { f with streams := f.streams.map fun x => { x with step := n } } }
  | _ => up

/-- The same with the step before the next one's layer and pattern put in place: steps whose pattern the begin would refuse. -/
def stands (steps : List (BitVec 256)) (out : Nat := 0x10) (binds : List Nat := []) : State :=
  let s := begun [vecStep] 0
  { s with flights := s.flights.map fun f => { f with binds := binds, ins := f.ins.map fun e => if e.1 = 5 then (5, patOf steps out) else e } }
/-- The next step that can start on core 0, with its command and stream. -/
def startsOn (s : State) : Option (InFlight × Nat × Step) :=
  let s0 := s.openTurn 0
  if s0.coreBusy 0 || !s0.isOn .core 0 then none else (s0.nextOn 0 (s0.turnAdmits 0)).bind fun e => (e.1.nextStep e.2).map fun t => (e.1, e.2, t)
def startsOp (s : State) (op : Nat) : Bool := match startsOn s with | some (_, _, t) => stOp t == op | none => false
/-- What the step that starts there gives. -/
def gives (s : State) (act : StepRun → Except StepErr StepOut) : Option StepOut :=
  match startsOn s with | some (f, k, t) => (act (startView s 0 f k t)).toOption | none => none
def elsewhere : State := (stands [vecStep] 0 [8]).setObj 8 { held5 with tier := 0, loc := 1 }
def haloStep (op : Nat) : BitVec 256 := fieldsOf 256 [(0, 1, op), (20, 2, 9)]
/-- A halo's READY knot at 1, for the step that gets. -/
def toGet : State := (stands [haloStep 0x19]).setKnot 0 9 1

theorem test_ComputeStepsRun : allOk [
    startsOp (begun [vecStep] 0) 2, (gives (begun [vecStep] 0) StepRun.vector).isSome,
    ok (.vector 0) (begun [vecStep] 0) (fun t => t.coreBusy 0 && t.reg (R.SAT_COUNT 0) == 0), ok (.gemm 0) (begun [vecStep] 0) (fun t => !t.coreBusy 0),
    startsOp elsewhere 2, (gives elsewhere StepRun.vector).isSome, ok (.vector 0) elsewhere (fun t => t.flights.all fun f => f.fail == some (0x202, reasonDetail 25 0)),
    up.isOn .core 0 == false, (startsOn ((toRun [vecStep]).setReg (cqCtrl 0 1) 0x1061)).isNone, ok (.vector 0) (toRun [vecStep]) (fun t => t.flights.isEmpty)] = true := by decide +kernel

/-- One step of each kind starts on its row's command. -/
theorem test_ComputeStepsRun_kinds :
    ([(Instr.gemm 0, 1), (.vector 0, 2), (.conv 0, 0x10), (.dwconv 0, 0x11), (.pool 0, 0x12), (.resize 0, 0x13), (.argmax 0, 0x14), (.boxdec 0, 0x15), (.kvAppend 0, 0x20),
      (.attnFwd 0, 0x21), (.attnBwd 0, 0x22), (.recLinear 0, 0x28), (.recGru 0, 0x29), (.recLstm 0, 0x2A)].all fun e =>
      let s := stands [fieldsOf 256 [(0, 1, e.2)]]
      startsOp s e.2 && ok e.1 s fun t => t.flights.all fun f => f.fail.isSome || f.streams.any fun x => x.running) = true := by decide +kernel

/-- The running step waits for a request. -/
def heldStep (t : State) : State := { t with buckets := t.flights.map fun f => (0, ⟨-1, 0, t.now, [(4096, t.now, .step f.id 0)]⟩) }

theorem test_StepsEndAndSignal : allOk [
    ok (.vector 0) (begun [vecStep] 0) (fun t => ok (.stepComplete 0 1 2 3 4 5 6) t (fun u => u.reg (R.STEPS_DONE 0) == 1 && u.reg (R.KNOT_STALL_CYCLES 0) == 5 && u.flights.isEmpty)),
    ok (.vector 0) (begun [vecStep] 0) (fun t => let u := heldStep t; u.stepHeld 0 && ok (.stepComplete 0 1 2 3 4 5 6) u (fun v => v.reg (R.STEPS_DONE 0) == 0 && v.flights.length == 1)),
    startsOp (begun [signalStep] 0) 4, (begun [signalStep] 0).walks.isEmpty,
    ok (.knotSignalStep 0) (begun [signalStep] 0) (fun t => t.knot 0 9 == 0 && t.flights.isEmpty),
    ok (.knotSignalStep 0) (begun [signalStep, signalStep] 0) (fun t => t.knot 0 9 == 7 && t.flights.length == 1),
    startsOp (begun [signalStep, waitStep] 1) 3, ok (.knotWaitStep 0 6) (begun [signalStep, waitStep] 1) (fun t => t.reg (R.KNOT_STALL_CYCLES 0) == 6),
    startsOp (stands [haloStep 0x18]) 0x18, (gives (stands [haloStep 0x18]) (StepRun.haloPut · 0)).isSome, ok (.haloPut 0) (stands [haloStep 0x18]) (fun t => t.knot 0 9 == 1 && t.coreBusy 0),
    startsOp toGet 0x19, (gives toGet StepRun.haloGet).isSome, ok (.haloGet 0) toGet (fun t => t.knot 0 10 == 1 && t.coreBusy 0)] = true := by decide +kernel

/-- Formats 3 (FP8_E4M3), 5 (BF16 or FP16) and 11 (INT32): codes read and written back. -/
theorem test_ElementCodesRoundTrip :
    ([0, 1, 2, 3, 4, 5, 6, 7, 11].all fun f => [0, 1, 0x3C, 0x81, 0x55].all fun raw =>
      decide (2 ^ elemBits f ≤ raw) || (decodeElem f raw).isNan || convert f false none (decodeElem f raw) == (raw, ⟨0, 0⟩)) = true := by decide +kernel

/-! ## Knots, clusters, shares, regulators, pre-emption, links -/

def heldKnot9 : State := { up with heldKnots := [⟨knotKey 0 9, 0, 1, 1⟩] }
def checks (v : W32) : State := (((up.setReg (R.CHK_KNOT 0 3) 0x80000009).setKnot 0 9 v).setReg (R.CHK_OPEN_VAL 0 3) 4)

theorem test_KnotWindowAndChecks : allOk [
    ok (.kwAdd 0 2 9 5) up (fun t => t.knot 2 9 == 5 && t.reg (R.KN_SIGNAL_COUNT 2) == 1), ok (.kwReset 2 2 9) (up.setKnot 2 9 7) (fun t => t.knot 2 9 == 0),
    ok (.kwAdd 0 0 9 5) heldKnot9 (fun t => t.knot 0 9 == 0 && t.reg (R.KN_HELD_DISCARDS 0) == 1), ok (.kwAdd 1 2 9 5) up (fun t => t.knots.isEmpty),
    ok (.kdbgSet 0 6) (up.setReg R.KDBG_SEL 0x20009) (fun t => t.knot 2 9 == 6 && t.kdbg.length == 1 && bit (t.reg R.DEV_STATUS) 1),
    ok (.chkOpen 0 0) (checks 4) (fun t => t.reg (R.CHK_RESULT 0) == 1 && t.chkIsOpen 0 && t.reg (R.CHK_OPEN_VAL 0 3) == 4),
    (checks 4).accepts 0 (R.CHK_CMD 0), ok (.chkOpen 0 0) ((checks 4).setReg (R.CHK_KNOT 0 3) 0x80004000) (fun t => t.reg (R.CHK_RESULT 0) == 65 && !t.chkIsOpen 0),
    ok (.chkClose 0 0) { (checks 4).setReg (R.CHK_KNOT 0 3) 0x80004000 with chkOpen := [(0, true)] } (fun t => t.reg (R.CHK_RESULT 0) == 65 && t.chkIsOpen 0),
    ok (.kdbgSet 0 6) (heldKnot9.setReg R.KDBG_SEL 9) (fun t => t.knot 0 9 == 0 && t.kdbg.length == 1),
    ok (.chkOpen 0 0) { checks 4 with chkOpen := [(0, true)] } (fun t => t.reg (R.CHK_RESULT 0) == 49), ok (.chkClose 0 0) (checks 4) (fun t => t.reg (R.CHK_RESULT 0) == 33),
    ok (.chkClose 0 0) { checks 4 with chkOpen := [(0, true)] } (fun t => t.reg (R.CHK_RESULT 0) == 1 && !t.chkIsOpen 0),
    ok (.chkClose 0 0) { checks 5 with chkOpen := [(0, true)] } (fun t => t.reg (R.CHK_RESULT 0) == 0x80011 && t.reg (R.KN_LEAK_COUNT 0) == 1)] = true := by decide +kernel

def turning : State := up.setTurn 2 { Turn.dflt with active := true, hoop := 1, start := 649000, limit := 500 }

/-- Hoop 3 asks the port of regulator 1 for 4096 bytes, with `n` tokens; the same during a change of the memory level; and with weight 0 while hoop 4 asks. -/
def asks (n : Int) : State := { up.setReg (R.REG_RATE 1 3) 5 with buckets := [(13, ⟨n, 0, 650000, [(4096, 640000, .other)]⟩)] }
def changing : State := { up.setReg R.PM_MEM_LEVEL 1 with buckets := [(12, ⟨0, 0, 650000, [(4096, 640000, .other)]⟩)] }
def lighter (s : State) : State := { s.setReg (R.REG_WEIGHT 1 3) 0 with buckets := s.buckets ++ [(17, ⟨0, 0, 650000, [(4096, 640000, .other)]⟩)] }

theorem test_ClustersAndRegulators : allOk [
    ok (.schClusterWrite 0 2 0x31) up (fun t => t.reg (R.SCH_CLUSTER 2) == 0x31 && t.reg (R.HOOP_OWNER (pageOf .cluster 2)) == 512),
    ok (.schClusterWrite 0 2 0x30) (up.setReg (R.BLOCK_STATE (pageOf .cluster 2)) 2) (fun t => t.reg (R.SCH_CLUSTER 2) == 0 && bit (t.reg R.SCH_FLAGS) 0),
    ok (.shareWrite 0 2 3 300) up (fun t => t.reg (R.SHARE 3 2) == 255), ok (.clGbHashWrite 0 2 1) (up.setReg (R.EXPERT_KEY (pageOf .cluster 2)) 0x10000) (fun t => t.reg (R.CL_GB_HASH 2) == 1),
    ok (.clGbHashWrite 0 2 1) ((up.setReg (R.EXPERT_KEY (pageOf .cluster 2)) 0x10000).setObj 5 { held5 with tier := 1, loc := 2 }) (fun t => t.reg (R.CL_GB_HASH 2) == 0),
    ok (.turnEnd 2) turning (fun t => !(t.turn 2).active && mget 0 (t.turn 2).ends 1 == 649500), ok (.turnEnd 2) up (fun t => t.turns.isEmpty),
    ok (.regulatorWrite 0 3 1 0 50) up (fun t => t.reg (R.REG_RATE 1 3) == 50), ok (.regulatorWrite 0 3 1 1 1) up (fun t => t.reg (R.REG_BURST 1 3) == 4 && (t.bucket 3 1).tokens ≤ 4096),
    ok (.tokenIssue 3 1) ((asks 0).setReg (R.REG_RATE 1 3) 0) (fun t => t == (asks 0).setReg (R.REG_RATE 1 3) 0), ok (.regulatorWrite 0 3 1 2 256) up (fun t => t.reg (R.REG_WEIGHT 1 3) == 255),
    ok (.turnEnd 2) { turning with now := 649100 } (fun t => t.turns.isEmpty == false), (asks 0).portAsks 1 3, !(asks 0).portHeld 1, !(asks 0).noBucket 3 1,
    ok (.tokenIssue 3 1) (asks (-5)) (fun t => t == asks (-5)), changing.portHeld 0, ok (.tokenIssue 3 0) changing (fun t => t == changing),
    ok (.tokenIssue 3 1) (lighter (asks 0)) (fun t => t == lighter (asks 0)), (lighter (asks 0)).portAsks 1 4, 0 < (lighter (asks 0)).weight 1 4,
    ok (.tokenIssue 3 1) { up with buckets := [(13, ⟨0, 0, 650000, [(4096, 640000, .other)]⟩)] } (fun t => (t.bucket 3 1).waiting.isEmpty && t.reg (R.OWN_THROTTLE 3 1) == 10000)] = true := by decide +kernel

def preempts (s : State) : State := (s.setReg (R.PRE_RESULT 0) 1).setReg (R.PRE_MASK_LO 0) 2

theorem test_PreemptAndRelease : allOk [
    ok (.preempt 0 0 9) (preempts (inFlight 0x100)) (fun t => t.reg (R.PRE_RESULT 0) == 0x10001 && decide ((t.cq 0 1).mode = .preempted) && t.flights.isEmpty && (t.cq 0 1).read == 5),
    ok (.release 0 0) (preempts (toFetch.setCq 0 1 { Cq.dflt with mode := .preempted })) (fun t => t.reg (R.PRE_RESULT 0) == 1 && decide ((t.cq 0 1).mode = .running)),
    ok (.release 0 0) (preempts toFetch) (fun t => t.reg (R.PRE_RESULT 0) == 17),
    ok (.release 0 0) ((preempts toFetch).setReg (R.PRE_HOOP 0) 1) (fun t => t.reg (R.PRE_RESULT 0) == 33)] = true := by decide +kernel

/-- Link 1, ON, to package 2; UP, it has sent flit 6 and waits for 6 to come. -/
def linkPage : State := ((up.setReg (R.BLOCK_STATE (pageOf .link 1)) 2).setReg (R.BLOCK_CTRL (pageOf .link 1)) 1).setReg (R.LK_CTRL 1) 2
def training : State := linkPage.setLk 1 { Link.dflt with mode := .training }
def upLk : Link := { Link.dflt with mode := .up, width := 8, peer := 2, peerValid := true, epoch := 1, txSeq := 7, ackSeq := 6, rxSeq := 6, credits := [9, 9, 9] }
def linked : State := linkPage.setLk 1 upLk

theorem test_LinksTrainAndFail : allOk [
    ok (.linkTrainingComplete 1 0xFF 2 true) training (fun t => decide ((t.lk 1).mode = .up) && (t.lk 1).width == 8 && (t.lk 1).epoch == 1),
    ok (.linkTrainingComplete 1 0x01 2 true) training (fun t => decide ((t.lk 1).mode = .down)), ok (.linkTrainingComplete 1 0xF0 2 false) training (fun t => decide ((t.lk 1).mode = .keying)),
    ok (.linkTrainingComplete 1 0x7F 2 true) training (fun t => (t.lk 1).width == 4), ok (.linkDown 1) linked (fun t => decide ((t.lk 1).mode = .down) && (t.session 2).lostSince == some 10),
    ok (.linkDown 1) (linked.setLk 3 { upLk with mode := .standby }) (fun t => decide ((t.lk 3).mode = .up)),
    ok (.laneFault 1 5) linked (fun t => decide ((t.lk 1).mode = .training) && (t.lk 1).laneFault == 32), ok (.linkRekey 1) linked (fun t => (t.lk 1).epoch == 2 && (t.lk 1).txCtr == 0),
    ok (.lkPkgIdWrite 0 3) up (fun t => t.reg R.LK_PKG_ID == 3), ok (.lkPkgIdWrite 0 3) linked (fun t => t.reg R.LK_PKG_ID == 0)] = true := by decide +kernel

theorem test_FlitsAndReplay : allOk [
    ok (.flitReceived 1 1 false 6 7 0 0 0 0 none) linked (fun t => (t.lk 1).nakSent == some 6 && (t.lk 1).rxSeq == 6),
    ok (.flitReceived 1 1 true 8 7 0 0 0 0 none) linked (fun t => (t.lk 1).nakSent == some 6), ok (.flitReceived 1 1 true 6 7 0 0 0 0 none) linked (fun t => (t.lk 1).rxSeq == 7),
    ok (.flitReceived 1 1 true 6 7 0 0 1 0 none) linked (fun t => (t.lk 1).rxCtr == some 0),
    ok (.flitReceived 1 1 true 6 7 0 0 1 0 none) (linked.setLk 1 { upLk with rxCtr := some 4 }) (fun t => (t.lk 1).rxCtr == some 4 && t.reg (R.LK_REPLAY_COUNT 1) == 1),
    ok (.flitReceived 1 3 true 6 7 0 0 0 0 (some 3)) (linked.setSession 2 { Session.dflt with resync := true, unacked := [{ LinkMsg.dflt with ty := 7, dseq := 3 }, { LinkMsg.dflt with ty := 7, dseq := 4 }] })
      (fun t => !(t.session 2).resync && (t.session 2).unacked.map (·.dseq) == [4]),
    ok (.flitReceived 1 1 true 6 7 0 0 1 0 none) (linked.setLk 1 { upLk with rxCtr := some 4, rxNew := true }) (fun t => (t.lk 1).rxCtr == some 0 && !(t.lk 1).rxNew),
    ok (.nak 1 6) linked (fun t => (t.lk 1).replays == 1 && t.reg (R.LK_RETRY_COUNT 1) == 1),
    ok (.nak 1 6) (linked.setLk 1 { upLk with replays := 7 }) (fun t => decide ((t.lk 1).mode = .training) || (t.lk 1).replays == 8)] = true := by decide +kernel

/-! ## Remote moves, signals and records -/

/-- A header of link 1 from sender 3 to hoop 0, the first message of the session; the hoop admits the sender. -/
def hdr1 : MsgHdr := ⟨1, 0, 3, 0, 0, 0, 0⟩
def admits1 : State := linked.setReg (R.LK_HOOP_MAP 1 0) 0x80000
def remote (role : RemoteRole) : Remote := { remoteOf hdr1 2 9 5 77 role with size := 4096, kind := 1 }
def moving (role : RemoteRole) : State := { admits1.setObj 5 held5 with remotes := [remote role], flights := [InFlight.of 9 ⟨0, 1, 5, 2⟩ 0 false] }

def holds (r : Remote) : State := { moving .pushInit with remotes := [r] }
/-- A MOVE of object 5 to package 2, which link 1 reaches. -/
def sends : State := { linked with cqs := (mvHead held5 (setBytes (mvCmd 5) 22 2 2)).cqs, objs := [(5, { held5 with tileDflt := ⟨.valid, 0⟩ })], regs := linked.regs ++ [(cqCtrl 0 1, 0x1061)] }

theorem test_MovesRangesAndCommits_remote : sends.moveCheck ⟨0, 1, 5, withChecksum (setBytes (mvCmd 5) 22 2 2)⟩ = 0 ∧
    ok (.move 0 1 []) sends (fun t => t.remotes.any (fun r => decide (r.role = .pushInit) && r.obj == 5) && t.flights.any (fun f => !f.done)) = true := by decide +kernel

theorem test_RemoteMoveMessages : allOk [
    ok (.moveReq hdr1 false 77 1 4096 0 0 false false) admits1 (fun t => (t.obj 1).used && t.remotes.any (fun r => decide (r.role = .inbound) && r.obj == 1 && r.peerHandle == 77)),
    ok (.moveReq hdr1 true (w32 (has5.handleOf 5)) 1 4096 0 0 false false) (admits1.setObj 5 { held5 with tileDflt := ⟨.valid, 0⟩ }) (fun t => t.remotes.any (fun r => decide (r.role = .lent) && r.obj == 5)),
    ok (.pullReq hdr1) (moving .pushInit) (fun t => t.remotes.any (fun r => r.prepared)),
    ok (.prepared hdr1 88 0 0 0 4096 false) (moving .pushInit) (fun t => t.flights.isEmpty && !(t.obj 5).used || (t.obj 5).tier == 5 || t.flights.any (fun f => f.done)),
    ok (.pullReq hdr1) (holds { remote .pushInit with alloc := 7 }) (fun t => (t.session 2).unacked.length + (t.session 2).queued.length == 1),
    ok (.pullReq hdr1) (holds { remote .lent with alloc := 7 }) (fun t => (t.session 2).unacked.length + (t.session 2).queued.length == 2),
    ok (.prepared hdr1 88 0 0 0 4096 false) (moving .returnInit) (fun t => t.remotes.any fun r => r.prepared), ok (.prepared hdr1 88 0x202 0 0 4096 false) (moving .returnInit) (fun t => t.flights.isEmpty),
    ok (.refused hdr1 false) (moving .pushInit) (fun t => t.flights.isEmpty && t.reg (R.CMD_FAULT_COUNT 0) == 1),
    ok (.committed hdr1) (moving .inbound) (fun t => t.remotes.isEmpty && (t.obj 5).tier == 2 && (t.obj 5).homed && (t.obj 5).size == 4096),
    ok (.committed hdr1) (moving .lent) (fun t => t.remotes.isEmpty && !(t.obj 5).used),
    ok (.cancel hdr1) (moving .inbound) (fun t => t.remotes.isEmpty && !(t.obj 5).used), ok (.cancel hdr1) (moving .lent) (fun t => t.remotes.isEmpty && (t.obj 5).used)] = true := by
  decide +kernel

/-- A tile that arrives whole: what PULL_DATA's hypotheses ask for. -/
theorem test_RemoteMoveMessages_tiles : (List.replicate 4096 (0 : Byte)).length = 4096 ∧ (moving .inbound).taggedRemote 2 hdr1 [.inbound] = some (remote .inbound) ∧
    (moving .returnInit).taggedRemote 2 hdr1 [.inbound] = none ∧ (moving .returnInit).replyTo 2 hdr1 = some (remote .returnInit) ∧ (moving .lent).noticedRemote 2 hdr1 = some (remote .lent) ∧ (remote .inbound).got.contains 0 = false ∧ 0 < ceilDiv (remote .inbound).size 4096 := ⟨by rw [List.length_replicate], by decide +kernel, by decide +kernel, by decide +kernel, by decide +kernel, by decide, by decide⟩

theorem test_SignalsRecordsAndSessions : allOk [
    ok (.knotSig { hdr1 with dseq := 1 } 9 0 5) admits1 (fun t => t == admits1), ok (.knotSig hdr1 9 0 5) admits1 (fun t => t.knot 0 9 == 5 && (t.session 2).rxDseq == 1),
    ok (.knotSig hdr1 9 1 5) (admits1.setKnot 0 9 3) (fun t => t.knot 0 9 == 0), ok (.knotSig hdr1 9 0 5) linked (fun t => t.knot 0 9 == 0 && t.reg (R.LK_IN_REFUSED 1) == 1),
    ok (.eventFwd hdr1 1 5) admits1 (fun t => (t.hoop 0).seq == 1),
    ok (.peerNewSession 2) admits1 (fun t => (t.lk 1).sessionNew && (t.lk 1).epoch == 2 && (t.session 2).rxDseq == 0),
    ok (.peerUnreachableTimeout 2) ((moving .pushInit).setSession 2 { Session.dflt with lostSince := some 9 }) (fun t => t.flights.length == 1),
    ok (.peerUnreachableTimeout 2) { (moving .pushInit).setSession 2 { Session.dflt with lostSince := some 1 } with
      remotes := [], flights := [InFlight.of 9 ⟨0, 1, 5, fieldsOf 512 [(0, 1, 4), (16, 2, 9), (19, 1, 1), (24, 1, 2)]⟩ 0 true], ts := { up.ts with base := 65536 * 16001 } } (fun t => t.flights.isEmpty),
    ok (.peerUnreachableTimeout 2) { (moving .pushInit).setSession 2 { Session.dflt with lostSince := some 1 } with ts := { up.ts with base := 65536 * 16001 } } (fun t => t.flights.isEmpty)] = true := by decide +kernel

/-! ## The eyelet island -/

/-- The island ON with its engines off or on; channel 3 (a PDM source) alone in group 2; the group listening. -/
def isl (en : W32) : State := (((up.setReg (R.BLOCK_STATE (pageOf .island 0)) 2).setReg R.ISL_CTRL en).setReg R.RING_NCH 4).setReg R.RING_FRAMES 2849
def chan3 : State := (isl 1).setReg (R.RCH 3) 0x20000001
def listening : State := chan3.setReg (R.GRP_CTRL 2) 0x1001
def withFrame (s : State) : State := s.setChan 3 { Chan.dflt with frames := [Frame.dflt], fseq := 1 }

theorem test_IslandInputsAndMutes : allOk [
    ok (.pdmLineStuck 5) (isl 1) (fun t => t.reg R.PDM_STATUS == 32 && t.reg R.PDM_STUCK_COUNT == 1), ok (.pdmLineRecover 5) ((isl 1).setReg R.PDM_STATUS 33) (fun t => t.reg R.PDM_STATUS == 1),
    ok (.tdmPortLost 2 true) ((isl 1).setReg (R.TDM_STATUS 2) 1) (fun t => t.reg (R.TDM_STATUS 2) == 2 && t.reg (R.TDM_LOST_COUNT 2) == 1),
    ok (.tdmPortLocked 2) ((isl 1).setReg (R.TDM_CTRL 2) 1) (fun t => t.reg (R.TDM_STATUS 2) == 1), ok (.tdmPortLocked 2) (isl 1) (fun t => t.reg (R.TDM_STATUS 2) == 0),
    ok .hwMuteAssert (withFrame chan3) (fun t => t.island.hwMuted && t.island.clearing && (t.chan 3).frames.isEmpty && t.reg R.MUTE_COUNT == 1 && t.reg R.MUTE_STAMP_LO == 10),
    ok .hwMuteRelease { up with island := { Island.dflt with hwMuted := true } } (fun t => !t.island.hwMuted),
    ok .ringClearComplete { up with island := { Island.dflt with clearing := true } } (fun t => !t.island.clearing),
    ok (.islSwMuteWrite 0 0xF0001) (isl 1) (fun t => t.reg R.ISL_SW_MUTE == 0x10001), ok (.islClear 0 4) (withFrame chan3) (fun t => (t.chan 3).frames.length == 1),
    ok (.islClear 0 8) (withFrame chan3) (fun t => (t.chan 3).frames.isEmpty)] = true := by decide +kernel

/-- A RUN_PATTERN at the head with a SEGMENT binding in slots 0 to 3, from count 0 to 2; group 2 serves it. -/
def segCmd : Line := fieldsOf 512 [(0, 1, 1), (16, 4, has5.handleOf 5), (40, 4, 2)]
def toSegment (s : State) : State :=
  (s.setObj 5 { held5 with kind := 7, data := msetList 0 [] 0 (toBytes 40 (fieldsOf 320 [(8, 1, 1), (24, 4, 32), (33, 1, 1)])) }).setCq 0 1
    { Cq.dflt with mode := .running, head := some ⟨0, 1, 5, segCmd⟩ }
def segments : State := toSegment listening

theorem test_RingGroupsAndSegments : allOk [
    ok (.ringNchWrite 0 5) (withFrame (isl 0)) (fun t => t.reg R.RING_NCH == 5 && t.reg R.RING_FRAMES == 2279 && (t.chan 3).frames.isEmpty),
    ok (.ringNchWrite 0 5) (isl 1) (fun t => t.reg R.RING_NCH == 4), ok (.rchWrite 0 3 0x30000002) chan3 (fun t => t.reg (R.RCH 3) == 0x30000002),
    ok (.rchWrite 0 3 0x30000002) listening (fun t => t.reg (R.RCH 3) == 0x20000001), ok (.groupEnable 0 2 1) chan3 (fun t => t.grpOn 2),
    ok (.groupEnable 0 2 1) (isl 1) (fun t => !t.grpOn 2 && bit (t.reg R.ISL_STATUS) 10),
    ok (.ringFrame 3 (List.replicate 512 0)) { listening with island := { Island.dflt with hwMuted := true } } (fun t => (t.chan 3).fseq == 1 && (t.chan 3).frames.length == 1),
    segments.segSlots ⟨0, 1, 5, segCmd⟩ == [0], segments.segGroup ⟨0, 1, 5, segCmd⟩ == some 2, segments.reachedFirst (65536 * 2), !segments.segReached 2 2, !segments.segWaitOver 2,
    ok (.segmentReady 0 1 0) segments (fun t => t.cqs == segments.cqs), (toSegment chan3).segWaitOver 2, (toSegment chan3).freeIndex 0 == some 1, (toSegment chan3).segGroup ⟨0, 1, 5, segCmd⟩ == some 2,
    ok (.segmentReady 0 1 0) (toSegment chan3) (fun t => (t.obj 1).kind == 6 && (t.cq 0 1).segs == [(0, 1)] && t.reg R.SEG_COUNT == 1),
    chan3.grpOk 2, (isl 1).grpOk 2 == false, (filetDecode 5 3 (filetEncode 5 3 [9, -40, 700, -32768]).1).getLastD 5 == (filetEncode 5 3 [9, -40, 700, -32768]).2.1] = true := by decide +kernel

/-- A model of one layer, 16 weights over one frame of 16 bands, for detector 0, as object 5. -/
def image0 : SMap Byte :=
  msetList 0 [] 0 (toBytes 128 (fieldsOf 1024 [(0, 4, 0x4D56454D), (4, 2, 1), (7, 1, 1), (8, 1, 16), (10, 2, 1), (12, 4, 128), (24, 4, 16), (66, 1, 1), (67, 1, 1), (68, 2, 16), (70, 2, 1), (72, 4, 96), (76, 4, 112)]))
def hasModel (s : State) (size : Nat) : State :=
  ((s.setReg R.MODEL_RESULT 1).setObj 5 { held5 with size := size, data := image0, tileDflt := ⟨.valid, 0⟩ }).setReg R.MODEL_HANDLE (w32 (has5.handleOf 5))

theorem test_DetectorsAndModels : allOk [
    ok (.detectorHop 2 [List.replicate 160 0]) listening (fun t => t.regs == listening.regs), hopEnergy (List.replicate 160 3) == 1440,
    ((listening.setReg (R.DET_ARM 0) 0x3F800000).hopDet 2 0).det 2 0 == { Det.dflt with st := 0 },
    ok (.modelLoad 0) ((isl 1).setReg R.MODEL_RESULT 1) (fun t => t.reg R.MODEL_RESULT == 17), ok (.modelLoad 0) (((isl 1).setReg R.MODEL_RESULT 1).setReg R.MODEL_DET 2) (fun t => t.reg R.MODEL_RESULT == 65),
    modelOk image0 128 0, ok (.modelLoad 0) (hasModel (isl 1) 128) (fun t => t.reg R.MODEL_RESULT == 1 && (t.model 0).loaded), ok (.modelLoad 0) (hasModel (isl 1) 127) (fun t => t.reg R.MODEL_RESULT == 33),
    ok (.modelLoad 0) (hasModel listening 128) (fun t => t.reg R.MODEL_RESULT == 0 && (t.model 0).next.isSome),
    ok (.modelLoad 0) { hasModel (isl 1) 128 with pm := { up.pm with mode := .listen, computeUp := false } } (fun t => t.reg R.MODEL_RESULT == 81),
    ok (.modelUnload 0) (listening.setReg R.MODEL_RESULT 1) (fun t => t.reg R.MODEL_RESULT == 0 && (t.model 0).unload),
    ok (.modelUnload 0) ((isl 1).setReg R.MODEL_RESULT 1) (fun t => t.reg R.MODEL_RESULT == 1)] = true := by decide +kernel

/-! ## Camera pipelines -/

/-- Pipelines 1 and 2 ON, pipeline 1 bound to port 2, virtual channel 3. -/
def cam : State :=
  ((up.setReg (R.BLOCK_STATE (pageOf .pipeline 1)) 2).setReg (R.BLOCK_STATE (pageOf .pipeline 2)) 2).setReg (R.PIPE_BOUND 1) 0x1302
/-- RAW8, 4 by 4 pixels out of 6 by 4 sensor pixels; a frame in progress. -/
def camSet : SMap W32 :=
  [(R.FMT_CTRL 1, (0 : W32)), (R.FMT_SRC 1, 0x40006), (R.FMT_ORIGIN 1, 1), (R.FMT_SIZE 1, 0x40004)].foldl (fun m e => mset (regReset Part.reset e.1) m e.1 e.2) []
def camFrame : CamFrame := ⟨7, 9, 0, 0, 0, [], 0, 0, 0, 600000, 0, camSet, 1, false⟩
def exposing : State := cam.setPipe 1 { Pipe.dflt with set := camSet, frame := some camFrame, starts := 7 }

/-- The same with the first tap enabled. -/
def tapSet : SMap W32 := mset (regReset Part.reset (R.TAP_CTRL 1 0)) camSet (R.TAP_CTRL 1 0) 1
def tapped : State := cam.setPipe 1 { Pipe.dflt with set := tapSet }

theorem test_CameraFrames : allOk [
    cam.portOn 2, cam.fedBy 2 3 == some 1,
    ok (.csiFrameStart 2 3 2 9) cam (fun t => (t.pipe 1).frame.isNone && t.reg (R.HDR_ECC_DROP 2) == 1),
    ok (.csiFrameStart 2 3 0 9) (cam.setPipe 1 { Pipe.dflt with ended := List.replicate 64 camFrame }) (fun t => (t.pipe 1).frame.isNone && t.reg (R.LAST_DROP 1) == 4),
    ok (.csiFrameStart 2 3 0 9) (((tapped.setReg (R.OT_ENTRIES 0) 1))) (fun t => (t.pipe 1).frame.isNone && t.reg (R.LAST_DROP 1) == 3),
    !tapped.roomFor 0 2 0 (2 ^ 60), ok (.csiFrameStart 2 3 0 9) { tapped with allocs := [⟨.cmd 1, 0, 2, 0, 2 ^ 60, 0⟩] } (fun t => t.reg (R.LAST_DROP 1) == 2),
    ok (.csiLine 2 3 0 0x2A true [1, 2, 3, 4, 5, 6] 0) (exposing.setPipe 1 { exposing.pipe 1 with frame := some { camFrame with set := mset 0 camSet (R.FMT_ORIGIN 1) 0x10000 } })
      (fun t => match (t.pipe 1).frame with | some f => f.received == 1 && f.lines.isEmpty | none => false),
    ok (.frameCommit 1) ((tapped.setReg (R.OT_ENTRIES 0) 1).setPipe 1 { Pipe.dflt with ended := [{ camFrame with set := tapSet }] }) (fun t => (t.pipe 1).ended.isEmpty && t.reg (R.LAST_DROP 1) == 3),
    ok (.csiFrameStart 2 3 0 9) (cam.setPipe 1 { Pipe.dflt with next := some camSet }) (fun t => match (t.pipe 1).frame with | some f => f.fseq == 1 && f.csi == 9 && f.set == camSet | none => false),
    ok (.csiLine 2 3 0 0x2A true [1, 2, 3, 4, 5, 6] 0) exposing (fun t => match (t.pipe 1).frame with | some f => f.received == 1 && f.lines == [[512, 768, 1024, 1280]] | none => false),
    ok (.csiLine 2 3 0 0x2B true [1, 2, 3, 4, 5, 6] 0) exposing (fun t => t.reg (R.PORT_DT_DROPS 2) == 1),
    ok (.csiLine 2 3 0 0x2A true [1, 2, 3, 4, 5, 6] 196600) exposing (fun t => (t.pipe 1).frame.isNone && t.reg (R.LAST_DROP 1) == 1),
    ok (.csiFrameEnd 2 3 0) exposing (fun t => (t.pipe 1).frame.isNone && (t.pipe 1).ended.length == 1),
    ok (.frameTimeout 1) (exposing.setReg (R.FRAME_TIMEOUT 1) 50) (fun t => (t.pipe 1).frame.isNone), ok (.frameTimeout 1) (exposing.setReg (R.FRAME_TIMEOUT 1) 51) (fun t => (t.pipe 1).frame.isSome),
    ok (.frameCommit 1) (exposing.setPipe 1 { Pipe.dflt with ended := [camFrame] }) (fun t => (t.pipe 1).ended.isEmpty && t.reg (R.FSEQ 1) == 7)] = true := by decide +kernel

/-- A memory job on object 5, on a pipeline without a live source; and object 5 as the argument of MEM_RUN. -/
def job (handle : Nat) : State :=
  ((cam.setReg (R.PIPE_BOUND 1) 0).setObj 5 { held5 with tileDflt := ⟨.valid, 0⟩ }).setPipe 1 { Pipe.dflt with mem := some ⟨5, handle, camSet, [], 0, true⟩ }
def rawFrame : Obj :=
  { held5 with kind := 5, size := 8192, tileDflt := ⟨.valid, 0⟩,
               data := msetList 0 [] 0 (toBytes 28 (fieldsOf 224 [(0, 4, 0x4D564652), (4, 2, 1), (7, 1, 8), (8, 1, 0xF0), (9, 1, 1), (16, 2, 4), (18, 2, 4), (20, 4, 64), (24, 4, 4)])) }
def runs (o : Obj) : State := (cam.setObj 5 o).setReg (R.PIPE_ARG 1) (w32 (has5.handleOf 5))

theorem test_CameraPageCommands : allOk [
    ok (.bind 0 1) (cam.setReg (R.PIPE_ARG 1) 0x302) (fun t => t.reg (R.PIPE_RESULT 1) == 65), ok (.bind 0 1) ((cam.setReg (R.PIPE_BOUND 1) 0).setReg (R.PIPE_ARG 1) 0x302) (fun t =>
      t.reg (R.PIPE_RESULT 1) == 1 && t.reg (R.PIPE_BOUND 1) == 0x1302),
    ok (.unbind 0 1) exposing (fun t => t.reg (R.PIPE_RESULT 1) == 1 && !bit (t.reg (R.PIPE_BOUND 1)) 12 && (t.pipe 1).frame.isNone),
    ok (.memRun 0 1) cam (fun t => t.reg (R.PIPE_RESULT 1) == 145),
    ok (.memRun 0 1) (cam.setPipe 1 { Pipe.dflt with mem := some ⟨5, 77, camSet, [], 0, true⟩ }) (fun t => t.reg (R.PIPE_RESULT 1) == 129),
    ok (.memAbort 0 1) (cam.setPipe 1 { Pipe.dflt with mem := some ⟨5, 77, camSet, [], 0, true⟩ }) (fun t => (t.pipe 1).mem.isNone && t.reg (R.MEM_RESULT 1) == 49),
    (job 77).memTurn 1, (job (has5.handleOf 5)).resolve 0 (has5.handleOf 5) == some 5, ((job 5).outsOf 1 camSet).isEmpty,
    ok (.memJobCommit 1) (job (has5.handleOf 5)) (fun t => (t.pipe 1).mem.isNone && t.reg (R.MEM_RESULT 1) == 1 && t.reg (R.MEM_SEQ 1) == 1),
    (runs rawFrame).memOk 5, ok (.memRun 0 1) (runs rawFrame) (fun t => t.reg (R.PIPE_RESULT 1) == 1 && t.reg (R.MEM_RESULT 1) == 0 && match (t.pipe 1).mem with | some j => j.obj == 5 | none => false),
    ok (.memRun 0 1) (runs held5) (fun t => t.reg (R.PIPE_RESULT 1) == 145), ok (.memRun 0 1) ((runs rawFrame).setReg (R.BLOCK_STATE (pageOf .pipeline 1)) 1) (fun t => t.pipes.isEmpty),
    ok (.memRun 0 1) ((runs rawFrame).setReg (R.BLOCK_STATE (pageOf .pipeline 1)) 0x105) (fun t => t.reg (R.PIPE_RESULT 1) == 17),
    ok (.memJobCommit 1) (job 77) (fun t => (t.pipe 1).mem.isNone && t.reg (R.MEM_RESULT 1) == 17),
    ok (.pipeApply 0 1) (camSet.foldl (fun s e => s.setReg e.1 e.2) cam) (fun t => (t.pipe 1).next == some camSet && (t.pipe 1).set.isEmpty),
    ok (.pipeApply 0 1) (cam.setReg (R.FMT_SIZE 1) 0x10001) (fun t => t.pipes.isEmpty && bit (t.reg (R.PIPE_STATUS 1)) 5)] = true := by decide +kernel

/-! ## The root of trust -/

/-- The root of trust in OPERATIONAL with page 0's and page 2's DONE set; its object 5 is DATA in T2; a Crypto Officer is authenticated. -/
def rotUp (s : State) : State := { ((s.setReg (R.MB_RESULT 0) 1).setReg (R.MB_RESULT 2) 1) with rot := { RoT.dflt with mode := .operational } }
def rot0 : State := rotUp up
def coUp : State := { rot0 with rot := { rot0.rot with coKey := some [1], coAuth := some 600000, fuse := 2, running := [(1, some ⟨0, 3, 1, 0⟩)] } }
def data5 : Obj := { held5 with kind := 0 }
def names5 (s : State) : State := (s.setObj 5 data5).setReg (R.MB_ARG 0 0) (w32 (has5.handleOf 5))

theorem test_SealedPackagesOpen : allOk [
    (atTheHead (fieldsOf 512 [(0, 1, 10), (24, 1, 2)])).headOp 0 1 10 == some ⟨0, 1, 5, withChecksum (fieldsOf 512 [(0, 1, 10), (24, 1, 2)])⟩,
    ok (.sealLoad 0 1 []) (atTheHead (fieldsOf 512 [(0, 1, 10), (24, 1, 2)])) (fun t => t.reg (R.SEAL_FAIL_COUNT 0) == 1 && t.reg (R.CMD_FAULT_COUNT 0) == 1 && (t.cq 0 1).head == none)] = true := by
  decide +kernel

theorem test_MailboxCommands : allOk [
    rot0.accepts 0 (R.MB_CMD 0), rot0.accepts 0 (R.MB_CMD 2), ok (.coChallenge 0 2) rot0 (fun t => t.reg (R.MB_RESULT 2) == 49), ok (.attest 0 0) rot0 (fun t => t.reg (R.MB_RESULT 0) == 17),
    (names5 rot0).mbObject 0 == some 5,  ok (.attest 0 0) ((names5 rot0).setObj 5 { data5 with size := 64 }) (fun t => t.reg (R.MB_RESULT 0) == 81),
    ok (.extend 0 0) rot0 (fun t => t.reg (R.MB_RESULT 0) == 1),
    ok (.selfTest 0 0 true) rot0 (fun t => t.reg (R.MB_RESULT 0) == 1),
    ok (.coChallenge 0 0) rot0 (fun t => t.rot.drbg == 1 && t.rot.challenge.isSome),
    ok (.coAuth 0 0 []) { rot0 with rot := { rot0.rot with coHold := some 600000 } } (fun t => t.reg (R.MB_RESULT 0) == 49),
    ok (.coAuth 0 0 []) { names5 rot0 with rot := { rot0.rot with coFails := 2 } } (fun t => t.reg (R.MB_RESULT 0) == 97 && t.rot.coHold == some 650000 && t.rot.coFails == 0),
    ok (.coLogout 0 0) coUp (fun t => t.rot.coAuth == none), ok (.enrollCo 0 0 []) { coUp with rot := { coUp.rot with coAuth := none } } (fun t => t.reg (R.MB_RESULT 0) == 49),
    ok (.enrollCo 0 0 []) (names5 rot0) (fun t => t.rot.coKey == some (List.replicate 97 0)), ok (.advanceSvn 0 0) rot0 (fun t => t.reg (R.MB_RESULT 0) == 49),
    ok (.advanceSvn 0 0) (coUp.setReg (R.MB_ARG 0 0) 0x301) (fun t => t.reg (R.MB_RESULT 0) == 1 && fld t.rot.fuse 8 8 == 3),
    ok (.advanceSvn 0 0) (coUp.setReg (R.MB_ARG 0 0) 0x401) (fun t => t.reg (R.MB_RESULT 0) == 113 && fld t.rot.fuse 8 8 == 0),
    ok (.zeroise 0 0) coUp (fun t => t.reg (R.MB_RESULT 0) == 33), ok (.zeroise 0 0) (coUp.setReg (R.MB_ARG 0 0) 0x5A45524F) (fun t => t.rot.zeroised && t.rot.coKey == none && !t.rot.sealCert)] = true := by
  decide +kernel

/-- Object 5 of hoop 0, named by MB_ARG[0], of `n` bytes. -/
def sized (n : Nat) : State := (names5 rot0).setObj 5 { data5 with size := n }

/-- Some size holds the chain, whatever the certificates are. -/
theorem test_ChainFits : ∃ n, (sized n).mbObject 0 = some 5 ∧ (sized n).chain.length ≤ ((sized n).obj 5).size := ⟨rot0.chain.length, rfl, Nat.le_refl _⟩

def soft (n : Nat) : State := { rot0 with rot := { rot0.rot with mode := .softError, retests := n, softSince := 0 } }
def softOver : State := { soft 1 with now := 10000000000 }

theorem test_ErrorStatesAndTheTap : allOk [
    ok .entropyTestFail rot0 (fun t => decide (t.rot.mode = .softError) && t.rot.softSince == 650000), ok (.entropyRetest false) (soft 2) (fun t => t.rot.retests == 0),
    ok (.entropyRetest true) (soft 1) (fun t => t.rot.retests == 2), ok (.entropyRetest true) (soft 2) (fun t => decide (t.rot.mode = .operational)),
    ok .softErrorTimeout (soft 1) (fun t => decide (t.rot.mode = .softError)), decide (softOver.rot.softSince + 10000000000 ≤ softOver.now), ok .softErrorTimeout softOver (fun t => decide (t.rot.mode = .criticalError)),
    ok .coAuthExpiry { coUp with now := 3600000600000 } (fun t => t.rot.coAuth == none), ok .coAuthExpiry coUp (fun t => t.rot.coAuth.isSome),
    ok .coAuthHoldoffEnd { rot0 with rot := { rot0.rot with coHold := some 0 }, now := 60000000000 } (fun t => t.rot.coHold == none),
    ok .coAuthHoldoffEnd { rot0 with rot := { rot0.rot with coHold := some 0 } } (fun t => t.rot.coHold.isSome),
    ok (.jtagInstruction 1) rot0 (fun t => t.rot.jtag == 1 && t.readData == 0x04D3274F), ok (.jtagInstruction 3) rot0 (fun t => t.rot.jtag == 3 && t.rot.debugUsed),
    ok (.jtagInstruction 3) { rot0 with rot := { rot0.rot with fuse := 16 } } (fun t => t.rot.jtag == 0 && !t.rot.debugUsed)] = true := by decide +kernel

def inSession (n : Nat) (s : State) : State := { s with rot := { s.rot with session := n } }

theorem test_SpdmRequests : allOk [
    ok .getVersion rot0 (fun t => t.rot.answer == .version), ok .getVersion up (fun t => t.rot.answer == .error), ok .getCapabilities rot0 (fun t => t.rot.answer == .capabilities),
    ok .negotiateAlgorithms rot0 (fun t => t.rot.answer == .algorithms), ok .getDigests up (fun t => t.rot.answer == .error), ok .getCertificate up (fun t => t.rot.answer == .error),
    ok (.challenge 5) up (fun t => t.rot.answer == .error), ok .getMeasurements up (fun t => t.rot.answer == .error), ok (.keyExchange [4]) rot0 (fun t => t.rot.session == 1 && t.rot.drbg == 1),
    ok (.finish true) (inSession 1 rot0) (fun t => t.rot.session == 2), ok (.finish false) (inSession 1 rot0) (fun t => t.rot.session == 1 && t.rot.answer == .error),
    ok .endSession (inSession 2 rot0) (fun t => t.rot.session == 0), ok .endSession rot0 (fun t => t.rot.answer == .error),
    ok (.keyProg 6) (inSession 2 rot0) (fun t => t.rot.answer == .unauthorised), ok (.keyProg 6) (inSession 2 coUp) (fun t => t.rot.ide == [6]),
    ok (.keyProg 16) (inSession 2 { coUp with rot := { coUp.rot with ide := List.range' 0 1 ++ List.range' 20 16 } }) (fun t => t.rot.answer == .error && t.rot.ide.length == 17)] = true := by decide +kernel

/-! ## Power states, wakes, levels and resets -/

def inMode (m : PmMode) : State := { up with pm := { up.pm with mode := m } }
def entering (target : Nat) (work : Bool) : State := { up with pm := { up.pm with mode := .entering, target := target, draining := work, reqAt := 0 } }
def killed (target : Nat) (pme : Bool) : State := { up with pm := { (entering target false).pm with killed := true, pme := pme } }

theorem test_SleepRequestsAndEntry : allOk [
    up.reaches 0 R.PM_STATE_REQ, ok (.stateRequestDoze 0 true) up (fun t => decide (t.pm.mode = .entering) && t.pm.target == 2 && t.pm.draining),
    ok (.stateRequestOff 0 false) up (fun t => decide (t.pm.mode = .entering) && t.pm.target == 6), ok (.stateRequestListen 0 true) (entering 2 true) (fun t => t.reg R.PM_REQ_RESULT == 17),
    ok (.stateRequestActive 0 true) up (fun t => t.pm == up.pm), ok .drainComplete { entering 2 true with flights := (inFlight 0x100).flights } (fun t => !t.pm.killed), ok .drainComplete (entering 2 true) (fun t => t.pm.killed && !t.pm.computeUp),
    ok .drainTimeout { entering 2 true with now := 10 ^ 12 } (fun t => t.reg R.PM_REQ_RESULT == 81 && decide (t.pm.mode = .active)), ok .pmeTurnOff (entering 3 false) (fun t => t.pm.pme),
    ok .pmeTimeout { entering 3 false with now := 10 ^ 12 } (fun t => t.reg R.PM_REQ_RESULT == 129 && decide (t.pm.mode = .active)), ok (.entryComplete 0) (entering 2 true) (fun t => t.pm == (entering 2 true).pm),
    decide ((killed 6 true).pm.mode = .entering) && (killed 6 true).pm.killed && (killed 6 true).pm.pme] = true := by decide +kernel

/-- The witness of SleepRequestsAndEntry's last clause: an entry to DOZE completes. -/
theorem test_SleepRequestsAndEntry_done : allOk [
    ok (.entryComplete 0) { killed 2 false with regs := [] } (fun t => decide (t.pm.mode = .doze) && t.reg R.PM_REQ_RESULT == 1)] = true := by decide +kernel

/-- In LISTEN, with pin 1 a level wake, asserted high and enabled. -/
def listens : State := (inMode .listen).setReg R.PM_WAKE_CTRL 0x220

/-- In LISTEN with a pricking engine whose one entry wakes the package for stitch `target`. -/
def dozing (target : Nat) : State :=
  { pricking with pm := { up.pm with mode := .listen }, pricks := [(0, { pricking.prick 0 0 with entries := [setBytes (setBytes (0 : BitVec 256) 0 8 target) 9 1 1] })] }

theorem test_WakesAndExit : allOk [
    (dozing 1).wakeTargets.length == 1, ok .prickingWake (dozing 1) (fun t => decide (t.pm.mode = .exiting) && fld (t.reg R.PM_WAKE_STATUS) 8 4 == 6),
    ok .prickingWake (dozing 1000000) (fun t => decide (t.pm.mode = .listen)),
    ok (.exitComplete 9) (inMode .exiting) (fun t => t.now == 650009),
    ok .prickingWake listens (fun t => decide (t.pm.mode = .listen)), ok (.wakeInEvent 0 true) listens (fun t => decide (t.pm.mode = .listen) && bit (t.reg R.PM_WAKE_STATUS) 0),
    ok (.wakeInEvent 1 true) listens (fun t => decide (t.pm.mode = .exiting) && t.pm.wakes == [3] && fld (t.reg R.PM_WAKE_STATUS) 8 4 == 3),
    ok (.wakeStuck 1) (({ up with now := 10 ^ 9 }.setReg R.PM_WAKE_CTRL 0xA000220).setReg R.PM_WAKE_STATUS 2) (fun t => bit (t.reg R.PM_WAKE_STATUS) 5 && t.reg R.WAKE_STUCK_COUNT == 1),
    ok (.wakeStuckClear 1) ({ up with now := 10 ^ 9 }.setReg R.PM_WAKE_STATUS 32) (fun t => t.reg R.PM_WAKE_STATUS == 0), ok (.wakeStuckClear 1) (up.setReg R.PM_WAKE_STATUS 34) (fun t => t.reg R.PM_WAKE_STATUS == 34),
    decide ((inMode .exiting).pm.mode = .exiting), ok .powerGoodTimeout up (fun t => decide (t.pm.mode = .active)),
    up.supplyOn 0, ok (.powerGoodLost 0) (inMode .off) (fun t => decide (t.pm.mode = .off)),
    ok .idleEntry up (fun t => decide (t.pm.mode = .idle))] = true := by decide +kernel

theorem test_LevelsCapAndHeat : allOk [
    ok (.plTargetWrite 0 2 9) up (fun t => t.reg (R.PL_TARGET 2) == 7), ok (.levelChangeDone 2) (up.setReg (R.PL_TARGET 2) 3) (fun t => mget 0 t.pm.inForce 2 == 3),
    ok (.pmMemLevelWrite 0 3) up (fun t => fld (t.reg R.PM_MEM_LEVEL) 0 2 == 2), ok .memLevelChangeDone (up.setReg R.PM_MEM_LEVEL 1) (fun t => t.pm.memForce == 1),
    ok (.powerMeasure 500) (up.setReg R.PM_CAP_MW 1000) (fun t => t.pm.powers == [500] && t.reg R.PM_POWER_MW == 500),
    up.capNext == some 7, ok (.powerMeasure 990) (up.setReg R.PM_CAP_MW 1000) (fun t => t.capCeil 7 == 1 && t.pm.alert && t.pm.capAt == 650000),
    ok (.powerMeasure 970) (up.setReg R.PM_CAP_MW 1000) (fun t => t.pm.capCeil == up.pm.capCeil),
    ok (.thermalStep [110, 0, 0, 0, 0, 0, 0, 0] [0, 0, 0, 0, 0, 0] [0, 0]) { up with now := 10 ^ 6 } (fun t => t.thermCeil 0 == 1 && t.thermCeil 1 == 0),
    ok .thermalTrip up (fun t => decide (t.pm.mode = .off) && t.pm.tripped && t.reg R.RESET_CAUSE == 4)] = true := by decide +kernel

theorem test_ResetsAndBoot : allOk [
    up.reaches 0 R.PM_RESET,
    ok (.coldReset 0) up (fun t => t.reg R.RESET_CAUSE == 1 && t.now == 0 && t.pm == Pm.dflt), ok (.coldReset 1) up (fun t => t.reg R.RESET_CAUSE == 2),
    ok (.coldReset 2) up (fun t => t.reg R.RESET_CAUSE == 5), ok (.coldReset 3) (inMode .off) (fun t => t.reg R.RESET_CAUSE == 3),
    decide (up.pm.tripped = false)] = true := by decide +kernel

theorem test_ClockStopsAndBoot : allOk [
    ok .sysclkStop up (fun t => decide (t.pm.mode = .off) && t.pm.clockStopped), ok .sysclkReturn { up with pm := { up.pm with clockStopped := true } } (fun t => t.reg R.RESET_CAUSE == 5),
    decide ((inMode .boot).pm.mode = .boot)] = true := by decide +kernel

theorem test_BootCompletes : allOk [
    ok (.bootComplete [(1, 0, 3, 1, 0)] 5) (inMode .boot) (fun t => t.now == 650005), State.reset.svnOk 1 3] = true := by decide +kernel

theorem test_ResetsWarmAndClocks : allOk [
    ok .warmReset up (fun t => t.reg R.RESET_CAUSE == 6),
    ok .sysclkReturn { up with pm := { up.pm with clockStopped := true, tripped := true } } (fun t => !t.pm.clockStopped && t.regs == up.regs),
    ok (.coldReset 1) { up with pm := { up.pm with tripped := true } } (fun t => t.reg R.RESET_CAUSE == 4),
    ok (.bootComplete [] 0) State.reset (fun t => decide (t.pm.mode = .boot)),
    ok .audclkStop (up.setReg (R.BLOCK_STATE (pageOf .island 0)) 2) (fun t => t.reg R.PDM_STATUS == 0),
    ok .audclkStop ((up.setReg (R.BLOCK_STATE (pageOf .island 0)) 2).setReg (R.RCH 3) 1) (fun t => t.reg R.PDM_STATUS == 0xFFFF)] = true := by decide +kernel

/-- R524, R576: slot A is preferred, the recovery device comes last, and first for the root of trust when the strap is high. -/
theorem test_bootImage :
    let a : Nat × FwImage := (1, ⟨0, 1, 1, 0⟩)
    let b : Nat × FwImage := (1, ⟨1, 1, 1, 0⟩)
    let r : Nat × FwImage := (1, ⟨2, 1, 1, 0⟩)
    (bootImage false [r, b, a] 1, bootImage false [r, b] 1, bootImage true [a, r] 1, bootImage false [a] 2) = (some a, some b, some r, none) := by decide

/-! ## Live update, dies and lanes, memory errors, telemetry, and the SMBus port -/

def svcUp (a0 a1 : W32) : State := (((names5 up).setReg R.SVC_RESULT 1).setReg (R.SVC_ARG 0) a0).setReg (R.SVC_ARG 1) a1
def image (slot : Nat) : Option FwImage := some ⟨slot, 3, 1, 0⟩
/-- The link controller (2) has its image staged, activated, or on trial. -/
def fw (phase : Nat) : State :=
  { (svcUp 2 (w32 (has5.handleOf 5))).setReg R.FW_STATUS (w32 (2 + 16 * phase)) with
    svc := { Svc.dflt with slotB := some 2, trialAt := 600000, activateAt := 600000 },
    rot := { rot0.rot with slots := [(8, image 0), (9, image 1)], running := [(2, image 1)] } }

theorem test_FirmwareUpdates : allOk [
    (fw 3).accepts 0 R.SVC_CMD, (fw 3).fwPhase == 3, (svcUp 2 (w32 (has5.handleOf 5))).svnOk 2 3, ok (.fwStage 0 (some (2, 3, 1)) []) (svcUp 2 (w32 (has5.handleOf 5))) (fun t => t.reg R.SVC_RESULT == 1 && t.fwPhase == 1 && t.svc.slotB == some 2),
    (fw 2).safePoint 2, ok .fwSafePoint { fw 2 with sessions := [] } (fun t => t.fwPhase == 3), ok .fwSafeTimeout { fw 2 with now := 10 ^ 12 } (fun t => t.fwPhase == 1 && t.reg R.SVC_RESULT == 97),
    ((fw 3).setReg R.FW_STATUS 0x31).fwCtl == 1, (fw 3).fwCtl == 2, ok (.fwStage 0 none []) (fw 1) (fun t => t.reg R.SVC_RESULT == 17),
    ok (.fwStage 0 none []) (svcUp 7 0) (fun t => t.reg R.SVC_RESULT == 161), ok (.fwStage 0 none []) (svcUp 2 0) (fun t => t.reg R.SVC_RESULT == 33),
    ok (.fwStage 0 none []) (svcUp 2 (w32 (has5.handleOf 5))) (fun t => t.reg R.SVC_RESULT == 49),
    ok (.fwActivate 0) (fw 2) (fun t => t.reg R.SVC_RESULT == 17), ok (.fwActivate 0) (svcUp 0 0) (fun t => t.reg R.SVC_RESULT == 65),
    ok (.fwActivate 0) (fw 1) (fun t => t.fwPhase == 2 && t.reg R.SVC_RESULT == 0 && t.svc.activateAt == 650000),
    ok (.fwConfirm 0) (fw 1) (fun t => t.reg R.SVC_RESULT == 81), ok (.fwConfirm 0) (fw 3) (fun t => t.fwPhase == 0 && t.svc.slotB == none && mget none t.rot.running 2 == image 0),
    ok (.fwRevert 0) (fw 3) (fun t => t.fwPhase == 0 && bit (t.reg R.FW_STATUS) 8 && mget none t.rot.running 2 == image 0),
    ok .fwSafePoint (fw 2) (fun t => t.fwPhase == 3 && t.reg R.SVC_RESULT == 1), ok .fwSafeTimeout (fw 2) (fun t => t.fwPhase == 2),
    ok .heartbeatMissed (fw 3) (fun t => t.fwPhase == 0 && bit (t.reg R.FW_STATUS) 8), ok .trialExpiry (fw 3) (fun t => t.fwPhase == 3)] = true := by decide +kernel

def core5 : Fin 16384 := Fin.ofNat _ (pageOf .core 5 / 4096)

/-- DIE_FENCE and DIE_RETURN of die 3 of stack 1, with some dies fenced and one perhaps being copied. -/
def dieUp (copy : Option Nat) (dies : List Nat) : State := (svcUp 0x301 0).setSk 1 { Skein.dflt with ready := true, dieCopy := copy, fencedDies := dies }

theorem test_RepairsAndErrors : allOk [
    ok (.dieFence 0 []) (svcUp 9 0) (fun t => t.reg R.SVC_RESULT == 161), (svcUp 0x301 0).svcDie.isSome, ((svcUp 0x301 0).sk 1).dieCopy == none,
    ok (.dieFence 0 []) (dieUp (some 2) []) (fun t => t.reg R.SVC_RESULT == 17), ok (.dieReturn 0 true) (dieUp (some 2) []) (fun t => t.reg R.SVC_RESULT == 17),
    ok (.dieReturn 0 true) (dieUp none [3]) (fun t => t.reg R.SVC_RESULT == 1 && (t.sk 1).fencedDies.isEmpty), ok (.dieReturn 0 false) (dieUp none [3]) (fun t => (mget Skein.dflt t.skeins 1).fencedDies == [3]),
    ok (.dieFence 0 []) ((dieUp none (List.range' 4 12 ++ [0, 1, 2])).setObj 5 { held5 with tier := 3, place := 2 }) (fun t => t.reg R.SVC_RESULT == 145),
    ok (.laneFence 0) ((svcUp 0x2001 0).setLk 1 { upLk with mode := .standby }) (fun t => decide ((t.lk 1).mode = .training)),
    (svcUp 9 0).svcLanes == none,
    ok (.eccError core5 true 0 none none) ((up.setReg (R.RAS_CE_LIMIT 0) 1).setReg (R.BLOCK_CTRL (pageOf .service 0)) 3) (fun t => bit (t.reg R.RAS_STATUS) 0),
    ok (.eccError core5 false 0 (some (0, 5, 0)) none) { up.setObj 5 held5 with moves := [carried rng 0] } (fun t => t.moves.all fun m => m.bad == [0]), ok (.dieFence 0 []) (svcUp 0x301 0) (fun t => t.reg R.SVC_RESULT == 1 && (t.sk 1).fencedDies.length == 1),
    ok (.dieReturn 0 true) (svcUp 9 0) (fun t => t.reg R.SVC_RESULT == 161), (svcUp 0x2001 0).svcLanes == some (1, 32), ok (.laneFence 0) (svcUp 0x2001 0) (fun t => (t.lk 1).lanesOut == 32), ok (.laneReturn 0) (svcUp 0x2001 0) (fun t => (t.lk 1).lanesOut == 0),
    headerAt core5 == some (Blk.core, 5), ok (.eccError core5 true 0 none none) up (fun t => t.reg (R.SRAM_ECC_CORR 5) == 1 && t.reg (R.RAS_CE 0) == 1),
    ok (.eccError core5 false 0 (some (0, 5, 0)) none) (up.setObj 5 held5) (fun t => decide (((t.obj 5).tile 0).st = .poisoned)),
    ok (.sramPatrol []) up (fun t => t == up)] = true := by decide +kernel

theorem test_TelemetryAndSmbus : allOk [
    ok .telemetrySnapshot up (fun t => t.svc.snaps == 1 && t.reg R.TEL_SEQ_LO == 1), ok (.telSeqLoRead 0) up (fun t => t.svc.frozen),
    ok .telemetrySnapshot { up with svc := { Svc.dflt with frozen := true } } (fun t => t.svc.snaps == 1 && t.reg R.TEL_SEQ_LO == 0),
    ok (.telSeqHiRead 0) { up with svc := { Svc.dflt with frozen := true } } (fun t => !t.svc.frozen),
    ok .smbReadPmStatus up (fun t => t.svc.smb == w32 up.pmStatus), ok .smbReadDevPart up (fun t => t.svc.smb == w32 up.devPart),
    ok .smbAlertResponse { up with pm := { up.pm with alert := true } } (fun t => !t.pm.alert && t.svc.smb == 0x58)] = true := by decide +kernel

theorem test_ResetLeavesNothing : allOk [
    State.reset.pos == 0, State.reset.tsSrc == 0, State.reset.reg R.RESET_CAUSE == 1, decide ((State.reset.hoop 0).phase = .ready), decide ((State.reset.hoop 5).phase = .absent),
    decide ((State.reset.cq 0 0).mode = .disabled), !(State.reset.obj 5).used, State.reset.knot 2 9 == 0, decide ((State.reset.lk 1).mode = .down), State.reset.canonical] = true := by decide +kernel

end Sys2ProofTests
end

namespace Sys2Proof.Machine

/-! ## Scene time: what its shared operations leave -/

section SceneTimeOperations
variable (s : State) (a n : Nat) (t : SceneTime)

@[simp] theorem State.setTs_ts : (s.setTs t).ts = { t with floor := max t.floor s.pos } := rfl
@[simp] theorem State.advance_now : (s.advance n).now = s.now + n := rfl
@[simp] theorem State.addReg_part : (s.addReg a n).part = s.part := rfl
@[simp] theorem State.addReg_now : (s.addReg a n).now = s.now := rfl
@[simp] theorem State.addReg_sub : (s.addReg a n).sub = s.sub := rfl
@[simp] theorem State.addReg_ts : (s.addReg a n).ts = s.ts := rfl
@[simp] theorem State.addReg_pending : (s.addReg a n).pending = s.pending := rfl

@[simp] theorem State.reachCycle_part : (s.reachCycle n).part = s.part := by unfold State.reachCycle; split <;> rfl
@[simp] theorem State.reachCycle_ts : (s.reachCycle n).ts = s.ts := by unfold State.reachCycle; split <;> rfl
@[simp] theorem State.reachCycle_pending : (s.reachCycle n).pending = s.pending := by unfold State.reachCycle; split <;> rfl
@[simp] theorem State.reachCycle_now : (s.reachCycle n).now = max s.now n := by
  unfold State.reachCycle
  split
  · next h => exact (max_eq_right h.le).symm
  · next h => exact (max_eq_left (not_lt.mp h)).symm

/-- The cycles passed on the way change no register but CT_FULL_CYCLES. -/
theorem reg_reachCycle (h : a ≠ R.CT_FULL_CYCLES) : (s.reachCycle n).reg a = s.reg a := by
  unfold State.reachCycle
  split <;> [exact reg_countHeld s a _ h; rfl]

/-- Where no load waits, a boundary puts the count and its time (R24, R32). -/
theorem boundary_of_no_load (base : Nat) (at_ : Rat) (h : s.ts.loadPending = false) :
    s.boundary base at_ = s.setTs { s.ts with base := base, baseAt := at_ } := by simp [State.boundary, h]

/-- An operation of the clock's family that keeps the part and the waiting commands is answered as it is. -/
theorem runTime_next {f : State → State} {s : State} (hpart : (f s).part = s.part) (hpend : (f s).pending = s.pending) :
    runTime f s = .next (f s) := by
  rw [runTime, ← hpart, ← hpend]

/-- What a command of the clock's family leaves, where its operation keeps the part and the waiting commands: what the operation leaves. -/
theorem completes_runTime {c : Instr} {f : State → State} {s : State} {p : State → Prop} (hc : exec c s = runTime f s)
    (hpart : (f s).part = s.part) (hpend : (f s).pending = s.pending) (hp : p (f s)) : completes c s p :=
  ⟨f s, hc.trans (runTime_next hpart hpend), hp⟩

end SceneTimeOperations

/-! ## Reference edges (R26 to R32, R39) -/

section ReferenceEdges
variable {s : State} {cap : Nat}

/-- Outside OFF a pin delivers its edges (R25). -/
theorem srcDelivers_pin {src : W32} (hoff : s.pm.mode ≠ .off) (hk : fld src 0 3 = 1 ∨ fld src 0 3 = 2) : s.srcDelivers src = true := by
  simp [State.srcDelivers, hoff, hk]

@[simp] theorem minPulse_advance (s : State) (dt : Nat) : (s.advance dt).minPulse = s.minPulse := by
  unfold State.minPulse
  rw [reg_advance s _ dt (by decide)]
  rfl

@[simp] theorem tsMinPeriod_setTs (s : State) (t : SceneTime) : (s.setTs t).tsMinPeriod = s.tsMinPeriod := rfl
@[simp] theorem tsMinPeriod_reachCycle (s : State) (n : Nat) : (s.reachCycle n).tsMinPeriod = s.tsMinPeriod := by
  simp (disch := decide) only [State.tsMinPeriod, reg_reachCycle]
@[simp] theorem tsMinPeriod_advance (s : State) (n : Nat) : (s.advance n).tsMinPeriod = s.tsMinPeriod := by
  simp (disch := decide) only [State.tsMinPeriod, reg_advance]

/-- A pulse of the selected pin that is shorter than MIN_PULSE is a glitch (R27). -/
theorem doReferenceEdge_glitch {dt width : Nat} {falling : Bool} (hoff : s.pm.mode ≠ .off) (hsrc : s.tsSrc = 1 ∨ s.tsSrc = 2) (hw : width < s.minPulse) :
    doReferenceEdge dt falling width false s = (s.advance dt).addReg R.GLITCH_COUNT 1 := by
  have hreg : (s.advance dt).reg R.TS_SOURCE = s.reg R.TS_SOURCE := reg_advance s _ dt (by decide)
  have hdel : (s.advance dt).srcDelivers (s.reg R.TS_SOURCE) = true := srcDelivers_pin hoff hsrc
  have hpos : 0 < s.minPulse := by omega
  simp only [State.tsSrc] at hsrc
  simp [doReferenceEdge, hreg, hdel, hsrc, hw, hpos]

/-- An edge of the selected pin that is long enough and of the selected direction passes to the divider at its capture (R26, R27), where no
previous source gives the boundaries. -/
theorem doReferenceEdge_pass {dt width : Nat} {falling : Bool} (hoff : s.pm.mode ≠ .off) (hacq : s.ts.mode ≠ .acquiring)
    (hsrc : s.tsSrc = 1 ∨ s.tsSrc = 2) (hw : s.minPulse ≤ width) (hedge : bit (s.reg R.TS_SOURCE) 8 = falling) :
    doReferenceEdge dt falling width false s = (s.advance dt).selectedPass (s.now + dt + s.minPulse) := by
  have hreg : (s.advance dt).reg R.TS_SOURCE = s.reg R.TS_SOURCE := reg_advance s _ dt (by decide)
  have hdel : (s.advance dt).srcDelivers (s.reg R.TS_SOURCE) = true := srcDelivers_pin hoff hsrc
  have hw' : ¬ width < s.minPulse := by omega
  simp only [State.tsSrc] at hsrc
  simp [doReferenceEdge, hreg, hdel, hsrc, hw', hedge, State.prevEdges, hacq]

/-- The edge that fills the divider, TS_MIN_PERIOD or more after the last accepted one, is accepted (R26, R28). -/
theorem selectedPass_accepts (hdiv : fld (s.reg R.TS_DIVIDER) 0 16 ≤ s.ts.divCount)
    (hfar : ∀ l, s.ts.lastAccepted = some l → s.tsMinPeriod ≤ (cap : Rat) - (l : Rat)) :
    s.selectedPass cap = ((s.reachCycle cap).setTs { s.ts with divCount := 0 }).acceptEdge cap := by
  have hreg : (s.reachCycle cap).reg R.TS_DIVIDER = s.reg R.TS_DIVIDER := reg_reachCycle s _ cap (by decide)
  have hdiv' : ¬ s.ts.divCount + 1 ≤ fld (s.reg R.TS_DIVIDER) 0 16 := by omega
  have hsoon : ((s.reachCycle cap).setTs { s.ts with divCount := 0 }).tooSoon s.ts.lastAccepted cap = false := by
    unfold State.tooSoon
    split
    · next l hl => simpa using hfar l hl
    · rfl
  simp [State.selectedPass, State.selectedEdge, hreg, hdiv', hsoon]

/-- Where no slew has just ended and no load waits, an edge moves the count on by the nearest whole number of periods, at least one (R32). -/
theorem edgeBoundary_of_no_slew (p : Rat) (hslew : s.ts.slewEnd = false) (hload : s.ts.loadPending = false) :
    let n := max 1 (((s.now : Rat) - s.ts.baseAt) / p + 1 / 2).floor.toNat
    let u := (s.setTs { s.ts with base := s.ts.base + 65536 * n, baseAt := s.now }).addReg R.MISSED_COUNT (n - 1)
    s.edgeBoundary p = u.setTs { u.ts with slewEnd := false } := by
  simp [State.edgeBoundary, hslew, boundary_of_no_load, hload]

/-- An accepted edge in LOCKED is measured, ends the stitch 64 cycles after its capture and renews the period estimate (R30, R32, R39). -/
theorem acceptEdge_locked (hmode : s.ts.mode = .locked) :
    let ivs := edgeIntervals s.ts.lastEdge s.ts.intervals cap
    let u := ((s.reachCycle (cap + 64)).setTs { s.ts with intervals := ivs, lastEdge := some cap, lastAccepted := some cap }).edgeBoundary s.ts.period
    s.acceptEdge cap = u.setTs { u.ts with period := estimate ivs s.ts.period } := by
  simp [State.acceptEdge, hmode]

/-- What an accepted edge in LOCKED leaves, where no slew has just ended and no load waits: the count, the estimate and the missed periods of
R30 and R32, in LOCKED, 64 cycles after the capture. -/
theorem acceptEdge_locked_ends_stitch (hmode : s.ts.mode = .locked) (hslew : s.ts.slewEnd = false) (hload : s.ts.loadPending = false)
    (hnow : s.now ≤ cap) :
    let n := max 1 ((((cap + 64 : Nat) : Rat) - s.ts.baseAt) / s.ts.period + 1 / 2).floor.toNat
    let t := s.acceptEdge cap
    let l := edgeIntervals s.ts.lastEdge s.ts.intervals cap
    t.part = s.part ∧ t.pending = s.pending ∧ t.now = cap + 64 ∧ t.ts.mode = .locked ∧ t.ts.base = s.ts.base + 65536 * n ∧
    t.ts.baseAt = ((cap + 64 : Nat) : Rat) ∧ t.ts.divCount = s.ts.divCount ∧ t.ts.lastEdge = some cap ∧ t.ts.lastAccepted = some cap ∧
    t.ts.period = estimate l s.ts.period ∧ t.reg R.MISSED_COUNT = satAdd (s.reg R.MISSED_COUNT) (n - 1) := by
  have hmax : max s.now (cap + 64) = cap + 64 := max_eq_right (by omega)
  have hreg : (s.reachCycle (cap + 64)).reg R.MISSED_COUNT = s.reg R.MISSED_COUNT := reg_reachCycle s _ _ (by decide)
  rw [acceptEdge_locked hmode, edgeBoundary_of_no_slew]
  · simp [hmode, hmax, hreg]
  · exact hslew
  · exact hload

/-- The estimate is the mean of the last 8 intervals where any is known (R30). -/
theorem estimate_of_ne_nil {l : List Nat} (p : Rat) (h : l ≠ []) : estimate l p = ((l.take 8).sum : Rat) / ((l.take 8).length : Rat) := by
  simp [estimate, meanIntervals, h]

end ReferenceEdges

/-! ## Generated boundaries and the loss of the reference (R29, R32, R33, R35) -/

section GeneratedBoundaries
variable (s : State)

/-- The interval that a mode generates rests on the unit's registers, the estimate and the previous source alone. -/
theorem basePeriod_congr {s t : State} (m : TsMode) (hreg : ∀ a, a ≠ R.CT_FULL_CYCLES → t.reg a = s.reg a)
    (hever : t.ts.everLocked = s.ts.everLocked) (hper : t.ts.period = s.ts.period) (hprev : t.ts.prevSrc = s.ts.prevSrc)
    (hpp : t.ts.prevPeriod = s.ts.prevPeriod) : t.basePeriod m = s.basePeriod m := by
  have hnom : t.tsNominal = s.tsNominal := by rw [State.tsNominal, hreg _ (by decide)]; rfl
  have hhost : t.hostPeriod = s.hostPeriod := by rw [State.hostPeriod, hnom, hreg _ (by decide)]; rfl
  have hsrc : t.tsSrc = s.tsSrc := by rw [State.tsSrc, hreg _ (by decide)]; rfl
  have hest : t.estP = s.estP := by rw [State.estP, hever, hper, hnom]; rfl
  unfold State.basePeriod
  rw [hnom, hhost, hsrc, hest, hprev, hpp]

/-- The state in which the interval in progress has ended: the clock has come to its end, and the count is one higher (R32). -/
def State.stitchEnded (s : State) : State :=
  (s.reachTime (s.ts.baseAt + s.ts.ival)).setTs { s.ts with base := s.ts.base + 65536, baseAt := s.ts.baseAt + s.ts.ival }

@[simp] theorem stitchEnded_part : s.stitchEnded.part = s.part := by simp [State.stitchEnded, State.reachTime]
@[simp] theorem stitchEnded_pending : s.stitchEnded.pending = s.pending := by simp [State.stitchEnded, State.reachTime]
@[simp] theorem stitchEnded_now : s.stitchEnded.now = max s.now (s.ts.baseAt + s.ts.ival).ceil.toNat := by simp [State.stitchEnded, State.reachTime]
@[simp] theorem stitchEnded_mode : s.stitchEnded.ts.mode = s.ts.mode := rfl
@[simp] theorem stitchEnded_base : s.stitchEnded.ts.base = s.ts.base + 65536 := rfl
@[simp] theorem stitchEnded_baseAt : s.stitchEnded.ts.baseAt = s.ts.baseAt + s.ts.ival := rfl

theorem reg_stitchEnded (a : Nat) (h : a ≠ R.CT_FULL_CYCLES) : s.stitchEnded.reg a = s.reg a := reg_reachCycle s a _ h

@[simp] theorem stitchEnded_afterCorr : s.stitchEnded.afterCorr = s.afterCorr := by
  rw [State.afterCorr, State.tsSrc, reg_stitchEnded s _ (by decide)]; rfl

/-- The next interval is generated as it would have been before the boundary. -/
@[simp] theorem stitchEnded_interval (m : TsMode) : s.stitchEnded.lengthen (s.stitchEnded.basePeriod m) = s.lengthen (s.basePeriod m) := by
  rw [basePeriod_congr m (reg_stitchEnded s) rfl rfl rfl rfl, State.lengthen, State.tsMinPeriod, reg_stitchEnded s _ (by decide)]; rfl

/-- Outside a slew a generated boundary ends the stitch and begins an interval of the mode's length (R29, R32). -/
theorem doGeneratedBoundary_of_not_slewing (hoff : s.pm.mode ≠ .off) (hgen : s.ts.generated = true) (hmode : s.ts.mode ≠ .slewing)
    (hload : s.ts.loadPending = false) :
    doGeneratedBoundary s = s.stitchEnded.setTs { s.stitchEnded.ts with ival := s.lengthen (s.basePeriod s.ts.mode) } := by
  rw [← stitchEnded_interval]
  simp [doGeneratedBoundary, State.stitchEnded, State.reachTime, hoff, hgen, hmode, hload, boundary_of_no_load]

/-- The generated boundary that absorbs all that is left of a correction ends the slew (R35). -/
theorem doGeneratedBoundary_of_slew_over (hoff : s.pm.mode ≠ .off) (hmode : s.ts.mode = .slewing) (hload : s.ts.loadPending = false)
    (hlast : s.ts.slewAbs = (s.ts.corr.natAbs : Int)) :
    doGeneratedBoundary s =
      let u := s.stitchEnded.slew 0
      u.setTs { u.ts with slewEnd := decide (u.ts.mode = .locked) } := by
  have hgen : s.ts.generated = true := by simp [SceneTime.generated, hmode]
  have hrest : (if 0 < s.ts.corr then s.ts.corr - s.ts.slewAbs else s.ts.corr + s.ts.slewAbs) = 0 := by split <;> omega
  simp [doGeneratedBoundary, State.stitchEnded, State.reachTime, hoff, hgen, hmode, hload, boundary_of_no_load, hrest]

/-- A slew with nothing left to correct ends (R35). -/
theorem slew_zero : s.slew 0 =
    s.setTs { s.ts with mode := s.afterCorr, corr := 0, slewAbs := 0, ival := s.lengthen (s.basePeriod s.afterCorr) } := by
  simp [State.slew]

@[simp] theorem raise_pending (b : Blk) (i bitNo code : Nat) : (s.raise b i bitNo code).pending = s.pending := by
  simp only [State.raise, State.raiseWith, State.post]
  split <;> [rfl; (split <;> [rfl; (split <;> rfl)])]

/-- In LOCKED the loss of the reference is a fault, is counted, and leads to HOLDOVER, TS_LOST_PERIODS stitches on (R33). -/
theorem doRefLost_locked (hoff : s.pm.mode ≠ .off) (hmode : s.ts.mode = .locked) :
    let n := (s.force R.TS_LOST_PERIODS).toNat
    let at_ := s.ts.baseAt + (n : Rat) * s.ts.period
    let u := ((s.reachTime at_).raise .sceneTime 0 1 0x101).addReg R.LOST_COUNT 1
    doRefLost s = u.setTs { s.ts with
      mode := .holdover, holdCause := 1, base := s.ts.base + 65536 * n, baseAt := at_, ival := u.lengthen s.ts.period,
      intervals := [], lastEdge := none, slewEnd := false } := by
  simp [doRefLost, State.reachTime, hoff, hmode]

end GeneratedBoundaries

/-- Settles O5, by following each command through its operations: the edge through the filter, the divider and the minimum period to the boundary that
it ends; the generated boundary to the one that absorbs what is left of a slew; and the loss of the reference. -/
theorem edgesAndBoundaries : Obligations.EdgesAndBoundaries := by
  refine ⟨⟨?_, ?_⟩, ?_, ?_, ?_⟩
  · intro s dt falling width mp cap n hoff hmode hslew hload hsrc hw hedge hdiv hfar
    have hrun : doReferenceEdge dt falling width false s = _ := doReferenceEdge_pass hoff (by simp [hmode]) hsrc hw hedge
    rw [selectedPass_accepts (by rw [reg_advance s _ dt (by decide)]; exact hdiv)
      (by rw [tsMinPeriod_advance]; exact hfar)] at hrun
    have hend := acceptEdge_locked_ends_stitch (cap := cap)
      (s := ((s.advance dt).reachCycle cap).setTs { s.ts with divCount := 0 }) hmode hslew hload (by simp [cap, mp])
    simp (disch := decide) only [reg_setTs, reg_reachCycle, reg_advance] at hend
    obtain ⟨hpart, hpend, hnow, hm, hbase, hat, hd, hle, hla, hper, hreg⟩ := hend
    refine completes_runTime rfl ?_ ?_ ?_ <;> simp only [hrun]
    · simpa using hpart
    · simpa using hpend
    · exact ⟨hnow, hm, hbase, hat, hd, hle, hla, fun hne => hper.trans (estimate_of_ne_nil _ hne), hreg⟩
  · intro s dt falling width hoff hsrc hw
    have hrun := doReferenceEdge_glitch (dt := dt) (falling := falling) hoff hsrc hw
    have hreg : (s.advance dt).reg R.GLITCH_COUNT = s.reg R.GLITCH_COUNT := reg_advance s _ dt (by decide)
    refine completes_runTime rfl ?_ ?_ ?_ <;> simp [hrun, hreg]
  · intro s hoff hgen hmode hload
    refine completes_runTime rfl ?_ ?_ ?_ <;> simp [doGeneratedBoundary_of_not_slewing s hoff hgen hmode hload]
  · intro s hoff hmode hload hlast
    refine completes_runTime rfl ?_ ?_ ?_ <;> simp [doGeneratedBoundary_of_slew_over s hoff hmode hload hlast, slew_zero]
  · intro s hoff hmode n
    have hreg (m : Nat) : ((s.reachCycle m).raise .sceneTime 0 1 0x101).reg R.LOST_COUNT = s.reg R.LOST_COUNT := by
      rw [reg_raise_ne _ _ _ _ _ _ (by decide), reg_reachCycle _ _ _ (by decide)]
    refine completes_runTime rfl ?_ ?_ ?_ <;> simp [doRefLost_locked s hoff hmode, hreg, n, State.reachTime]

end Sys2Proof.Machine

namespace Sys2Proof.Machine

/-! ## The position under changes of the unit (R23) -/

section Position
variable (s : State)

/-- The unit's floor keeps the position at what it was when the base and its time stay (R23). -/
theorem pos_setTs_same {t : SceneTime} (h : ∀ x, t.pos x = s.ts.pos x) : (s.setTs t).pos = s.pos := by
  have hpos : (s.setTs t).pos = max s.pos (t.pos s.time) := by
    show max (max t.floor s.pos) _ = max s.pos (max t.floor _)
    rw [max_comm t.floor, max_assoc]
    rfl
  rw [hpos, h]
  exact max_self _

/-- The position never stands below the last boundary (R24). -/
theorem base_le_pos : s.ts.base ≤ s.pos := le_max_of_le_right (Nat.le_add_right _ _)

@[simp] theorem pos_setReg (a : Nat) (v : W32) : (s.setReg a v).pos = s.pos := rfl
@[simp] theorem pos_addReg (a n : Nat) : (s.addReg a n).pos = s.pos := rfl
@[simp] theorem post_sub (r : Rec) : (s.post r).sub = s.sub := by simp only [State.post]; split <;> rfl
@[simp] theorem post_pending (r : Rec) : (s.post r).pending = s.pending := by simp only [State.post]; split <;> rfl
@[simp] theorem pos_post (r : Rec) : (s.post r).pos = s.pos := by simp [State.pos, State.time]

end Position

/-! ## TS_SOURCE (R25, R50) -/

section Source
variable {s : State} {v : W32}

/-- A change of SRC is a change of source (R50). -/
theorem srcKey_ne_of_src {v w : W32} (h : fld v 0 3 ≠ fld w 0 3) : srcKey v ≠ srcKey w := fun e => h (congrArg Prod.fst e)

/-- INTERNAL and the pins that the part has are accepted as sources (R25). -/
theorem tsSource_accepted (h : fld v 0 3 ≤ 1 ∨ (fld v 0 3 = 2 ∧ fld v 4 4 ≤ 3)) : s.tsSourceRefused v = false := by
  simp [State.tsSourceRefused]
  omega

/-- INTERNAL from another source enters FREE, with no correction and no measurement left (R50). -/
theorem tsSourceAccept_internal (hk : fld v 0 3 = 0) (hold : s.tsSrc ≠ 0) :
    let u := s.tsSourceAccept v
    u.part = s.part ∧ u.pending = s.pending ∧ u.ts.mode = .free ∧ u.ts.corr = 0 ∧ u.ts.intervals = [] ∧ u.ts.everLocked = false ∧ u.ts.base = s.ts.base := by
  have hkey : srcKey (s.reg R.TS_SOURCE) ≠ srcKey v := srcKey_ne_of_src (by rw [hk]; exact hold)
  have hold' : fld (s.reg R.TS_SOURCE) 0 3 ≠ 0 := hold
  simp [State.tsSourceAccept, hkey, hk, hold']

/-- An edge source chosen in FREE begins ACQUIRING, on the boundaries that the timebase goes on to generate (R30, R50). -/
theorem tsSourceAccept_edge_from_free (hk : fld v 0 3 = 1 ∨ fld v 0 3 = 2) (hold : s.tsSrc = 0) (hfree : s.ts.mode = .free) :
    let u := s.tsSourceAccept v
    u.part = s.part ∧ u.pending = s.pending ∧ u.ts.mode = .acquiring ∧ u.ts.generated = true ∧ u.ts.intervals = [] ∧ u.ts.divCount = 0 ∧
    u.ts.everLocked = false := by
  have hold' : fld (s.reg R.TS_SOURCE) 0 3 = 0 := hold
  have hkey : srcKey (s.reg R.TS_SOURCE) ≠ srcKey v := srcKey_ne_of_src (by omega)
  have hk0 : fld v 0 3 ≠ 0 := by omega
  have hk5 : fld v 0 3 ≠ 5 := by omega
  simp [State.tsSourceAccept, hkey, hk0, hk5, hfree, SceneTime.generated, isEdgeSrc, hold']

end Source

/-! ## Host time (R37) -/

/-- A correction applied by STEP puts the position at its target, is counted once, and ends in the mode of the source (R35, R37). -/
theorem applyCorr_step (s : State) (p cause : Nat) (hstep : bit (s.reg R.TS_SOURCE) 9 = true) :
    let u := s.applyCorr ((p : Int) - (s.pos : Int)) cause
    u.part = s.part ∧ u.pending = s.pending ∧ u.ts.mode = s.afterCorr ∧ u.ts.corr = 0 ∧ u.ts.base = p / 65536 * 65536 ∧
    u.reg R.STEP_COUNT = satAdd (s.reg R.STEP_COUNT) 1 := by
  have hsrc (r : Rec) : ((s.post r).addReg R.STEP_COUNT 1).afterCorr = s.afterCorr := by
    rw [State.afterCorr, State.tsSrc, reg_addReg_ne _ _ _ _ (by decide), reg_post]; rfl
  simp [State.applyCorr, hstep, State.placeAt, hsrc]

/-! ## Latching reads (R48) -/

section LatchingReads
variable (s : State)

/-- A powered register of the control window that the device computes shows what it computes (R85, R98). -/
theorem value_of_shown {a u off i j x : Nat} {b : Blk} {r : RegRow} (hblk : blkAt a = some (b, u, off))
    (hpres : present s.part b u = true) (hon : s.domainOn (blkRow b).domain = true) (hoff : 0x30 ≤ off % 0x1000 ∧ off % 0x1000 < 0xF00)
    (hrow : rowAt b u off = some (r, i, j)) (hacc : r.acc ≠ .WO) (hshown : s.shown b u r.name i j = some x) : s.value a = w32 x := by
  have h30 : ¬ off % 0x1000 < 0x30 := by omega
  have hF00 : ¬ 0xF00 ≤ off % 0x1000 := by omega
  simp [State.value, hblk, hpres, hon, h30, hF00, hrow, hacc, hshown]

/-- The scene-time page is powered outside OFF (R13). -/
theorem sceneTime_on (h : s.pm.mode ≠ .off) : s.domainOn (blkRow .sceneTime).domain = true := decide_eq_true h

theorem value_stitchLo (h : s.pm.mode ≠ .off) : s.value R.STITCH_LO = w32 (s.count % 2 ^ 32) :=
  value_of_shown s (b := .sceneTime) (u := 0) (off := 0x120) rfl rfl (sceneTime_on s h) (by decide) rfl (by decide) rfl

theorem value_stitchHi (h : s.pm.mode ≠ .off) : s.value R.STITCH_HI = w32 (s.count / 2 ^ 32) :=
  value_of_shown s (b := .sceneTime) (u := 0) (off := 0x124) rfl rfl (sceneTime_on s h) (by decide) rfl (by decide) rfl

theorem value_phase (h : s.pm.mode ≠ .off) : s.value R.PHASE = w32 s.phase :=
  value_of_shown s (b := .sceneTime) (u := 0) (off := 0x128) rfl rfl (sceneTime_on s h) (by decide) rfl (by decide) rfl

theorem answers_stitchLo (h : s.pm.mode ≠ .off) : s.answers R.STITCH_LO = true := by
  have hblk : blkAt R.STITCH_LO = some (.sceneTime, 0, 0x120) := rfl
  simp [State.answers, hblk, sceneTime_on s h, present]

/-- What was latched for the register at `a` is returned once (R48, R92). -/
def State.unlatch (s : State) (a : Nat) : State := { s with latch := mset none s.latch a none }

@[simp] theorem latch_latchReg_same (a : Nat) (v : W32) : mget none (s.latchReg a v).latch a = some v := by
  simp [State.latchReg]
theorem latch_latchReg_ne {a b : Nat} (v : W32) (h : b ≠ a) : mget none (s.latchReg a v).latch b = mget none s.latch b := by
  simp [State.latchReg, mget_mset_ne _ _ _ _ _ _ h]

/-- A read that reaches its register returns what was latched for it, or else its value, and latches the words that belong to it (R48, R92). -/
theorem readReg_of_answers (f a : Nat) (hview : s.inView f a = true) (hans : s.answers a = true) :
    s.readReg f a = ((latchedBy (canonAt a)).foldl (fun (s : State) k => s.latchReg k (s.value k)) (s.unlatch (canonAt a)),
      (mget none s.latch (canonAt a)).getD (s.value a)) := by
  simp [State.readReg, State.unlatch, hview, hans]

/-- A read of STITCH_LO, where nothing is latched for it, returns the low word of the count and latches the high word and the phase (R48). -/
theorem readReg_stitchLo (h : s.pm.mode ≠ .off) (hlatch : mget none s.latch R.STITCH_LO = none) :
    s.readReg 0 R.STITCH_LO =
      (((s.unlatch R.STITCH_LO).latchReg R.STITCH_HI (w32 (s.count / 2 ^ 32))).latchReg R.PHASE (w32 s.phase), w32 (s.count % 2 ^ 32)) := by
  have hcanon : canonAt R.STITCH_LO = R.STITCH_LO := rfl
  have hby : latchedBy R.STITCH_LO = [R.STITCH_HI, R.PHASE] := rfl
  have hhi : (s.unlatch R.STITCH_LO).value R.STITCH_HI = w32 (s.count / 2 ^ 32) := value_stitchHi _ h
  have hph (v : W32) : ((s.unlatch R.STITCH_LO).latchReg R.STITCH_HI v).value R.PHASE = w32 s.phase := value_phase _ h
  rw [readReg_of_answers s 0 _ rfl (answers_stitchLo s h), hcanon, hby, hlatch, Option.getD_none, value_stitchLo s h,
    List.foldl_cons, List.foldl_cons, List.foldl_nil, hhi, hph]

/-- STITCH_LO_READ of the scene-time page is that read (R48). -/
theorem doStitchLoRead_stitchLo (h : s.pm.mode ≠ .off) :
    doStitchLoRead 0 s = (s.readReg 0 R.STITCH_LO).1.setRead (s.readReg 0 R.STITCH_LO).2.toNat := by
  have hne : R.STITCH_LO ≠ R.TEL_SEQ_LO ∧ R.STITCH_LO ≠ R.TEL_SEQ_HI := by decide
  have hview : s.inView 0 R.STITCH_LO = true := rfl
  simp [doStitchLoRead, State.readWord, State.readTel, hview, answers_stitchLo s h, hne.1, hne.2]

end LatchingReads

/-! ## Writes of the scene-time page -/

section Writes
variable {s : State}

/-- A write that reaches its register, of a command of the clock's family, leaves what its action leaves. -/
theorem completes_write {c : Instr} {f a : Nat} {act : State → State} {p : State → Prop}
    (hc : exec c s = runTime (fun s => s.reach f a act) s) (h : s.reaches f a = true)
    (hpart : (act s).part = s.part) (hpend : (act s).pending = s.pending) (hp : p (act s)) : completes c s p := by
  have hact : s.reach f a act = act s := reach_of_reaches s a f act h
  exact completes_runTime hc (by rw [hact, hpart]) (by rw [hact, hpend]) (by rw [hact]; exact hp)

/-- The count that LOAD_HI:LOAD_LO hold (R38). -/
def State.loadCount (s : State) : Nat := (s.reg R.LOAD_HI).toNat * 2 ^ 32 + (s.reg R.LOAD_LO).toNat

theorem loadCount_setReg_loadCtrl (w : W32) : (s.setReg R.LOAD_CTRL w).loadCount = s.loadCount := by
  rw [State.loadCount, reg_setReg_ne _ _ _ _ (by decide), reg_setReg_ne _ _ _ _ (by decide)]; rfl

variable {f : Nat} {v : W32} (hreach : s.reaches f R.LOAD_CTRL = true) (hgo : bit v 0 = true)
include hreach hgo

/-- A load with AT_EDGE waits for the next boundary (R38). -/
theorem doLoadGo_at_edge (hedge : bit v 1 = true) :
    doLoadGo f v s = (s.setReg R.LOAD_CTRL (w32 (2 * fld v 1 1))).setTs { s.ts with loadPending := true, loadVal := s.loadCount } := by
  rw [doLoadGo, reach_of_reaches _ _ _ _ hreach, ← loadCount_setReg_loadCtrl (w32 (2 * fld v 1 1))]
  simp [hgo, hedge, State.loadCount]

/-- A load above the count takes effect at once (R38). -/
theorem doLoadGo_ahead (hedge : bit v 1 = false) (hahead : s.count < s.loadCount) :
    (doLoadGo f v s).part = s.part ∧ (doLoadGo f v s).pending = s.pending ∧ (doLoadGo f v s).ts.base = s.loadCount * 65536 ∧
    (doLoadGo f v s).ts.baseAt = s.ts.resolve s.time := by
  have hrun : doLoadGo f v s =
      (s.setReg R.LOAD_CTRL (w32 (2 * fld v 1 1))).setTs { s.ts with base := s.loadCount * 65536, baseAt := s.ts.resolve s.time } := by
    rw [← loadCount_setReg_loadCtrl (w32 (2 * fld v 1 1))] at hahead ⊢
    rw [doLoadGo, reach_of_reaches _ _ _ _ hreach]
    exact (if_neg (by simp [hgo])).trans ((if_neg (by simp [hedge])).trans (if_pos hahead))
  -- By the lemmas and not by `rfl`: a comparison of the two records would compare the products by unary arithmetic.
  rw [hrun, State.setTs_part, State.setReg_part, State.setTs_pending, State.setReg_pending, State.setTs_ts]
  exact ⟨rfl, rfl, rfl, rfl⟩

/-- A load at or below the count is refused (R38). -/
theorem doLoadGo_behind (hedge : bit v 1 = false) (hbehind : s.loadCount ≤ s.count) :
    doLoadGo f v s = (s.setReg R.LOAD_CTRL (w32 (2 * fld v 1 1))).setTs { s.ts with loadRefused := true } := by
  rw [← loadCount_setReg_loadCtrl (w32 (2 * fld v 1 1))] at hbehind
  rw [doLoadGo, reach_of_reaches _ _ _ _ hreach]
  exact (if_neg (by simp [hgo])).trans ((if_neg (by simp [hedge])).trans (if_neg (not_lt.mpr hbehind)))

end Writes

/-- Settles O6: each write that reaches the page acts, by the case of its source, its position or its load; and the read latches. -/
theorem sceneTimeWrites : Obligations.SceneTimeWrites := by
  refine ⟨fun s f v hreach => ⟨?_, ?_, ?_⟩, fun s f v hreach hgo => ⟨?_, ?_⟩, fun s f v hreach hreq => ?_, fun s f v hreach hgo => ⟨?_, ?_, ?_⟩,
    fun s hon hlatch => ?_⟩
  · intro href
    refine completes_write rfl hreach ?_ ?_ ?_ <;> simp [href]
  · intro hk hold
    obtain ⟨hpart, hpend, hts⟩ := tsSourceAccept_internal hk hold
    refine completes_write rfl hreach ?_ ?_ ?_ <;> simpa [tsSource_accepted (s := s) (v := v) (by omega)]
  · intro hk hold hfree
    obtain ⟨hpart, hpend, hts⟩ := tsSourceAccept_edge_from_free (s := s) (v := v) (by omega) hold hfree
    refine completes_write rfl hreach ?_ ?_ ?_ <;> simpa [tsSource_accepted (s := s) (v := v) (by omega)]
  · intro hsrc
    refine completes_write rfl hreach ?_ ?_ ?_ <;> simp [hsrc]
  · intro hsrc hstep
    obtain ⟨hpart, hpend, hmode, hrest⟩ := applyCorr_step s
      (((s.reg R.HOST_POS_HI).toNat * 2 ^ 32 + (s.reg R.HOST_POS_LO).toNat) * 65536 + fld (s.reg R.HOST_POS_PHASE) 0 16) 2 hstep
    have hafter : s.afterCorr = .host := by simp [State.afterCorr, hsrc]
    refine completes_write rfl hreach ?_ ?_ ?_ <;> simp only [hgo, hsrc, and_self, if_true]
    · exact hpart
    · exact hpend
    · exact ⟨hmode.trans hafter, hrest⟩
  · have hrun : doCaptureReq f v s = _ := reach_of_reaches s _ _ _ hreach
    have hpart : (doCaptureReq f v s).part = s.part := by simp [hrun, hreq]
    refine ⟨dev (doCaptureReq f v) s, rfl, ?_⟩
    simp only [reg_dev _ _ _ hpart, hrun, hreq, if_true]
    simp [reg_setReg]
  · intro hedge
    refine completes_runTime rfl ?_ ?_ ?_ <;> rw [doLoadGo_at_edge hreach hgo hedge]
    · rfl
    · rfl
    · exact ⟨rfl, rfl, rfl, pos_setTs_same _ fun _ => rfl⟩
  · intro hedge hahead
    obtain ⟨hpart, hpend, hbase, hat⟩ := doLoadGo_ahead hreach hgo hedge hahead
    exact completes_runTime rfl hpart hpend ⟨hbase, hat, (Nat.le_div_iff_mul_le (by decide)).2 (hbase.ge.trans (base_le_pos _))⟩
  · intro hedge hbehind
    refine completes_runTime rfl ?_ ?_ ?_ <;> rw [doLoadGo_behind hreach hgo hedge hbehind]
    · rfl
    · rfl
    · exact ⟨rfl, rfl, pos_setTs_same _ fun _ => rfl⟩
  · have hrun : doStitchLoRead 0 s = _ := doStitchLoRead_stitchLo s hon
    rw [readReg_stitchLo s hon hlatch] at hrun
    refine ⟨dev (doStitchLoRead 0) s, rfl, ?_⟩
    simp only [dev_readData, dev_latch, hrun, State.setRead_latch, latch_latchReg_same, and_true]
    exact ⟨by simp [w32, State.setRead], (latch_latchReg_ne _ _ (by decide)).trans (latch_latchReg_same _ _ _)⟩

end Sys2Proof.Machine

namespace Sys2Proof.Machine

/-! ## Records and their rings (R141 to R149) -/

/-- A fold whose steps keep `g` keeps `g`. -/
theorem foldl_keeps {α β γ : Type} (g : α → γ) (f : α → β → α) (h : ∀ a b, g (f a b) = g a) (l : List β) (a : α) : g (l.foldl f a) = g a := by
  induction l generalizing a with
  | nil => rfl
  | cons b l ih => rw [List.foldl_cons, ih, h]

/-- Where event records stand: the hoops with their hold lists, the event queues, and the queues' rings. -/
def State.records (s : State) : SMap Hoop × SMap Eq × SMap Line := (s.hoops, s.eqs, s.eqRings)

section Records
variable (s : State)

/-- Messages to peers leave the records of this package where they stand. -/
@[simp] theorem records_transmit (p : Nat) : (s.transmit p).records = s.records := by
  unfold State.transmit
  split
  · rfl
  · simp only
    split
    · rfl
    · split <;> rfl

@[simp] theorem records_launch (p : Nat) (m : LinkMsg) : (s.launch p m).records = s.records := by rw [State.launch, records_transmit]; rfl

/-- So does the message that forwards a record, which draws no tokens (R414). -/
theorem records_sendMsg (p : Nat) (m : LinkMsg) (h : m.ty = 9) : (s.sendMsg p m).records = s.records := by
  simp only [State.sendMsg, h, if_true]
  split
  · rfl
  · rw [records_launch]

@[simp] theorem records_forwardLine (h e : Nat) (line : Line) : (s.forwardLine h e line).records = s.records := by
  unfold State.forwardLine
  split
  · rfl
  · apply foldl_keeps
    intro s n
    simp only
    split
    · exact records_sendMsg _ _ _ rfl
    · rfl

/-- The message of a vector changes no record. -/
@[simp] theorem records_sendMsi (h e : Nat) : (s.sendMsi h e).records = s.records := by unfold State.sendMsi; split <;> rfl

@[simp] theorem eq_setEq_same (h e : Nat) (x : Eq) : (s.setEq h e x).eq h e = x := mget_mset_same _ _ _ _

theorem hoops_of_records {s t : State} (h : t.records = s.records) : t.hoops = s.hoops := congrArg Prod.fst h
theorem eqs_of_records {s t : State} (h : t.records = s.records) : t.eqs = s.eqs := congrArg (fun x => x.2.1) h
theorem eqRings_of_records {s t : State} (h : t.records = s.records) : t.eqRings = s.eqRings := congrArg (fun x => x.2.2) h

/-- Coalescing may disarm the queue, and changes nothing else of the records (R148). -/
theorem coalesce_records (h e : Nat) : (s.coalesce h e).records = s.records ∨ (s.coalesce h e).records = (s.setEq h e { s.eq h e with armed := false }).records := by
  simp only [State.coalesce]
  split_ifs
  · exact .inr (records_sendMsi _ _ _)
  · exact .inl rfl

@[simp] theorem coalesce_hoops (h e : Nat) : (s.coalesce h e).hoops = s.hoops := by
  exact (coalesce_records s h e).elim (fun hc => hoops_of_records hc) fun hc => (hoops_of_records hc).trans rfl
@[simp] theorem coalesce_eqRings (h e : Nat) : (s.coalesce h e).eqRings = s.eqRings := by
  exact (coalesce_records s h e).elim (fun hc => eqRings_of_records hc) fun hc => (eqRings_of_records hc).trans rfl
@[simp] theorem coalesce_tail (h e : Nat) : ((s.coalesce h e).eq h e).tail = (s.eq h e).tail := by
  rcases coalesce_records s h e with hc | hc
  · rw [State.eq, eqs_of_records hc]; rfl
  · rw [State.eq, eqs_of_records hc, ← State.eq, eq_setEq_same]

/-- A record written takes the entry at TAIL, with the phase bit of the queue's lap and the loss flag, and TAIL moves on (R141, R143, R147). -/
theorem writeEntry_effect (h e : Nat) (line : Line) :
    let q := s.eq h e
    let u := s.writeEntry h e line
    u.hoops = s.hoops ∧ (u.eq h e).tail = (q.tail + 1) % 2 ^ 32 ∧
    mget 0 u.eqRings ((h * 16 + e) * 65536 + q.tail % s.eqSize h e) =
      setBit (setBit line 31 (decide (q.tail / s.eqSize h e % 2 = 0))) 25 q.loss := by
  simp only [State.writeEntry, coalesce_hoops, coalesce_tail, coalesce_eqRings, hoops_of_records (records_forwardLine _ _ _ _),
    eqRings_of_records (records_forwardLine _ _ _ _)]
  refine ⟨rfl, ?_, mget_mset_same _ _ _ _⟩
  rw [State.eq, eqs_of_records (records_forwardLine _ _ _ _), ← State.eq, eq_setEq_same]

/-- A record for an enabled queue with room, before which none is held, is written (R143). -/
theorem deliver_writes (r : Rec) (seq : Nat) (hen : (s.eq r.hoop r.eq).en = true) (hheld : (s.eq r.hoop r.eq).held = []) (hroom : s.eqFull r.hoop r.eq = false) :
    s.deliver r seq = s.writeEntry r.hoop r.eq (packRec r seq false false) := by
  simp [State.deliver, hen, hheld, hroom]

/-- A device operation is known by the state that it makes of this one. -/
theorem dev_congr {f g : State → State} (h : f s = g s) : dev f s = dev g s := by simp only [dev, h]

/-- A device operation within a device operation adds nothing. -/
@[simp] theorem dev_dev (f : State → State) : dev (dev f) s = dev f s := rfl

/-- The hold list gives up the record, and the hoop's number moves on (R45, R147). -/
def State.takeHeld (s : State) (h : Nat) (r : Rec) : State :=
  s.setHoop h { s.hoop h with held := (s.hoop h).held.erase r, seq := ((s.hoop h).seq + 1) % 2 ^ 32 }

/-- A record of the hold list has taken the hoop's number and met its event queue (R143, R147). -/
def State.sequenced (s : State) (h : Nat) (r : Rec) : State := (s.takeHeld h r).deliver r (s.hoop h).seq

theorem doRecordSequenced_next {h : Nat} {r : Rec} (hphase : (s.hoop h).phase ≠ .resetting) (hnext : nextHeld (s.hoop h).held = some r) :
    doRecordSequenced h s = dev (fun s => (s.sequenced h r).settled) s := by
  rw [doRecordSequenced, if_neg hphase, hnext]
  exact dev_congr s rfl

/-- Where the record's event queue takes it, it is written after the hoop's hold list and number have moved on. -/
theorem sequenced_effect {h : Nat} {r : Rec} (hhoop : r.hoop = h) (hen : (s.eq h r.eq).en = true) (hheld : (s.eq h r.eq).held = [])
    (hroom : s.eqFull h r.eq = false) :
    let x := s.hoop h
    let q := s.eq h r.eq
    let u := s.sequenced h r
    u.hoop h = { x with held := x.held.erase r, seq := (x.seq + 1) % 2 ^ 32 } ∧ (u.eq h r.eq).tail = (q.tail + 1) % 2 ^ 32 ∧
    mget 0 u.eqRings ((h * 16 + r.eq) * 65536 + q.tail % s.eqSize h r.eq) =
      setBit (setBit (packRec r x.seq false false) 31 (decide (q.tail / s.eqSize h r.eq % 2 = 0))) 25 q.loss := by
  subst hhoop
  intro x q u
  have hwrite : u = (s.takeHeld r.hoop r).writeEntry r.hoop r.eq (packRec r x.seq false false) := deliver_writes _ r x.seq hen hheld hroom
  obtain ⟨hhoops, htail, hring⟩ := writeEntry_effect (s.takeHeld r.hoop r) r.hoop r.eq (packRec r x.seq false false)
  rw [← hwrite] at hhoops htail hring
  refine ⟨?_, htail, hring⟩
  rw [State.hoop, hhoops]
  exact mget_mset_same _ _ _ _

end Records

/-! ## Waited positions (R44, R133) -/

section WaitedPositions
variable (s : State)

@[simp] theorem State.advance16_now (n : Nat) : (s.advance16 n).now = s.now + (s.sub + n) / 16 := rfl
@[simp] theorem State.advance16_sub (n : Nat) : (s.advance16 n).sub = (s.sub + n) % 16 := rfl

@[simp] theorem maxReg_flights (a v : Nat) : (s.maxReg a v).flights = s.flights := by unfold State.maxReg; split <;> rfl
@[simp] theorem maxReg_cqs (a v : Nat) : (s.maxReg a v).cqs = s.cqs := by unfold State.maxReg; split <;> rfl
@[simp] theorem endWait_flights (p : AllocWait → Bool) : (s.endWait p).flights = s.flights :=
  foldl_keeps State.flights _ (fun _ _ => maxReg_flights _ _ _) _ s
@[simp] theorem endWait_cqs (p : AllocWait → Bool) : (s.endWait p).cqs = s.cqs :=
  foldl_keeps State.cqs _ (fun _ _ => maxReg_cqs _ _ _) _ s
@[simp] theorem noteOcc_flights (p : Nat) : (s.noteOcc p).flights = s.flights := by
  unfold State.noteOcc
  simp only [setRegFld_eq]
  split <;> [exact State.setReg_flights _ _ _; rfl]
@[simp] theorem noteOcc_cqs (p : Nat) : (s.noteOcc p).cqs = s.cqs := by
  unfold State.noteOcc
  simp only [setRegFld_eq]
  split <;> [exact State.setReg_cqs _ _ _; rfl]

/-- A command that begins is the last of the begun commands (R125, R167). -/
@[simp] theorem beginCmd_flights (f : InFlight) : (s.beginCmd f).flights = s.flights ++ [f] := by simp [State.beginCmd]

/-- It has left its queue's head. -/
theorem beginCmd_head (f : InFlight) : ((s.beginCmd f).cq f.cmd.hoop f.cmd.cq).head = none := by
  simp [State.beginCmd, State.cq, State.setCq]

/-- A head whose context stands begins complete. -/
theorem beginDone_effect {c : Cmd} (flags : Nat) (detail : BitVec 192) (h : s.ctxGone c = false) :
    let u := s.beginDone c flags detail
    (u.cq c.hoop c.cq).head = none ∧ ∃ f, u.flights = s.flights ++ [f] ∧ f.cmd = c ∧ f.done = true := by
  simp only [State.beginDone, h, State.fresh, Bool.false_eq_true, if_false]
  exact ⟨beginCmd_head _ _, _, beginCmd_flights _ _, rfl, rfl⟩

/-- The one reached AT_STITCH, before which no other target is reached, completes, and what can commit commits (R44, R133). -/
theorem wakeAts_one {a : Nat} {c : Cmd} (hone : s.reachedAts = [(a, c)]) (hfirst : s.reachedFirst a = true) :
    s.wakeAts = (s.beginDone c 0 0).settled := by
  have hothers : s.reachedOthers.all (fun x => decide (a ≤ x)) = true := by
    rw [State.reachedFirst, Bool.and_eq_true] at hfirst; exact hfirst.1
  simp [State.wakeAts, hone, hothers]

/-- What POSITION_REACHED answers: the time that has passed, and the waits that it ends. -/
theorem exec_positionReached (dt : Nat) (sub : Fin 16) :
    exec (.positionReached dt sub) s =
      .next (dev (fun s => (if dt = 0 then s else s.phasesEnd).wakeAts) (s.advance16 (16 * dt + sub))) := by
  have hdo : doPositionReached dt sub s = dev (fun s => (if dt = 0 then s else s.phasesEnd).wakeAts) (s.advance16 (16 * dt + sub)) := rfl
  have hrun : exec (.positionReached dt sub) s = runTime (doPositionReached dt sub) s := rfl
  rw [hrun, runTime_next (by rw [hdo, dev_part, State.advance16_part]) (by rw [hdo, dev_pending, State.advance16_pending]), hdo]

end WaitedPositions

/-- Settles O7: the held record by the rules of the hold list and of the ring; the waited position by the one AT_STITCH that it reaches. -/
theorem recordsAreSequenced : Obligations.RecordsAreSequenced := by
  refine ⟨?_, ?_, ?_⟩
  · intro s h r hon hphase hnext hhoop q hen hheld hroom
    obtain ⟨hx, htail, hring⟩ := sequenced_effect s hhoop hen hheld hroom
    refine ⟨s.sequenced h r, ?_, by rw [hx], by rw [hx], htail, hring⟩
    have hrun : dev (doRecordSequenced h) s = dev (fun _ => (s.sequenced h r).settled) s := by
      rw [dev_congr s (doRecordSequenced_next s hphase hnext), dev_dev]
      exact dev_congr s rfl
    rw [← hrun]
    exact runIn_on s _ _ hon
  · intro s dt sub a c later s' hone hfirst hctx
    refine ⟨s'.beginDone c 0 0, ?_, beginDone_effect s' 0 0 hctx⟩
    rw [exec_positionReached, ← wakeAts_one s' hone hfirst]
    exact congrArg _ (dev_congr _ rfl)
  · intro s dt sub
    refine ⟨_, exec_positionReached s dt sub, ?_, ?_, ?_⟩
    · rw [dev_now, State.advance16_now, Nat.add_comm s.sub]
    · rw [dev_sub, State.advance16_sub, Nat.add_comm s.sub]
    · rw [dev_ts, State.advance16_ts]

/-! ## Reset -/

/-- Every hoop but hoop 0 is as untouched (R118, R119). -/
theorem reset_hoop_of_ne {h : Nat} (hne : h ≠ 0) : State.reset.hoop h = Hoop.dflt := by
  simp [State.hoop, State.reset, mget, hne.symm]

/-- Settles O60, by reading each part off the state that a cold reset leaves: what is computed from it by evaluation, what it lists by definition. -/
theorem resetLeavesNothing : Obligations.ResetLeavesNothing := by
  have hpos : State.reset.pos = 0 := by decide +kernel
  have hsrc : State.reset.tsSrc = 0 := by decide +kernel
  have hcause : State.reset.reg R.RESET_CAUSE = 1 := by decide +kernel
  have hcanon : State.reset.canonical = true := by decide +kernel
  have hhoops (h : Nat) (hne : h ≠ 0) : (State.reset.hoop h).phase ≠ .ready := by rw [reset_hoop_of_ne hne]; decide
  have hqueues (h q : Nat) : (State.reset.cq h q).mode ≠ .running := by
    have hdflt : State.reset.cq h q = Cq.dflt := rfl
    rw [hdflt]; decide
  exact ⟨hpos, rfl, hsrc, hcause, rfl, hhoops, hqueues, fun _ => rfl, rfl, rfl, rfl, rfl, fun _ _ => rfl, fun _ => rfl, rfl, hcanon⟩

end Sys2Proof.Machine

namespace Sys2Proof.Machine

/-! ## Operations that leave the rules and the power states (R60, R69, R151)

The work of the tiers and of the links (budgets, waiting requests, held transfers, the end of a move) changes neither the rule store nor
the power manager. -/

/-- The rule store and the power manager. -/
def State.rulesPm (s : State) : SMap Rule × Pm := (s.rules, s.pm)

section RulesAndPower
variable (s : State)

theorem rules_of_rulesPm {t : State} (h : t.rulesPm = s.rulesPm) : t.rules = s.rules := congrArg Prod.fst h
theorem pm_of_rulesPm {t : State} (h : t.rulesPm = s.rulesPm) : t.pm = s.pm := congrArg Prod.snd h

@[simp] theorem rulesPm_addReg (a n : Nat) : (s.addReg a n).rulesPm = s.rulesPm := rfl
@[simp] theorem rulesPm_addPieces (a k n : Nat) : (s.addPieces a k n).rulesPm = s.rulesPm := rfl
@[simp] theorem rulesPm_maxReg (a v : Nat) : (s.maxReg a v).rulesPm = s.rulesPm := by unfold State.maxReg; split <;> rfl
@[simp] theorem rulesPm_setSk (n : Nat) (x : Skein) : (s.setSk n x).rulesPm = s.rulesPm := rfl
@[simp] theorem rulesPm_program (n bytes : Nat) : (s.program n bytes).rulesPm = s.rulesPm := rfl

@[simp] theorem rulesPm_endWait (p : AllocWait → Bool) : (s.endWait p).rulesPm = s.rulesPm :=
  foldl_keeps State.rulesPm _ (fun _ _ => rulesPm_maxReg _ _ _) _ s

@[simp] theorem rulesPm_programAll (place : Nat) (l : List (Nat × Nat)) : (s.programAll place l).rulesPm = s.rulesPm :=
  foldl_keeps State.rulesPm _ (fun s e => by split <;> simp) _ s

@[simp] theorem rulesPm_refund (place tiles : Nat) (l : List (Nat × Nat)) : (s.refund place tiles l).rulesPm = s.rulesPm :=
  foldl_keeps State.rulesPm _ (fun _ _ => rulesPm_setSk _ _ _) _ s

@[simp] theorem rulesPm_endCharge (place tiles : Nat) (l : List (Nat × Nat)) : (s.endCharge place tiles l).rulesPm = s.rulesPm := by
  simp [State.endCharge]

@[simp] theorem rulesPm_cancelDraws (p : DrawFor → Bool) : (s.cancelDraws p).rulesPm = s.rulesPm := rfl

@[simp] theorem rulesPm_dropMove (id : Nat) : (s.dropMove id).rulesPm = s.rulesPm := by
  rw [State.dropMove, rulesPm_cancelDraws, rulesPm_endWait]
  refine Eq.trans (foldl_keeps State.rulesPm _ (fun s m => ?_) _ _) (foldl_keeps State.rulesPm _ (fun s m => ?_) _ s)
  · dsimp only
    split <;> simp
  · refine foldl_keeps State.rulesPm _ (fun s r => ?_) _ s
    split <;> [(split <;> simp); rfl]

end RulesAndPower

end Sys2Proof.Machine

namespace Sys2Proof.Machine

/-! ## Rules under the operations of a trigger unit -/

section Rules
variable (s : State) (r : Nat)

theorem rule_of_rules {t : State} (h : t.rules = s.rules) : t.rule r = s.rule r := by rw [State.rule, h]; rfl

@[simp] theorem rule_setRule_same (x : Rule) : (s.setRule r x).rule r = x := mget_mset_same _ _ _ _
@[simp] theorem rule_setReg (a : Nat) (v : W32) : (s.setReg a v).rule r = s.rule r := rfl
@[simp] theorem rule_addReg (a n : Nat) : (s.addReg a n).rule r = s.rule r := rfl

@[simp] theorem post_rules (x : Rec) : (s.post x).rules = s.rules := by unfold State.post; split <;> rfl
@[simp] theorem rule_post (x : Rec) : (s.post x).rule r = s.rule r := rule_of_rules s r (post_rules s x)

/-- A rule's ARM without ACT_PREFETCH: the rule is ARMED with the stamp and the context, and its deadline runs (R60). -/
theorem rule_doArm_of_no_prefetch (stamp ctx cause v flags : Nat) (h : (s.rule r).actPrefetch = false) :
    (s.doArm r stamp ctx cause v flags).rule r =
      { s.rule r with
        state := 1, armStamp := stamp, armCtx := ctx, armObjs := [], armId := s.nextId,
        deadline := if (s.rule r).armTimeout = 0 then none else some (stamp + 65536 * (s.rule r).armTimeout) } := by
  have hfresh : s.fresh.1.rule r = s.rule r := rfl
  simp only [State.doArm, h, Bool.false_eq_true, if_false]
  split <;> simp [State.fresh]

/-- A rule's FIRE without ACT_FIRE: the rule is HELD, its deadline is gone, and its refractory time begins (R59). -/
theorem rule_doFire_of_no_template (stamp cause v flags : Nat) (firing : Option Rec) (h : (s.rule r).actFire = false) :
    (s.doFire r stamp cause v flags firing).rule r =
      { s.rule r with state := 2, deadline := none, refractoryEnd := stamp + 65536 * (s.rule r).refractory } := by
  simp only [State.doFire, h, Bool.false_eq_true, if_false]
  split <;> simp

/-- What a rule's ARM had begun is undone: its uncommitted moves are killed, and the objects that nothing has used since take age 0 (R69). -/
def State.armUndone (s : State) (r : Nat) : State :=
  let x := s.rule r
  let s := (s.moves.filter fun m => decide (m.kind = .arm r x.armId)).foldl (fun s m => s.dropMove m.id) s
  x.armObjs.foldl (fun s k => if (s.obj k).age = x.armStamp then s.modObj k fun o => { o with age := 0 } else s) s

@[simp] theorem armUndone_rules : (s.armUndone r).rules = s.rules :=
  Eq.trans (foldl_keeps State.rules _ (fun _ _ => by split <;> rfl) _ _)
    (foldl_keeps State.rules _ (fun _ _ => rules_of_rulesPm _ (rulesPm_dropMove _ _)) _ s)

/-- DISARM undoes the ARM, leaves the rule HELD without deadline, is counted, and may post its record (R69). -/
theorem disarm_eq (stamp cause flags : Nat) : ∃ rec,
    s.disarm r stamp cause flags =
      let t := ((s.armUndone r).setRule r { (s.armUndone r).rule r with state := 2, deadline := none, armObjs := [] }).addReg (R.DISARM_COUNT (r / 512)) 1
      if (s.rule r).postDisarm then t.post rec else t := ⟨_, rfl⟩

@[simp] theorem rule_disarm (stamp cause flags : Nat) :
    (s.disarm r stamp cause flags).rule r = { s.rule r with state := 2, deadline := none, armObjs := [] } := by
  obtain ⟨rec, h⟩ := disarm_eq s r stamp cause flags
  rw [h, rule_of_rules s r (armUndone_rules s r)]
  dsimp only
  split <;> simp

end Rules

end Sys2Proof.Machine

namespace Sys2Proof.Machine

/-! ## The evaluation of one rule (R59, R70) -/

section Evaluation
variable (s : State) (r : Nat) (rec : Rec)

/-- A record stamped before the deadline of an ARMED rule, or offered to any other rule, disarms nothing first (R70). -/
theorem disarmBefore_of_in_time (h : (s.rule r).state = 1 → ∀ d, (s.rule r).deadline = some d → rec.stamp < d) :
    s.disarmBefore r rec.stamp = s := by
  unfold State.disarmBefore
  split
  · next d hd => exact if_neg fun hdue => (h hdue.1 d hd).not_ge hdue.2
  · rfl

/-- A record stamped at or after the deadline of an ARMED rule finds it disarmed (R70). -/
theorem disarmBefore_of_due {d : Nat} (harmed : (s.rule r).state = 1) (hd : (s.rule r).deadline = some d) (hdue : d ≤ rec.stamp) :
    s.disarmBefore r rec.stamp = s.disarm r d 2 0 := by
  simp [State.disarmBefore, harmed, hd, hdue]

section InTime
variable (hin : (s.rule r).state = 1 → ∀ d, (s.rule r).deadline = some d → rec.stamp < d)
include hin

/-- The evaluation of a rule whose deadline is not reached counts the record and disarms nothing. -/
theorem evalRule_in_time_base : (s.addReg (R.EVAL_COUNT (r / 512)) 1).disarmBefore r rec.stamp = s.addReg (R.EVAL_COUNT (r / 512)) 1 :=
  disarmBefore_of_in_time _ r rec hin

theorem rule_evalRule_suppressed (hearly : rec.stamp < (s.rule r).refractoryEnd) :
    (s.evalRule r rec).rule r = { s.rule r with suppressed := min 65535 ((s.rule r).suppressed + 1) } := by
  simp [State.evalRule, evalRule_in_time_base s r rec hin, hearly]

variable (hlate : (s.rule r).refractoryEnd ≤ rec.stamp)
include hlate

theorem rule_evalRule_released (hheld : (s.rule r).state = 2) (hisl : (s.rule r).island = false)
    (hrel : (s.rule r).released ((s.rule r).val (s.rule r).armSrc rec) = true) : (s.evalRule r rec).rule r = { s.rule r with state := 0 } := by
  simp [State.evalRule, evalRule_in_time_base s r rec hin, not_lt.mpr hlate, hheld, hisl, hrel]

theorem rule_evalRule_armed (hidle : (s.rule r).state = 0) (hsrc : rec.fromSrc (s.rule r).armSrc = true)
    (harm : (s.rule r).meets ((s.rule r).val (s.rule r).armSrc rec) (s.rule r).armL = true)
    (hfire : (rec.fromSrc (s.rule r).fireSrc && (s.rule r).meets ((s.rule r).val (s.rule r).fireSrc rec) (s.rule r).fireL) = false)
    (hpre : (s.rule r).actPrefetch = false) :
    (s.evalRule r rec).rule r = { s.rule r with
      state := 1, armStamp := rec.stamp, armCtx := rec.context, armObjs := [], armId := s.nextId,
      deadline := if (s.rule r).armTimeout = 0 then none else some (rec.stamp + 65536 * (s.rule r).armTimeout) } := by
  have hno (p : Prop) : ¬ (p ∧ rec.fromSrc (s.rule r).fireSrc = true ∧ (s.rule r).meets ((s.rule r).val (s.rule r).fireSrc rec) (s.rule r).fireL = true) := by
    simp_all
  have hpre' : ((s.addReg (R.EVAL_COUNT (r / 512)) 1).rule r).actPrefetch = false := hpre
  simp only [State.evalRule, evalRule_in_time_base s r rec hin, rule_addReg, not_lt.mpr hlate, hidle, hsrc, harm, if_false]
  simp [hno, rule_doArm_of_no_prefetch _ _ _ _ _ _ _ hpre']
  exact ⟨rfl, rfl⟩

theorem rule_evalRule_fired (harmed : (s.rule r).state = 1) (hsrc : rec.fromSrc (s.rule r).fireSrc = true)
    (hfire : (s.rule r).meets ((s.rule r).val (s.rule r).fireSrc rec) (s.rule r).fireL = true) (hact : (s.rule r).actFire = false) :
    (s.evalRule r rec).rule r =
      { s.rule r with state := 2, deadline := none, refractoryEnd := rec.stamp + 65536 * (s.rule r).refractory } := by
  have hact' : ((s.addReg (R.EVAL_COUNT (r / 512)) 1).rule r).actFire = false := hact
  simp [State.evalRule, evalRule_in_time_base s r rec hin, not_lt.mpr hlate, harmed, hsrc, hfire, rule_doFire_of_no_template _ _ _ _ _ _ _ hact']

end InTime

/-- A rule that is HELD, past its refractory time, and not released stays as it is (R56, R59). -/
theorem evalRule_held {t : State} (hbase : (s.addReg (R.EVAL_COUNT (r / 512)) 1).disarmBefore r rec.stamp = t)
    (hlate : (t.rule r).refractoryEnd ≤ rec.stamp) (hheld : (t.rule r).state = 2) (hisl : (t.rule r).island = false)
    (hrel : (t.rule r).released ((t.rule r).val (t.rule r).armSrc rec) = false) : s.evalRule r rec = t := by
  simp [State.evalRule, hbase, not_lt.mpr hlate, hheld, hisl, hrel]

theorem rule_evalRule_disarmed {d : Nat} (hlate : (s.rule r).refractoryEnd ≤ rec.stamp) (harmed : (s.rule r).state = 1)
    (hd : (s.rule r).deadline = some d) (hdue : d ≤ rec.stamp) (hisl : (s.rule r).island = false)
    (hrel : (s.rule r).released ((s.rule r).val (s.rule r).armSrc rec) = false) :
    (s.evalRule r rec).rule r = { s.rule r with state := 2, deadline := none, armObjs := [] } := by
  let t := (s.addReg (R.EVAL_COUNT (r / 512)) 1).disarm r d 2 0
  have hrule : t.rule r = { s.rule r with state := 2, deadline := none, armObjs := [] } := rule_disarm _ r d 2 0
  -- The refractory end stays, and island flag, source and level of release rest on the rule's bits alone.
  rw [evalRule_held s r rec (t := t) (disarmBefore_of_due _ r rec harmed hd hdue), hrule] <;> rw [hrule]
  · exact hlate
  · exact hisl
  · exact hrel

end Evaluation

/-! ## Answers of commands in the compute domain -/

/-- A command of a domain that is on, whose operation leaves what `g` makes of `u`. -/
theorem completesThen_runIn {c : Instr} {d : Domain} {f g : State → State} {s u : State} {p : State → Prop} (hc : exec c s = runIn d f s)
    (hon : s.domainOn d = true) (hf : f s = g u) (hp : p u) : completesThen c s g p :=
  ⟨u, by rw [hc, runIn_on s d f hon, dev_congr s (g := fun _ => g u) hf], hp⟩

/-- A command of a domain that is on leaves what its operation leaves, in a device that goes on. -/
theorem completes_runIn {c : Instr} {d : Domain} {f : State → State} {s : State} {p : State → Prop} (hc : exec c s = runIn d f s)
    (hon : s.domainOn d = true) (hp : p (dev f s)) : completes c s p := ⟨dev f s, by rw [hc, runIn_on s d f hon], hp⟩

end Sys2Proof.Machine

namespace Sys2Proof.Machine

/-- A unit that is ON, with room in its partition, evaluates the offered rule once, and what can commit commits (R20, R57, R103). -/
theorem doRuleEvaluate_offered {s s1 : State} {u r : Nat} {rec : Rec} (hon : s.isOn .triggerUnit u = true) (hroom : s.unitFull u = false)
    (hnext : s.nextOffer u (2 * (s.tu u).inq.length + 3) = (s1, some (rec, r))) : doRuleEvaluate u s = (s1.evalRule r rec).settled := by
  simp [doRuleEvaluate, hon, hroom, hnext]

/-- Settles O8: the unit's next offer is evaluated by the procedure of R59, one branch of it for each clause. -/
theorem ruleEvaluation : Obligations.RuleEvaluation := by
  intro s s1 u rec r hdom hon hroom hnext x intime
  have hrun (p : State → Prop) (hp : p (s1.evalRule r rec)) : completesThen (.ruleEvaluate u) s State.settled p :=
    completesThen_runIn rfl hdom (doRuleEvaluate_offered hon hroom hnext) hp
  refine ⟨fun hearly hin => hrun _ ?_, fun hlate hidle hsrc harm hfire hpre => hrun _ ?_, fun hlate harmed hin hsrc hfire hact => hrun _ ?_,
    fun hlate hheld hisl hrel => hrun _ ?_, fun d hlate harmed hd hdue hisl hrel => hrun _ ?_⟩
  · rw [rule_evalRule_suppressed s1 r rec hin hearly]
    exact ⟨rfl, rfl⟩
  · rw [rule_evalRule_armed s1 r rec (fun h => absurd (hidle.symm.trans h) (by decide)) hlate hidle hsrc harm hfire hpre]
    exact ⟨rfl, rfl, rfl, rfl⟩
  · rw [rule_evalRule_fired s1 r rec (fun _ => hin) hlate harmed hsrc hfire hact]
    exact ⟨rfl, rfl, rfl⟩
  · rw [rule_evalRule_released s1 r rec (fun h => absurd (hheld.symm.trans h) (by decide)) hlate hheld hisl hrel]
  · rw [rule_evalRule_disarmed s1 r rec hlate harmed hd hdue hisl hrel]
    exact ⟨rfl, rfl⟩

/-! ## Waiting blocks and arm deadlines (R67, R69, R70) -/

section WaitingFires
variable (s : State)

@[simp] theorem cq_setCq_same (h q : Nat) (x : Cq) : (s.setCq h q x).cq h q = x := mget_mset_same _ _ _ _
@[simp] theorem post_pendFires (x : Rec) : (s.post x).pendFires = s.pendFires := by unfold State.post; split <;> rfl
@[simp] theorem post_cqs (x : Rec) : (s.post x).cqs = s.cqs := by unfold State.post; split <;> rfl

/-- A block is written at TAIL of a device ring one command after the other, and each one moves TAIL on (R65). -/
theorem ringAppend_cons (h q : Nat) (c : Line) (cs : List Line) : ∃ t : State,
    t.cq h q = { s.cq h q with tail := nextPos (s.cq h q).tail } ∧ s.ringAppend h q (c :: cs) = t.ringAppend h q cs := by
  refine ⟨_, ?_, List.foldl_cons ..⟩
  dsimp only
  rw [cq_setCq_same]
  split <;> rfl

/-- A block that is written moves TAIL on by its length (R65, R120). -/
theorem ringAppend_tail (h q : Nat) (cs : List Line) (hne : cs ≠ []) :
    ((s.ringAppend h q cs).cq h q).tail = ((s.cq h q).tail + cs.length) % 2 ^ 32 := by
  induction cs generalizing s with
  | nil => exact absurd rfl hne
  | cons c cs ih =>
    obtain ⟨t, ht, hrest⟩ := ringAppend_cons s h q c cs
    rw [hrest]
    cases cs with
    | nil => exact congrArg Cq.tail ht
    | cons c' cs =>
      rw [ih t (List.cons_ne_nil c' cs), ht]
      simp only [nextPos, List.length_cons]
      omega

@[simp] theorem ringAppend_pendFires (h q : Nat) (cs : List Line) : (s.ringAppend h q cs).pendFires = s.pendFires :=
  foldl_keeps State.pendFires _ (fun s c => by split <;> rfl) cs s

/-- A block that enters its queue has entered it whole; the record of its FIRE, where it has one, changes neither (R65, R67). -/
theorem fireAppended_effect (p : PendFire) (hne : p.cmds ≠ []) :
    (s.fireAppended p).pendFires = s.pendFires ∧
    ((s.fireAppended p).cq p.hoop p.cq).tail = ((s.cq p.hoop p.cq).tail + p.cmds.length) % 2 ^ 32 := by
  have htail := ringAppend_tail s p.hoop p.cq p.cmds hne
  unfold State.fireAppended
  split
  · exact ⟨by simp, by rw [State.cq, post_cqs]; exact htail⟩
  · exact ⟨by simp, htail⟩

/-- A block of a trigger unit that drops is counted there, whatever records say so (R67). -/
theorem dropFire_effect (p : PendFire) {u : Nat} (hu : p.unit = some u) :
    (s.dropFire p).pendFires = s.pendFires ∧ (s.dropFire p).reg (R.FIRE_DROP_COUNT u) = satAdd (s.reg (R.FIRE_DROP_COUNT u)) 1 := by
  unfold State.dropFire
  rw [hu]
  dsimp only
  split
  · exact ⟨(post_pendFires _ _).trans (post_pendFires s _), by rw [reg_addReg_same, reg_post, reg_post]⟩
  · exact ⟨post_pendFires s _, by rw [reg_addReg_same, reg_post]⟩

/-- A waiting block waits no longer (R67). -/
def State.unwait (s : State) (p : PendFire) : State := { s with pendFires := s.pendFires.erase p }

variable {s} {h q : Nat} {p : PendFire} (hfind : s.pendFires.find? (fun p => decide (p.hoop = h ∧ p.cq = q)) = some p)
include hfind

/-- The oldest waiting block of a ring in device memory that has room for it is appended (R67). -/
theorem doPendingFireAppend_of_room (hdev : s.cqDevice h q = true) (hroom : s.ringRoom h q p.cmds.length = true) :
    doPendingFireAppend h q s = ((s.unwait p).fireAppended p).heldForces := by
  rw [doPendingFireAppend, hfind]
  simp [hdev, hroom, State.unwait]

/-- The oldest waiting block that has waited FIRE_HOLD stitches and finds no room drops (R67). -/
theorem doFireHoldExpiry_of_held (hheld : p.since + 65536 * (s.reg (R.FIRE_HOLD h)).toNat ≤ s.pos) (hroom : s.ringRoom h q p.cmds.length = false) :
    doFireHoldExpiry h q s = ((s.unwait p).dropFire p).heldForces := by
  rw [doFireHoldExpiry, hfind]
  simp [hheld, hroom, State.unwait]

end WaitingFires

/-- Settles O9: the block that has room is appended, the one that has waited too long drops, and the due rule is disarmed. -/
theorem waitingFiresAndDeadlines : Obligations.WaitingFiresAndDeadlines := by
  refine ⟨?_, ?_, ?_⟩
  · intro s h q p hdom hfind hdev hroom hne
    obtain ⟨hh, hq⟩ : p.hoop = h.val ∧ p.cq = q.val := by simpa using List.find?_some hfind
    obtain ⟨hpend, htail⟩ := fireAppended_effect (s.unwait p) p hne
    rw [hh, hq] at htail
    exact completesThen_runIn rfl hdom (doPendingFireAppend_of_room hfind hdev hroom) ⟨hpend, htail⟩
  · intro s h q p u hdom hfind hu hheld hroom
    exact completesThen_runIn rfl hdom (doFireHoldExpiry_of_held hfind hheld hroom) (dropFire_effect (s.unwait p) p hu)
  · intro s r d hdom harmed hd hdue hnone hfirst
    have hrun : doDisarm r s = s.disarm r d 2 0 := by simp [doDisarm, harmed, hd, hdue, hnone, hfirst]
    have hrule : (dev (doDisarm r) s).rule r = { s.rule r with state := 2, deadline := none, armObjs := [] } := by
      rw [← rule_disarm s r d 2 0, ← hrun]
      rfl
    exact completes_runIn rfl hdom (by rw [hrule]; exact ⟨rfl, rfl, rfl⟩)

end Sys2Proof.Machine

namespace Sys2Proof.Machine

/-- A device command whose operation makes a state that keeps the part, the clock, scene time and the waiting commands leaves that state. -/
theorem completes_run {c : Instr} {f : State → State} {s t : State} {p : State → Prop} (hc : exec c s = run f s) (hf : f s = t)
    (hkept : dev (fun _ => t) s = t) (hp : p t) : completes c s p :=
  ⟨t, by rw [hc, run_next, dev_congr s (g := fun _ => t) hf, hkept], hp⟩

/-- A store in a register keeps them. -/
theorem dev_setReg (s : State) (a : Nat) (v : W32) : dev (fun _ => s.setReg a v) s = s.setReg a v := rfl

/-! ## Rule ranges (R79) -/

section RuleRanges

/-- May hoop `h` have the `n` rules from `b` on: clear of the other hoops' ranges, within the store, and with all of its enabled rules (R79)? -/
def State.partFree (s : State) (h b n : Nat) : Prop :=
  (∀ g < 16, g = h ∨ s.ruleCount g = 0 ∨ n = 0 ∨ s.ruleBase g + s.ruleCount g ≤ b ∨ b + n ≤ s.ruleBase g) ∧ b + n ≤ 8192 ∧
  (∀ e ∈ s.rules, e.2.enabled = true → s.ruleOf h e.1 = true → b ≤ e.1 ∧ e.1 < b + n)

variable {s : State} {f h : Nat} {v : W32} (hreach : s.reaches f (R.TRIG_PART h) = true)
include hreach

/-- A range that a hoop may have takes effect at once (R79). -/
theorem doTrigPartWrite_of_free (hfree : s.partFree h (fld v 0 13) (fld v 16 14)) :
    doTrigPartWrite f h v s = s.setReg (R.TRIG_PART h) (w32 (fld v 0 13 + fld v 16 14 * 2 ^ 16)) := by
  obtain ⟨hclear, hstore, hrules⟩ := hfree
  rw [doTrigPartWrite, reach_of_reaches _ _ _ _ hreach]
  refine if_neg ?_
  rintro (hover | hbeyond | hleaves)
  · obtain ⟨g, hg, hover⟩ := List.any_eq_true.1 hover
    have := hclear g (List.mem_range.1 hg)
    have := of_decide_eq_true hover
    omega
  · omega
  · obtain ⟨e, he, hleaves⟩ := List.any_eq_true.1 hleaves
    simp only [Bool.and_eq_true, Bool.not_eq_true', decide_eq_false_iff_not] at hleaves
    exact hleaves.2 (hrules e he hleaves.1.1 hleaves.1.2)

/-- Any other range is refused: PART_REFUSED is set, and nothing else changes (R79). -/
theorem doTrigPartWrite_of_not_free (hfree : ¬ s.partFree h (fld v 0 13) (fld v 16 14)) :
    doTrigPartWrite f h v s = s.setRegFld (R.TU_STATUS 0) 16 1 1 := by
  rw [doTrigPartWrite, reach_of_reaches _ _ _ _ hreach]
  refine if_pos (by_contra fun htaken => hfree ⟨?_, ?_, ?_⟩)
  · intro g hg
    by_contra hover
    refine htaken (.inl (List.any_eq_true.2 ⟨g, List.mem_range.2 hg, decide_eq_true ?_⟩))
    omega
  · by_contra hbeyond
    exact htaken (.inr (.inl (not_le.1 hbeyond)))
  · intro e he hen hof
    by_contra hout
    exact htaken (.inr (.inr (List.any_eq_true.2 ⟨e, he, by simp [hen, hof, hout]⟩)))

end RuleRanges

/-- Settles O11: the two checks of R79 are the three conditions of the statement, and what they refuse changes only PART_REFUSED. -/
theorem ruleRangesArePartitioned : Obligations.RuleRangesArePartitioned := by
  intro s f h v hreach b n free
  refine ⟨fun hfree => completes_run rfl (doTrigPartWrite_of_free hreach hfree) (dev_setReg s _ _) (reg_setReg_same s _ _),
    fun hfree => completes_run rfl (doTrigPartWrite_of_not_free hreach hfree) (dev_setReg s _ _) ⟨?_, ?_⟩⟩
  · have hne : R.TRIG_PART h ≠ R.TU_STATUS 0 := by simp only [R.TRIG_PART, R.TU_STATUS]; omega
    exact reg_setReg_ne _ _ _ _ hne
  · rw [setRegFld_eq, reg_setReg_same, fld_setFld_same _ _ _ _ (by decide)]
    rfl

end Sys2Proof.Machine

namespace Sys2Proof.Machine

/-! ## Pricking engines (R74, R75, R80, R81) -/

section Prickings
variable {s : State} {f h n : Nat} {v : W32}

@[simp] theorem prick_setPrick_same (x : Prick) : (s.setPrick h n x).prick h n = x := mget_mset_same _ _ _ _
@[simp] theorem reg_setPrick (x : Prick) (a : Nat) : (s.setPrick h n x).reg a = s.reg a := rfl
@[simp] theorem obj_modObj_same (k : Nat) (g : Obj → Obj) : (s.modObj k g).obj k = g (s.obj k) := mget_mset_same _ _ _ _

/-- EN of a written value with LATE alone is 0 (R80). -/
theorem bit_zero_of_even (x : Nat) : bit (w32 (2 * x)) 0 = false := by rw [bit, w32, BitVec.getLsbD_ofNat]; simp

section Enable
variable (hreach : s.reaches f (R.PRICK_CTRL h n) = true)
include hreach

/-- Enabling an engine that is enabled writes LATE and nothing else (R80). -/
theorem doPrickEnable_again (hon : bit v 0 = true) (hwas : bit (s.reg (R.PRICK_CTRL h n)) 0 = true) :
    doPrickEnable f h n v s = s.setReg (R.PRICK_CTRL h n) (w32 (1 + 2 * fld v 1 2)) := by
  rw [doPrickEnable, reach_of_reaches _ _ _ _ hreach]
  simp [hon, hwas]

/-- Enabling an engine whose table resolves and keeps R74 pins the table and begins at its first entry (R81). -/
theorem doPrickEnable_loads {k : Nat} {es : List (BitVec 256)} (hon : bit v 0 = true) (hwas : bit (s.reg (R.PRICK_CTRL h n)) 0 = false)
    (htable : s.resolve h (s.reg (R.PRICK_TABLE h n)).toNat = some k) (hkind : (s.obj k).kind = 11) (htier : (s.obj k).tier = 2)
    (hhomed : (s.obj k).homed = true) (hes : (s.obj k).pricking (s.reg (R.PRICK_PERIOD h n)).toNat = some es) :
    doPrickEnable f h n v s =
      ((s.modObj k fun o => { o with pins := o.pins + 1 }).setReg (R.PRICK_CTRL h n) (w32 (1 + 2 * fld v 1 2))).setPrick h n
        { entries := es, lap := 0, entry := 0, done := decide (es = [] ∧ (s.reg (R.PRICK_PERIOD h n)).toNat = 0), refused := false, table := some k } := by
  rw [doPrickEnable, reach_of_reaches _ _ _ _ hreach]
  simp [hon, hwas, htable, hkind, htier, hhomed, hes]

/-- Enabling an engine whose table does not resolve, or breaks R74, sets REFUSED (R81). -/
theorem doPrickEnable_refused (hon : bit v 0 = true) (hwas : bit (s.reg (R.PRICK_CTRL h n)) 0 = false)
    (hbad : ∀ k, s.resolve h (s.reg (R.PRICK_TABLE h n)).toNat = some k →
      (s.obj k).kind ≠ 11 ∨ (s.obj k).tier ≠ 2 ∨ (s.obj k).homed = false ∨ (s.obj k).pricking (s.reg (R.PRICK_PERIOD h n)).toNat = none) :
    doPrickEnable f h n v s = (s.setReg (R.PRICK_CTRL h n) (w32 (2 * fld v 1 2))).setPrick h n { Prick.dflt with refused := true } := by
  rw [doPrickEnable, reach_of_reaches _ _ _ _ hreach]
  simp only [hon, hwas, if_true, Bool.false_eq_true, if_false]
  split
  · rfl
  · next k hk =>
    split
    · next hok =>
      have hnone : (s.obj k).pricking (s.reg (R.PRICK_PERIOD h n)).toNat = none := by simpa [hok] using hbad k hk
      rw [hnone]
    · rfl

/-- Disabling an engine unpins its table and forgets it (R81). -/
theorem doPrickEnable_off (hoff : bit v 0 = false) : ∃ objs,
    doPrickEnable f h n v s =
      ({ s with objs := objs }.setReg (R.PRICK_CTRL h n) (w32 (2 * fld v 1 2))).setPrick h n { s.prick h n with entries := [], table := none } := by
  rw [doPrickEnable, reach_of_reaches _ _ _ _ hreach]
  cases htable : (s.prick h n).table with
  | none => exact ⟨s.objs, by simp [hoff, htable]⟩
  | some k => exact ⟨(s.modObj k fun o => { o with pins := o.pins - 1 }).objs, by simp [hoff, htable]; rfl⟩

end Enable

/-- An engine after an entry: at the next one, at the first one of the next lap, or done with a table that is not repeated (R75). -/
def Prick.next (x : Prick) (period : Nat) : Prick :=
  if x.entries.length ≤ x.entry + 1 then (if period = 0 then { x with entry := x.entry + 1, done := true } else { x with entry := 0, lap := x.lap + 1 })
  else { x with entry := x.entry + 1 }

/-- What the due entry does: it acts, or, late, it is skipped by the engine's LATE mode and counted (R76). -/
def State.prickEffect (s : State) (h n : Nat) : State :=
  let x := s.prick h n
  let period := (s.reg (R.PRICK_PERIOD h n)).toNat
  let target := s.prickTarget h n x.lap x.entry
  let tol := (s.reg (R.PRICK_LATE_TOL h n)).toNat
  let late := decide (65536 * (target + tol) < s.pos)
  let mode := fld (s.reg (R.PRICK_CTRL h n)) 1 2
  if late && (decide (mode = 1) || (decide (mode = 2) && decide (period ≠ 0 ∧ 65536 * (target + period + tol) < s.pos))) then
    s.addReg (R.PRICK_SKIP_COUNT h n) 1
  else s.prickAct h n x.entry target late

/-- An entry that is due, whose target is the lowest reached one and which waits for no room, has its effect, and the engine goes on (R44, R75). -/
theorem doPrickingEntry_due (hdue : s.prickDue h n = true)
    (hfirst : s.reachedFirst (65536 * s.prickTarget h n (s.prick h n).lap (s.prick h n).entry) = true)
    (hroom : s.prickWaits h n (s.prick h n).entry = false) :
    doPrickingEntry h n s = ((s.prickEffect h n).setPrick h n ((s.prick h n).next (s.reg (R.PRICK_PERIOD h n)).toNat)).settled := by
  have hnow : ¬ ((!s.prickDue h n) = true ∨ s.reachedFirst (65536 * s.prickTarget h n (s.prick h n).lap (s.prick h n).entry) = false ∨
      s.prickWaits h n (s.prick h n).entry = true) := by simp [hdue, hfirst, hroom]
  rw [doPrickingEntry]
  refine (if_neg hnow).trans ?_
  simp only [State.prickEffect, Prick.next, decide_eq_true_eq]

/-- A late entry under SKIP is counted and does nothing else (R76). -/
theorem prickEffect_of_skip (hlate : 65536 * (s.prickTarget h n (s.prick h n).lap (s.prick h n).entry + (s.reg (R.PRICK_LATE_TOL h n)).toNat) < s.pos)
    (hskip : fld (s.reg (R.PRICK_CTRL h n)) 1 2 = 1) : s.prickEffect h n = s.addReg (R.PRICK_SKIP_COUNT h n) 1 := by
  simp [State.prickEffect, hlate, hskip]

end Prickings

/-- Settles O12: a write of PRICK_CTRL by the four cases of R80 and R81, and an entry that is due by its effect and the engine's next place. -/
theorem prickings : Obligations.Prickings := by
  refine ⟨?_, ?_⟩
  · intro s f h n v hreach en table period
    refine ⟨fun k es hon hwas htable hkind htier hhomed hes => ?_, fun hon hwas hbad => ?_, fun hon hwas => ?_, fun hoff => ?_⟩
    · refine completes_run rfl (doPrickEnable_loads hreach hon hwas htable hkind htier hhomed hes) rfl ?_
      rw [prick_setPrick_same, reg_setPrick, reg_setReg_same]
      exact ⟨rfl, rfl, rfl, rfl, rfl, congrArg Obj.pins (obj_modObj_same (s := s) k fun o => { o with pins := o.pins + 1 })⟩
    · refine completes_run rfl (doPrickEnable_refused hreach hon hwas hbad) rfl ?_
      rw [prick_setPrick_same, reg_setPrick, reg_setReg_same]
      exact ⟨bit_zero_of_even _, rfl⟩
    · exact completes_run rfl (doPrickEnable_again hreach hon hwas) (dev_setReg s _ _) ⟨reg_setReg_same s _ _, rfl⟩
    · obtain ⟨objs, hrun⟩ := doPrickEnable_off hreach hoff
      refine completes_run rfl hrun rfl ?_
      rw [prick_setPrick_same, reg_setPrick, reg_setReg_same]
      exact ⟨rfl, rfl, rfl⟩
  · intro s h n hdom x target period late hdue hfirst hroom
    have hrun := doPrickingEntry_due hdue hfirst hroom
    refine ⟨completesThen_runIn rfl hdom hrun ?_, fun hlate hskip => completesThen_runIn rfl hdom hrun ?_⟩
    · rw [prick_setPrick_same]
      refine ⟨fun hmore => if_neg (not_le.2 hmore), fun hlast hone => ?_, fun hlast hagain => ?_⟩
      · exact (if_pos hlast).trans (if_pos hone)
      · exact (if_pos hlast).trans (if_neg hagain)
    · rw [reg_setPrick, prickEffect_of_skip hlate hskip, reg_addReg_same]

end Sys2Proof.Machine

namespace Sys2Proof.Machine

/-! ## RULE_CMD on a range beyond the store (R79, R81) -/

/-- A device in ACTIVE whose hoop 0 has the 8,192 rules from rule 1 on, one more than the store has, and selects the last of them, rule 8,192,
which is enabled. TRIG_PART takes no such range (R79); the statement asks for none. -/
def State.beyondStore : State :=
  { State.reset with
    pm := { Pm.dflt with mode := .active }
    regs := [(R.TRIG_PART 0, 0x20000001), (R.BLOCK_STATE (pageOf .hoopTrigger 0), 2), (R.RULE_SEL 0, 8191)]
    rules := [(8192, { Rule.dflt with enabled := true })] }

/-- Past the 16 trigger units lie the hoops' trigger pages: where unit 16 would count its ARMs, hoop 0 has its RULE_CMD_STATUS. -/
theorem armCount_sixteen : R.ARM_COUNT 16 = R.RULE_CMD_STATUS 0 := rfl

/-- Refutes O10: with a rule range that goes beyond the store, which no hypothesis excludes, FORCE_ARM of rule 8,192 would have to leave one more than
before in ARM_COUNT of unit 16, which is RULE_CMD_STATUS of hoop 0, and leave that register DONE. -/
theorem not_ruleCommands : ¬ Obligations.RuleCommands := by
  intro h
  have haccepts : State.beyondStore.accepts 0 (R.RULE_CMD 0) = true := by decide +kernel
  have hdone : bit (State.beyondStore.reg (R.RULE_CMD_STATUS 0)) 0 = true := by decide +kernel
  have hsel : (State.beyondStore.reg (R.RULE_SEL 0)).toNat < State.beyondStore.ruleCount 0 := by decide +kernel
  have hrule : State.beyondStore.ruleBase 0 + (State.beyondStore.reg (R.RULE_SEL 0)).toNat = 8192 := by decide +kernel
  have henabled : (State.beyondStore.rule 8192).enabled = true := by decide +kernel
  have hidle : (State.beyondStore.rule 8192).state ≠ 1 := by decide +kernel
  have hon : State.beyondStore.isOn .triggerUnit (8192 / 512) = true := by decide +kernel
  obtain ⟨harm, -⟩ := h.2 State.beyondStore 0 0 haccepts hdone hsel
  simp only [Fin.val_zero, hrule] at harm
  obtain ⟨t, -, hstatus, -, -, hcount⟩ := harm henabled hidle hon
  have hbefore : State.beyondStore.reg (R.RULE_CMD_STATUS 0) = 1 := by decide +kernel
  rw [show 8192 / 512 = 16 from rfl, armCount_sixteen, hstatus, hbefore] at hcount
  exact absurd hcount (by decide)

end Sys2Proof.Machine

namespace Sys2Proof.Machine

/-! ## Operations that leave the power manager (R151, R572)

Kills, releases, hoop resets and block resets change nothing in the power manager. -/

section PowerFrame
variable (s : State)

theorem foldl_pm {α : Type} {f : State → α → State} (h : ∀ s x, (f s x).pm = s.pm) (l : List α) (s : State) : (l.foldl f s).pm = s.pm :=
  foldl_keeps State.pm f h l s

@[simp] theorem addReg_pm (a n : Nat) : (s.addReg a n).pm = s.pm := rfl
@[simp] theorem setRegFld_pm (a lo len x : Nat) : (s.setRegFld a lo len x).pm = s.pm := rfl
@[simp] theorem endWait_pm (p : AllocWait → Bool) : (s.endWait p).pm = s.pm := pm_of_rulesPm _ (rulesPm_endWait _ _)
@[simp] theorem endCharge_pm (place tiles : Nat) (l : List (Nat × Nat)) : (s.endCharge place tiles l).pm = s.pm := pm_of_rulesPm _ (rulesPm_endCharge _ _ _ _)
@[simp] theorem cancelDraws_pm (p : DrawFor → Bool) : (s.cancelDraws p).pm = s.pm := rfl
@[simp] theorem dropMove_pm (id : Nat) : (s.dropMove id).pm = s.pm := pm_of_rulesPm _ (rulesPm_dropMove _ _)
@[simp] theorem post_pm (r : Rec) : (s.post r).pm = s.pm := by unfold State.post; split <;> rfl
@[simp] theorem modObj_pm (k : Nat) (f : Obj → Obj) : (s.modObj k f).pm = s.pm := rfl

/-! ### Messages -/

@[simp] theorem draw_pm (h r n : Nat) (f : DrawFor) : (s.draw h r n f).pm = s.pm := by
  unfold State.draw
  exact (apply_ite State.pm ..).trans (ite_self _)

@[simp] theorem transmit_pm (p : Nat) : (s.transmit p).pm = s.pm := by
  unfold State.transmit
  split
  · rfl
  · dsimp only
    split
    · rfl
    · split <;> rfl

@[simp] theorem launch_pm (p : Nat) (m : LinkMsg) : (s.launch p m).pm = s.pm := transmit_pm _ p

@[simp] theorem sendMsg_pm (p : Nat) (m : LinkMsg) : (s.sendMsg p m).pm = s.pm := by
  unfold State.sendMsg
  simp only [apply_ite State.pm, launch_pm, draw_pm, ite_self]

/-! ### Kills and releases (R169, R416) -/

@[simp] theorem retire_pm (k h tier unit bytes : Nat) : (s.retire k h tier unit bytes).pm = s.pm := by unfold State.retire; dsimp only; split <;> rfl
@[simp] theorem freeObj_pm (k : Nat) : (s.freeObj k).pm = s.pm := by unfold State.freeObj; dsimp only; split <;> simp
@[simp] theorem keepOnly_pm (i n : Nat) : (s.keepOnly i n).pm = s.pm := rfl
@[simp] theorem setCtx_pm (i : Nat) (c : Ctx) : (s.setCtx i c).pm = s.pm := rfl
@[simp] theorem unholdKnots_pm (id : Nat) : (s.unholdKnots id).pm = s.pm := rfl
@[simp] theorem dropReader_pm (id : Nat) : (s.dropReader id).pm = s.pm := rfl
@[simp] theorem endAsk_pm (i : Nat) : (s.endAsk i).pm = s.pm := by unfold State.endAsk; split <;> rfl

@[simp] theorem undoCtx_pm (i : Nat) : (s.undoCtx i).pm = s.pm := by
  simp [State.undoCtx, foldl_pm, apply_ite State.pm]

@[simp] theorem releaseFlight_pm (f : InFlight) : (s.releaseFlight f).pm = s.pm := by
  unfold State.releaseFlight
  extract_lets mine s1 gone s2 s3 s4 s5 s6 s7 s8 s9 s10 closed s11
  have h1 : s1.pm = s.pm := foldl_pm (fun s (m : Move) => dropMove_pm s m.id) _ _
  have h2 : s2.pm = s1.pm := foldl_pm (fun s r => by split <;> simp) _ _
  have h3 : s3.pm = s2.pm := foldl_pm (fun s r => by split <;> simp) _ _
  have h4 : s4.pm = s3.pm := endWait_pm _ _
  have h5 : s5.pm = s4.pm := foldl_pm (fun s o => by split <;> simp) _ _
  have h6 : s6.pm = s5.pm := unholdKnots_pm _ _
  have h7 : s7.pm = s6.pm := foldl_pm freeObj_pm _ _
  have h8 : s8.pm = s7.pm := rfl
  have h9 : s9.pm = s8.pm := foldl_pm (fun s c => addReg_pm s _ _) _ _
  have h10 : s10.pm = s9.pm := by dsimp only [s10]; split <;> [exact foldl_pm undoCtx_pm _ _; rfl]
  have h11 : s11.pm = s10.pm := by dsimp only [s11]; split <;> rfl
  rw [cancelDraws_pm, dropReader_pm, h11, h10, h9, h8, h7, h6, h5, h4, h3, h2, h1]

@[simp] theorem killWhere_pm (p : InFlight → Bool) : (s.killWhere p).pm = s.pm := by
  unfold State.killWhere; exact foldl_pm releaseFlight_pm _ s
@[simp] theorem undoOpen_pm (h q : Nat) : (s.undoOpen h q).pm = s.pm := by
  unfold State.undoOpen; exact foldl_pm (fun s (e : Nat × Ctx) => undoCtx_pm s e.1) _ s
@[simp] theorem withdrawHead_pm (h q : Nat) : (s.withdrawHead h q).pm = s.pm := by
  unfold State.withdrawHead
  extract_lets s1 s2 s3
  have h1 : s1.pm = s.pm := by dsimp only [s1]; split <;> [exact undoOpen_pm _ _ _; rfl]
  have h2 : s2.pm = s1.pm := foldl_pm (fun s (e : Nat × Nat) => freeObj_pm s e.2) _ _
  have h3 : s3.pm = s2.pm := endWait_pm _ _
  rw [State.setCq_pm, h3, h2, h1]

@[simp] theorem killQueue_pm (h q : Nat) : (s.killQueue h q).pm = s.pm := by
  unfold State.killQueue
  extract_lets s1 s2 c s3
  have h3 : s3.pm = s2.pm := by dsimp only [s3]; split <;> rfl
  rw [State.setCq_pm, h3, withdrawHead_pm, killWhere_pm]

@[simp] theorem blockKill_pm (p : InFlight → Bool) : (s.blockKill p).pm = s.pm := by
  unfold State.blockKill; exact foldl_pm (fun s (e : Nat × Nat) => killQueue_pm s e.1 e.2) _ s
@[simp] theorem stopQueue_pm (h q : Nat) : (s.stopQueue h q).pm = s.pm := by
  unfold State.stopQueue
  simp only [State.setCq_pm, State.setReg_pm, killQueue_pm]
  split <;> [(split <;> rfl); rfl]

end PowerFrame

end Sys2Proof.Machine

namespace Sys2Proof.Machine

section PowerFrameOfResets
variable (s : State)

/-! ### Resets of hoops and blocks (R82, R108, R151) -/

@[simp] theorem setPrick_pm (h n : Nat) (x : Prick) : (s.setPrick h n x).pm = s.pm := rfl
@[simp] theorem unpinTemplate_pm (h r : Nat) : (s.unpinTemplate h r).pm = s.pm := by unfold State.unpinTemplate; split <;> rfl

@[simp] theorem resetTriggers_pm (h : Nat) : (s.resetTriggers h).pm = s.pm := by
  unfold State.resetTriggers
  extract_lets dflt s1 s2 s3
  have h1 : s1.pm = s.pm := foldl_pm (fun s r => by split <;> [(dsimp only; split <;> simp); rfl]) _ _
  have h2 : s2.pm = s1.pm := foldl_pm (fun s n => by dsimp only; split <;> [(split <;> rfl); rfl]) _ _
  have h3 : s3.pm = s2.pm := by dsimp only [s3]; split <;> rfl
  exact h3.trans (h2.trans h1)

@[simp] theorem hoopReset_pm (h : Nat) (pages : Bool) : (s.hoopReset h pages).pm = s.pm := by
  unfold State.hoopReset
  split <;> simp

@[simp] theorem dropHoop_pm (h : Nat) : (s.dropHoop h).pm = s.pm := by
  unfold State.dropHoop
  extract_lets s1 s2 s3 s4 s5 s6 s7
  have h2 : s2.pm = s1.pm := killWhere_pm _ _
  have h3 : s3.pm = s2.pm := foldl_pm (fun s q => withdrawHead_pm s h q) _ _
  have h4 : s4.pm = s3.pm := foldl_pm (fun s (e : Nat × Ctx) => by
    rw [setCtx_pm, endAsk_pm]; exact foldl_pm (fun s (m : Move) => dropMove_pm s m.id) _ _) _ _
  have h5 : s5.pm = s4.pm := foldl_pm (fun s (m : Move) => dropMove_pm s m.id) _ _
  have h6 : s6.pm = s5.pm := foldl_pm freeObj_pm _ _
  have h7 : s7.pm = s6.pm := setRegFld_pm _ _ _ _ _
  have h1 : s1.pm = s.pm := addReg_pm _ _ _
  clear_value s7 s6 s5 s4 s3 s2 s1
  exact h7.trans (h6.trans (h5.trans (h4.trans (h3.trans (h2.trans h1)))))

@[simp] theorem setPipe_pm (n : Nat) (x : Pipe) : (s.setPipe n x).pm = s.pm := rfl
@[simp] theorem unpinAll_pm (l : List Nat) : (s.unpinAll l).pm = s.pm := foldl_pm (fun s k => modObj_pm s k _) l s
@[simp] theorem dropCam_pm (n reason : Nat) : (s.dropCam n reason).pm = s.pm := rfl
@[simp] theorem memDone_pm (n res : Nat) : (s.memDone n res).pm = s.pm := unpinAll_pm _ _

@[simp] theorem pipeStop_pm (n : Nat) : (pipeStop n s).pm = s.pm := by
  unfold pipeStop
  simp only [apply_ite State.pm, memDone_pm, dropCam_pm, ite_self]

@[simp] theorem unbind_pm (n : Nat) : (unbind n s).pm = s.pm := by
  unfold unbind
  extract_lets s1
  exact pipeStop_pm s n

@[simp] theorem leaveRotation_pm (k : Nat) : (s.leaveRotation k).pm = s.pm := by
  unfold State.leaveRotation
  dsimp only
  split
  · rfl
  · split <;> simp

@[simp] theorem pipeReset_pm (n : Nat) : (pipeReset n s).pm = s.pm := by
  unfold pipeReset
  extract_lets s1 x s2 s3 s4
  have h3 : s3.pm = s2.pm := foldl_pm (fun s i => foldl_pm (fun s (e : Nat × Nat) => leaveRotation_pm s e.1) _ s) _ _
  have h2 : s2.pm = s1.pm := unpinAll_pm _ _
  have h1 : s1.pm = s.pm := unbind_pm s n
  have h4 : s4.pm = s3.pm := by dsimp only [s4]
  clear_value s4 s3 s2 s1
  exact h4.trans (h3.trans (h2.trans h1))

@[simp] theorem camCtlReset_pm (k : Nat) : (s.camCtlReset k).pm = s.pm := rfl

/-- The blocks that a hoop reset resets (R151, R153). -/
def ofHoop : Blk → Bool
  | .hostIf | .hoopTrigger | .cluster | .core | .pipeline => true
  | _ => false

theorem ofHoop_owned : ∀ b ∈ [Blk.cluster, .core, .pipeline], ofHoop b = true := by decide

theorem clearHostIf_pm (i : Nat) : (s.clearUnit .hostIf i).pm = s.pm := by
  simp only [State.clearUnit]
  have h3 (u : State) : ((List.range 16).foldl (fun (s : State) e => s.setEq i e Eq.dflt) u).pm = u.pm := foldl_pm (fun s e => State.setEq_pm s i e _) _ u
  have h2 (u : State) : ((List.range 64).foldl (fun (s : State) q => s.setCq i q Cq.dflt) u).pm = u.pm := foldl_pm (fun s q => State.setCq_pm s i q _) _ u
  rw [h3, h2]
  exact foldl_pm (fun s q => (apply_ite State.pm ..).trans (by rw [stopQueue_pm, ite_self])) _ s

theorem clearUnit_pm {b : Blk} (hb : ofHoop b = true) (i : Nat) : (s.clearUnit b i).pm = s.pm := by
  cases b <;> simp only [ofHoop, Bool.false_eq_true] at hb
  case hoopTrigger => simp only [State.clearUnit, resetTriggers_pm]
  case cluster => simp only [State.clearUnit]; exact blockKill_pm s _
  case core => simp only [State.clearUnit]; exact blockKill_pm s _
  case pipeline => simp only [State.clearUnit, camCtlReset_pm, pipeReset_pm]
  case hostIf => exact clearHostIf_pm s i

@[simp] theorem enterState_pm (b : Blk) (i st : Nat) : (s.enterState b i st).pm = s.pm := rfl
@[simp] theorem beginStart_pm (b : Blk) (i : Nat) : (s.beginStart b i).pm = s.pm := by
  unfold State.beginStart State.startUnit
  split <;> rfl

theorem newLimits_of_hoop {b : Blk} (hb : ofHoop b = true) (i : Nat) : s.newLimits b i = s := if_neg fun h => by simp [h, ofHoop] at hb

theorem blockReset_pm {b : Blk} (hb : ofHoop b = true) (i : Nat) : (s.blockReset b i).pm = s.pm := by
  unfold State.blockReset
  extract_lets p fenced s1 s2
  have h2 : s2.pm = s.pm := by
    show (((s.clearUnit b i).clearPages b i).newLimits b i).pm = s.pm
    rw [newLimits_of_hoop _ hb]
    exact clearUnit_pm s hb i
  split
  · exact h2
  · split
    · rw [beginStart_pm]; exact h2
    · exact h2

@[simp] theorem newMemKey_pm (k : Nat) : (s.newMemKey k).pm = s.pm := by unfold State.newMemKey; split <;> rfl

@[simp] theorem finishReset_pm (h : Nat) : (s.finishReset h).pm = s.pm := by
  unfold State.finishReset
  extract_lets pages units s1 s2 s3 owned s4 s5 s6
  have h2 : s2.pm = s1.pm := (blockReset_pm _ rfl h).trans (blockReset_pm _ rfl h)
  have h3 : s3.pm = s2.pm := by
    dsimp only [s3]
    split
    · refine List.foldlRecOn (motive := fun t : State => t.pm = s2.pm) _ _ rfl fun t ht e he => ?_
      obtain ⟨b, hb, he⟩ := List.mem_flatMap.1 he
      obtain ⟨i, -, rfl⟩ := List.mem_map.1 he
      exact (blockReset_pm t (ofHoop_owned b hb) i).trans ht
    · rfl
  rw [newMemKey_pm]
  exact h3.trans (h2.trans (dropHoop_pm s h))

@[simp] theorem resetWhole_pm (h : Nat) (pages : Bool) : (s.resetWhole h pages).pm = s.pm := by
  unfold State.resetWhole
  split <;> simp

@[simp] theorem resetHoops_pm : s.resetHoops.pm = s.pm := foldl_pm (fun s h => resetWhole_pm s h false) _ s

@[simp] theorem clearDomains_pm : s.clearDomains.pm = s.pm := by
  unfold State.clearDomains
  dsimp only
  split <;> rfl

end PowerFrameOfResets

end Sys2Proof.Machine

namespace Sys2Proof.Machine

section PowerFrameOfExit
variable (s : State)

/-! ### The exit (R566) -/

theorem powerUp_pm (b : Blk) (i : Nat) : (s.powerUp b i).pm = s.pm := by
  unfold State.powerUp
  split
  · rfl
  · exact beginStart_pm s b i

theorem knotsLost_pm : s.knotsLost.pm = s.pm := by
  unfold State.knotsLost
  exact foldl_pm (fun s h => by rw [orReg_eq, State.setReg_pm]) _ s

theorem poisonLost_pm : s.poisonLost.pm = s.pm := by
  unfold State.poisonLost
  extract_lets live order lost
  rw [addReg_pm]
  exact foldl_pm (fun s (e : Nat × Nat) => modObj_pm s e.1 _) _ s

/-- An exit keeps when it began. -/
theorem exitStart_pm : s.exitStart.pm = s.pm := by
  unfold State.exitStart
  extract_lets s1
  have h1 : s1.pm = s.pm := by
    dsimp only [s1]
    split
    · rw [knotsLost_pm, clearDomains_pm, resetHoops_pm]
    · split
      · exact poisonLost_pm s
      · rfl
  exact (foldl_pm (fun s (e : Blk × Nat) => powerUp_pm s e.1 e.2) _ s1).trans h1

theorem skeinsUp_pm (lost : Bool) : (s.skeinsUp lost).pm = s.pm := by
  unfold State.skeinsUp
  exact foldl_pm (fun s n => by dsimp only [State.setSk]) _ s

theorem startDone_pm (b : Blk) (i : Nat) : (s.startDone b i).pm = s.pm := by
  unfold State.startDone
  split
  · rfl
  · extract_lets s1
    split <;> rfl

theorem zeroStart_pm (b : Blk) (i : Nat) : (s.zeroStart b i).pm = s.pm := by
  unfold State.zeroStart
  extract_lets p wipe s1 mine s2
  have hw (s : State) (tier : Nat) : (wipe s tier).pm = s.pm := foldl_pm (fun s k => modObj_pm s k _) _ s
  have h2 : s2.pm = s1.pm := pipeReset_pm s1 i
  clear_value wipe s2
  split
  · rfl
  · cases b
    case core => exact hw s1 0
    case cluster => exact hw s1 1
    case pipeline => exact h2
    all_goals rfl

theorem powerUpDone_pm (b : Blk) (i : Nat) : (s.powerUpDone b i).pm = s.pm := by
  unfold State.powerUpDone
  split
  · rfl
  · rw [startDone_pm, zeroStart_pm]

end PowerFrameOfExit

end Sys2Proof.Machine

namespace Sys2Proof.Machine

/-! ## The completed exit (R566)

What the islands kept is delivered and the queues that were preempted run again: of the power manager only `computeUp` and `marked` change, and of the
registers only the trigger units' FAULT_STATUS. -/

section Delivery
variable (s : State) (a : Nat)

theorem raise_pm (b : Blk) (i bitNo code : Nat) : (s.raise b i bitNo code).pm = s.pm := by
  unfold State.raise State.raiseWith
  extract_lets page info s1 s2
  have h2 : s2.pm = s.pm := State.setReg_pm s1 _ _
  clear_value s2
  split
  · rfl
  · split
    · exact h2
    · rw [post_pm, h2]

theorem toUnits_pm (r : Rec) : (s.toUnits r).pm = s.pm := by
  unfold State.toUnits
  exact foldl_pm (fun s (e : Nat × TrigUnit) => raise_pm s _ _ _ _) _ _

theorem offer_pm (r : Rec) : (s.offer r).pm = s.pm := by
  unfold State.offer
  dsimp only
  split
  · rw [post_pm, toUnits_pm]
  · exact toUnits_pm s r

variable (ha : ∀ u, a ≠ R.FAULT_STATUS (pageOf .triggerUnit u))
include ha

theorem reg_toUnits (r : Rec) : (s.toUnits r).reg a = s.reg a := by
  unfold State.toUnits
  exact foldl_keeps (·.reg a) _ (fun s (e : Nat × TrigUnit) => reg_raise_ne s a _ _ _ _ (ha e.1)) _ _

theorem reg_offer (r : Rec) : (s.offer r).reg a = s.reg a := by
  unfold State.offer
  dsimp only
  split
  · rw [reg_post, reg_toUnits _ _ ha]
  · exact reg_toUnits s a ha r

omit ha in
/-- What every offered record and the islands' own state leave unchanged, the delivery of the kept records does. -/
theorem deliverKept_keeps {γ : Type} (g : State → γ) (hi : ∀ (s : State) (x : Island), g { s with island := x } = g s)
    (ho : ∀ (s : State) (r : Rec), g (s.offer r) = g s) (n : Nat) (s : State) : g (s.deliverKept n) = g s := by
  induction n generalizing s with
  | zero => rfl
  | succ n ih =>
    rw [State.deliverKept]
    split
    · rfl
    · rw [ih, ho, hi]

omit ha in
theorem computeIsUp_pm : s.computeIsUp.pm = { s.pm with computeUp := true } := by
  unfold State.computeIsUp
  dsimp only
  exact deliverKept_keeps State.pm (fun _ _ => rfl) offer_pm _ _

theorem reg_computeIsUp : s.computeIsUp.reg a = s.reg a := by
  unfold State.computeIsUp
  extract_lets pm s1 s2
  have h2 : s2.reg a = s1.reg a := deliverKept_keeps (·.reg a) (fun _ _ => rfl) (fun s r => reg_offer s a ha r) _ _
  exact h2

omit ha in
theorem unmark_pm : s.unmark.pm = { s.pm with marked := [] } := by
  unfold State.unmark
  extract_lets s1
  have h1 : s1.pm = s.pm := foldl_pm (fun s k => (apply_ite State.pm ..).trans (by rw [State.setCq_pm, ite_self])) _ _
  clear_value s1
  show { s1.pm with marked := [] } = { s.pm with marked := [] }
  rw [h1]

omit ha in
theorem reg_unmark : s.unmark.reg a = s.reg a := by
  unfold State.unmark
  extract_lets s1
  have h1 : s1.reg a = s.reg a := foldl_keeps (State.reg · a) _ (fun s k => (apply_ite (State.reg · a) ..).trans (by rw [reg_setCq, ite_self])) _ _
  clear_value s1
  exact h1

end Delivery

theorem bit_or_four (v : W32) : bit (v ||| 4) 2 = true := by
  have h : (4 : W32).getLsbD 2 = true := by decide
  rw [bit, BitVec.getLsbD_or, h, Bool.or_true]

/-- The exit's end, before the hoops are matched and the device's work is resumed. -/
def State.exited (s : State) : State :=
  let listen := decide (s.pm.exitFrom = .listen)
  let t := s.setPm fun p => { p with
    mode := .active, exitFrom := .active, activeAt := s.now, saved := false, dramOff := false, killed := false, wakes := []
    wakeN := listen && bit (s.reg R.PM_WAKE_CTRL) 1 }
  let t := if listen then t.skeinsUp false else t
  let t := (unitsWhere fun b => decide ((blkRow b).domain ≠ .aon)).foldl (fun t e => t.powerUpDone e.1 e.2) t
  let t := { t with buckets := (List.range 64).foldl (fun m k =>
    mset Bucket.dflt m k ⟨(t.reg (R.REG_BURST (k % 4) (k / 4))).toNat * 1024, 0, t.now, (mget Bucket.dflt m k).waiting⟩) t.buckets }
  ((((t.setReg R.PM_EXIT_US (w32 ((s.now - s.pm.exitAt) / 1000))).addReg R.PM_WAKE_COUNT 1).orReg R.DEV_STATUS 4).computeIsUp).unmark

section Exited
variable (s : State)

theorem exitEnd_eq : s.exitEnd = (s.exited.matchHoops.startMoves).settled := by
  unfold State.exitEnd State.exited
  rfl

theorem exited_pm : s.exited.pm.mode = .active ∧ s.exited.pm.computeUp = true ∧ s.exited.pm.marked = [] := by
  unfold State.exited
  extract_lets listen s1 s2 s3 s4
  have h2 : s2.pm = s1.pm := by
    dsimp only [s2]
    split
    · exact skeinsUp_pm s1 false
    · rfl
  have h3 : s3.pm = s2.pm := foldl_pm (fun s (e : Blk × Nat) => powerUpDone_pm s e.1 e.2) _ _
  have h4 : s4.pm = s3.pm := by dsimp only [s4]
  have h1 : s1.pm.mode = .active := rfl
  clear_value s4 s3 s2 s1
  rw [unmark_pm, computeIsUp_pm, orReg_eq, State.setReg_pm, addReg_pm, State.setReg_pm, h4, h3, h2]
  exact ⟨h1, rfl, rfl⟩

theorem reg_exited_of_exit_us : s.exited.reg R.PM_EXIT_US = w32 ((s.now - s.pm.exitAt) / 1000) := by
  unfold State.exited
  extract_lets listen s1 s2 s3 s4
  clear_value s4
  have hf : ∀ u, R.PM_EXIT_US ≠ R.FAULT_STATUS (pageOf .triggerUnit u) := by
    intro u; simp only [R.PM_EXIT_US, R.FAULT_STATUS, pageOf, blkRow]; omega
  rw [reg_unmark, reg_computeIsUp _ _ hf, orReg_eq, reg_setReg_ne _ _ _ _ (by decide), reg_addReg_ne _ _ _ _ (by decide), reg_setReg_same]

theorem bit_exited_dev_status : bit (s.exited.reg R.DEV_STATUS) 2 = true := by
  unfold State.exited
  extract_lets listen s1 s2 s3 s4
  clear_value s4
  have hf : ∀ u, R.DEV_STATUS ≠ R.FAULT_STATUS (pageOf .triggerUnit u) := by
    intro u; simp only [R.DEV_STATUS, R.FAULT_STATUS, pageOf, blkRow]; omega
  rw [reg_unmark, reg_computeIsUp _ _ hf, orReg_eq, reg_setReg_same, bit_or_four]

end Exited

theorem tsAwake_pm (s : State) : s.tsAwake.pm = s.pm := (apply_ite State.pm ..).trans (by rw [State.setTs_pm, ite_self])
theorem tsAwake_now (s : State) : s.tsAwake.now = s.now := (apply_ite State.now ..).trans (by rw [State.setTs_now, ite_self])

/-- The machine when an exit that takes `n` comes to its end. -/
def State.exitOver (s : State) (n : Nat) : State := (dev State.exitStart s).tsAwake.advance n

theorem exitOver_pm (s : State) (n : Nat) : (s.exitOver n).pm = s.pm := by
  unfold State.exitOver
  rw [State.advance_pm, tsAwake_pm, dev_pm, exitStart_pm]

theorem exitOver_now (s : State) (n : Nat) : (s.exitOver n).now = s.now + n := by
  unfold State.exitOver
  rw [State.advance_now, tsAwake_now, dev_now]

theorem doExitComplete_of_exiting {s : State} (dt : Nat) (h : s.pm.mode = .exiting) :
    doExitComplete dt s = dev (fun _ => ((s.exitOver (max 1 dt)).exited.matchHoops.startMoves).settled) (s.exitOver (max 1 dt)) :=
  (if_neg (not_not.2 h)).trans (dev_congr _ (exitEnd_eq (s.exitOver (max 1 dt))))

/-- The exit took some time, and ends ACTIVE. -/
theorem exitComplete_answers {s : State} (dt : W32) (hmode : s.pm.mode = .exiting) : ∃ u v : State,
    answersTime (.exitComplete dt) s (dev (fun _ => (u.matchHoops.startMoves).settled) v) ∧
    v.now = s.now + max 1 dt.toNat ∧ u.reg R.PM_EXIT_US = w32 ((v.now - s.pm.exitAt) / 1000) ∧ u.pm.mode = .active ∧ u.pm.computeUp = true ∧
    u.pm.marked = [] ∧ bit (u.reg R.DEV_STATUS) 2 = true := by
  obtain ⟨hm, hup, hmarked⟩ := exited_pm (s.exitOver (max 1 dt.toNat))
  refine ⟨_, s.exitOver (max 1 dt.toNat), ?_, exitOver_now s _, ?_, hm, hup, hmarked, bit_exited_dev_status _⟩
  · show runTime (doExitComplete dt.toNat) s = _
    rw [runTime, doExitComplete_of_exiting _ hmode]
  · rw [reg_exited_of_exit_us, exitOver_pm]

end Sys2Proof.Machine

namespace Sys2Proof.Machine

/-! ## Wakes, stuck pins and failing supplies (R77, R548, R555, R561, R563) -/

section Wakes
variable (s : State)

/-- The state of a device that a source has woken. -/
def State.woken (s : State) (src : Nat) : State :=
  State.setRegFld { s with pm := { s.pm with mode := .exiting, exitFrom := s.pm.mode, exitAt := s.now, wakes := [src] } } R.PM_WAKE_STATUS 8 4 src

theorem dev_woken (src : Nat) : dev (fun _ => s.woken src) s = s.woken src := rfl

variable {s}

theorem wake_of_listen {src : Nat} (hmode : s.pm.mode = .listen) (hsrc : src = 6 ∨ 2 ≤ src ∧ src ≤ 5) : s.wake src = s.woken src := by
  have hfrom : wakesFrom src s.pm.mode = true := by
    rw [hmode, wakesFrom, if_pos (by omega)]
    rfl
  unfold State.wake
  rw [if_neg (by rw [hmode]; decide), if_pos hfrom]
  rfl

theorem woken_source {src : Nat} (hsrc : src < 16) : fld ((s.woken src).reg R.PM_WAKE_STATUS) 8 4 = src := by
  rw [State.woken, setRegFld_eq, reg_setReg_same, fld_setFld_same _ _ _ _ (by decide)]
  exact Nat.mod_eq_of_lt hsrc

theorem doPrickingWake_of_due {t : Nat} (hmode : s.pm.mode = .listen) (ht : t ∈ s.wakeTargets) (hdue : t ≤ s.count) :
    doPrickingWake s = s.woken 6 := by
  unfold doPrickingWake
  rw [if_pos (List.any_eq_true.2 ⟨t, ht, decide_eq_true hdue⟩), wake_of_listen hmode (.inl rfl)]

theorem doPrickingWake_of_none_due (h : ∀ t ∈ s.wakeTargets, s.count < t) : doPrickingWake s = s := by
  unfold doPrickingWake
  refine if_neg fun hany => ?_
  obtain ⟨t, ht, hdue⟩ := List.any_eq_true.1 hany
  exact absurd (of_decide_eq_true hdue) (not_le.2 (h t ht))

variable (s)

/-- What a level of a wake pin leaves before it is looked at: the level shows, and a change is stamped. -/
def State.pinShown (s : State) (pin : Nat) (level : Bool) : State :=
  let t := s.setRegFld R.PM_WAKE_STATUS pin 1 (b2n level)
  if bit (s.reg R.PM_WAKE_STATUS) pin = level then t else t.setPm fun p => { p with wakeAt := mset 0 p.wakeAt pin t.now }

theorem pinShown_keeps (pin : Nat) (level : Bool) : (s.pinShown pin level).part = s.part ∧ (s.pinShown pin level).pending = s.pending := by
  unfold State.pinShown
  dsimp only
  split <;> exact ⟨rfl, rfl⟩

theorem reg_pinShown (pin : Nat) (level : Bool) (a : Nat) : (s.pinShown pin level).reg a = (s.setRegFld R.PM_WAKE_STATUS pin 1 (b2n level)).reg a := by
  unfold State.pinShown
  dsimp only
  split <;> rfl

theorem bit_pinShown {pin : Nat} (hpin : pin < 32) (level : Bool) : bit ((s.pinShown pin level).reg R.PM_WAKE_STATUS) pin = level := by
  rw [reg_pinShown, setRegFld_eq, reg_setReg_same, bit_setFld_same _ _ _ hpin]
  cases level <;> rfl

theorem bit_pinShown_ne {pin i : Nat} (hpin : pin < 32) (hi : i ≠ pin) (level : Bool) :
    bit ((s.pinShown pin level).reg R.PM_WAKE_STATUS) i = bit (s.reg R.PM_WAKE_STATUS) i := by
  rw [reg_pinShown, setRegFld_eq, reg_setReg_same, bit_setFld_ne _ _ _ _ _ (by omega) (by omega)]

theorem ctrl_pinShown (pin : Nat) (level : Bool) : (s.pinShown pin level).reg R.PM_WAKE_CTRL = s.reg R.PM_WAKE_CTRL := by
  rw [reg_pinShown, setRegFld_eq, reg_setReg_ne _ _ _ _ (by decide)]

theorem pinShown_pm (pin : Nat) (level : Bool) : (s.pinShown pin level).pm = { s.pm with wakeAt := (s.pinShown pin level).pm.wakeAt } := by
  unfold State.pinShown
  dsimp only
  split <;> rfl

theorem pinShown_wakeAt (pin : Nat) (level : Bool) :
    mget 0 (s.pinShown pin level).pm.wakeAt pin = if bit (s.reg R.PM_WAKE_STATUS) pin = level then mget 0 s.pm.wakeAt pin else s.now := by
  unfold State.pinShown
  dsimp only
  split
  · rfl
  · exact mget_mset_same _ _ _ _

variable {s}

theorem pinShown_mode {pin : Nat} {level : Bool} : (s.pinShown pin level).pm.mode = s.pm.mode := by rw [pinShown_pm]

theorem doWakeInEvent_of_disabled {pin : Nat} {level : Bool} (hmode : s.pm.mode = .listen) (hoff : bit (s.reg R.PM_WAKE_CTRL) (4 + pin) = false) :
    doWakeInEvent pin level s = s.pinShown pin level := by
  have hm : (s.pinShown pin level).pm.mode ≠ .off := by rw [pinShown_mode, hmode]; decide
  have hc : bit ((s.pinShown pin level).reg R.PM_WAKE_CTRL) (4 + pin) = false := by rw [ctrl_pinShown, hoff]
  unfold doWakeInEvent
  exact (if_neg hm).trans (if_pos (by change (_ || !bit ((s.pinShown pin level).reg R.PM_WAKE_CTRL) (4 + pin) || _) = true; rw [hc]; simp))

theorem doWakeInEvent_of_level {pin : Nat} {level : Bool} (hpin : pin < 4) (hmode : s.pm.mode = .listen) (hon : bit (s.reg R.PM_WAKE_CTRL) (4 + pin) = true)
    (hlevel : bit (s.reg R.PM_WAKE_CTRL) (8 + pin) = true) (hup : (level ^^ bit (s.reg R.PM_WAKE_CTRL) (12 + pin)) = true)
    (hstuck : bit (s.reg R.PM_WAKE_STATUS) (4 + pin) = false) :
    doWakeInEvent pin level s = (s.pinShown pin level).woken (2 + pin) := by
  have hm : (s.pinShown pin level).pm.mode = .listen := by rw [pinShown_mode, hmode]
  have hasserted : (s.pinShown pin level).wakeInAsserted pin = true := by
    rw [State.wakeInAsserted, bit_pinShown s (by omega), ctrl_pinShown, hup]
  have hst : bit ((s.pinShown pin level).reg R.PM_WAKE_STATUS) (4 + pin) = false := by rw [bit_pinShown_ne s (by omega) (by omega), hstuck]
  rw [← ctrl_pinShown s pin level] at hon hlevel
  rw [← wake_of_listen hm (by omega)]
  unfold doWakeInEvent
  refine (if_neg (by change ¬ (s.pinShown pin level).pm.mode = _; rw [hm]; decide)).trans ((if_neg ?_).trans (if_pos hlevel))
  change ¬ (!(s.pinShown pin level).wakeInAsserted pin || !bit ((s.pinShown pin level).reg R.PM_WAKE_CTRL) (4 + pin) ||
    bit ((s.pinShown pin level).reg R.PM_WAKE_STATUS) (4 + pin)) = true
  rw [hasserted, hon, hst]
  decide

end Wakes

section Supplies
variable {s : State}

/-- A warm reset of a device that is on ends in boot, with its cause. -/
theorem warmReset_ends (cause : Nat) (hmode : s.pm.mode ≠ .off) : ∃ t : State, s.warmReset cause = t.setReg R.RESET_CAUSE (w32 cause) ∧
    t.pm.mode = .boot ∧ t.pm.computeUp = false := by
  unfold State.warmReset
  rw [if_neg hmode]
  exact ⟨_, rfl, rfl, rfl⟩

/-- RESET_CAUSE resets to the same value on every part, so a command's result shows it as the operation left it. -/
theorem reg_dev_reset_cause (f : State → State) (s t : State) (v : W32) (hf : f s = t.setReg R.RESET_CAUSE v) :
    (dev f s).reg R.RESET_CAUSE = v := by
  have hreset (p p' : Part) : regReset p R.RESET_CAUSE = regReset p' R.RESET_CAUSE := rfl
  have hreg : (dev f s).reg R.RESET_CAUSE = (f s).reg R.RESET_CAUSE := by
    rw [State.reg, State.reg, hreset]
    rfl
  rw [hreg, hf, reg_setReg_same]

/-- A command that is a warm reset for a failing supply ends in boot, with its cause. -/
theorem completes_warmReset {c : Instr} {f : State → State} (hc : exec c s = run f s) (hf : f s = s.warmReset 8) (hmode : s.pm.mode ≠ .off) :
    completes c s fun t => t.pm.mode = .boot ∧ t.reg R.RESET_CAUSE = 8 ∧ t.pm.computeUp = false := by
  obtain ⟨t, ht, hboot, hdown⟩ := warmReset_ends (s := s) 8 hmode
  have hft : f s = t.setReg R.RESET_CAUSE 8 := hf.trans ht
  refine ⟨dev f s, hc, ?_, reg_dev_reset_cause f s t 8 hft, ?_⟩
  · rw [dev_pm, hft]; exact hboot
  · rw [dev_pm, hft]; exact hdown

end Supplies

section Idle
variable {s : State}

theorem doIdleEntry_of_quiet (hmode : s.pm.mode = .active) (hstreams : ∀ f ∈ s.flights, ∀ t ∈ f.streams, t.running = false)
    (hmoves : ∀ m ∈ s.moves, ∀ r ∈ m.ranges, r.done = true ∨ r.shuttle = none) (hhoops : ∀ n < 8, ∀ h < 16, s.hoopAble n h = false) :
    doIdleEntry s = s.setPm fun p => { p with mode := .idle } := by
  unfold doIdleEntry
  refine if_pos ⟨hmode, ?_, ?_, ?_⟩
  · simpa only [List.all_eq_true, Bool.not_eq_true'] using hstreams
  · simpa only [List.all_eq_true, Bool.or_eq_true, Option.isNone_iff_eq_none] using hmoves
  · simpa only [List.all_eq_true, Bool.not_eq_true', List.mem_range] using hhoops

end Idle

section StuckPins
variable {s : State} {pin : Nat}

theorem doWakeStuck_of_held (hmode : s.pm.mode = .active)
    (hlong : max (mget 0 s.pm.wakeAt pin) s.pm.activeAt + fld (s.reg R.PM_WAKE_CTRL) 24 8 * 100000000 ≤ s.now) (hup : s.wakeInAsserted pin = true)
    (hlevel : bit (s.reg R.PM_WAKE_CTRL) (8 + pin) = true) (hst : bit (s.reg R.PM_WAKE_STATUS) (4 + pin) = false) :
    doWakeStuck pin s = (s.setRegFld R.PM_WAKE_STATUS (4 + pin) 1 1).addReg R.WAKE_STUCK_COUNT 1 := if_pos ⟨.inl hmode, hlong, hup, hlevel, hst⟩

theorem doWakeStuckClear_of_released (hdown : s.wakeInAsserted pin = false) (hlong : mget 0 s.pm.wakeAt pin + 20000000 ≤ s.now) :
    doWakeStuckClear pin s = s.setRegFld R.PM_WAKE_STATUS (4 + pin) 1 0 := if_neg (by simpa [hdown] using hlong)

theorem doWakeStuckClear_of_not_released (h : s.wakeInAsserted pin = true ∨ s.now < mget 0 s.pm.wakeAt pin + 20000000) :
    doWakeStuckClear pin s = s := if_pos h

end StuckPins

theorem listen_wakes {s : State} (hmode : s.pm.mode = .listen) :
    (∀ t ∈ s.wakeTargets, t ≤ s.count → completes .prickingWake s fun u => u.pm.mode = .exiting ∧ u.pm.exitFrom = .listen ∧ fld (u.reg R.PM_WAKE_STATUS) 8 4 = 6) ∧
    ((∀ t ∈ s.wakeTargets, s.count < t) → completes .prickingWake s fun t => t = s) ∧
    (∀ (pin : Fin 4) (level : Bool),
      let c := s.reg R.PM_WAKE_CTRL
      (bit c (4 + pin) = false → completes (.wakeInEvent pin level) s fun t => t.pm = { s.pm with wakeAt := t.pm.wakeAt } ∧
        mget 0 t.pm.wakeAt pin = (if bit (s.reg R.PM_WAKE_STATUS) pin = level then mget 0 s.pm.wakeAt pin else s.now) ∧ bit (t.reg R.PM_WAKE_STATUS) pin = level) ∧
      (bit c (4 + pin) = true → bit c (8 + pin) = true → (level ^^ bit c (12 + pin)) = true → bit (s.reg R.PM_WAKE_STATUS) (4 + pin) = false → completes (.wakeInEvent pin level) s fun t =>
        t.pm.mode = .exiting ∧ t.pm.wakes = [2 + pin.val] ∧ fld (t.reg R.PM_WAKE_STATUS) 8 4 = 2 + pin.val)) := by
  refine ⟨fun t ht hdue => ?_, fun hnone => ?_, fun pin level => ⟨fun hoff => ?_, fun hon hlevel hup hst => ?_⟩⟩
  · exact completes_run rfl (doPrickingWake_of_due hmode ht hdue) (dev_woken s 6) ⟨rfl, hmode, woken_source (by decide)⟩
  · exact completes_run rfl (doPrickingWake_of_none_due hnone) rfl rfl
  · obtain ⟨hpart, hpend⟩ := pinShown_keeps s pin level
    refine completes_runTime rfl ?_ ?_ ?_ <;> rw [doWakeInEvent_of_disabled hmode hoff]
    · exact hpart
    · exact hpend
    · exact ⟨pinShown_pm s pin level, pinShown_wakeAt s pin level, bit_pinShown s (by omega) level⟩
  · obtain ⟨hpart, hpend⟩ := pinShown_keeps s pin level
    refine completes_runTime rfl ?_ ?_ ?_ <;> rw [doWakeInEvent_of_level pin.isLt hmode hon hlevel hup hst]
    · exact hpart
    · exact hpend
    · exact ⟨rfl, rfl, woken_source (by omega)⟩

/-- Settles O54: each event is the operation its guard selects; the completed exit's state before the hoops are matched is `State.exited`, whose power
manager and registers the deliveries and restarts after it leave. -/
theorem wakesAndExit : Obligations.WakesAndExit := by
  refine ⟨fun s => listen_wakes, fun s pin => ⟨fun hmode hlong hup hlevel hst => ?_, fun hdown hlong => ?_, fun h => ?_⟩,
    fun s pg => ⟨fun hmode => ?_, fun hmode => ?_, fun hmode hon => ?_, fun hoff => ?_⟩, fun s dt => exitComplete_answers dt,
    fun s hmode hstreams hmoves hhoops => ?_⟩
  · refine completes_run rfl (doWakeStuck_of_held hmode hlong hup hlevel hst) rfl ⟨?_, ?_⟩
    · rw [reg_addReg_ne _ _ _ _ (by decide), setRegFld_eq, reg_setReg_same, bit_setFld_same _ _ _ (by omega)]
      rfl
    · rw [reg_addReg_same, setRegFld_eq, reg_setReg_ne _ _ _ _ (by decide)]
  · refine completes_run rfl (doWakeStuckClear_of_released hdown hlong) rfl ?_
    rw [setRegFld_eq, reg_setReg_same, bit_setFld_same _ _ _ (by omega)]
    rfl
  · exact completes_run rfl (doWakeStuckClear_of_not_released h) rfl rfl
  · refine completes_warmReset rfl (if_pos hmode) ?_
    rcases hmode with h | h <;> rw [h] <;> decide
  · refine completes_run rfl (if_neg ?_) rfl rfl
    rw [hmode]
    decide
  · exact completes_warmReset rfl (if_pos hon) hmode
  · exact completes_run rfl (if_neg (by rw [hoff]; decide)) rfl rfl
  · exact completes_run rfl (doIdleEntry_of_quiet hmode hstreams hmoves hhoops) rfl rfl

end Sys2Proof.Machine

namespace Sys2Proof.Machine

/-! ## Invariants that go through the operations

An invariant of the stores need not be followed through each command: it is enough that it goes through the few writes that every
operation is built of. `Calm` and `Stable` name those writes. For each operation of the model, in the model's order, one lemma says that it
keeps such an invariant; where `hI : Calm I` and `hs : I s`, the term `hI.op hs` proves `I` of what `op` leaves, so that a proof reads as the
operation does. An operation whose lemma is under `Calm` leaves the stores alone but for the register file. -/

/-- What the commands of control leave alone of the state, with the part and the register file. -/
def State.stores (s : State) :=
  (s.part, s.regs, s.objs, s.allocs, s.moves, s.flights, s.cqs, s.knots, s.ctxs, s.catalogue, s.links)

/-- The part, the register file, the objects and the knots. -/
def State.core (s : State) := (s.part, s.regs, s.objs, s.knots)

/-- An invariant that register writes keep, and every change outside the stores. -/
structure Calm (I : State → Prop) : Prop where
  setReg : ∀ {s a v}, I s → I (s.setReg a v)
  dropRegs : ∀ {s q}, I s → I { s with regs := s.regs.filter q }
  same : ∀ {s t}, I s → t.stores = s.stores → I t
  part : ∀ {s t : State}, I s → I t → I { t with part := s.part }

/-- An invariant that the writes of registers, objects and knots keep, and every change outside them. -/
structure Stable (I : State → Prop) : Prop extends Calm I where
  setObj : ∀ {s k o}, I s → I (s.setObj k o)
  putKnots : ∀ {s : State} {l : List (Nat × W32)}, I s → I { s with knots := l.foldl (fun m x => mset 0 m x.1 x.2) s.knots }
  dropKnots : ∀ {s q}, I s → I { s with knots := s.knots.filter q }
  loose : ∀ {s t}, I s → t.core = s.core → I t
  coldReset : ∀ {s cause}, I s → I (s.coldReset cause)

section Invariants
variable {I : State → Prop} {s a b : State} {α : Type}

/-- What stands beside the stores may change. -/
theorem Calm.set {now sub ts latch readData partials faults freeCtr nextId rules tus pendFires pricks hoops eqs eqRings msiSent vfEnable
    numVfs retiring waits walks skeins heldKnots chkOpen kdbg turns buckets sessions remotes rotations fatal entered zeroOwed pipes gone rot
    pm svc island pcie camCtls freeRefused turnsOf pending} (hI : Calm I) (hs : I s) :
    I { s with
      now, sub, ts, latch, readData, partials, faults, freeCtr, nextId, rules, tus, pendFires, pricks, hoops, eqs, eqRings, msiSent,
      vfEnable, numVfs, retiring, waits, walks, skeins, heldKnots, chkOpen, kdbg, turns, buckets, sessions, remotes, rotations, fatal,
      entered, zeroOwed, pipes, gone, rot, pm, svc, island, pcie, camCtls, freeRefused, turnsOf, pending } :=
  hI.same hs rfl

/-- What stands beside the registers, the objects and the knots may change. -/
theorem Stable.set {now sub ts latch readData partials faults freeCtr nextId rules tus pendFires pricks hoops cqs eqs eqRings msiSent
    vfEnable numVfs allocs retiring moves flights waits walks skeins catalogue ctxs heldKnots chkOpen kdbg turns buckets links sessions
    remotes rotations fatal entered zeroOwed pipes gone rot pm svc island pcie camCtls freeRefused turnsOf pending} (hI : Stable I) (hs : I
    s) :
    I { s with
      now, sub, ts, latch, readData, partials, faults, freeCtr, nextId, rules, tus, pendFires, pricks, hoops, cqs, eqs, eqRings, msiSent,
      vfEnable, numVfs, allocs, retiring, moves, flights, waits, walks, skeins, catalogue, ctxs, heldKnots, chkOpen, kdbg, turns, buckets,
      links, sessions, remotes, rotations, fatal, entered, zeroOwed, pipes, gone, rot, pm, svc, island, pcie, camCtls, freeRefused, turnsOf,
      pending } :=
  hI.loose hs rfl

theorem Calm.dev {f : State → State} (hI : Calm I) (hs : I s) (hf : ∀ {s}, I s → I (f s)) : I (Machine.dev f s) :=
  hI.same (hI.part hs (hf hs)) rfl

theorem Calm.ite (_ : Calm I) {c : Prop} {_ : Decidable c} (ha : I a) (hb : I b) : I (if c then a else b) := by split <;> assumption

/-- A branch that goes on from what the other one leaves. -/
theorem Calm.when (_ : Calm I) {c : Prop} {_ : Decidable c} (hb : I b) (ha : I b → I a) : I (if c then a else b) := by
  split <;> [exact ha hb; exact hb]

/-- The same, with the branches exchanged. -/
theorem Calm.unless (_ : Calm I) {c : Prop} {_ : Decidable c} (ha : I a) (hb : I a → I b) : I (if c then a else b) := by
  split <;> [exact ha; exact hb ha]

theorem Calm.iteFst (_ : Calm I) {c : Prop} {_ : Decidable c} {x y : State × α} (hx : I x.1) (hy : I y.1) : I (if c then x else y).1 := by
  split <;> assumption

theorem Calm.pair (_ : Calm I) {x : α} (hs : I s) : I (s, x).1 := hs

/-- The state of a pair that an operation answers. -/
theorem Calm.fst (_ : Calm I) {p : State × α} {x : α} (h : p = (s, x)) (hp : I p.1) : I s := by
  subst h
  exact hp

/-- What an operation that may answer nothing leaves, where it answers. -/
theorem Calm.ofSome (_ : Calm I) (hs : I s) : ∀ t ∈ some s, I t := fun _ ht => Option.mem_some_iff.mp ht ▸ hs

theorem Calm.ofNone (_ : Calm I) : ∀ t ∈ (none : Option State), I t := fun _ ht => absurd ht (Option.not_mem_none _)

theorem Calm.iteMem (_ : Calm I) {c : Prop} {_ : Decidable c} {x y : Option State} (hx : ∀ t ∈ x, I t) (hy : ∀ t ∈ y, I t) :
    ∀ t ∈ if c then x else y, I t := by
  split <;> assumption

theorem Calm.foldl (_ : Calm I) {f : State → α → State} {l : List α} (hf : ∀ s x, I s → I (f s x)) (hs : I s) : I (l.foldl f s) :=
  List.foldlRecOn l f hs fun s hs x _ => hf s x hs

theorem Calm.foldlFst (_ : Calm I) {β : Type} {f : State × β → α → State × β} {l : List α} {x : State × β}
    (hf : ∀ y z, I y.1 → I (f y z).1) (hx : I x.1) : I (l.foldl f x).1 :=
  List.foldlRecOn (motive := fun y => I y.1) l f hx fun y hy z _ => hf y z hy

/-! ### Shared operations -/

theorem Calm.setRegFld {a lo len x : Nat} (hI : Calm I) (hs : I s) : I (s.setRegFld a lo len x) := hI.setReg hs

theorem Calm.orReg {a : Nat} {v : W32} (hI : Calm I) (hs : I s) : I (s.orReg a v) := hI.setReg hs

theorem Calm.addReg {a n : Nat} (hI : Calm I) (hs : I s) : I (s.addReg a n) := hI.setReg hs

theorem Calm.addPieces {a unit n : Nat} (hI : Calm I) (hs : I s) : I (s.addPieces a unit n) := hI.addReg (hI.set hs)

theorem Calm.maxReg {a v : Nat} (hI : Calm I) (hs : I s) : I (s.maxReg a v) := hI.ite (hI.setReg hs) hs

theorem Calm.setRegs {a : Nat} {l : List W32} (hI : Calm I) (hs : I s) : I (s.setRegs a l) := by
  induction l generalizing s a with
  | nil => exact hs
  | cons v l ih => exact ih (hI.setReg hs)

theorem Calm.latchReg {a : Nat} {v : W32} (hI : Calm I) (hs : I s) : I (s.latchReg a v) := hI.set hs

theorem Calm.setRead {v : Nat} (hI : Calm I) (hs : I s) : I (s.setRead v) := hI.set hs

theorem Calm.setBucket {h r : Nat} {b : Bucket} (hI : Calm I) (hs : I s) : I (s.setBucket h r b) := hI.set hs

theorem Calm.accrue (hI : Calm I) (hs : I s) : I s.accrue := hI.foldl (fun _ _ hs => hI.setBucket hs) hs

theorem Calm.draw {h r n : Nat} {f : DrawFor} (hI : Calm I) (hs : I s) : I (s.draw h r n f) :=
  hI.unless (hI.set hs) fun hs => hI.setBucket hs

theorem Calm.cancelDraws {p : DrawFor → Bool} (hI : Calm I) (hs : I s) : I (s.cancelDraws p) := hI.set hs

theorem Stable.transmit {p : Nat} (hI : Stable I) (hs : I s) : I (s.transmit p) := by
  unfold State.transmit
  split
  · exact hs
  · exact hI.ite hs (hI.unless (hI.addPieces (hI.set hs)) fun hs => hI.setReg (hI.addReg hs))

theorem Stable.launch {p : Nat} {m : LinkMsg} (hI : Stable I) (hs : I s) : I (s.launch p m) := hI.transmit (hI.set hs)

theorem Stable.sendMsg {p : Nat} {m : LinkMsg} (hI : Stable I) (hs : I s) : I (s.sendMsg p m) :=
  hI.ite (hI.set (hI.ite hs (hI.draw hs))) (hI.launch (hI.ite hs (hI.draw hs)))

theorem Stable.launchHeld {p ticket : Nat} (hI : Stable I) (hs : I s) : I (s.launchHeld p ticket) := by
  unfold State.launchHeld
  dsimp only
  split
  · exact hI.launch (hI.set hs)
  · exact hs

theorem Calm.noteOcc {p : Nat} (hI : Calm I) (hs : I s) : I (s.noteOcc p) := hI.ite (hI.setRegFld hs) hs

theorem Calm.setHoop {h : Nat} {x : Hoop} (hI : Calm I) (hs : I s) : I (s.setHoop h x) := hI.set hs

theorem Calm.post {r : Rec} (hI : Calm I) (hs : I s) : I (s.post r) := hI.ite hs (hI.setHoop hs)

theorem Calm.setEq {h e : Nat} {x : Machine.Eq} (hI : Calm I) (hs : I s) : I (s.setEq h e x) := hI.set hs

theorem Calm.sendMsi {h e : Nat} (hI : Calm I) (hs : I s) : I (s.sendMsi h e) := hI.ite (hI.orReg hs) (hI.set hs)

theorem Calm.coalesce {h e : Nat} (hI : Calm I) (hs : I s) : I (s.coalesce h e) := hI.ite (hI.sendMsi (hI.setEq hs)) hs

theorem Stable.forwardLine {h e : Nat} {line : Line} (hI : Stable I) (hs : I s) : I (s.forwardLine h e line) :=
  hI.ite hs (hI.foldl (fun _ _ hs => hI.ite (hI.sendMsg hs) hs) hs)

theorem Calm.issueTlps {l : List Tlp} (hI : Calm I) (hs : I s) : I (s.issueTlps l) := hI.set hs

theorem Stable.writeEntry {h e : Nat} {line : Line} (hI : Stable I) (hs : I s) : I (s.writeEntry h e line) :=
  hI.coalesce (hI.forwardLine (hI.setEq (hI.set (hI.issueTlps hs))))

theorem Stable.deliver {r : Rec} {seq : Nat} (hI : Stable I) (hs : I s) : I (s.deliver r seq) :=
  hI.ite (hI.addReg hs) (hI.ite (hI.ite (hI.setEq hs) (hI.addReg (hI.setEq hs))) (hI.writeEntry hs))

theorem Stable.releaseHeld {h e n : Nat} (hI : Stable I) (hs : I s) : I (s.releaseHeld h e n) := by
  induction n generalizing s with
  | zero => exact hs
  | succ n ih =>
    unfold State.releaseHeld
    split
    · exact hs
    · exact hI.ite hs (ih (hI.writeEntry (hI.setEq hs)))

theorem Calm.raiseWith {b : Blk} {i bitNo code injected detail : Nat} (hI : Calm I) (hs : I s) :
    I (s.raiseWith b i bitNo code injected detail) :=
  hI.ite hs (hI.unless (hI.setReg (hI.set hs)) fun hs => hI.post hs)

theorem Calm.raise {b : Blk} {i bitNo code : Nat} (hI : Calm I) (hs : I s) : I (s.raise b i bitNo code) := hI.raiseWith hs

theorem Calm.accessRefused {b : Blk} {i : Nat} (hI : Calm I) (hs : I s) : I (s.accessRefused b i) := hI.raise hs

theorem Calm.viewViolation (hI : Calm I) (hs : I s) : I s.viewViolation := hI.raise (hI.addReg hs)

theorem Calm.badAccess (hI : Calm I) (hs : I s) : I s.badAccess := hI.raise (hI.addReg hs)

theorem Calm.enterState {b : Blk} {i st : Nat} (hI : Calm I) (hs : I s) : I (s.enterState b i st) :=
  hI.setReg (hI.setReg (hI.setRegFld (hI.set hs)))

theorem Calm.reach {f a : Nat} {act : State → State} (hI : Calm I) (hs : I s) (hact : ∀ {s}, I s → I (act s)) : I (s.reach f a act) := by
  unfold State.reach
  refine hI.ite (hI.viewViolation hs) ?_
  split
  · exact hs
  · exact hI.ite hs (hI.ite (hI.addReg hs) (hI.ite (hI.ite (hI.raise hs) (hact (hI.set hs))) (hI.ite (hI.accessRefused hs) (hact hs))))

theorem Calm.command {f a : Nat} {act : State → State} (hI : Calm I) (hs : I s) (hact : ∀ {s}, I s → I (act s)) : I (s.command f a act) :=
  hI.reach hs (fun hs => hI.ite (hact hs) hs)

/-! ### Objects -/

theorem Stable.modObj {k : Nat} {f : Obj → Obj} (hI : Stable I) (hs : I s) : I (s.modObj k f) := hI.setObj hs

theorem Calm.retire {k h tier unit bytes : Nat} (hI : Calm I) (hs : I s) : I (s.retire k h tier unit bytes) := hI.ite hs (hI.set hs)

theorem Calm.dropReader {id : Nat} (hI : Calm I) (hs : I s) : I (s.dropReader id) := hI.set hs

theorem Stable.freeObj {k : Nat} (hI : Stable I) (hs : I s) : I (s.freeObj k) := hI.setObj (hI.ite (hI.retire hs) hs)

theorem Calm.setSk {n : Nat} {x : Skein} (hI : Calm I) (hs : I s) : I (s.setSk n x) := hI.set hs

theorem Calm.media {n rd wr internal : Nat} (hI : Calm I) (hs : I s) : I (s.media n rd wr internal) := hI.setSk hs

theorem Calm.charge {n bytes : Nat} (hI : Calm I) (hs : I s) : I (s.charge n bytes) := hI.setSk hs

theorem Calm.program {n bytes : Nat} (hI : Calm I) (hs : I s) : I (s.program n bytes) := hI.addPieces (hI.media (hI.setSk hs))

theorem Calm.countRefusal {loc tiles : Nat} {claims : Nat → Nat} (hI : Calm I) (hs : I s) : I (s.countRefusal loc tiles claims) :=
  hI.foldl (fun _ _ hs => hI.ite hs (hI.addPieces (hI.addReg hs))) hs

theorem Calm.chargeAll {loc tiles : Nat} (hI : Calm I) (hs : I s) : I (s.chargeAll loc tiles) :=
  hI.foldl (fun _ _ hs => hI.charge hs) hs

theorem Calm.programAll {place : Nat} {l : List (Nat × Nat)} (hI : Calm I) (hs : I s) : I (s.programAll place l) :=
  hI.foldl (fun _ _ hs => hI.ite hs (hI.program hs)) hs

theorem Calm.refund {place tiles : Nat} {l : List (Nat × Nat)} (hI : Calm I) (hs : I s) : I (s.refund place tiles l) :=
  hI.foldl (fun _ _ hs => hI.setSk hs) hs

theorem Calm.endCharge {place tiles : Nat} {l : List (Nat × Nat)} (hI : Calm I) (hs : I s) : I (s.endCharge place tiles l) :=
  hI.refund (hI.programAll hs)

theorem Calm.endWait {p : AllocWait → Bool} (hI : Calm I) (hs : I s) : I (s.endWait p) :=
  hI.set (hI.foldl (fun _ _ hs => hI.maxReg hs) hs)

theorem Calm.addWait {w : AllocWait} (hI : Calm I) (hs : I s) : I (s.addWait w) := hI.ite hs (hI.set (hI.endWait hs))

theorem Calm.fresh (hI : Calm I) (hs : I s) : I s.fresh.1 := hI.set hs

theorem Calm.awake (hI : Calm I) (hs : I s) : I s.awake := hI.ite (hI.set hs) hs

theorem Stable.giveRanges {id n : Nat} (hI : Stable I) (hs : I s) : I (s.giveRanges id n) := by
  induction n generalizing s with
  | zero => exact hs
  | succ n ih =>
    unfold State.giveRanges
    split
    · exact hs
    · split
      · exact hs
      · split
        · exact hs
        · exact hI.ite hs (ih (hI.noteOcc (hI.noteOcc (hI.awake (hI.set hs)))))

theorem Stable.dropMove {id : Nat} (hI : Stable I) (hs : I s) : I (s.dropMove id) := by
  unfold State.dropMove
  refine hI.cancelDraws (hI.endWait (hI.set (hI.foldl (fun _ _ hs => hI.ite (hI.endCharge hs) hs) ?_)))
  refine hI.foldl (fun _ _ hs => ?_) hs
  refine hI.foldl (fun _ _ hs => ?_) hs
  split
  · exact hI.ite hs (hI.addReg hs)
  · exact hs

theorem Stable.evictFor {payer tier unit need n : Nat} {count : Nat → Bool} {skip : List Nat} (hI : Stable I) (hs : I s) :
    I (s.evictFor payer tier unit need count skip n).1 := by
  induction n generalizing s skip with
  | zero => exact hs
  | succ n ih =>
    unfold State.evictFor
    refine hI.iteFst hs ?_
    split
    · exact hs
    · refine hI.iteFst (ih (hI.ite (hI.countRefusal (hI.addReg hs)) hs)) ?_
      split
      · exact hs
      · exact ih (hI.set (hI.fresh hs))

theorem Stable.askRoom {h tier unit bytes : Nat} (hI : Stable I) (hs : I s) : I (s.askRoom h tier unit bytes) := hI.evictFor hs

theorem Stable.keepOnly {i n : Nat} (hI : Stable I) (hs : I s) : I (s.keepOnly i n) := hI.set hs

theorem Stable.keep {i bytes : Nat} (hI : Stable I) (hs : I s) : I (s.keep i bytes) := hI.keepOnly hs

theorem Stable.waitRoom {w : AllocWait} (hI : Stable I) (hs : I s) : I (s.waitRoom w).1 :=
  hI.unless (hI.iteFst (hI.addWait hs) (hI.evictFor (hI.addWait hs))) fun hs => hI.set hs

theorem Stable.moveEmpty {m : Move} {id code : Nat} (hI : Stable I) (hs : I s) : I (s.moveEmpty m id code) := hI.set (hI.endWait hs)

theorem Stable.abandonMove {m : Move} (hI : Stable I) (hs : I s) : I (s.abandonMove m) := by
  unfold State.abandonMove
  extract_lets s1
  have hs1 : I s1 := hI.dropMove hs
  split
  · exact hI.addReg hs1
  · exact hI.addReg hs1
  · exact hs1

theorem Stable.dropSpill {i : Nat} (hI : Stable I) (hs : I s) : I (s.dropSpill i) := hI.foldl (fun _ _ hs => hI.dropMove hs) hs

theorem Stable.moveFailed {m : Move} {e : Nat × BitVec 192} (hI : Stable I) (hs : I s) : I (s.moveFailed m e) := by
  unfold State.moveFailed
  extract_lets s1
  have hs1 : I s1 := hI.ite (hI.addReg hs) (hI.ite (hI.addReg hs) hs)
  split
  · exact hI.set hs1
  · exact hI.dropSpill hs1
  · exact hI.abandonMove hs1

theorem Stable.refusedFor {i : Nat} (hI : Stable I) (hs : I s) : I (s.refusedFor i) := hI.set hs

theorem Stable.moveRefused {m : Move} (hI : Stable I) (hs : I s) : I (s.moveRefused m) := by
  unfold State.moveRefused
  extract_lets s1 s2
  have hs1 : I s1 := by
    dsimp only [s1]
    split
    · exact hI.foldl (fun _ _ hs => hI.countRefusal hs) hs
    · exact hI.countRefusal hs
  have hs2 : I s2 := hI.ite (hI.addReg hs1) hs1
  split
  · exact hI.moveEmpty hs2
  · extract_lets s3
    have hs3 : I s3 := hI.dropSpill (hI.addReg hs2)
    split
    · exact hI.refusedFor hs3
    · exact hs3
  · exact hI.abandonMove hs2

theorem Stable.removeMove {id : Nat} (hI : Stable I) (hs : I s) : I (s.removeMove id) := hI.endWait (hI.set hs)

theorem Stable.takeKept {m : Move} {bytes : Nat} (hI : Stable I) (hs : I s) : I (s.takeKept m bytes) := by
  unfold State.takeKept
  split
  · exact hI.keepOnly hs
  · exact hs

theorem Stable.setFlights {g : InFlight → InFlight} (hI : Stable I) (hs : I s) : I (s.setFlights g) := hI.set hs

theorem Stable.goRemote {m : Move} {id : Nat} (hI : Stable I) (hs : I s) : I (s.goRemote m id) := by
  unfold State.goRemote
  split
  · exact hs
  · dsimp only
    split
    · exact hI.setFlights (hI.removeMove hs)
    · exact hI.set (hI.removeMove hs)

theorem Stable.tryStart {id : Nat} (hI : Stable I) (hs : I s) : I (s.tryStart id) := by
  unfold State.tryStart
  split
  · exact hs
  · refine hI.ite hs ?_
    refine hI.ite ?_ ?_
    · split
      · exact hI.moveEmpty hs
      · exact hs
    · refine hI.ite ?_ ?_
      · split
        · exact hI.goRemote hs
        · exact hs
      · refine hI.ite (hI.set hs) ?_
        refine hI.ite hs ?_
        split
        · exact hI.moveFailed hs
        · extract_lets _ s1 _ _ s2 s3 s4 s5 _ _ _ s6
          have hs1 : I s1 := hI.ite (hI.set hs) hs
          have hs2 : I s2 := hI.takeKept hs1
          have hs3 : I s3 := by
            dsimp only [s3]
            split
            · exact hI.set hs2
            · exact hs2
          have hs4 : I s4 := hI.ite (hI.chargeAll hs1) hs1
          have hs5 : I s5 := hI.takeKept hs4
          have hs6 : I s6 := hI.set hs5
          exact hI.ite (hI.moveFailed hs1) (hI.ite (hI.moveRefused hs1)
            (hI.ite (hI.removeMove (hI.setObj hs3)) (hI.ite (hI.giveRanges (hI.endWait hs6))
            (hI.ite (hI.abandonMove hs1) (hI.waitRoom hs1)))))

theorem Stable.freeTargets (hI : Stable I) (hs : I s) : I s.freeTargets :=
  hI.set (hI.foldlFst (fun _ _ hs => hI.iteFst hs (hI.foldlFst (fun _ _ hs => hI.evictFor hs) hs)) hs)

theorem Stable.startPass (hI : Stable I) (hs : I s) : I s.startPass := hI.foldl (fun _ _ hs => hI.giveRanges (hI.tryStart hs)) hs

theorem Calm.dramTraffic {write : Bool} {loc : Nat} {l : List (Nat × Nat)} (hI : Calm I) (hs : I s) : I (s.dramTraffic write loc l) :=
  hI.foldl (fun _ _ hs => hI.addPieces hs) hs

theorem Calm.transfer {h : Nat} {write : Bool} {tier loc : Nat} {l : List (Nat × Nat)} {f : DrawFor} (hI : Calm I) (hs : I s) :
    I (s.transfer h write tier loc l f) :=
  hI.ite (hI.dramTraffic (hI.draw hs)) (hI.ite (hI.draw hs) (hI.ite (hI.draw hs) hs))

theorem Calm.hostRead {k n : Nat} (hI : Calm I) (hs : I s) : I (s.hostRead k n) := hI.ite (hI.issueTlps hs) hs

theorem Calm.hostWrite {k aux n : Nat} (hI : Calm I) (hs : I s) : I (s.hostWrite k aux n) := hI.issueTlps hs

theorem Calm.setRemote {old new : Remote} (hI : Calm I) (hs : I s) : I (s.setRemote old new) := hI.set hs

theorem Stable.sendTiles {r : Remote} (hI : Stable I) (hs : I s) : I (s.sendTiles r) := by
  unfold State.sendTiles
  extract_lets _ s1 s2 s3
  have hs1 : I s1 := hI.hostRead (hI.transfer hs)
  have hs2 : I s2 := hI.foldl (fun _ _ hs => hI.sendMsg hs) hs1
  have hs3 : I s3 := by
    dsimp only [s3]
    split
    · exact hI.addPieces (hI.addPieces hs2)
    · exact hs2
  exact hI.ite (hI.sendMsg hs3) hs3

theorem Stable.startRemote {r : Remote} (hI : Stable I) (hs : I s) : I (s.startRemote r) := by
  unfold State.startRemote
  refine hI.ite hs ?_
  split
  · dsimp only
    split
    · exact hI.setFlights (hI.ite (hI.addReg hs) hs)
    · exact hI.sendMsg (hI.noteOcc (hI.setRemote hs))
  · extract_lets _ _ _ s1 _ s2 _ s3 s4 s5
    have hs1 : I s1 := hI.ite hs (hI.sendMsg (hI.noteOcc (hI.setRemote hs)))
    have hs2 : I s2 := hI.sendMsg (hI.countRefusal hs1)
    have hs3 : I s3 := hI.ite (hI.chargeAll hs1) hs1
    have hs4 : I s4 := hI.set hs3
    have hs5 : I s5 := hI.setRemote (hI.endWait hs4)
    exact hI.ite (hI.set hs2) (hI.ite (hI.setFlights hs1) (hI.ite (hI.sendMsg hs5) (hI.waitRoom hs1)))
  · exact hI.ite (hI.sendMsg (hI.noteOcc (hI.setRemote (hI.endWait (hI.set hs))))) (hI.waitRoom hs)
  · split
    · exact hI.sendMsg (hI.set (hI.ite (hI.addReg hs) hs))
    · exact hI.when (hI.noteOcc (hI.setRemote hs)) fun hs => hI.sendTiles hs
  · exact hs

theorem Stable.meetBudget {h q : Nat} {l : List (Nat × Nat × Nat)} (hI : Stable I) (hs : I s) : I (s.meetBudget h q l).1 := by
  unfold State.meetBudget
  split
  · exact hI.foldl (fun _ _ hs => hI.chargeAll hs) hs
  · exact hI.set (hI.foldl (fun _ _ hs => hI.countRefusal hs) hs)

theorem Stable.startMoves (hI : Stable I) (hs : I s) : I s.startMoves :=
  hI.foldl (fun _ _ hs => hI.startRemote hs) (hI.startPass (hI.startPass (hI.startPass (hI.startPass (hI.startPass (hI.freeTargets hs))))))

theorem Stable.moveCommit {m : Move} (hI : Stable I) (hs : I s) : I (s.moveCommit m).1 := by
  unfold State.moveCommit
  extract_lets _ _ _ s1 s2
  have hs1 : I s1 := hI.set hs
  have hs2 : I s2 := hI.ite (hI.retire hs1) hs1
  split
  extract_lets s3 s4 s5 s6 s7
  have hs3 : I s3 := hI.ite (hI.programAll hs2) hs2
  have hs4 : I s4 := hI.ite (hI.refund hs3) hs3
  have hs5 : I s5 := hI.ite (hI.ite (hI.addReg (hI.addPieces (hI.addReg hs4))) hs4) hs4
  have hs6 : I s6 := hI.setObj hs5
  have hs7 : I s7 := by
    dsimp only [s7]
    split
    · exact hI.set hs6
    · exact hs6
  split
  · exact hI.ite (hI.keep hs7) hs7
  · exact hs7

/-! ### Queues and records -/

theorem Stable.setCq {h q : Nat} {x : Cq} (hI : Stable I) (hs : I s) : I (s.setCq h q x) := hI.set hs

theorem Stable.markDone {h q pos : Nat} {committed : Bool} (hI : Stable I) (hs : I s) : I (s.markDone h q pos committed) :=
  hI.setCq hs

theorem Stable.setKnot {h k : Nat} {v : W32} (hI : Stable I) (hs : I s) : I (s.setKnot h k v) :=
  hI.putKnots (l := [(knotKey h k, v)]) hs

theorem Stable.unholdKnots {id : Nat} (hI : Stable I) (hs : I s) : I (s.unholdKnots id) := by
  unfold State.unholdKnots
  extract_lets mine s1
  have h1 : I s1 := hI.set hs
  have h2 := hI.putKnots (l := mine.map fun x => (x.knot, x.base)) h1
  rwa [List.foldl_map] at h2

theorem Stable.setCtx {i : Nat} {c : Ctx} (hI : Stable I) (hs : I s) : I (s.setCtx i c) := hI.set hs

theorem Calm.endAsk {i : Nat} (hI : Calm I) (hs : I s) : I (s.endAsk i) := hI.ite hs (hI.setReg hs)

theorem Stable.undoCtx {i : Nat} (hI : Stable I) (hs : I s) : I (s.undoCtx i) :=
  hI.setCtx (hI.endAsk (hI.foldl (fun _ _ hs => hI.ite (hI.modObj hs) (hI.freeObj hs))
    (hI.keepOnly (hI.foldl (fun _ _ hs => hI.dropMove hs) hs))))

theorem Stable.releaseFlight {f : InFlight} (hI : Stable I) (hs : I s) : I (s.releaseFlight f) := by
  unfold State.releaseFlight
  extract_lets mine s1 gone s2 s3 s4 s5 s6 s7 s8 s9 s10 _ s11
  have h1 : I s1 := hI.foldl (fun _ _ hs => hI.dropMove hs) hs
  have h2 : I s2 := hI.foldl (fun _ _ hs => hI.ite (hI.sendMsg hs) hs) h1
  have h3 : I s3 := hI.foldl (fun _ _ hs => hI.ite (hI.endCharge hs) hs) h2
  have h4 : I s4 := hI.endWait (hI.set h3)
  have h5 : I s5 := hI.foldl (fun _ _ hs => hI.ite (hI.endCharge hs) hs) h4
  have h7 : I s7 := hI.foldl (fun _ _ hs => hI.freeObj hs) (hI.unholdKnots h5)
  have h9 : I s9 := hI.foldl (fun _ _ hs => hI.addReg hs) (hI.set h7)
  have h10 : I s10 := hI.ite (hI.foldl (fun _ _ hs => hI.undoCtx hs) h9) h9
  have h11 : I s11 := hI.ite (hI.setCtx h10) h10
  exact hI.cancelDraws (hI.dropReader h11)

theorem Stable.killWhere {p : InFlight → Bool} (hI : Stable I) (hs : I s) : I (s.killWhere p) :=
  hI.foldl (fun _ _ hs => hI.releaseFlight hs) hs

theorem Stable.undoOpen {h q : Nat} (hI : Stable I) (hs : I s) : I (s.undoOpen h q) := hI.foldl (fun _ _ hs => hI.undoCtx hs) hs

theorem Stable.withdrawHead {h q : Nat} (hI : Stable I) (hs : I s) : I (s.withdrawHead h q) :=
  hI.setCq (hI.endWait (hI.set (hI.foldl (fun _ _ hs => hI.freeObj hs) (hI.ite (hI.undoOpen hs) hs))))

theorem Stable.killQueue {h q : Nat} (hI : Stable I) (hs : I s) : I (s.killQueue h q) :=
  hI.setCq (hI.when (hI.withdrawHead (hI.killWhere hs)) fun hs => hI.addReg hs)

theorem Stable.endCmd {c : Cmd} {code : Nat} {detail : BitVec 192} (hI : Stable I) (hs : I s) : I (s.endCmd c code detail) := by
  unfold State.endCmd
  extract_lets _ _ _ s1 _ s2 s3 s4 s5
  have hs1 : I s1 := hI.killWhere hs
  have hs2 : I s2 := hI.addReg (hI.post hs1)
  have hs3 : I s3 := hI.ite (hI.withdrawHead hs2) hs2
  have hs4 : I s4 := hI.killWhere hs3
  have hs5 : I s5 := hI.withdrawHead hs4
  exact hI.ite (hI.setCq hs5) (hI.markDone hs3)

theorem Stable.beginCmd {f : InFlight} (hI : Stable I) (hs : I s) : I (s.beginCmd f) := hI.noteOcc (hI.set (hI.endWait (hI.setCq hs)))

theorem Stable.endGone {c : Cmd} (hI : Stable I) (hs : I s) : I (s.endGone c) := hI.when (hI.endCmd hs) fun hs => hI.setCq hs

theorem Stable.beginDone {c : Cmd} {flags : Nat} {detail : BitVec 192} (hI : Stable I) (hs : I s) : I (s.beginDone c flags detail) :=
  hI.ite (hI.endGone hs) (hI.beginCmd (hI.fresh hs))

theorem Stable.setFlight {f : InFlight} (hI : Stable I) (hs : I s) : I (s.setFlight f) := hI.set hs

theorem Stable.testWaits {h k : Nat} (hI : Stable I) (hs : I s) : I (s.testWaits h k) := by
  unfold State.testWaits
  refine hI.foldl (fun _ _ hs => ?_) hs
  split
  · exact hI.ite (hI.addReg (hI.beginDone hs)) hs
  · exact hs

theorem Stable.knotOp {h k : Nat} {reset : Bool} {n : W32} {counted : Bool} (hI : Stable I) (hs : I s) : I (s.knotOp h k reset n counted) :=
  hI.ite (hI.addReg hs) (hI.testWaits (hI.when (hI.setKnot hs) fun hs => hI.addReg hs))

theorem Stable.commitOut {o : OutBuf} (hI : Stable I) (hs : I s) : I (s.commitOut o) :=
  hI.setObj (hI.transfer (hI.when (hI.ite (hI.retire hs) hs) fun hs => hI.programAll hs))

theorem Stable.touch {k : Nat} (hI : Stable I) (hs : I s) : I (s.touch k) := hI.ite (hI.modObj hs) hs

theorem Stable.closeCtx {i : Nat} {detach : Bool} (hI : Stable I) (hs : I s) : I (s.closeCtx i detach) :=
  hI.setCtx (hI.endAsk (hI.foldl (fun _ _ hs => hI.ite (hI.modObj hs) (hI.freeObj hs)) hs))

theorem Stable.remoteCommit {r : Remote} (hI : Stable I) (hs : I s) : I (s.remoteCommit r) :=
  hI.ite (hI.setObj (hI.retire (hI.sendMsg (hI.set hs)))) (hI.setObj
    (hI.when (hI.when (hI.transfer (hI.sendMsg (hI.set hs))) fun hs => hI.hostWrite hs) fun hs => hI.programAll hs))

theorem Calm.setHoopSec {h : Nat} {x : HoopSec} (hI : Calm I) (hs : I s) : I (s.setHoopSec h x) := hI.set hs

theorem Calm.extendMr {h : Nat} {d : BitVec 384} (hI : Calm I) (hs : I s) : I (s.extendMr h d) := hI.setHoopSec hs

theorem Calm.sealCommit {h : Nat} {p : Package} {d : BitVec 384} (hI : Calm I) (hs : I s) : I (s.sealCommit h p d) :=
  hI.extendMr (hI.setHoopSec hs)

theorem Stable.commitOwn {f : InFlight} (hI : Stable I) (hs : I s) : I (s.commitOwn f).1 := by
  unfold State.commitOwn
  refine hI.iteFst (hI.iteFst (hI.sendMsg hs) (hI.knotOp hs)) ?_
  refine hI.iteFst ?_ ?_
  · split
    · exact hI.remoteCommit hs
    · split
      · exact hI.moveCommit hs
      · exact hs
  · refine hI.iteFst (hI.post hs) ?_
    refine hI.iteFst ?_ ?_
    · split
      · exact hI.setCtx hs
      · exact hs
    · refine hI.iteFst ?_ ?_
      · dsimp only
        split <;> exact (hI.closeCtx hs)
      · refine hI.iteFst ?_ hs
        split
        · exact hI.sealCommit hs
        · exact hs

theorem Calm.toUnits {r : Rec} (hI : Calm I) (hs : I s) : I (s.toUnits r) := hI.foldl (fun _ _ hs => hI.raise hs) (hI.set hs)

theorem Stable.commitCarried {f : InFlight} (hI : Stable I) (hs : I s) : I (s.commitCarried f).1 :=
  hI.foldl (fun _ _ hs => hI.modObj hs) (hI.foldl (fun _ _ hs => hI.setObj hs) hs)

theorem Stable.commitWhole {f : InFlight} (hI : Stable I) (hs : I s) : I (s.commitWhole f) := by
  unfold State.commitWhole
  extract_lets c ent s1 s2 s3
  have h3 : I s3 := hI.foldl (fun _ _ hs => hI.commitOut hs) (hI.dropReader (hI.set hs))
  split
  next hr =>
  have h4 := hI.fst hr (hI.commitCarried h3)
  extract_lets f' s5 s6 mine s7 s8 s9
  have h6 : I s6 := hI.foldl (fun _ _ hs => hI.freeObj hs) (hI.foldl (fun _ _ hs => hI.touch hs) h4)
  have h7 : I s7 := hI.foldl (fun _ _ hs => hI.testWaits hs) (hI.unholdKnots h6)
  have h8 : I s8 := hI.foldl (fun _ _ hs => hI.ite (hI.setCtx hs) hs) h7
  have h9 : I s9 := hI.set h8
  split
  next s10 code flags detail hr =>
  have h10 : I (s10.markDone c.hoop c.cq c.pos true) := hI.markDone (hI.fst hr (hI.commitOwn h9))
  refine hI.startMoves ?_
  split
  · exact hI.when (hI.ite (hI.post (hI.toUnits h10)) (hI.toUnits h10)) fun hs => hI.post hs
  · exact hI.ite (hI.post h10) h10

theorem Stable.commitFlight {f : InFlight} (hI : Stable I) (hs : I s) : I (s.commitFlight f) := by
  unfold State.commitFlight
  split
  · exact hI.startMoves (hI.endCmd hs)
  · exact hI.commitWhole hs

theorem Stable.noteCauses {i : Nat} (hI : Stable I) (hs : I s) : I (s.noteCauses i) := hI.setCtx hs

theorem Stable.cancelRestore {i : Nat} (hI : Stable I) (hs : I s) : I (s.cancelRestore i) :=
  hI.keepOnly (hI.setCtx (hI.foldl (fun _ _ hs => hI.modObj hs) (hI.foldl (fun _ _ hs => hI.dropMove hs) hs)))

theorem Stable.tickCtx {i : Nat} (hI : Stable I) (hs : I s) : I (s.tickCtx i) := by
  unfold State.tickCtx
  extract_lets _ _ _ ended s1 s2 _ _ s3 _ _ _ s4 _ s6 done _ s5 _ _ s7 s8
  refine hI.ite hs ?_
  have hended : ∀ {t}, I t → I (ended t) := fun ht => hI.ite ht (hI.maxReg ht)
  have h1 : I s1 := hI.ite (hI.setCtx (hended hs)) (hI.ite (hI.setCtx (hended hs)) hs)
  have h2 : I s2 := hI.ite (hI.noteCauses h1) h1
  have h3 : I s3 := hI.ite (hI.ite (hI.cancelRestore h2) (hI.ite h2 (hI.keepOnly h2))) h2
  have h4 : I s4 := hI.ite (hI.setReg (hI.setCtx (hI.cancelRestore h3))) h3
  have h5 : I s5 := by
    refine hI.ite ?_ h4
    have h6 : I s6 := hI.keepOnly (hI.addReg (hI.setCtx h4))
    have hdone : ∀ {t n}, I t → I (done t n) := fun ht => hI.setReg ht
    exact hI.ite (hdone h6) (hI.ite (hI.ite (hdone (hI.setCtx h6)) (hdone h6)) h6)
  refine hI.ite ?_ h5
  have h7 : I s7 := hI.setCtx h5
  have h8 : I s8 := hI.ite (hI.addReg h7) h7
  exact hI.ite (hI.setReg h8) h8

theorem Stable.tickCtxs (hI : Stable I) (hs : I s) : I s.tickCtxs := hI.set (hI.foldl (fun _ _ hs => hI.tickCtx hs) hs)

theorem Stable.settle {n : Nat} (hI : Stable I) (hs : I s) : I (s.settle n) := by
  induction n generalizing s with
  | zero => exact hs
  | succ n ih =>
    unfold State.settle
    split
    · exact hs
    · split
      · exact ih (hI.startMoves (hI.endCmd hs))
      · exact ih (hI.commitFlight hs)

theorem Stable.retest (hI : Stable I) (hs : I s) : I s.retest := by
  unfold State.retest
  refine hI.foldl (fun _ _ hs => ?_) hs
  split
  · exact hI.ite (hI.testWaits hs) hs
  · exact hs

theorem Stable.sweep (hI : Stable I) (hs : I s) : I s.sweep := hI.foldl (fun _ _ hs => hI.ite (hI.freeObj hs) hs) (hI.set hs)

theorem Stable.settled (hI : Stable I) (hs : I s) : I s.settled :=
  hI.sweep (hI.tickCtxs (hI.settle (hI.retest (hI.tickCtxs (hI.settle hs)))))

/-! ### Scene time -/

theorem Calm.countHeld {n : Nat} (hI : Calm I) (hs : I s) : I (s.countHeld n) := by
  unfold State.countHeld
  split
  · exact hI.addReg hs
  · exact hs

theorem Calm.advance {dt : Nat} (hI : Calm I) (hs : I s) : I (s.advance dt) := hI.set (hI.countHeld hs)

theorem Calm.advance16 {n : Nat} (hI : Calm I) (hs : I s) : I (s.advance16 n) := hI.set (hI.countHeld hs)

theorem Calm.reachCycle {n : Nat} (hI : Calm I) (hs : I s) : I (s.reachCycle n) := hI.ite (hI.set (hI.countHeld hs)) hs

theorem Calm.reachTime {t : ℚ} (hI : Calm I) (hs : I s) : I (s.reachTime t) := hI.reachCycle hs

theorem Calm.setTs {t : SceneTime} (hI : Calm I) (hs : I s) : I (s.setTs t) := hI.set hs

theorem Calm.placeAt {p : Nat} {m : TsMode} {iv : ℚ} (hI : Calm I) (hs : I s) : I (s.placeAt p m iv) := hI.setTs hs

theorem Calm.slew {c : ℤ} (hI : Calm I) (hs : I s) : I (s.slew c) := hI.ite (hI.setTs hs) (hI.ite (hI.placeAt hs) (hI.setTs hs))

theorem Calm.applyCorr {c : ℤ} {cause : Nat} (hI : Calm I) (hs : I s) : I (s.applyCorr c cause) :=
  hI.ite (hI.placeAt (hI.addReg (hI.post hs))) (hI.setTs (hI.slew (hI.addReg (hI.post hs))))

theorem Calm.boundary {base : Nat} {at_ : ℚ} (hI : Calm I) (hs : I s) : I (s.boundary base at_) := hI.setTs hs

theorem Calm.edgeBoundary {p : ℚ} (hI : Calm I) (hs : I s) : I (s.edgeBoundary p) :=
  hI.ite (hI.setTs hs) (hI.setTs (hI.addReg (hI.boundary hs)))

theorem Calm.lockNow (hI : Calm I) (hs : I s) : I s.lockNow := hI.applyCorr (hI.setTs hs)

theorem Calm.dropEdge (hI : Calm I) (hs : I s) : I s.dropEdge := hI.raise (hI.addReg hs)

theorem Calm.acceptEdge {cap : Nat} (hI : Calm I) (hs : I s) : I (s.acceptEdge cap) := by
  unfold State.acceptEdge
  extract_lets _ _ s1 s2 s3
  have hs1 : I s1 := hI.reachCycle hs
  have hs2 : I s2 := hI.setTs hs1
  have hs3 : I s3 := hI.edgeBoundary hs2
  split
  · exact hI.setTs hs3
  · exact hI.setTs hs2
  · exact hI.ite (hI.lockNow hs2) hs2
  · exact hI.setTs hs2
  · exact hs2

theorem Calm.selectedEdge {cap : Nat} (hI : Calm I) (hs : I s) : I (s.selectedEdge cap) := hI.ite (hI.dropEdge hs) (hI.acceptEdge hs)

theorem Calm.acceptPrevious {cap : Nat} (hI : Calm I) (hs : I s) : I (s.acceptPrevious cap) :=
  hI.setTs (hI.edgeBoundary (hI.reachCycle hs))

theorem Calm.previousEdge {cap : Nat} (hI : Calm I) (hs : I s) : I (s.previousEdge cap) :=
  hI.ite (hI.dropEdge hs) (hI.acceptPrevious hs)

theorem Calm.selectedPass {cap : Nat} (hI : Calm I) (hs : I s) : I (s.selectedPass cap) :=
  hI.ite (hI.setTs (hI.reachCycle hs)) (hI.selectedEdge (hI.setTs (hI.reachCycle hs)))

theorem Calm.previousPass {cap : Nat} (hI : Calm I) (hs : I s) : I (s.previousPass cap) :=
  hI.ite (hI.setTs (hI.reachCycle hs)) (hI.previousEdge (hI.setTs (hI.reachCycle hs)))

theorem Calm.sharedPass {cap : Nat} (hI : Calm I) (hs : I s) : I (s.sharedPass cap) := by
  unfold State.sharedPass
  extract_lets s1 _ s2
  have hs1 : I s1 := hI.reachCycle hs
  have hs2 : I s2 := hI.setTs hs1
  exact hI.ite (hI.setTs hs1) (hI.ite (hI.dropEdge hs2) (hI.acceptEdge (hI.acceptPrevious hs2)))

theorem Calm.doReferenceEdge {dt : Nat} {falling : Bool} {width : Nat} {onPrev : Bool} (hI : Calm I) (hs : I s) :
    I (doReferenceEdge dt falling width onPrev s) :=
  hI.unless (hI.advance hs) fun hs => hI.ite (hI.addReg hs) (hI.unless hs fun hs => hI.ite (hI.sharedPass hs)
    (hI.ite (hI.previousPass hs) (hI.selectedPass hs)))

theorem Calm.doGeneratedBoundary (hI : Calm I) (hs : I s) : I (doGeneratedBoundary s) :=
  hI.ite hs (hI.ite (hI.setTs (hI.slew (hI.boundary (hI.reachTime hs)))) (hI.setTs (hI.boundary (hI.reachTime hs))))

theorem Calm.doRefLost (hI : Calm I) (hs : I s) : I (doRefLost s) := by
  unfold Machine.doRefLost
  refine hI.ite hs ?_
  split
  · exact hI.setTs (hI.addReg (hI.raise (hI.reachTime hs)))
  · exact hI.ite (hI.setTs (hI.reachTime hs)) hs
  · exact hs

theorem Calm.tsSourceAccept {v : W32} (hI : Calm I) (hs : I s) : I (s.tsSourceAccept v) := by
  unfold State.tsSourceAccept
  refine hI.unless (hI.setReg hs) fun hs => ?_
  refine hI.ite (hI.unless hs fun hs => hI.setTs hs) ?_
  refine hI.ite (hI.unless hs fun hs => hI.setTs hs) ?_
  split <;> exact hI.setTs hs

theorem Calm.doTsSourceWrite {f : Nat} {v : W32} (hI : Calm I) (hs : I s) : I (doTsSourceWrite f v s) :=
  hI.reach hs (fun hs => hI.ite (hI.setTs hs) (hI.tsSourceAccept hs))

theorem Calm.doHostPosGo {f : Nat} {v : W32} (hI : Calm I) (hs : I s) : I (doHostPosGo f v s) :=
  hI.reach hs (fun hs => hI.ite (hI.applyCorr hs) hs)

theorem Calm.doCaptureReq {f : Nat} {v : W32} (hI : Calm I) (hs : I s) : I (doCaptureReq f v s) :=
  hI.reach hs (fun hs => hI.ite (hI.setReg (hI.setReg (hI.setReg hs))) hs)

theorem Calm.doLoadGo {f : Nat} {v : W32} (hI : Calm I) (hs : I s) : I (doLoadGo f v s) :=
  hI.reach hs (fun hs => hI.unless (hI.setReg hs) fun hs => hI.ite (hI.setTs hs) (hI.ite (hI.setTs hs) (hI.setTs hs)))

theorem Stable.wakeAts (hI : Stable I) (hs : I s) : I s.wakeAts := hI.settled (hI.foldl (fun _ _ hs => hI.beginDone hs) hs)

theorem Stable.doRecordSequenced {h : Nat} (hI : Stable I) (hs : I s) : I (doRecordSequenced h s) := by
  unfold Machine.doRecordSequenced
  split
  · exact hs
  · exact hI.dev hs (fun hs => hI.settled (hI.deliver (hI.setHoop hs)))

theorem Calm.tsAsleep {listen off : Bool} (hI : Calm I) (hs : I s) : I (s.tsAsleep listen off) := hI.setTs hs

theorem Calm.tsAwake (hI : Calm I) (hs : I s) : I s.tsAwake := hI.ite (hI.setTs hs) hs

/-! ### Sleep of the scene-time unit -/

theorem Calm.offer {r : Rec} (hI : Calm I) (hs : I s) : I (s.offer r) := hI.when (hI.toUnits hs) fun hs => hI.post hs

theorem Calm.deliverKept {n : Nat} (hI : Calm I) (hs : I s) : I (s.deliverKept n) := by
  induction n generalizing s with
  | zero => exact hs
  | succ n ih =>
    unfold State.deliverKept
    split
    · exact hs
    · exact ih (hI.offer (hI.set hs))

theorem Calm.computeIsUp (hI : Calm I) (hs : I s) : I s.computeIsUp := hI.set (hI.deliverKept (hI.set hs))

theorem Stable.unmark (hI : Stable I) (hs : I s) : I s.unmark := hI.set (hI.foldl (fun _ _ hs => hI.ite (hI.setCq hs) hs) hs)

theorem Calm.pmResult {r : Nat} (hI : Calm I) (hs : I s) : I (s.pmResult r) := hI.setReg hs

theorem Stable.pmBack {res : Nat} (hI : Stable I) (hs : I s) : I (s.pmBack res) :=
  hI.ite (hI.pmResult (hI.set hs)) (hI.pmResult (hI.computeIsUp (hI.set (hI.unmark hs))))

theorem Stable.wake {src : Nat} (hI : Stable I) (hs : I s) : I (s.wake src) :=
  hI.ite (hI.ite hs (hI.ite (hI.pmBack (hI.addReg hs)) (hI.set hs))) (hI.ite (hI.setRegFld (hI.set hs)) hs)

/-! ### Trigger units -/

theorem Calm.setRule {r : Nat} {x : Rule} (hI : Calm I) (hs : I s) : I (s.setRule r x) := hI.set hs

theorem Calm.setTu {u : Nat} {x : TrigUnit} (hI : Calm I) (hs : I s) : I (s.setTu u x) := hI.set hs

theorem Stable.issueMove {kind : MoveKind} {h k tier loc codec : Nat} {age : Option Nat} (hI : Stable I) (hs : I s) :
    I (s.issueMove kind h k tier loc codec age).1 :=
  hI.iteFst (hI.tryStart (hI.set (hI.fresh hs))) hs

theorem Stable.prefetch {kind : MoveKind} {h pat tier loc depth age : Nat} (hI : Stable I) (hs : I s) :
    I (s.prefetch kind h pat tier loc depth age).1 := by
  unfold State.prefetch
  split
  · exact hs
  · refine hI.foldlFst (fun _ _ hs => ?_) hs
    refine hI.iteFst hs ?_
    split
    · exact hs
    · exact hI.iteFst (hI.iteFst (hI.issueMove hs) (hI.issueMove hs)) hs

theorem Stable.doArm {r stamp ctx cause v flags : Nat} (hI : Stable I) (hs : I s) : I (s.doArm r stamp ctx cause v flags) :=
  hI.when (hI.when (hI.addReg (hI.setRule (hI.fresh hs))) fun hs => hI.addReg (hI.setRule (hI.prefetch hs))) fun hs => hI.post hs

theorem Stable.disarm {r stamp cause flags : Nat} (hI : Stable I) (hs : I s) : I (s.disarm r stamp cause flags) :=
  hI.when (hI.addReg (hI.setRule (hI.foldl (fun _ _ hs => hI.ite (hI.modObj hs) hs) (hI.foldl (fun _ _ hs => hI.dropMove hs) hs))))
    fun hs => hI.post hs

/-! ### Objects -/

/-- A new object is one entry of the object table. -/
theorem Stable.newObj {h : Nat} {o : Obj} {r : State × Nat} (hI : Stable I) (hs : I s) (hr : s.newObj h o = some r) : I r.1 := by
  unfold State.newObj at hr
  split at hr
  · exact nomatch hr
  · cases hr
    exact hI.setObj hs

/-! ### Trigger units -/

theorem Stable.recordObj {h : Nat} {x : Rec} {r : State × Nat} (hI : Stable I) (hs : I s) (hr : s.recordObj h x = some r) : I r.1 := by
  unfold State.recordObj at hr
  simp only [Option.map_eq_map, Option.map_eq_some_iff] at hr
  obtain ⟨_, hr, rfl⟩ := hr
  dsimp only
  exact hI.startMoves (hI.newObj hs hr)

theorem Stable.applyPatch {a : FireArgs} {cmds : List Line} {p : W64} (hI : Stable I) (hs : I s) : I (s.applyPatch a cmds p).1 := by
  unfold State.applyPatch
  refine hI.iteFst hs (hI.iteFst hs (hI.iteFst hs (hI.iteFst ?_ (hI.iteFst hs hs))))
  split
  · split
    · next hr => exact hI.recordObj hs hr
    · exact hs
  · exact hs

theorem Stable.instantiate {a : FireArgs} {o : Obj} (hI : Stable I) (hs : I s) : I (s.instantiate a o).1 :=
  hI.foldlFst (fun _ _ hs => hI.applyPatch hs) hs

theorem Stable.ringAppend {h q : Nat} {cmds : List Line} (hI : Stable I) (hs : I s) : I (s.ringAppend h q cmds) := by
  unfold State.ringAppend
  refine hI.foldl (fun _ _ hs => ?_) hs
  refine hI.setCq ?_
  split
  · exact hI.modObj hs
  · exact hs

theorem Calm.dropFire {p : PendFire} (hI : Calm I) (hs : I s) : I (s.dropFire p) := by
  unfold State.dropFire
  extract_lets s1 s2
  have hs1 : I s1 := by
    dsimp only [s1]
    split
    · exact hI.post hs
    · exact hs
  have hs2 : I s2 := hI.post hs1
  split
  · exact hI.addReg hs2
  · exact hs2

theorem Stable.fireAppended {p : PendFire} (hI : Stable I) (hs : I s) : I (s.fireAppended p) := by
  unfold State.fireAppended
  dsimp only
  split
  · exact hI.post (hI.ringAppend hs)
  · exact (hI.ringAppend hs)

theorem Stable.submitFire {p : PendFire} (hI : Stable I) (hs : I s) : I (s.submitFire p) :=
  hI.ite (hI.dropFire hs) (hI.ite (hI.fireAppended hs) (hI.ite (hI.ite (hI.noteOcc (hI.set hs)) (hI.set hs)) (hI.dropFire hs)))

theorem Stable.doFire {r stamp cause v flags : Nat} {firing : Option Rec} (hI : Stable I) (hs : I s) :
    I (s.doFire r stamp cause v flags firing) := by
  unfold State.doFire
  extract_lets _ _ _ _ _ _ _ s1 fired
  have h1 : I s1 := hI.addReg (hI.setRule hs)
  refine hI.ite ?_ ?_
  · split
    · exact hI.dropFire h1
    · exact hI.ite (hI.submitFire (hI.instantiate h1)) (hI.dropFire h1)
  · cases fired with
    | none => exact h1
    | some f => exact hI.post h1

theorem Stable.disarmBefore {r stamp : Nat} (hI : Stable I) (hs : I s) : I (s.disarmBefore r stamp) := by
  unfold State.disarmBefore
  split
  · exact hI.ite (hI.disarm hs) hs
  · exact hs

theorem Stable.evalRule {r : Nat} {rec : Rec} (hI : Stable I) (hs : I s) : I (s.evalRule r rec) := by
  unfold State.evalRule
  extract_lets _ s1 _ _ _ _ s2
  have hs1 : I s1 := hI.disarmBefore (hI.addReg hs)
  have hs2 : I s2 := hI.ite (hI.doArm hs1) hs1
  exact hI.ite (hI.addReg (hI.setRule hs1)) (hI.ite (hI.ite (hI.setRule hs1) hs1) (hI.ite (hI.doFire hs2) hs2))

theorem Calm.nextOffer {u n : Nat} (hI : Calm I) (hs : I s) : I (s.nextOffer u n).1 := by
  induction n generalizing s with
  | zero => exact hs
  | succ n ih =>
    unfold State.nextOffer
    dsimp only
    split
    · split
      · exact hI.setTu hs
      · exact ih (hI.setTu hs)
    · split
      · exact hs
      · refine ih (hI.setTu ?_)
        split
        · exact hI.addReg hs
        · exact hs

theorem Stable.doRuleEvaluate {u : Nat} (hI : Stable I) (hs : I s) : I (doRuleEvaluate u s) := by
  unfold Machine.doRuleEvaluate
  refine hI.ite hs ?_
  split
  · next h => exact hI.settled (hI.evalRule (hI.fst h (hI.nextOffer hs)))
  · next h => exact hI.fst h (hI.nextOffer hs)

theorem Stable.forceArm {r cause flags : Nat} (hI : Stable I) (hs : I s) : I (s.forceArm r cause flags) := hI.ite hs (hI.doArm hs)

theorem Stable.forceFire {r cause flags : Nat} (hI : Stable I) (hs : I s) : I (s.forceFire r cause flags) :=
  hI.ite hs (hI.doFire (hI.forceArm hs))

theorem Stable.forceDisarm {r cause flags : Nat} (hI : Stable I) (hs : I s) : I (s.forceDisarm r cause flags) :=
  hI.ite (hI.disarm hs) hs

theorem Calm.ruleResult {h res : Nat} (hI : Calm I) (hs : I s) : I (s.ruleResult h res) := hI.setReg hs

theorem Stable.heldForces (hI : Stable I) (hs : I s) : I s.heldForces :=
  hI.foldl (fun _ _ hs => hI.ite hs (hI.ite (hI.ruleResult hs) (hI.ruleResult (hI.forceFire hs)))) hs

theorem Stable.stopTrigger {u : Nat} (hI : Stable I) (hs : I s) : I (s.stopTrigger u) := hI.heldForces (hI.set (hI.setTu hs))

theorem Stable.doPendingFireAppend {h q : Nat} (hI : Stable I) (hs : I s) : I (doPendingFireAppend h q s) := by
  unfold Machine.doPendingFireAppend
  split
  · exact hI.ite (hI.heldForces (hI.dropFire (hI.set hs))) (hI.ite (hI.heldForces (hI.fireAppended (hI.set hs))) hs)
  · exact hs

theorem Stable.doFireHoldExpiry {h q : Nat} (hI : Stable I) (hs : I s) : I (doFireHoldExpiry h q s) := by
  unfold Machine.doFireHoldExpiry
  split
  · exact hI.ite (hI.heldForces (hI.dropFire (hI.set hs))) hs
  · exact hs

theorem Stable.doDisarm {r : Nat} (hI : Stable I) (hs : I s) : I (doDisarm r s) := by
  unfold Machine.doDisarm
  dsimp only
  split
  · exact hI.ite (hI.disarm hs) hs
  · exact hs

theorem Calm.ruleCmd {f h : Nat} {act : Nat → State → State} (hI : Calm I) (hs : I s) (hact : ∀ {x0 s}, I s → I (act x0 s)) :
    I (s.ruleCmd f h act) :=
  hI.command hs (fun hs => hI.ite hs (hI.ite (hact hs) (hI.ruleResult hs)))

theorem Calm.doRuleWrite {f h : Nat} (hI : Calm I) (hs : I s) : I (doRuleWrite f h s) :=
  hI.ruleCmd hs (fun hs => hI.ite (hI.ruleResult hs) (hI.ruleResult (hI.setRule hs)))

theorem Calm.doRuleRead {f h : Nat} (hI : Calm I) (hs : I s) : I (doRuleRead f h s) :=
  hI.ruleCmd hs (fun hs => hI.ruleResult (hI.setRegs hs))

theorem Stable.doRuleEnable {f h : Nat} (hI : Stable I) (hs : I s) : I (doRuleEnable f h s) := by
  unfold Machine.doRuleEnable
  refine hI.ruleCmd hs fun hs => ?_
  refine hI.ite (hI.ruleResult hs) ?_
  refine hI.ruleResult (hI.setRule ?_)
  split
  · exact hI.ite hs (hI.modObj hs)
  · exact hs

theorem Stable.unpinTemplate {h r : Nat} (hI : Stable I) (hs : I s) : I (s.unpinTemplate h r) := by
  unfold State.unpinTemplate
  split
  · exact hI.modObj hs
  · exact hs

theorem Stable.doRuleDisable {f h : Nat} (hI : Stable I) (hs : I s) : I (doRuleDisable f h s) :=
  hI.ruleCmd hs (fun hs => hI.ite (hI.ruleResult (hI.setRule (hI.unpinTemplate (hI.ite (hI.disarm hs) hs)))) (hI.ruleResult hs))

theorem Stable.doForceArm {f h : Nat} (hI : Stable I) (hs : I s) : I (doForceArm f h s) :=
  hI.ruleCmd hs (fun hs => hI.ite (hI.ruleResult (hI.forceArm hs)) (hI.ruleResult hs))

theorem Stable.doForceFire {f h : Nat} (hI : Stable I) (hs : I s) : I (doForceFire f h s) :=
  hI.ruleCmd hs (fun hs => hI.ite (hI.ruleResult hs) (hI.ite (hI.setReg (hI.setReg hs)) (hI.ruleResult (hI.forceFire hs))))

theorem Stable.doForceDisarm {f h : Nat} (hI : Stable I) (hs : I s) : I (doForceDisarm f h s) :=
  hI.ruleCmd hs (fun hs => hI.ite (hI.ruleResult (hI.forceDisarm hs)) (hI.ruleResult hs))

theorem Calm.doTrigPartWrite {f h : Nat} {v : W32} (hI : Calm I) (hs : I s) : I (doTrigPartWrite f h v s) :=
  hI.reach hs (fun hs => hI.ite (hI.setRegFld hs) (hI.setReg hs))

theorem Calm.setPrick {h n : Nat} {x : Prick} (hI : Calm I) (hs : I s) : I (s.setPrick h n x) := hI.set hs

theorem Stable.doPrickEnable {f h n : Nat} {v : W32} (hI : Stable I) (hs : I s) : I (doPrickEnable f h n v s) := by
  unfold Machine.doPrickEnable
  refine hI.reach hs fun {s} hs => ?_
  extract_lets _ _ unpin _ refuse _
  have hunpin : I (unpin s) := by
    dsimp only [unpin]
    split
    · exact hI.modObj hs
    · exact hs
  refine hI.ite (hI.ite (hI.setReg hs) ?_) (hI.setPrick (hI.setReg hunpin))
  have hrefuse : I refuse := hI.setPrick (hI.setReg hs)
  split
  · exact hrefuse
  · refine hI.ite ?_ hrefuse
    split
    · exact hrefuse
    · exact hI.setPrick (hI.setReg (hI.modObj hs))

theorem Stable.prickAct {h n i target : Nat} {late : Bool} (hI : Stable I) (hs : I s) : I (s.prickAct h n i target late) := by
  unfold State.prickAct
  refine hI.ite ?_ (hI.ite (hI.ite (hI.ite (hI.forceArm hs) (hI.ite (hI.forceFire hs) (hI.forceDisarm hs))) hs)
    (hI.ite (hI.post hs) (hI.ite (hI.knotOp hs) hs)))
  dsimp only
  split
  · exact hI.dropFire hs
  · exact hI.ite (hI.submitFire (hI.instantiate hs)) (hI.dropFire hs)

theorem Stable.doPrickingEntry {h n : Nat} (hI : Stable I) (hs : I s) : I (doPrickingEntry h n s) :=
  hI.ite hs (hI.settled (hI.setPrick (hI.ite (hI.addReg hs) (hI.prickAct hs))))

theorem Stable.resetTriggers {h : Nat} (hI : Stable I) (hs : I s) : I (s.resetTriggers h) := by
  unfold State.resetTriggers
  refine hI.set (hI.unless ?_ fun hs => hI.setReg hs)
  refine hI.foldl (fun _ _ hs => ?_) (hI.foldl (fun _ _ hs => hI.ite (hI.setRule (hI.ite (hI.unpinTemplate hs) hs)) hs) hs)
  refine hI.setPrick ?_
  refine hI.ite ?_ hs
  split
  · exact hI.modObj hs
  · exact hs

/-! ### Host interface -/

theorem Stable.doorbell {f h a : Nat} {act : State → State} (hI : Stable I) (hs : I s) (hact : ∀ {s}, I s → I (act s)) :
    I (s.doorbell f h a act) :=
  hI.reach hs (fun hs => hI.ite hs (hI.wake (hact hs)))

theorem Stable.doCqDbTail {f h q : Nat} {t : W32} (hI : Stable I) (hs : I s) : I (doCqDbTail f h q t s) :=
  hI.doorbell hs (fun hs => hI.ite (hI.setCq hs) (hI.setCq hs))

theorem Stable.doAppendGo {f h q : Nat} {v : W32} (hI : Stable I) (hs : I s) : I (doAppendGo f h q v s) :=
  hI.doorbell hs (fun hs => hI.ite hs (hI.ite (hI.setReg hs) (hI.ite (hI.setReg hs)
    (hI.ite (hI.setReg (hI.ringAppend hs)) (hI.setReg (hI.setCq hs))))))

theorem Calm.setTurn {n : Nat} {t : Turn} (hI : Calm I) (hs : I s) : I (s.setTurn n t) := hI.set hs

theorem Stable.doCommandFetched {h q : Nat} {bits : Line} {err : Nat} (hI : Stable I) (hs : I s) : I (doCommandFetched h q bits err s) := by
  unfold Machine.doCommandFetched
  refine hI.ite hs ?_
  refine hI.unless (hI.ite hs (hI.setCq (hI.draw hs))) fun hs => ?_
  extract_lets s1 s2 _ _ _ s3
  have hs1 : I s1 := hI.unless hs fun hs => hI.issueTlps hs
  have hs2 : I s2 := hI.setCq hs1
  have hs3 : I s3 := hI.setCq hs2
  exact hI.ite (hI.settled (hI.endCmd (hI.set hs2))) (hI.ite (hI.settled (hI.endCmd hs2))
    (hI.ite (hI.settled (hI.testWaits hs3)) (hI.settled hs3)))

theorem Stable.doCommandCommit {h q pos : Nat} (hI : Stable I) (hs : I s) : I (doCommandCommit h q pos s) := by
  unfold Machine.doCommandCommit
  split
  · exact hI.ite (hI.settled (hI.commitFlight hs)) hs
  · exact hs

theorem Stable.doNop {h q : Nat} (hI : Stable I) (hs : I s) : I (doNop h q s) := by
  unfold Machine.doNop
  split
  · exact hI.settled (hI.beginDone hs)
  · exact hs

theorem Stable.doAtStitch {h q : Nat} (hI : Stable I) (hs : I s) : I (doAtStitch h q s) := by
  unfold Machine.doAtStitch
  split
  · exact hI.ite (hI.settled (hI.beginDone hs)) hs
  · exact hs

theorem Stable.doFence {h q : Nat} (hI : Stable I) (hs : I s) : I (doFence h q s) := by
  unfold Machine.doFence
  split
  · exact hs
  · exact hI.ite hs (hI.when (hI.setCq hs) fun hs => hI.settled (hI.beginDone (hI.setCq hs)))

theorem Stable.doPostEvent {h q : Nat} (hI : Stable I) (hs : I s) : I (doPostEvent h q s) := by
  unfold Machine.doPostEvent
  split
  · exact hI.settled (hI.beginDone hs)
  · exact hs

theorem Calm.cqCmd {f h q : Nat} {act : State → State} (hI : Calm I) (hs : I s) (hact : ∀ {s}, I s → I (act s)) : I (s.cqCmd f h q act) :=
  hI.reach hs (fun hs => hact hs)

theorem Stable.doCqResume {f h q : Nat} (hI : Stable I) (hs : I s) : I (doCqResume f h q s) :=
  hI.cqCmd hs (fun hs => hI.ite (hI.markDone (hI.setCq hs)) hs)

theorem Stable.doCqRetry {f h q : Nat} (hI : Stable I) (hs : I s) : I (doCqRetry f h q s) :=
  hI.cqCmd hs (fun hs => hI.ite (hI.setCq hs) hs)

theorem Stable.doCqClearFlags {f h q : Nat} (hI : Stable I) (hs : I s) : I (doCqClearFlags f h q s) :=
  hI.cqCmd hs (fun hs => hI.setCq hs)

theorem Stable.doCqEnable {f h q : Nat} {v : W32} (hI : Stable I) (hs : I s) : I (doCqEnable f h q v s) := by
  unfold Machine.doCqEnable
  refine hI.reach hs fun hs => ?_
  refine hI.ite (hI.ite (hI.setCq (hI.setReg hs)) (hI.setReg hs)) ?_
  refine hI.ite (hI.setCq (hI.setReg hs)) ?_
  refine hI.setCq (hI.setReg ?_)
  refine hI.ite ?_ hs
  split
  · exact hI.modObj hs
  · exact hs

theorem Stable.stopQueue {h q : Nat} (hI : Stable I) (hs : I s) : I (s.stopQueue h q) := by
  unfold State.stopQueue
  refine hI.setCq (hI.setReg (hI.killQueue ?_))
  refine hI.ite ?_ hs
  split
  · exact hI.modObj hs
  · exact hs

theorem Stable.stopsEnd {p : Nat → Bool} (hI : Stable I) (hs : I s) : I (s.stopsEnd p) := hI.foldl (fun _ _ hs => hI.set hs) hs

theorem Stable.doCqDisable {f h q : Nat} {v : W32} (hI : Stable I) (hs : I s) : I (doCqDisable f h q v s) :=
  hI.reach hs (fun hs => hI.ite (hI.settled (hI.startMoves (hI.setReg (hI.when (hI.stopQueue hs) fun hs => hI.setCq hs)))) (hI.setReg hs))

theorem Stable.doEqEnable {f h e : Nat} {v : W32} (hI : Stable I) (hs : I s) : I (doEqEnable f h e v s) :=
  hI.reach hs (fun hs => hI.ite (hI.setEq hs) (hI.ite (hI.settled (hI.coalesce (hI.releaseHeld (hI.setEq (hI.setReg hs)))))
    (hI.ite (hI.setEq (hI.setReg hs)) (hI.setEq (hI.setReg hs)))))

theorem Stable.commitDropping {h e : Nat} {f : InFlight} (hI : Stable I) (hs : I s) : I (s.commitDropping h e f) :=
  hI.unless (hI.setHoop (hI.commitFlight hs)) fun hs => hI.addReg (hI.setEq hs)

theorem Stable.doEqDisable {f h e : Nat} {v : W32} (hI : Stable I) (hs : I s) : I (doEqDisable f h e v s) :=
  hI.reach hs (fun hs => hI.settled (hI.foldl (fun _ _ hs => hI.commitDropping hs) (hI.setEq (hI.setReg (hI.addReg hs)))))

theorem Stable.doEqDbHead {f h e : Nat} {v : W32} (hI : Stable I) (hs : I s) : I (doEqDbHead f h e v s) :=
  hI.doorbell hs (fun hs => hI.ite (hI.settled (hI.releaseHeld (hI.setEq hs))) (hI.setEq hs))

theorem Stable.doEqDbArm {f h e : Nat} {v : W32} (hI : Stable I) (hs : I s) : I (doEqDbArm f h e v s) :=
  hI.doorbell hs (fun hs => hI.ite (hI.coalesce (hI.setEq hs)) hs)

theorem Calm.doEqCoalesceExpiry {h e : Nat} (hI : Calm I) (hs : I s) : I (doEqCoalesceExpiry h e s) := hI.coalesce hs

/-! ### Object commands -/

theorem Calm.objResult {h res : Nat} (hI : Calm I) (hs : I s) : I (s.objResult h res) := hI.setReg hs

theorem Calm.objCmd {f h : Nat} {act : State → State} (hI : Calm I) (hs : I s) (hact : ∀ {s}, I s → I (act s)) : I (s.objCmd f h act) :=
  hI.command hs (fun hs => hI.ite (hact hs) hs)

theorem Stable.createNow {h : Nat} {o : Obj} (hI : Stable I) (hs : I s) : I (s.createNow h o) := by
  unfold State.createNow
  dsimp only
  split
  · exact hI.objResult hs
  · next hr => exact hI.startMoves (hI.objResult (hI.setReg (hI.setReg (hI.newObj hs hr))))

theorem Stable.doCreate {f h : Nat} (hI : Stable I) (hs : I s) : I (doCreate f h s) :=
  hI.objCmd hs (fun hs => hI.ite (hI.objResult hs) (hI.ite (hI.objResult hs)
    (hI.ite (hI.ite (hI.objResult hs) (hI.createNow hs)) (hI.ite (hI.objResult hs)
    (hI.ite (hI.objResult hs) (hI.ite (hI.createNow hs) (hI.startMoves (hI.askRoom (hI.addWait (hI.setReg hs))))))))))

theorem Calm.onHandle {f h : Nat} {act : Nat → State → State} (hI : Calm I) (hs : I s) (hact : ∀ {x0 s}, I s → I (act x0 s)) :
    I (s.onHandle f h act) := by
  unfold State.onHandle
  refine hI.objCmd hs fun hs => ?_
  split
  · exact hI.objResult hs
  · exact hact hs

theorem Stable.doDestroy {f h : Nat} (hI : Stable I) (hs : I s) : I (doDestroy f h s) :=
  hI.onHandle hs (fun hs => hI.ite (hI.objResult hs) (hI.ite (hI.objResult hs)
    (hI.ite (hI.objResult hs) (hI.startMoves (hI.objResult (hI.freeObj hs))))))

theorem Stable.doPin {f h : Nat} (hI : Stable I) (hs : I s) : I (doPin f h s) :=
  hI.onHandle hs (fun hs => hI.ite (hI.objResult hs) (hI.ite (hI.objResult hs) (hI.objResult (hI.modObj hs))))

theorem Stable.doUnpin {f h : Nat} (hI : Stable I) (hs : I s) : I (doUnpin f h s) :=
  hI.onHandle hs (fun hs => hI.startMoves (hI.objResult (hI.modObj hs)))

theorem Calm.doQuery {f h : Nat} (hI : Calm I) (hs : I s) : I (doQuery f h s) :=
  hI.onHandle hs (fun hs => hI.objResult (hI.setRegs hs))

theorem Stable.doOtEntriesWrite {f h : Nat} {v : W32} (hI : Stable I) (hs : I s) : I (doOtEntriesWrite f h v s) :=
  hI.reach hs (fun hs => hI.ite (hI.orReg hs) (hI.startMoves (hI.setReg hs)))

theorem Stable.doGuarWrite {f tier h : Nat} {v : W32} (hI : Stable I) (hs : I s) : I (doGuarWrite f tier h v s) :=
  hI.reach hs (fun hs => hI.ite hs (hI.ite (hI.orReg hs) (hI.startMoves (hI.setReg hs))))

theorem Stable.doRetiringRelease {h idx : Nat} (hI : Stable I) (hs : I s) : I (doRetiringRelease h idx s) := hI.startMoves (hI.set hs)

/-! ### Contexts -/

theorem Stable.takeCtx {c : Cmd} {es : List ShapeEntry} (hI : Stable I) (hs : I s) : I (s.takeCtx c es).1 := by
  unfold State.takeCtx
  refine hI.setCtx (hI.foldlFst (fun _ _ hs => hI.iteFst ?_ ?_) hs)
  · split
    · exact hI.pair (hI.modObj hs)
    · exact hs
  · split
    · next hr => exact hI.pair (hI.newObj hs hr)
    · exact hs

theorem Stable.openDone {c : Cmd} {i : Nat} (hI : Stable I) (hs : I s) : I (s.openDone c i) := hI.beginCmd (hI.fresh (hI.setCtx hs))

theorem Stable.doContextOpen {h q : Nat} (hI : Stable I) (hs : I s) : I (doContextOpen h q s) := by
  unfold Machine.doContextOpen
  split
  · exact hs
  · split
    · exact hI.ite (hI.settled (hI.openDone hs)) hs
    · exact hI.ite (hI.settled (hI.endCmd hs)) (hI.ite (hI.settled (hI.openDone (hI.takeCtx hs))) (hI.settled (hI.setCtx (hI.takeCtx hs))))

theorem Stable.doContextClose {h q : Nat} (hI : Stable I) (hs : I s) : I (doContextClose h q s) := by
  unfold Machine.doContextClose
  split
  · exact hs
  · exact hI.ite (hI.settled (hI.endGone hs)) (hI.settled (hI.setCtx (hI.beginCmd (hI.fresh hs))))

theorem Stable.takeEntry {i : Nat} {classB : Bool} (hI : Stable I) (hs : I s) : I (s.takeEntry i classB) := by
  unfold State.takeEntry
  refine hI.ite hs ?_
  refine hI.ite (hI.setCtx hs) ?_
  split
  · exact hI.setCtx (hI.addReg (hI.setCtx hs))
  · exact hs

theorem Calm.refuseSpill {i : Nat} (hI : Calm I) (hs : I s) : I (s.refuseSpill i) :=
  hI.when (hI.addReg (hI.addReg hs)) fun hs => hI.foldl (fun _ _ hs => hI.countRefusal hs) hs

theorem Stable.spillCtx {i payer : Nat} {ctx : Option Nat} (hI : Stable I) (hs : I s) : I (s.spillCtx i payer ctx) :=
  hI.foldl (fun _ _ hs => hI.tryStart hs) (hI.foldl (fun _ _ hs => hI.set (hI.fresh hs)) (hI.setCtx hs))

theorem Stable.spillFor {i n : Nat} {classB : Bool} {l : List Nat} (hI : Stable I) (hs : I s) : I (s.spillFor i classB n l).1 := by
  induction n generalizing s l with
  | zero => exact hs
  | succ n ih =>
    unfold State.spillFor
    refine hI.iteFst hs ?_
    split
    · exact hs
    · exact hI.iteFst (ih (hI.spillCtx hs)) (ih hs)

theorem Stable.refuseSpills {i : Nat} {l : List Nat} (hI : Stable I) (hs : I s) : I (s.refuseSpills i l) :=
  hI.foldl (fun _ _ hs => hI.refusedFor (hI.refuseSpill hs)) hs

theorem Stable.restoreCtx {i : Nat} (hI : Stable I) (hs : I s) : I (s.restoreCtx i) :=
  hI.settled (hI.foldl (fun _ _ hs => hI.tryStart (hI.set (hI.fresh hs))) (hI.setCtx hs))

theorem Stable.tryRestore {i : Nat} {classB : Bool} (hI : Stable I) (hs : I s) : I (s.tryRestore i classB).1 := by
  unfold State.tryRestore
  refine hI.iteFst (hI.noteCauses hs) (hI.iteFst (hI.noteCauses hs) ?_)
  extract_lets s1 r s2
  have h2 : I s2 := hI.refuseSpills (hI.spillFor (hI.takeEntry hs))
  exact hI.iteFst (hI.pair (hI.restoreCtx h2)) (hI.pair (hI.noteCauses h2))

theorem Stable.tryAsked {i : Nat} (hI : Stable I) (hs : I s) : I (s.tryAsked i).1 := by
  unfold State.tryAsked
  extract_lets s1 r
  have hr : I r.1 := hI.spillFor (hI.takeEntry hs)
  exact hI.iteFst (hI.pair (hI.restoreCtx (hI.refuseSpills hr))) (hI.pair (hI.refuseSpills hs))

theorem Stable.nextVictims {i : Nat} (hI : Stable I) (hs : I s) : I (s.nextVictims i) := hI.ite (hI.refuseSpills (hI.spillFor hs)) hs

theorem Stable.resumeAsk {i : Nat} (hI : Stable I) (hs : I s) : I (s.resumeAsk i) :=
  hI.ite hs (hI.ite (hI.settled (hI.spillCtx hs)) (hI.ite (hI.unless (hI.tryAsked hs) fun hs => hI.setReg (hI.setCtx hs)) hs))

theorem Stable.doRestoreStart {h : Nat} (hI : Stable I) (hs : I s) : I (doRestoreStart h s) :=
  hI.ite hs (hI.unless (hI.foldl (fun _ _ hs => hI.resumeAsk hs) (hI.foldl (fun _ _ hs => hI.nextVictims hs) hs)) fun hs => hI.foldlFst
    (fun _ _ hs => hI.iteFst hs (hI.tryRestore hs)) hs)

theorem Stable.doCtxQuantumElapsed {i : Nat} (hI : Stable I) (hs : I s) : I (doCtxQuantumElapsed i s) :=
  hI.ite (hI.foldl (fun _ _ hs => hI.doRestoreStart hs) hs) hs

theorem Stable.doResidencyStarved {i : Nat} (hI : Stable I) (hs : I s) : I (doResidencyStarved i s) := by
  unfold Machine.doResidencyStarved
  dsimp only
  split
  · exact hs
  · exact hI.ite hs (hI.post (hI.addReg (hI.setCtx hs)))

theorem Calm.ctxResult {h res : Nat} (hI : Calm I) (hs : I s) : I (s.ctxResult h res) := hI.setReg hs

theorem Calm.ctxCmd {f h : Nat} {act : State → State} (hI : Calm I) (hs : I s) (hact : ∀ {s}, I s → I (act s)) : I (s.ctxCmd f h act) :=
  hI.command hs (fun hs => hI.ite (hact hs) hs)

theorem Calm.onCtx {f h : Nat} {act : Nat → State → State} (hI : Calm I) (hs : I s) (hact : ∀ {x0 s}, I s → I (act x0 s)) :
    I (s.onCtx f h act) :=
  hI.ctxCmd hs (fun hs => hI.ite (hact hs) (hI.ctxResult hs))

theorem Calm.doCtxQuery {f h : Nat} (hI : Calm I) (hs : I s) : I (doCtxQuery f h s) :=
  hI.onCtx hs (fun hs => hI.ctxResult (hI.setRegs hs))

theorem Stable.askRestore {h i ask : Nat} (hI : Stable I) (hs : I s) : I (s.askRestore h i ask) :=
  hI.ite (hI.setReg (hI.setCtx hs)) (hI.unless (hI.tryAsked (hI.setReg (hI.setCtx hs))) fun hs => hI.ctxResult (hI.setCtx hs))

theorem Stable.doCtxPin {f h : Nat} (hI : Stable I) (hs : I s) : I (doCtxPin f h s) :=
  hI.onCtx hs (fun hs => hI.ite (hI.ctxResult hs) (hI.ite (hI.ctxResult (hI.setCtx hs)) (hI.askRestore hs)))

theorem Stable.doCtxUnpin {f h : Nat} (hI : Stable I) (hs : I s) : I (doCtxUnpin f h s) :=
  hI.onCtx hs (fun hs => hI.ctxResult (hI.setCtx hs))

theorem Stable.doCtxRestore {f h : Nat} (hI : Stable I) (hs : I s) : I (doCtxRestore f h s) :=
  hI.onCtx hs (fun hs => hI.ite (hI.ctxResult hs) (hI.askRestore hs))

theorem Stable.doPark {f h : Nat} (hI : Stable I) (hs : I s) : I (doPark f h s) :=
  hI.onCtx hs (fun hs => hI.ite (hI.ctxResult hs) (hI.ite (hI.ctxResult hs)
    (hI.ite (hI.ctxResult (hI.setCtx hs)) (hI.ite (hI.ctxResult (hI.refuseSpill hs))
    (hI.ite (hI.setReg (hI.setCtx hs)) (hI.settled (hI.setReg (hI.spillCtx (hI.setCtx hs)))))))))

theorem Calm.doCtxList {f h : Nat} (hI : Calm I) (hs : I s) : I (doCtxList f h s) :=
  hI.ctxCmd hs (fun hs => hI.ctxResult (hI.setReg hs))

theorem Calm.doActGuarWrite {f h : Nat} {v : W32} (hI : Calm I) (hs : I s) : I (doActGuarWrite f h v s) :=
  hI.reach hs (fun hs => hI.ite (hI.orReg hs) (hI.setReg hs))

/-! ### Moves -/

theorem Stable.drawMove {m : Move} {i rd wr : Nat} (hI : Stable I) (hs : I s) : I (s.drawMove m i rd wr) := by
  unfold State.drawMove
  extract_lets _ _ s1 s2
  have hs1 : I s1 := hI.transfer (hI.transfer hs)
  have hs2 : I s2 := hI.set hs1
  exact hI.ite (hI.hostWrite hs2) (hI.hostRead hs2)

theorem Stable.doMove {h q : Nat} {host : List Byte} (hI : Stable I) (hs : I s) : I (doMove h q host s) := by
  unfold Machine.doMove
  split
  · exact hs
  · refine hI.ite (hI.settled (hI.endGone hs)) ?_
    refine hI.ite (hI.settled (hI.endCmd hs)) ?_
    split
    · exact hs
    · refine hI.ite (hI.settled (hI.startMoves (hI.set (hI.beginCmd (hI.fresh hs))))) ?_
      refine hI.ite (hI.settled (hI.beginCmd (hI.fresh hs))) ?_
      split
      · exact hI.settled (hI.endCmd hs)
      · exact hI.settled (hI.startMoves (hI.set (hI.beginCmd (hI.fresh hs))))

theorem Stable.doRunPatternArmOnly {h q : Nat} (hI : Stable I) (hs : I s) : I (doRunPatternArmOnly h q s) := by
  unfold Machine.doRunPatternArmOnly
  split
  · exact hs
  · refine hI.ite hs ?_
    refine hI.ite (hI.settled (hI.endGone hs)) ?_
    split
    · exact hI.settled (hI.endCmd hs)
    · exact hI.ite hs (hI.ite (hI.settled (hI.endCmd hs)) (hI.ite (hI.settled (hI.endCmd hs))
        (hI.settled (hI.prefetch (hI.beginCmd (hI.fresh hs))))))

theorem Stable.moveDone {m : Move} (hI : Stable I) (hs : I s) : I (s.moveDone m) := by
  unfold State.moveDone
  split
  · exact hI.set hs
  · exact hI.startMoves (hI.moveCommit hs)

theorem Stable.rangeDone {id i : Nat} {host : List Byte} (hI : Stable I) (hs : I s) : I (s.rangeDone id i host) := by
  unfold State.rangeDone
  extract_lets s1 s2
  have hs1 : I s1 := hI.set hs
  have hs2 : I s2 := hI.foldl (fun _ _ hs => hI.giveRanges hs) hs1
  split
  · exact hI.ite (hI.settled (hI.moveDone hs2)) hs2
  · exact hs2

theorem Stable.doShuttleRangeDone {u cyc : Nat} {host : List Byte} (hI : Stable I) (hs : I s) : I (doShuttleRangeDone u cyc host s) := by
  unfold Machine.doShuttleRangeDone
  split
  · exact hs
  · exact hI.unless (hI.ite hs (hI.drawMove hs)) fun hs => hI.rangeDone (hI.addReg (hI.addPieces (hI.addReg hs)))

theorem Stable.doCodecRangeDone {u cyc stall : Nat} {host : List Byte} (hI : Stable I) (hs : I s) :
    I (doCodecRangeDone u cyc stall host s) := by
  unfold Machine.doCodecRangeDone
  split
  · exact hs
  · refine hI.unless (hI.unless (hI.ite (hI.set hs) hs) fun hs => hI.drawMove hs) fun hs => ?_
    extract_lets s1 s2 s3 s4 s5 s6
    have hs1 : I s1 := hI.addPieces (hI.addPieces hs)
    have hs2 : I s2 := hI.addReg (hI.addReg (hI.addReg hs1))
    have hs3 : I s3 := hI.addReg (hI.addReg (hI.addReg hs2))
    have hs4 : I s4 := hI.addReg (hI.addReg hs3)
    have hs5 : I s5 := hI.setReg (hI.setReg hs4)
    have hs6 : I s6 := by
      dsimp only [s6]
      split
      · exact hI.addReg (hI.addPieces (hI.addReg hs5))
      · exact hs5
    exact hI.rangeDone hs6

/-! ### Patterns -/

theorem Stable.walkBegin {id l : Nat} (hI : Stable I) (hs : I s) : I (s.walkBegin id l) := by
  unfold State.walkBegin
  split
  · exact hs
  · refine hI.foldl (fun _ _ hs => ?_) (hI.set hs)
    split
    · exact hs
    · exact hI.ite (hI.unless (hI.issueMove (hI.set hs)) fun hs => hI.addReg hs) hs

theorem Stable.walkEnd {id l : Nat} (hI : Stable I) (hs : I s) : I (s.walkEnd id l) := by
  unfold State.walkEnd
  split
  · exact hs
  · refine hI.foldl (fun _ _ hs => ?_) hs
    split
    · exact hs
    · exact hI.ite (hI.unless (hI.issueMove hs) fun hs => hI.addReg hs) hs

theorem Stable.reserve {c : Cmd} {needs : List (Nat × Nat × Nat)} (hI : Stable I) (hs : I s) : I (s.reserve c needs).1 :=
  hI.foldlFst (fun _ _ hs => hI.iteFst hs (hI.iteFst (hI.set (hI.endWait hs)) (hI.when (hI.waitRoom hs) fun hs => hI.setCq hs)))
    (hI.ite hs (hI.set hs))

theorem Stable.finish {id : Nat} (hI : Stable I) (hs : I s) : I (s.finish id) := by
  unfold State.finish
  split
  · exact hs
  · exact hI.ite (hI.settled (hI.setFlight hs)) hs

theorem Stable.beginPattern {c : Cmd} (hI : Stable I) (hs : I s) : I (s.beginPattern c) := by
  unfold State.beginPattern
  split
  · exact hI.settled (hI.endCmd hs)
  · refine hI.ite hs ?_
    refine hI.ite hs ?_
    refine hI.ite (hI.settled (hI.endGone hs)) ?_
    refine hI.ite (hI.settled (hI.endCmd hs)) ?_
    refine hI.ite (hI.settled (hI.endCmd hs)) ?_
    split
    · exact hI.settled (hI.addReg (hI.endCmd hs))
    · split
      · exact hI.settled (hI.endCmd hs)
      · split
        · exact hI.settled (hI.endCmd hs)
        · refine hI.ite (hI.settled (hI.endCmd hs)) ?_
          refine hI.ite hs ?_
          refine hI.ite hs ?_
          split
          · exact hI.settled (hI.endCmd hs)
          · exact hI.ite (hI.settled (hI.endCmd hs)) (hI.ite hs (hI.ite (hI.settled hs)
              (hI.ite hs (hI.ite hs (hI.ite (hI.startMoves (hI.reserve hs))
              (hI.unless (hI.meetBudget (hI.reserve hs)) fun hs => hI.finish
              (hI.settled (hI.startMoves (hI.unless (hI.beginCmd (hI.set (hI.fresh hs))) fun hs => hI.ite (hI.addReg hs)
              (hI.walkBegin (hI.set hs)))))))))))

theorem Stable.doRunPattern {h q : Nat} (hI : Stable I) (hs : I s) : I (doRunPattern h q s) := by
  unfold Machine.doRunPattern
  split
  · exact hI.ite hs (hI.beginPattern hs)
  · exact hs

theorem Calm.passTurn {n h fuel : Nat} (hI : Calm I) (hs : I s) : I (s.passTurn n h fuel) := by
  induction fuel generalizing s h with
  | zero => exact hs
  | succ fuel ih => exact hI.ite (ih hs) (hI.ite (ih (hI.setTurn hs)) (hI.setReg (hI.setTurn hs)))

theorem Calm.openTurn {n : Nat} (hI : Calm I) (hs : I s) : I (s.openTurn n) := hI.ite (hI.passTurn hs) hs

theorem Calm.doTurnEnd {n : Nat} (hI : Calm I) (hs : I s) : I (doTurnEnd n s) := hI.ite hs (hI.openTurn (hI.setReg (hI.setTurn hs)))

theorem Calm.portBytes {core tier loc n : Nat} {write : Bool} (hI : Calm I) (hs : I s) : I (s.portBytes core tier loc n write) :=
  hI.ite hs (hI.addPieces hs)

theorem Calm.stepTraffic {f : InFlight} {core k idx : Nat} {t : Step} {x : StepOut} (hI : Calm I) (hs : I s) :
    I (s.stepTraffic f core k idx t x) := by
  unfold State.stepTraffic
  extract_lets own s1 s2 s3
  have h1 : I s1 := hI.foldl (fun _ _ hs => hI.transfer (hI.portBytes hs)) hs
  have h2 : I s2 := by
    refine hI.ite h1 (hI.foldl (fun _ _ hs => ?_) h1)
    dsimp only
    split
    · exact hs
    · exact hI.transfer (hI.portBytes hs)
  have h3 : I s3 := by
    refine hI.foldl (fun _ _ hs => hI.ite (hI.portBytes hs) ?_) h2
    split
    · exact hs
    · exact hI.portBytes hs
  exact hI.foldl (fun _ _ hs => hI.portBytes hs) h3

theorem Stable.startStep {f : InFlight} {k : Nat} {t : Step} (hI : Stable I) (hs : I s) : I (s.startStep f k t) :=
  hI.unless (hI.awake (hI.setFlight hs)) fun hs => hI.walkBegin hs

theorem Stable.runStep {core : Nat} {op : Nat → Bool} {act : StepRun → Except StepErr StepOut} (hI : Stable I) (hs : I s) :
    I (s.runStep core op act) := by
  unfold State.runStep
  refine hI.unless (hI.openTurn hs) fun hs => ?_
  split
  · exact hs
  · split
    · exact hs
    · refine hI.unless hs fun hs => ?_
      dsimp only
      split
      · exact hI.settled (hI.setFlight (hI.when hs fun hs => hI.addReg hs))
      · exact hI.startStep (hI.stepTraffic (hI.addReg (hI.addReg hs)))

theorem Stable.countStep {core slots vec bank stage knot port : Nat} {f : InFlight} {k : Nat} (hI : Stable I) (hs : I s) :
    I (s.countStep core slots vec bank stage knot port f k) :=
  hI.when (hI.addReg (hI.addReg (hI.addReg (hI.addReg (hI.addReg (hI.addReg (hI.addReg (hI.setFlight hs)))))))) fun hs => hI.setTurn hs

theorem Stable.afterStep {id done upto : Nat} (hI : Stable I) (hs : I s) : I (s.afterStep id done upto) :=
  hI.finish (hI.foldl (fun _ _ hs => hI.walkEnd hs) hs)

theorem Stable.endStep {core slots vec bank stage knot port : Nat} {mid : State → State} (hI : Stable I) (hs : I s)
    (hmid : ∀ {s}, I s → I (mid s)) : I (s.endStep core slots vec bank stage knot port mid) := by
  unfold State.endStep
  split
  · exact hs
  · split
    · exact hs
    · exact hI.afterStep (hmid (hI.countStep hs))

theorem Stable.doStepComplete {core slots vec bank stage knot port : Nat} (hI : Stable I) (hs : I s) :
    I (doStepComplete core slots vec bank stage knot port s) :=
  hI.ite hs (hI.startMoves (hI.endStep hs (fun hs => hs)))

theorem Stable.doGemm {core : Nat} (hI : Stable I) (hs : I s) : I (doGemm core s) := hI.runStep hs

theorem Stable.doVector {core : Nat} (hI : Stable I) (hs : I s) : I (doVector core s) := hI.runStep hs

theorem Stable.doConv {core : Nat} (hI : Stable I) (hs : I s) : I (doConv core s) := hI.runStep hs

theorem Stable.doDwconv {core : Nat} (hI : Stable I) (hs : I s) : I (doDwconv core s) := hI.runStep hs

theorem Stable.doPool {core : Nat} (hI : Stable I) (hs : I s) : I (doPool core s) := hI.runStep hs

theorem Stable.doResize {core : Nat} (hI : Stable I) (hs : I s) : I (doResize core s) := hI.runStep hs

theorem Stable.doArgmax {core : Nat} (hI : Stable I) (hs : I s) : I (doArgmax core s) := hI.runStep hs

theorem Stable.doBoxdec {core : Nat} (hI : Stable I) (hs : I s) : I (doBoxdec core s) := hI.runStep hs

theorem Stable.doKvAppend {core : Nat} (hI : Stable I) (hs : I s) : I (doKvAppend core s) := hI.runStep hs

theorem Stable.doAttnFwd {core : Nat} (hI : Stable I) (hs : I s) : I (doAttnFwd core s) := hI.runStep hs

theorem Stable.doAttnBwd {core : Nat} (hI : Stable I) (hs : I s) : I (doAttnBwd core s) := hI.runStep hs

theorem Stable.doRecLinear {core : Nat} (hI : Stable I) (hs : I s) : I (doRecLinear core s) := hI.runStep hs

theorem Stable.doRecGru {core : Nat} (hI : Stable I) (hs : I s) : I (doRecGru core s) := hI.runStep hs

theorem Stable.doRecLstm {core : Nat} (hI : Stable I) (hs : I s) : I (doRecLstm core s) := hI.runStep hs

theorem Stable.stepAdd {f : InFlight} {k : Nat} {n : W32} (hI : Stable I) (hs : I s) : I (s.stepAdd f k n) :=
  hI.settled (hI.testWaits (hI.setKnot hs))

theorem Stable.doKnotWaitStep {core cyc : Nat} (hI : Stable I) (hs : I s) : I (doKnotWaitStep core cyc s) := by
  unfold Machine.doKnotWaitStep
  dsimp only
  split
  · exact hI.when (hI.runStep hs) fun hs => hI.endStep hs (fun hs => hs)
  · exact (hI.runStep hs)

theorem Stable.doKnotSignalStep {core : Nat} (hI : Stable I) (hs : I s) : I (doKnotSignalStep core s) := by
  unfold Machine.doKnotSignalStep
  dsimp only
  split
  · exact hI.when (hI.runStep hs) fun hs => hI.endStep (hI.setKnot hs) (fun hs => hI.settled (hI.testWaits hs))
  · exact (hI.runStep hs)

theorem Stable.doHaloPut {core : Nat} (hI : Stable I) (hs : I s) : I (doHaloPut core s) := by
  unfold Machine.doHaloPut
  refine hI.ite hs ?_
  dsimp only
  split
  · exact hI.when (hI.runStep hs) fun hs => hI.stepAdd hs
  · exact (hI.runStep hs)

theorem Stable.doHaloGet {core : Nat} (hI : Stable I) (hs : I s) : I (doHaloGet core s) := by
  unfold Machine.doHaloGet
  refine hI.ite hs ?_
  dsimp only
  split
  · exact hI.when (hI.runStep hs) fun hs => hI.stepAdd hs
  · exact (hI.runStep hs)

/-! ### Scheduler -/

theorem Stable.doKnotWait {h q : Nat} (hI : Stable I) (hs : I s) : I (doKnotWait h q s) := by
  unfold Machine.doKnotWait
  split
  · exact hs
  · exact hI.ite (hI.settled (hI.addReg (hI.beginDone hs))) hs

theorem Stable.doKnotWaitTimeout {h q : Nat} (hI : Stable I) (hs : I s) : I (doKnotWaitTimeout h q s) := by
  unfold Machine.doKnotWaitTimeout
  split
  · exact hs
  · exact hI.ite hs (hI.settled (hI.addReg (hI.beginDone hs)))

theorem Stable.doKnotSignal {h q : Nat} (hI : Stable I) (hs : I s) : I (doKnotSignal h q s) := by
  unfold Machine.doKnotSignal
  split
  · exact hI.ite (hI.settled (hI.endCmd hs)) (hI.settled (hI.beginDone hs))
  · exact hs

theorem Calm.knotWindow {f h : Nat} {act : State → State} (hI : Calm I) (hs : I s) (hact : ∀ {s}, I s → I (act s)) :
    I (s.knotWindow f h act) :=
  hI.ite (hI.viewViolation hs) (hI.ite (hI.addReg hs) (hact hs))

theorem Stable.doKwAdd {f h k : Nat} {v : W32} (hI : Stable I) (hs : I s) : I (doKwAdd f h k v s) :=
  hI.knotWindow hs (fun hs => hI.settled (hI.knotOp hs))

theorem Stable.doKwReset {f h k : Nat} (hI : Stable I) (hs : I s) : I (doKwReset f h k s) :=
  hI.knotWindow hs (fun hs => hI.settled (hI.knotOp hs))

theorem Calm.chkResult {h res mask : Nat} (hI : Calm I) (hs : I s) : I (s.chkResult h res mask) := hI.setReg hs

theorem Calm.doChkOpen {f h : Nat} (hI : Calm I) (hs : I s) : I (doChkOpen f h s) :=
  hI.command hs (fun hs => hI.ite (hI.chkResult hs) (hI.ite (hI.chkResult hs)
    (hI.chkResult (hI.set (hI.foldl (fun _ _ hs => hI.setReg hs) hs)))))

theorem Calm.doChkClose {f h : Nat} (hI : Calm I) (hs : I s) : I (doChkClose f h s) := by
  unfold Machine.doChkClose
  refine hI.command hs fun hs => ?_
  refine hI.ite (hI.chkResult hs) ?_
  refine hI.ite (hI.chkResult hs) ?_
  extract_lets _ s1 s2
  have hs1 : I s1 := hI.foldl (fun _ _ hs => hI.setReg hs) hs
  have hs2 : I s2 := hI.set hs1
  exact hI.ite (hI.chkResult hs2) (hI.chkResult (hI.addReg hs2))

theorem Stable.doKdbgSet {f : Nat} {v : W32} (hI : Stable I) (hs : I s) : I (doKdbgSet f v s) :=
  hI.reach hs (fun hs => hI.ite (hI.addReg (hI.addReg (hI.set hs)))
    (hI.settled (hI.testWaits (hI.setKnot (hI.orReg (hI.orReg (hI.addReg (hI.set hs))))))))

theorem Calm.ownCluster {n : Nat} {v : W32} (hI : Calm I) (hs : I s) : I (s.ownCluster n v) :=
  hI.foldl (fun _ _ hs => hI.setReg hs) (hI.setReg hs)

theorem Calm.assignCluster {n : Nat} {v : W32} (hI : Calm I) (hs : I s) : I (s.assignCluster n v) :=
  hI.ite (hI.orReg hs) (hI.setReg (hI.setTurn (hI.when (hI.foldl (fun _ _ hs => hI.setReg (hI.setReg hs)) (hI.ownCluster (hI.setReg hs)))
    fun hs => hI.set hs)))

theorem Calm.doSchClusterWrite {f n : Nat} {v : W32} (hI : Calm I) (hs : I s) : I (doSchClusterWrite f n v s) :=
  hI.reach hs (fun hs => hI.assignCluster hs)

theorem Calm.doShareWrite {f n h : Nat} {v : W32} (hI : Calm I) (hs : I s) : I (doShareWrite f n h v s) :=
  hI.reach hs (fun hs => hI.setReg hs)

theorem Calm.doRegulatorWrite {f h r which : Nat} {v : W32} (hI : Calm I) (hs : I s) : I (doRegulatorWrite f h r which v s) :=
  hI.reach hs (fun hs => hI.setBucket (hI.setReg (hI.setBucket hs)))

theorem Calm.spendTurn {r h n : Nat} {left : ℤ} (hI : Calm I) (hs : I s) : I (s.spendTurn r h n left) := hI.set hs

theorem Stable.doTokenIssue {h r : Nat} (hI : Stable I) (hs : I s) : I (doTokenIssue h r s) := by
  unfold Machine.doTokenIssue
  extract_lets
  split
  · refine hI.ite ?_ hs
    extract_lets _ _ s1
    have hs1 : I s1 := hI.addReg (hI.setBucket (hI.spendTurn hs))
    split
    · exact hI.ite hs1 (hI.launchHeld hs1)
    · exact hs1
  · exact hs

theorem Calm.doClGbHashWrite {f n : Nat} {v : W32} (hI : Calm I) (hs : I s) : I (doClGbHashWrite f n v s) :=
  hI.reach hs (fun hs => hI.ite (hI.accessRefused hs) (hI.setReg hs))

theorem Calm.preResult {h res killed : Nat} (hI : Calm I) (hs : I s) : I (s.preResult h res killed) := hI.setReg hs

theorem Calm.preCmd {f h : Nat} {act : Nat → State → State} (hI : Calm I) (hs : I s) (hact : ∀ {x0 s}, I s → I (act x0 s)) :
    I (s.preCmd f h act) :=
  hI.command hs (fun hs => hI.ite hs (hI.ite (hI.preResult hs) (hact hs)))

theorem Stable.doPreempt {f h cyc : Nat} (hI : Stable I) (hs : I s) : I (doPreempt f h cyc s) :=
  hI.preCmd hs (fun hs => hI.settled (hI.startMoves (hI.preResult (hI.maxReg (hI.foldl (fun _ _ hs => hI.setCq (hI.killQueue hs)) hs)))))

theorem Stable.doRelease {f h : Nat} (hI : Stable I) (hs : I s) : I (doRelease f h s) :=
  hI.preCmd hs (fun hs => hI.preResult (hI.foldl (fun _ _ hs => hI.ite (hI.setCq hs) hs) hs))

theorem Calm.enterFenced {b : Blk} {i cause : Nat} (hI : Calm I) (hs : I s) : I (s.enterFenced b i cause) :=
  hI.enterState (hI.set (hI.setRegFld (hI.setRegFld (hI.setRegFld (hI.setRegFld hs)))))

theorem Calm.leaveFenced {b : Blk} {i : Nat} (hI : Calm I) (hs : I s) : I (s.leaveFenced b i) :=
  hI.enterState (hI.setRegFld (hI.setRegFld (hI.setRegFld hs)))

theorem Calm.refuseReturn {b : Blk} {i : Nat} (hI : Calm I) (hs : I s) : I (s.refuseReturn b i) := hI.setRegFld (hI.setRegFld hs)

theorem Calm.startDone {b : Blk} {i : Nat} (hI : Calm I) (hs : I s) : I (s.startDone b i) :=
  hI.ite hs (hI.ite (hI.enterState (hI.setRegFld hs)) (hI.enterState (hI.setRegFld hs)))

theorem Calm.startFail {b : Blk} {i : Nat} (hI : Calm I) (hs : I s) : I (s.startFail b i) := hI.ite hs (hI.raise (hI.enterFenced hs))

theorem Calm.stopDone {b : Blk} {i : Nat} (hI : Calm I) (hs : I s) : I (s.stopDone b i) :=
  hI.ite (hI.enterState hs) (hI.ite hs (hI.ite (hI.enterFenced hs) (hI.enterState hs)))

theorem Calm.enterStopping {b : Blk} {i : Nat} (hI : Calm I) (hs : I s) : I (s.enterStopping b i) := hI.enterState hs

theorem Stable.blockKill {p : InFlight → Bool} (hI : Stable I) (hs : I s) : I (s.blockKill p) :=
  hI.foldl (fun _ _ hs => hI.killQueue hs) hs

/-! ### Links -/

theorem Stable.setLk {n : Nat} {l : Link} (hI : Stable I) (hs : I s) : I (s.setLk n l) := hI.set hs

theorem Calm.setSession {p : Nat} {x : Session} (hI : Calm I) (hs : I s) : I (s.setSession p x) := hI.set hs

theorem Stable.newKey {n : Nat} (hI : Stable I) (hs : I s) : I (s.newKey n) :=
  hI.unless (hI.setReg (hI.setLk hs)) fun hs => hI.addReg hs

theorem Stable.carry {n : Nat} (hI : Stable I) (hs : I s) : I (s.carry n) :=
  hI.transmit (hI.setSession (hI.unless (hI.setLk hs) fun hs => hI.addReg hs))

theorem Stable.exchange {p : Nat} {d : Option Nat} (hI : Stable I) (hs : I s) : I (s.exchange p d) := hI.transmit (hI.setSession hs)

theorem Stable.lostLink {n : Nat} {mode : LinkMode} (hI : Stable I) (hs : I s) : I (s.lostLink n mode) := by
  unfold State.lostLink
  refine hI.unless (hI.setLk hs) fun hs => ?_
  split
  · exact hI.carry hs
  · exact hI.setSession hs

theorem Stable.retrain {n : Nat} (hI : Stable I) (hs : I s) : I (s.retrain n) := hI.addReg (hI.lostLink hs)

theorem Stable.linkStart {n : Nat} (hI : Stable I) (hs : I s) : I (linkStart n s) := hI.setLk hs

theorem Stable.linkStop {n : Nat} (hI : Stable I) (hs : I s) : I (linkStop n s) := hI.lostLink hs

theorem Stable.doLinkTrainingComplete {n lanes peer : Nat} {keyOk : Bool} (hI : Stable I) (hs : I s) :
    I (doLinkTrainingComplete n lanes peer keyOk s) := by
  unfold Machine.doLinkTrainingComplete
  refine hI.ite hs ?_
  refine hI.ite (hI.startDone (hI.setLk hs)) ?_
  refine hI.ite (hI.startFail (hI.setLk hs)) ?_
  refine hI.ite (hI.raise (hI.setLk hs)) ?_
  extract_lets s1 s2
  have hs1 : I s1 := hI.setLk hs
  have hs2 : I s2 := hI.startDone (hI.newKey hs1)
  exact hI.ite (hI.setLk hs2) (hI.ite hs2 (hI.carry hs2))

theorem Stable.doLinkDown {n : Nat} (hI : Stable I) (hs : I s) : I (doLinkDown n s) := hI.ite (hI.lostLink hs) hs

theorem Stable.doLinkRekey {n : Nat} (hI : Stable I) (hs : I s) : I (doLinkRekey n s) :=
  hI.ite (hI.addReg (hI.setReg (hI.setLk hs))) hs

theorem Stable.doLaneFault {n lane : Nat} (hI : Stable I) (hs : I s) : I (doLaneFault n lane s) :=
  hI.ite hs (hI.retrain (hI.setLk hs))

theorem Stable.linkAuth {n : Nat} (hI : Stable I) (hs : I s) : I (s.linkAuth n) := by
  unfold State.linkAuth
  extract_lets _ _ s1
  have hs1 : I s1 := hI.addReg (hI.raise (hI.setLk hs))
  exact hI.ite (hI.lostLink hs1) (hI.retrain hs1)

theorem Stable.checkMsg {n tag ctr : Nat} (hI : Stable I) (hs : I s) : I (s.checkMsg n tag ctr) :=
  hI.ite (hI.addReg (hI.raise hs)) (hI.ite (hI.linkAuth hs) (hI.setLk hs))

theorem Stable.replay {n f : Nat} (hI : Stable I) (hs : I s) : I (s.replay n f) :=
  hI.ite (hI.setLk hs) (hI.when (hI.addReg (hI.setLk hs)) fun hs => hI.retrain (hI.setLk hs))

theorem Stable.doNak {n f : Nat} (hI : Stable I) (hs : I s) : I (doNak n f s) := hI.ite (hI.replay hs) hs

theorem Stable.ackSession {p d : Nat} (hI : Stable I) (hs : I s) : I (s.ackSession p d) := hI.transmit (hI.setSession hs)

theorem Stable.doFlitReceived {n ftype : Nat} {crcOk : Bool} {fseq ack cls credits tag ctr : Nat} {delivered : Option W64} (hI : Stable I)
    (hs : I s) : I (doFlitReceived n ftype crcOk fseq ack cls credits tag ctr delivered s) := by
  unfold Machine.doFlitReceived
  refine hI.ite hs ?_
  refine hI.ite (hI.ite (hI.setLk hs) hs) ?_
  refine hI.ite (hI.setLk hs) ?_
  refine hI.unless ?_ fun hs => hI.ite (hI.replay hs) (hI.unless (hI.setLk hs) fun hs => hI.checkMsg hs)
  refine hI.ite (hI.exchange (hI.setLk hs)) ?_
  split
  · exact hI.ackSession (hI.setLk hs)
  · exact hI.transmit (hI.setLk hs)

theorem Stable.endRemote {p : Nat} (hI : Stable I) (hs : I s) : I (s.endRemote p) :=
  hI.foldl (fun _ _ hs => hI.ite (hI.endCmd hs) hs) hs

theorem Stable.endSignals {p : Nat} (hI : Stable I) (hs : I s) : I (s.endSignals p) :=
  hI.foldl (fun _ _ hs => hI.ite (hI.endCmd hs) hs) hs

theorem Stable.dropAnswer {r : Remote} (hI : Stable I) (hs : I s) : I (s.dropAnswer r) :=
  hI.when (hI.set hs) fun hs => hI.freeObj (hI.endWait hs)

theorem Stable.doPeerNewSession {p : Nat} (hI : Stable I) (hs : I s) : I (doPeerNewSession p s) := by
  unfold Machine.doPeerNewSession
  split
  · exact hs
  · exact hI.settled (hI.startMoves (hI.newKey (hI.setLk (hI.cancelDraws
      (hI.setSession (hI.foldl (fun _ _ hs => hI.dropAnswer hs) (hI.addReg (hI.endRemote hs))))))))

theorem Stable.doPeerUnreachableTimeout {p : Nat} (hI : Stable I) (hs : I s) : I (doPeerUnreachableTimeout p s) := by
  unfold Machine.doPeerUnreachableTimeout
  split
  · exact hI.ite (hI.settled (hI.startMoves (hI.endSignals (hI.endRemote hs)))) hs
  · exact hs

theorem Stable.refuse {p : Nat} {m : MsgHdr} {why : Nat} (hI : Stable I) (hs : I s) : I (s.refuse p m why) := hI.sendMsg hs

theorem Stable.receive {m : MsgHdr} {bytes : Nat} {request : Bool} {act bad : Machine.State → Nat → Machine.State} (hI : Stable I)
    (hs : I s) (hact : ∀ {s x1}, I s → I (act s x1)) (hbad : ∀ {s x1}, I s → I (bad s x1)) : I (s.receive m bytes request act bad) := by
  unfold State.receive
  refine hI.ite hs ?_
  refine hI.ite (hI.wake hs) ?_
  extract_lets s1 s2 s3
  have hs1 : I s1 := hI.wake hs
  have hs2 : I s2 := hI.addPieces (hI.setSession hs1)
  have hs3 : I s3 := hI.addReg hs2
  exact hI.ite (hact hs2) (hI.ite (hbad (hI.refuse hs3)) hs3)

theorem Calm.lateReply {m : MsgHdr} (hI : Calm I) (hs : I s) : I (s.lateReply m) := hI.addReg hs

theorem Stable.failRemote {r : Remote} {code : Nat} {det : BitVec 192} (hI : Stable I) (hs : I s) : I (s.failRemote r code det) := by
  unfold State.failRemote
  split
  · exact hI.settled (hI.startMoves (hI.endCmd hs))
  · exact hs

theorem Stable.openInbound {p : Nat} {m : MsgHdr} {handle kind size objSize : Nat} {compressed coded : Bool} (hI : Stable I) (hs : I s) :
    I (s.openInbound p m handle kind size objSize compressed coded) := by
  unfold State.openInbound
  refine hI.ite (hI.refuse hs) ?_
  split
  next hf =>
  have h1 := hI.fst hf (hI.fresh hs)
  split
  · exact hI.refuse h1
  · next hr => exact hI.settled (hI.startMoves (hI.set (hI.newObj h1 hr)))

theorem Stable.openLent {p : Nat} {m : MsgHdr} {handle param : Nat} {coded : Bool} (hI : Stable I) (hs : I s) :
    I (s.openLent p m handle param coded) := by
  unfold State.openLent
  split
  · exact hI.refuse hs
  · exact hI.ite (hI.refuse hs) (hI.ite (hI.refuse hs) (hI.ite (hI.sendMsg hs) (hI.startMoves (hI.set (hI.fresh hs)))))

theorem Stable.doMoveReq {m : MsgHdr} {ret : Bool} {handle kind size objSize param : Nat} {compressed coded : Bool} (hI : Stable I)
    (hs : I s) : I (doMoveReq m ret handle kind size objSize param compressed coded s) :=
  hI.receive hs (fun hs => hI.ite (hI.openLent hs) (hI.openInbound hs)) (fun hs => hs)

theorem Stable.doPullReq {m : MsgHdr} (hI : Stable I) (hs : I s) : I (doPullReq m s) := by
  unfold Machine.doPullReq
  refine hI.receive hs (fun hs => ?_) fun hs => ?_
  · split
    · exact hI.refuse hs
    · exact hI.ite (hI.setRemote hs) (hI.sendTiles hs)
  · split
    · exact hI.failRemote hs
    · exact hs

theorem Stable.takerReady {r : Remote} (hI : Stable I) (hs : I s) : I (s.takerReady r) := by
  unfold State.takerReady
  refine hI.ite hs ?_
  split
  · exact hI.ite (hI.failRemote (hI.addReg hs)) (hI.sendMsg (hI.addReg hs))
  · extract_lets s1 _ s2
    have hs1 : I s1 := hI.ite (hI.addReg (hI.addReg (hI.addPieces (hI.addPieces hs)))) hs
    have hs2 : I s2 := hI.setRemote hs1
    exact hI.ite (hI.sendMsg hs2) (hI.settled (hI.set hs2))

theorem Stable.doPullData {m : MsgHdr} {tile : Nat} {crc : W32} {bytes : List Byte} (hI : Stable I) (hs : I s) :
    I (doPullData m tile crc bytes s) := by
  unfold Machine.doPullData
  refine hI.receive hs (fun hs => ?_) (fun hs => hs)
  dsimp only
  split
  · exact hI.ite hs (hI.ite (hI.takerReady (hI.setRemote hs)) (hI.ite (hI.failRemote (hI.addReg hs)) (hI.sendMsg hs)))
  · split
    · exact hI.ite (hI.ite hs (hI.ite (hI.takerReady (hI.setRemote hs)) (hI.ite (hI.failRemote (hI.addReg hs)) (hI.sendMsg hs)))) hs
    · exact hI.lateReply hs

theorem Stable.doPrepared {m : MsgHdr} {handle code over_ under_ size : Nat} {compressed : Bool} (hI : Stable I) (hs : I s) :
    I (doPrepared m handle code over_ under_ size compressed s) := by
  unfold Machine.doPrepared
  refine hI.receive hs (fun hs => ?_) (fun hs => hs)
  split
  · exact hI.lateReply hs
  · exact hI.ite (hI.failRemote (hI.addReg hs)) (hI.ite (hI.failRemote hs)
      (hI.ite (hI.failRemote hs) (hI.ite (hI.settled (hI.set (hI.setRemote hs))) (hI.takerReady (hI.setRemote hs)))))

theorem Stable.doRefused {m : MsgHdr} {gone : Bool} (hI : Stable I) (hs : I s) : I (doRefused m gone s) := by
  unfold Machine.doRefused
  refine hI.receive hs (fun hs => ?_) (fun hs => hs)
  split
  · split
    · exact hI.settled (hI.startMoves (hI.dropAnswer hs))
    · exact hI.lateReply hs
  · exact hI.failRemote hs

theorem Stable.doCommitted {m : MsgHdr} (hI : Stable I) (hs : I s) : I (doCommitted m s) := by
  unfold Machine.doCommitted
  refine hI.receive hs (fun hs => ?_) (fun hs => hs)
  split
  · exact hs
  · exact hI.settled (hI.startMoves (hI.ite (hI.freeObj (hI.set hs)) (hI.modObj (hI.transfer (hI.set hs)))))

theorem Stable.doCancel {m : MsgHdr} (hI : Stable I) (hs : I s) : I (doCancel m s) := by
  unfold Machine.doCancel
  refine hI.receive hs (fun hs => ?_) (fun hs => hs)
  split
  · exact hs
  · exact hI.settled (hI.startMoves (hI.dropAnswer hs))

theorem Stable.doKnotSig {m : MsgHdr} {knot op : Nat} {v : W32} (hI : Stable I) (hs : I s) : I (doKnotSig m knot op v s) :=
  hI.receive hs (fun hs => hI.ite hs (hI.settled (hI.knotOp hs))) (fun hs => hs)

theorem Stable.doEventFwd {m : MsgHdr} {fwdEq : Nat} {line : Line} (hI : Stable I) (hs : I s) : I (doEventFwd m fwdEq line s) :=
  hI.receive hs (fun hs => hI.deliver (hI.setHoop hs)) (fun hs => hs)

theorem Calm.doLkPkgIdWrite {f v : Nat} (hI : Calm I) (hs : I s) : I (doLkPkgIdWrite f v s) :=
  hI.reach hs (fun hs => hI.ite (hI.setReg hs) (hI.accessRefused hs))

/-! ### Audio island -/

theorem Calm.setChan {c : Nat} {x : Chan} (hI : Calm I) (hs : I s) : I (s.setChan c x) := hI.set hs

theorem Calm.setGroup {g : Nat} {x : Machine.Group} (hI : Calm I) (hs : I s) : I (s.setGroup g x) := hI.set hs

theorem Calm.setDet {g d : Nat} {x : Det} (hI : Calm I) (hs : I s) : I (s.setDet g d x) := hI.set hs

theorem Calm.setModel {d : Nat} {x : Model} (hI : Calm I) (hs : I s) : I (s.setModel d x) := hI.set hs

theorem Calm.modRunning {c : Nat} {g : Frame → Frame} (hI : Calm I) (hs : I s) : I (s.modRunning c g) := by
  unfold State.modRunning
  dsimp only
  split
  · exact hI.ite (hI.setChan hs) hs
  · exact hs

theorem Calm.hushFrames (hI : Calm I) (hs : I s) : I s.hushFrames := hI.foldl (fun _ _ hs => hI.ite (hI.modRunning hs) hs) hs

theorem Calm.cutFrames {cs : List Nat} (hI : Calm I) (hs : I s) : I (s.cutFrames cs) := hI.foldl (fun _ _ hs => hI.modRunning hs) hs

theorem Calm.doPdmLineStuck {l : Nat} (hI : Calm I) (hs : I s) : I (doPdmLineStuck l s) :=
  hI.ite hs (hI.hushFrames (hI.addReg (hI.setRegFld hs)))

theorem Calm.doPdmLineRecover {l : Nat} (hI : Calm I) (hs : I s) : I (doPdmLineRecover l s) := hI.ite (hI.setRegFld hs) hs

theorem Calm.doTdmPortLost {p : Nat} {counts : Bool} (hI : Calm I) (hs : I s) : I (doTdmPortLost p counts s) :=
  hI.unless (hI.ite (hI.addReg hs) hs) fun hs => hI.hushFrames (hI.addReg (hI.setReg hs))

theorem Calm.doTdmPortLocked {p : Nat} (hI : Calm I) (hs : I s) : I (doTdmPortLocked p s) := hI.ite (hI.setReg hs) hs

theorem Calm.writeTdm {p : Nat} {v : W32} (hI : Calm I) (hs : I s) : I (s.writeTdm p v) :=
  hI.ite (hI.accessRefused hs) (hI.unless (hI.setReg hs) fun hs => hI.ite (hI.hushFrames (hI.addReg (hI.setReg hs)))
    (hI.hushFrames (hI.setReg hs)))

theorem Calm.doRingFrame {c : Nat} {words : List W32} (hI : Calm I) (hs : I s) : I (doRingFrame c words s) := by
  unfold Machine.doRingFrame
  extract_lets v
  refine hI.ite hs ?_
  split
  exact hI.addReg (hI.setChan hs)

theorem Calm.clearChans {cs : List Nat} (hI : Calm I) (hs : I s) : I (s.clearChans cs) :=
  hI.unless (hI.foldl (fun _ _ hs => hI.setChan hs) hs) fun hs => hI.set hs

theorem Calm.endRuns (hI : Calm I) (hs : I s) : I s.endRuns := hI.set (hI.cutFrames hs)

theorem Calm.writeIsl {v : W32} (hI : Calm I) (hs : I s) : I (s.writeIsl v) := hI.unless (hI.setReg hs) fun hs => hI.endRuns hs

theorem Calm.doRingClearComplete (hI : Calm I) (hs : I s) : I (doRingClearComplete s) := hI.set hs

theorem Calm.doRingNchWrite {f : Nat} {v : W32} (hI : Calm I) (hs : I s) : I (doRingNchWrite f v s) :=
  hI.reach hs (fun hs => hI.ite (hI.accessRefused hs) (hI.clearChans (hI.setReg (hI.setReg hs))))

theorem Calm.doRchWrite {f c : Nat} {v : W32} (hI : Calm I) (hs : I s) : I (doRchWrite f c v s) :=
  hI.reach hs (fun hs => hI.ite (hI.accessRefused hs) (hI.when (hI.setReg hs) fun hs => hI.setChan hs))

theorem Calm.storeGrp {g : Nat} {v : W32} (hI : Calm I) (hs : I s) : I (s.storeGrp g v) :=
  hI.ite (hI.accessRefused hs) (hI.ite (hI.cutFrames (hI.setReg hs))
    (hI.ite (hI.setReg hs) (hI.ite (hI.setGroup (hI.foldl (fun _ _ hs => hI.setDet hs)
    (hI.foldl (fun _ _ hs => hI.setChan hs) (hI.setReg hs)))) (hI.orReg (hI.setReg hs)))))

theorem Stable.makeSegment {c : Cmd} {slot : Nat} (hI : Stable I) (hs : I s) : I (s.makeSegment c slot) := by
  unfold State.makeSegment
  refine hI.ite hs ?_
  split
  · exact hI.settled (hI.endCmd hs)
  · refine hI.ite hs ?_
    split
    refine hI.ite ?_ (hI.waitRoom hs)
    split
    · exact hs
    · next hr => exact hI.addReg (hI.setCq (hI.endWait (hI.newObj hs hr)))

theorem Stable.doSegmentReady {h q slot : Nat} (hI : Stable I) (hs : I s) : I (doSegmentReady h q slot s) := by
  unfold Machine.doSegmentReady
  split
  · exact hs
  · exact hI.ite (hI.settled (hI.startMoves (hI.makeSegment hs))) hs

theorem Calm.modelResult {r : Nat} (hI : Calm I) (hs : I s) : I (s.modelResult r) := hI.setReg hs

theorem Calm.modelTurn {d : Nat} (hI : Calm I) (hs : I s) : I (s.modelTurn d) := hI.ite hs (hI.modelResult (hI.setModel hs))

theorem Calm.writeGrp {g : Nat} {v : W32} (hI : Calm I) (hs : I s) : I (s.writeGrp g v) :=
  hI.foldl (fun _ _ hs => hI.modelTurn hs) (hI.storeGrp hs)

theorem Calm.doGroupEnable {f g : Nat} {v : W32} (hI : Calm I) (hs : I s) : I (doGroupEnable f g v s) :=
  hI.reach hs (fun hs => hI.writeGrp hs)

theorem Calm.modelCmd {f : Nat} {act : Nat → State → State} (hI : Calm I) (hs : I s) (hact : ∀ {x0 s}, I s → I (act x0 s)) :
    I (s.modelCmd f act) :=
  hI.command hs (fun hs => hI.ite hs (hI.ite (hI.modelResult hs) (hact hs)))

theorem Calm.doModelLoad {f : Nat} (hI : Calm I) (hs : I s) : I (doModelLoad f s) := by
  unfold Machine.doModelLoad
  refine hI.modelCmd hs fun hs => ?_
  refine hI.ite (hI.modelResult hs) ?_
  split
  · exact hI.modelResult hs
  · exact hI.ite (hI.modelResult hs) (hI.ite (hI.modelResult hs) (hI.modelTurn (hI.setModel (hI.setReg hs))))

theorem Calm.doModelUnload {f : Nat} (hI : Calm I) (hs : I s) : I (doModelUnload f s) :=
  hI.modelCmd hs (fun hs => hI.modelTurn (hI.setModel (hI.setReg hs)))

theorem Stable.crossing {g d level : Nat} {score : W32} {mark : Nat} {ctrl : W32} (hI : Stable I) (hs : I s) :
    I (s.crossing g d level score mark ctrl) :=
  hI.ite (hI.offer (hI.addReg hs)) (hI.when (hI.when (hI.set (hI.addReg hs)) fun hs => hI.addReg hs) fun hs => hI.wake (hI.set hs))

theorem Stable.hopDet {g d : Nat} (hI : Stable I) (hs : I s) : I (s.hopDet g d) :=
  hI.ite (hI.when (hI.setDet hs) fun hs => hI.setDet hs) (hI.unless (hI.when (hI.setDet hs) fun hs => hI.crossing hs) fun hs => hI.ite
    (hI.setDet (hI.crossing hs)) (hI.setDet hs))

theorem Stable.doDetectorHop {g : Nat} {chans : List (List (BitVec 16))} (hI : Stable I) (hs : I s) : I (doDetectorHop g chans s) :=
  hI.ite hs (hI.foldl (fun _ _ hs => hI.hopDet hs) (hI.setGroup (hI.foldl (fun _ _ hs => hI.modelTurn (hI.setModel hs)) hs)))

theorem Calm.deafen (hI : Calm I) (hs : I s) : I s.deafen := hI.set hs

theorem Calm.doHwMuteAssert (hI : Calm I) (hs : I s) : I (doHwMuteAssert s) :=
  hI.ite hs (hI.ite (hI.addReg (hI.set hs)) (hI.setReg (hI.setReg (hI.addReg (hI.set (hI.deafen (hI.clearChans (hI.set hs))))))))

theorem Calm.doHwMuteRelease (hI : Calm I) (hs : I s) : I (doHwMuteRelease s) := hI.ite (hI.set hs) hs

theorem Calm.doIslSwMuteWrite {f : Nat} {v : W32} (hI : Calm I) (hs : I s) : I (doIslSwMuteWrite f v s) :=
  hI.reach hs (fun hs => hI.hushFrames (hI.setReg hs))

theorem Calm.doIslClear {f : Nat} {v : W32} (hI : Calm I) (hs : I s) : I (doIslClear f v s) :=
  hI.reach hs (fun hs => hI.clearChans hs)

theorem Calm.islandReset (hI : Calm I) (hs : I s) : I (islandReset s) := hI.set hs

/-! ### Cameras -/

theorem Calm.setPipe {n : Nat} {x : Pipe} (hI : Calm I) (hs : I s) : I (s.setPipe n x) := hI.set hs

theorem Calm.camCtlReset {k : Nat} (hI : Calm I) (hs : I s) : I (s.camCtlReset k) := hI.set hs

theorem Stable.leaveRotation {k : Nat} (hI : Stable I) (hs : I s) : I (s.leaveRotation k) :=
  hI.unless (hI.modObj hs) fun hs => hI.ite (hI.set hs) (hI.freeObj hs)

theorem Stable.rotate {n idx k keep : Nat} (hI : Stable I) (hs : I s) : I (s.rotate n idx k keep) := by
  unfold State.rotate
  extract_lets _ _ _ s1 s2
  have hs1 : I s1 := hI.set hs
  have hs2 : I s2 := hI.foldl (fun _ _ hs => hI.leaveRotation hs) hs1
  exact hI.ite (hI.setReg (hI.setReg hs2)) (hI.setReg hs2)

theorem Stable.dropCam {n reason : Nat} (hI : Stable I) (hs : I s) : I (s.dropCam n reason) :=
  hI.setReg (hI.addReg (hI.setPipe (hI.set hs)))

theorem Stable.dropCurrent {n reason : Nat} (hI : Stable I) (hs : I s) : I (s.dropCurrent n reason) :=
  hI.setReg (hI.addReg (hI.setPipe (hI.set hs)))

theorem Stable.pinAll {keys : List Nat} (hI : Stable I) (hs : I s) : I (s.pinAll keys) := hI.foldl (fun _ _ hs => hI.modObj hs) hs

theorem Stable.unpinAll {keys : List Nat} (hI : Stable I) (hs : I s) : I (s.unpinAll keys) := hI.foldl (fun _ _ hs => hI.modObj hs) hs

theorem Stable.memDone {n res : Nat} (hI : Stable I) (hs : I s) : I (s.memDone n res) := hI.setReg (hI.setPipe (hI.unpinAll hs))

theorem Stable.pipeStop {n : Nat} (hI : Stable I) (hs : I s) : I (pipeStop n s) :=
  hI.when (hI.ite (hI.dropCam hs) hs) fun hs => hI.memDone hs

theorem Stable.unbind {n : Nat} (hI : Stable I) (hs : I s) : I (unbind n s) := hI.setReg (hI.setPipe (hI.pipeStop hs))

theorem Stable.camFence {n : Nat} (hI : Stable I) (hs : I s) : I (camFence n s) :=
  hI.foldl (fun _ _ hs => hI.unbind hs) (hI.unbind hs)

theorem Calm.header {p hdr : Nat} {act : State → State} (hI : Calm I) (hs : I s) (hact : ∀ {s}, I s → I (act s)) : I (s.header p hdr act) :=
  hI.ite hs (hI.ite (hI.addReg hs) (hact (hI.ite (hI.addReg hs) hs)))

theorem Calm.endCam {n : Nat} {f : CamFrame} {extra : Nat} (hI : Calm I) (hs : I s) : I (s.endCam n f extra) :=
  hI.when (hI.when (hI.setPipe hs) fun hs => hI.addReg (hI.raiseWith hs)) fun hs => hI.addReg (hI.raiseWith hs)

theorem Stable.applySet {n : Nat} (hI : Stable I) (hs : I s) : I (s.applySet n) := by
  unfold State.applySet
  dsimp only
  split
  · exact hs
  · exact hI.setPipe (hI.unpinAll hs)

theorem Stable.doCsiFrameStart {port vc hdr csi : Nat} (hI : Stable I) (hs : I s) : I (doCsiFrameStart port vc hdr csi s) := by
  unfold Machine.doCsiFrameStart
  refine hI.header hs fun hs => ?_
  split
  · exact hs
  · extract_lets s1 s2 _ s3
    have hs1 : I s1 := by
      dsimp only [s1]
      split
      · exact hI.endCam hs
      · exact hs
    have hs2 : I s2 := hI.applySet hs1
    have hs3 : I s3 := hI.setPipe hs2
    exact hI.ite hs1 (hI.ite (hI.dropCurrent hs3) (hI.ite (hI.dropCurrent (hI.askRoom hs3))
      (hI.ite (hI.dropCurrent hs3) (hI.noteOcc (hI.setPipe (hI.set (hI.fresh hs3)))))))

theorem Calm.packetSeen {n : Nat} (hI : Calm I) (hs : I s) : I (s.packetSeen n) := by
  unfold State.packetSeen
  split
  · exact hI.setPipe hs
  · exact hs

theorem Stable.doCsiLine {port vc hdr dt : Nat} {crcOk : Bool} {pixels : List (BitVec 16)} {occ : Nat} (hI : Stable I) (hs : I s) :
    I (doCsiLine port vc hdr dt crcOk pixels occ s) := by
  unfold Machine.doCsiLine
  refine hI.header hs fun hs => ?_
  extract_lets s1 s2
  have hs1 : I s1 := by
    dsimp only [s1]
    split
    · exact hI.packetSeen hs
    · exact hs
  have hs2 : I s2 := hI.ite hs1 (hI.addReg hs1)
  refine hI.ite ?_ ?_
  · split
    · exact hs2
    · split
      · exact hI.ite (hI.setPipe hs2) hs2
      · exact hs2
  · split
    · exact hI.addReg hs2
    · split
      · exact hs2
      · split
        · exact hs2
        · refine hI.ite (hI.addReg hs2) ?_
          refine hI.ite (hI.setPipe hs2) ?_
          extract_lets _ _ s3 _ _ _ _ _ _ _ _ s4
          have hs3 : I s3 := hI.ite (hI.maxReg hs2) hs2
          have hs4 : I s4 := hI.ite (hI.addReg hs3) hs3
          exact hI.ite (hI.dropCurrent (hI.raiseWith hs3)) (hI.setPipe hs4)

theorem Calm.doCsiFrameEnd {port vc hdr : Nat} (hI : Calm I) (hs : I s) : I (doCsiFrameEnd port vc hdr s) := by
  unfold Machine.doCsiFrameEnd
  refine hI.header hs fun hs => ?_
  split
  · exact hs
  · split
    · exact hI.endCam hs
    · exact hs

theorem Calm.doFrameTimeout {n : Nat} (hI : Calm I) (hs : I s) : I (doFrameTimeout n s) := by
  unfold Machine.doFrameTimeout
  split
  · exact hI.ite (hI.endCam hs) hs
  · exact hs

theorem Stable.askFrame {n : Nat} (hI : Stable I) (hs : I s) : I (s.askFrame n) := hI.ite hs (hI.askRoom hs)

theorem Calm.blanking {n : Nat} (hI : Calm I) (hs : I s) : I (s.blanking n) := hI.ite hs (hI.setPipe hs)

theorem Calm.frameTraffic {h : Nat} {keys : List (Nat × Nat)} (hI : Calm I) (hs : I s) : I (s.frameTraffic h keys) :=
  hI.foldl (fun _ _ hs => hI.transfer hs) hs

/-- The frames of a pipeline are new objects. -/
theorem Stable.makeFrames {n : Nat} {set : SMap W32} {outs : List FrameOut} {i : FrameInfo} {t : Stage} {x : Pictures} {pins : Nat}
    {r : State × List (Nat × Nat)} (hI : Stable I) (hs : I s) (hr : s.makeFrames n set outs i t x pins = some r) : I r.1 := by
  unfold State.makeFrames at hr
  refine List.foldlRecOn (motive := fun o => ∀ r, o = some r → I r.1) outs _ ?_ (fun o ho f _ r hr => ?_) r hr
  · rintro _ ⟨⟩
    exact hs
  · split at hr
    · exact nomatch hr
    · next hn =>
      dsimp only at hr
      split at hr
      · exact nomatch hr
      · next hn =>
        cases hr
        exact hI.newObj (ho _ rfl) hn

theorem Stable.doFrameCommit {n : Nat} (hI : Stable I) (hs : I s) : I (doFrameCommit n s) := by
  unfold Machine.doFrameCommit
  extract_lets x
  split
  · exact hs
  · extract_lets _ _ _ _ _ s1 s2
    have h2 : I s2 := hI.setPipe (hI.set hs)
    split
    · exact hI.setReg (hI.addReg (hI.setPipe h2))
    · next hr =>
      have h3 := hI.makeFrames h2 hr
      extract_lets s3 keep s4
      have h4 : I s4 := hI.foldl (fun _ _ hs => hI.rotate hs) (hI.frameTraffic h3)
      exact hI.settled (hI.startMoves (hI.blanking (hI.askFrame (hI.setReg (hI.addReg (hI.setPipe h4))))))

theorem Calm.pipeResult {n r : Nat} (hI : Calm I) (hs : I s) : I (s.pipeResult n r) := hI.setReg hs

theorem Stable.doBind {f n : Nat} (hI : Stable I) (hs : I s) : I (doBind f n s) :=
  hI.reach hs (fun hs => hI.unless (hI.pipeResult hs) fun hs => hI.askFrame (hI.setPipe (hI.setReg hs)))

theorem Stable.doUnbind {f n : Nat} (hI : Stable I) (hs : I s) : I (doUnbind f n s) :=
  hI.reach hs (fun hs => hI.pipeResult (hI.unbind hs))

theorem Stable.doMemRun {f n : Nat} (hI : Stable I) (hs : I s) : I (doMemRun f n s) := by
  unfold Machine.doMemRun
  refine hI.reach hs fun hs => ?_
  refine hI.ite (hI.pipeResult hs) ?_
  refine hI.ite hs ?_
  refine hI.ite (hI.pipeResult hs) ?_
  dsimp only
  split
  · exact hI.pipeResult hs
  · exact hI.ite (hI.pipeResult hs) (hI.pipeResult (hI.setReg (hI.noteOcc (hI.pinAll (hI.setPipe hs)))))

theorem Stable.doMemAbort {f n : Nat} (hI : Stable I) (hs : I s) : I (doMemAbort f n s) :=
  hI.reach hs (fun hs => hI.pipeResult (hI.ite (hI.memDone hs) hs))

theorem Stable.doMemJobCommit {n : Nat} (hI : Stable I) (hs : I s) : I (doMemJobCommit n s) := by
  unfold Machine.doMemJobCommit
  split
  · exact hs
  · refine hI.ite hs (hI.ite (hI.memDone (hI.addReg hs)) (hI.ite (hI.memDone (hI.askRoom hs)) ?_))
    dsimp only
    split
    · exact hI.memDone hs
    · next hr =>
      have h1 := hI.makeFrames hs hr
      exact hI.settled (hI.startMoves (hI.memDone (hI.setReg (hI.frameTraffic (hI.transfer (hI.foldl (fun _ _ hs => hI.setReg hs) h1))))))

theorem Stable.doPipeApply {f n : Nat} (hI : Stable I) (hs : I s) : I (doPipeApply f n s) :=
  hI.reach hs (fun hs => hI.ite (hI.setPipe (hI.pinAll (hI.unpinAll hs))) (hI.orReg hs))

theorem Stable.pipeReset {n : Nat} (hI : Stable I) (hs : I s) : I (pipeReset n s) :=
  hI.setPipe (hI.set (hI.foldl (fun _ _ hs => hI.foldl (fun _ _ hs => hI.leaveRotation hs) hs) (hI.unpinAll (hI.unbind hs))))

/-! ### Flash -/

theorem Calm.skEvaluate {n : Nat} (hI : Calm I) (hs : I s) : I (s.skEvaluate n) := hI.setSk hs

theorem Calm.blockRead {n b pages bits : Nat} (hI : Calm I) (hs : I s) : I (s.blockRead n b pages bits) := hI.skEvaluate (hI.setSk hs)

theorem Calm.countCodewords {n corr retry uncorr : Nat} (hI : Calm I) (hs : I s) : I (s.countCodewords n corr retry uncorr) :=
  hI.addReg (hI.addReg (hI.addReg hs))

theorem Stable.poison {k tile : Nat} (hI : Stable I) (hs : I s) : I (s.poison k tile) := hI.modObj hs

theorem Stable.tileFailed {c : Cmd} {k tile reason : Nat} (hI : Stable I) (hs : I s) : I (s.tileFailed c k tile reason) :=
  hI.endCmd (hI.addReg hs)

theorem Stable.moveTileFailed {m : Move} {tile : Nat} (hI : Stable I) (hs : I s) : I (s.moveTileFailed m tile) :=
  hI.ite (hI.set hs) (hI.moveFailed hs)

theorem Stable.doFlashPageRead {n b bits o0 o1 h idx tile : Nat} {consumer : Option (Nat × Nat)} (hI : Stable I) (hs : I s) :
    I (doFlashPageRead n b bits o0 o1 h idx tile consumer s) := by
  unfold Machine.doFlashPageRead
  refine hI.ite hs ?_
  refine hI.unless (hI.ite hs (hI.countCodewords (hI.addPieces (hI.media (hI.blockRead hs))))) fun hs => ?_
  split
  · exact hI.foldl (fun _ _ hs => hI.moveTileFailed hs) hs
  · exact hI.settled (hI.tileFailed (hI.unless hs fun hs => hI.poison hs))
  · exact hs

theorem Calm.doPatrolRead {n b bits permille corr retry uncorr : Nat} (hI : Calm I) (hs : I s) :
    I (doPatrolRead n b bits permille corr retry uncorr s) :=
  hI.ite hs (hI.setReg (hI.setSk (hI.countCodewords (hI.media (hI.blockRead hs)))))

theorem Calm.wornNow {n : Nat} {reclaimed : Bool} (hI : Calm I) (hs : I s) : I (s.wornNow n reclaimed) := hI.setSk hs

theorem Calm.doInternalWorkDone {n work b bytes : Nat} (hI : Calm I) (hs : I s) : I (doInternalWorkDone n work b bytes s) := by
  unfold Machine.doInternalWorkDone
  refine hI.ite hs ?_
  refine hI.ite (hI.addPieces (hI.media (hI.setSk hs))) ?_
  extract_lets _ _ _ _ s1
  have hs1 : I s1 := hI.addPieces (hI.wornNow (hI.media (hI.setSk hs)))
  exact hI.ite (hI.addReg hs1) (hI.ite (hI.addReg hs1) hs1)

theorem Calm.doBudgetCapWrite {f n : Nat} {v : W32} (hI : Calm I) (hs : I s) : I (doBudgetCapWrite f n v s) :=
  hI.reach hs (fun hs => hI.setReg (hI.setSk hs))

theorem Calm.doBudgetRateWrite {f n : Nat} {v : W32} (hI : Calm I) (hs : I s) : I (doBudgetRateWrite f n v s) :=
  hI.reach hs (fun hs => hI.setReg (hI.setSk hs))

theorem Calm.catResult {res : Nat} (hI : Calm I) (hs : I s) : I (s.catResult res) := hI.setReg hs

theorem Calm.catOut {i v : Nat} (hI : Calm I) (hs : I s) : I (s.catOut i v) := hI.setReg hs

theorem Calm.catCmd {f : Nat} {act : State → State} (hI : Calm I) (hs : I s) (hact : ∀ {s}, I s → I (act s)) : I (s.catCmd f act) :=
  hI.reach hs (fun hs => hI.ite (hact hs) hs)

theorem Stable.doPreserve {f : Nat} (hI : Stable I) (hs : I s) : I (doPreserve f s) := by
  unfold Machine.doPreserve
  refine hI.catCmd hs fun hs => ?_
  split
  · exact hI.catResult hs
  · exact hI.ite (hI.catResult hs) (hI.ite (hI.catResult hs) (hI.ite (hI.catResult hs)
      (hI.ite (hI.catResult hs) (hI.ite (hI.catResult hs) (hI.ite (hI.catResult hs) (hI.catResult (hI.setObj (hI.set hs))))))))

theorem Stable.doAdopt {f : Nat} (hI : Stable I) (hs : I s) : I (doAdopt f s) := by
  unfold Machine.doAdopt
  refine hI.catCmd hs fun hs => hI.ite (hI.catResult hs) ?_
  split
  · exact hI.catResult hs
  · refine hI.ite (hI.catResult hs) ?_
    split
    · exact hI.catResult hs
    · next hr => exact hI.catResult (hI.catOut (hI.set (hI.newObj hs hr)))

theorem Stable.doDiscard {f : Nat} (hI : Stable I) (hs : I s) : I (doDiscard f s) := by
  unfold Machine.doDiscard
  refine hI.catCmd hs fun hs => ?_
  refine hI.ite (hI.catResult hs) ?_
  split
  · exact hI.catResult hs
  · exact hI.startMoves (hI.catResult (hI.set hs))

theorem Calm.doLookup {f : Nat} (hI : Calm I) (hs : I s) : I (doLookup f s) := by
  unfold Machine.doLookup
  refine hI.catCmd hs fun hs => ?_
  refine hI.ite (hI.catResult hs) ?_
  split
  · exact hI.catResult hs
  · exact hI.catResult (hI.catOut (hI.catOut (hI.catOut hs)))

theorem Calm.doCatalogueList {f : Nat} (hI : Calm I) (hs : I s) : I (doCatalogueList f s) :=
  hI.catCmd hs (fun hs => hI.catResult (hI.catOut (hI.catOut hs)))

theorem Stable.doSkeinReloadComplete {n : Nat} (hI : Stable I) (hs : I s) : I (doSkeinReloadComplete n s) :=
  hI.ite hs (hI.startMoves (hI.setSk hs))

/-! ### Block control -/

theorem Stable.evacuate {tier unit : Nat} (hI : Stable I) (hs : I s) : I (s.evacuate tier unit) :=
  hI.foldl (fun _ _ hs => hI.setObj (hI.unless (hI.retire hs) fun hs => hI.dramTraffic hs)) hs

theorem Stable.killMovesTo {tier unit : Nat} (hI : Stable I) (hs : I s) : I (s.killMovesTo tier unit) :=
  hI.foldl (fun _ _ hs => hI.abandonMove hs) (hI.blockKill hs)

theorem Stable.regive {p : Range → Bool} (hI : Stable I) (hs : I s) : I (s.regive p) := by
  unfold State.regive
  refine hI.set ?_
  refine hI.foldl (fun _ _ hs => ?_) hs
  refine hI.foldl (fun _ _ hs => ?_) hs
  split
  · exact hI.ite (hI.addReg hs) hs
  · exact hs

theorem Stable.drainT2 {n : Nat} (hI : Stable I) (hs : I s) : I (s.drainT2 n) := by
  induction n generalizing s with
  | zero => exact hs
  | succ n ih =>
    unfold State.drainT2
    refine hI.ite hs ?_
    split
    · exact hs
    · exact ih (hI.set (hI.fresh hs))

theorem Calm.scaleGuar (hI : Calm I) (hs : I s) : I s.scaleGuar := hI.ite hs (hI.foldl (fun _ _ hs => hI.setReg hs) hs)

theorem Stable.drainCtxs (hI : Stable I) (hs : I s) : I s.drainCtxs :=
  hI.ite hs (hI.foldl (fun _ _ hs => hI.ite hs (hI.ite (hI.spillCtx hs) hs)) hs)

theorem Stable.stopUnit {b : Blk} {i : Nat} (hI : Stable I) (hs : I s) : I (s.stopUnit b i) := by
  unfold State.stopUnit
  split
  · exact hI.blockKill hs
  · exact hI.blockKill hs
  · exact hI.linkStop hs
  · exact hI.pipeStop hs
  · exact hI.foldl (fun _ _ hs => hI.modelTurn hs) (hI.endRuns hs)
  · exact hI.foldl (fun _ _ hs => hI.ite (hI.stopQueue hs) hs) hs
  · exact hI.stopTrigger hs
  · exact hI.ite (hI.startMoves (hI.drainCtxs (hI.drainT2 (hI.scaleGuar hs)))) hs
  · exact hs

theorem Calm.drainTraffic {n : Nat} (hI : Calm I) (hs : I s) : I (s.drainTraffic n) :=
  hI.foldl (fun _ _ hs => hI.ite (hI.dramTraffic (hI.addPieces hs)) hs) hs

theorem Stable.stopUnitDone {b : Blk} {i : Nat} (hI : Stable I) (hs : I s) : I (s.stopUnitDone b i) := by
  unfold State.stopUnitDone
  dsimp only
  split
  · exact hI.ite (hI.evacuate (hI.killMovesTo hs)) hs
  · exact hI.ite (hI.evacuate (hI.killMovesTo (hI.foldl (fun _ _ hs => hI.evacuate (hI.killMovesTo hs)) hs))) hs
  · exact hI.regive hs
  · exact hI.regive hs
  · exact hI.ite (hI.camFence hs) hs
  · exact hI.stopsEnd hs
  · exact hI.ite (hI.drainTraffic hs) hs
  · exact hs

theorem Stable.startUnit {b : Blk} {i : Nat} (hI : Stable I) (hs : I s) : I (s.startUnit b i) := by
  unfold State.startUnit
  split
  · exact hI.linkStart hs
  · exact hs

theorem Stable.zeroStart {b : Blk} {i : Nat} (hI : Stable I) (hs : I s) : I (s.zeroStart b i) := by
  unfold State.zeroStart
  extract_lets p wipe s1 mine s2
  refine hI.ite hs ?_
  have hwipe : ∀ {t n}, I t → I (wipe t n) := fun ht => hI.foldl (fun _ _ hs => hI.modObj hs) ht
  have h1 : I s1 := hI.set hs
  have h2 : I s2 := hI.pipeReset h1
  cases b
  case core | cluster => exact hwipe h1
  case pipeline => exact hI.loose (hI.dropRegs (q := fun e => !mine e.1) h2) (by simp only [State.core])
  all_goals exact h1

theorem Stable.beginStart {b : Blk} {i : Nat} (hI : Stable I) (hs : I s) : I (s.beginStart b i) := hI.startUnit (hI.enterState hs)

theorem Stable.beginStop {b : Blk} {i : Nat} (hI : Stable I) (hs : I s) : I (s.beginStop b i) := hI.stopUnit (hI.enterStopping hs)

theorem Stable.setEn {b : Blk} {i : Nat} {on : Bool} (hI : Stable I) (hs : I s) : I (s.setEn b i on) := by
  unfold State.setEn
  refine hI.ite hs ?_
  extract_lets s1
  have hs1 : I s1 := hI.setRegFld hs
  exact hI.ite (hI.ite (hI.beginStart hs1) hs1) (hI.ite (hI.setRegFld hs1)
    (hI.ite (hI.ite hs1 (hI.beginStop hs1)) (hI.ite (hI.ite (hI.enterState hs1) hs1) (hI.ite (hI.ite hs1 (hI.enterState hs1)) hs1))))

theorem Stable.requestFence {b : Blk} {i cause : Nat} (hI : Stable I) (hs : I s) : I (s.requestFence b i cause) := by
  unfold State.requestFence
  refine hI.ite hs ?_
  extract_lets s1 s2
  have hs1 : I s1 := hI.setRegFld (hI.setRegFld hs)
  have hs2 : I s2 := hI.ite hs1 (hI.set hs1)
  exact hI.ite (hI.enterFenced hs2) (hI.ite (hI.beginStop hs2) (hI.ite (hI.enterState hs2) hs2))

theorem Stable.failImage {b : Blk} {i : Nat} (hI : Stable I) (hs : I s) : I (s.failImage b i) :=
  hI.ite (hI.enterState hs) (hI.ite hs (hI.ite (hI.setRegFld hs) (hI.requestFence hs)))

theorem Stable.failImageEnd {b : Blk} {i : Nat} (hI : Stable I) (hs : I s) : I (s.failImageEnd b i) :=
  hI.ite (hI.startFail hs) (hI.ite (hI.stopDone (hI.stopUnitDone hs)) hs)

theorem Stable.acceptReturn {b : Blk} {i : Nat} (hI : Stable I) (hs : I s) : I (s.acceptReturn b i) :=
  hI.ite (hI.startMoves (hI.startUnit (hI.leaveFenced hs))) (hI.startMoves (hI.leaveFenced hs))

theorem Stable.requestReturn {b : Blk} {i : Nat} (hI : Stable I) (hs : I s) : I (s.requestReturn b i) :=
  hI.ite (hI.acceptReturn (hI.setRegFld hs)) (hI.unless (hI.setRegFld hs) fun hs => hI.refuseReturn hs)

theorem Calm.onPage {f page : Nat} {act : Blk → Nat → State → State} (hI : Calm I) (hs : I s) (hact : ∀ {x0 x1 s}, I s → I (act x0 x1 s)) :
    I (s.onPage f page act) := by
  unfold State.onPage
  refine hI.reach hs fun hs => ?_
  split
  · exact hact hs
  · exact hs

theorem Stable.doBlockEnable {f page : Nat} (hI : Stable I) (hs : I s) : I (doBlockEnable f page s) :=
  hI.onPage hs (fun hs => hI.setEn hs)

theorem Stable.doBlockDisable {f page : Nat} (hI : Stable I) (hs : I s) : I (doBlockDisable f page s) :=
  hI.onPage hs (fun hs => hI.settled (hI.setEn hs))

theorem Calm.newLimits {b : Blk} {i : Nat} (hI : Calm I) (hs : I s) : I (s.newLimits b i) := hI.ite (hI.wornNow (hI.skEvaluate hs)) hs

theorem Calm.setExpertSel {b : Blk} {i : Nat} {v : Bool} (hI : Calm I) (hs : I s) : I (s.setExpertSel b i v) :=
  hI.ite (hI.accessRefused hs) (hI.newLimits (hI.setRegFld (hI.setRegFld hs)))

theorem Calm.doExpertSelWrite {f page : Nat} {v : Bool} (hI : Calm I) (hs : I s) : I (doExpertSelWrite f page v s) :=
  hI.onPage hs (fun hs => hI.setExpertSel hs)

theorem Stable.doFenceReq {f page : Nat} (hI : Stable I) (hs : I s) : I (doFenceReq f page s) :=
  hI.onPage hs (fun hs => hI.ite (hI.accessRefused hs) (hI.settled (hI.requestFence hs)))

theorem Stable.doReturnReq {f page : Nat} (hI : Stable I) (hs : I s) : I (doReturnReq f page s) :=
  hI.onPage hs (fun hs => hI.ite (hI.accessRefused hs) (hI.settled (hI.requestReturn hs)))

theorem Calm.clearPages {b : Blk} {i : Nat} (hI : Calm I) (hs : I s) : I (s.clearPages b i) := hI.same (hI.dropRegs hs) rfl

theorem Stable.clearUnit {b : Blk} {i : Nat} (hI : Stable I) (hs : I s) : I (s.clearUnit b i) := by
  unfold State.clearUnit
  split
  · exact hI.blockKill hs
  · exact hI.setTurn (hI.blockKill hs)
  · exact hI.regive hs
  · exact hI.regive hs
  · exact hI.setLk (hI.linkStop hs)
  · exact hI.camCtlReset (hI.pipeReset hs)
  · exact hI.islandReset hs
  · exact hI.resetTriggers hs
  · exact hI.set (hI.setTu hs)
  · exact hI.set (hI.foldl (fun _ _ hs => hI.setEq hs) (hI.foldl (fun _ _ hs => hI.setCq hs)
      (hI.foldl (fun _ _ hs => hI.ite (hI.stopQueue hs) hs) hs)))
  · exact hI.setSk hs
  · exact hI.set hs
  · exact hI.foldl (fun _ _ hs => hI.setBucket hs) hs
  · exact hs

theorem Stable.blockReset {b : Blk} {i : Nat} (hI : Stable I) (hs : I s) : I (s.blockReset b i) := by
  unfold State.blockReset
  extract_lets _ _ s1 s2 s3
  have hs1 : I s1 := hI.newLimits (hI.clearPages (hI.clearUnit hs))
  have hs2 : I s2 := hI.set hs1
  have hs3 : I s3 := hI.enterState (hI.setReg hs2)
  exact hI.ite (hI.setReg hs2) (hI.ite (hI.beginStart hs3) hs3)

theorem Stable.doBlockReset {f page : Nat} (hI : Stable I) (hs : I s) : I (doBlockReset f page s) :=
  hI.onPage hs (fun hs => hI.ite (hI.dev (hI.setTs hs) (fun hs => hI.settled (hI.blockReset hs)))
    (hI.dev hs (fun hs => hI.settled (hI.startMoves (hI.heldForces (hI.blockReset hs))))))

theorem Stable.doBlockStartComplete {page : Nat} {ok : Bool} (hI : Stable I) (hs : I s) : I (doBlockStartComplete page ok s) := by
  unfold Machine.doBlockStartComplete
  split
  · exact hs
  · exact hI.ite hs (hI.ite (hI.settled (hI.stopUnit (hI.startFail hs)))
      (hI.settled (hI.startMoves (hI.when (hI.startDone (hI.zeroStart hs)) fun hs => hI.stopUnit hs))))

theorem Stable.doBlockStopComplete {page : Nat} (hI : Stable I) (hs : I s) : I (doBlockStopComplete page s) := by
  unfold Machine.doBlockStopComplete
  split
  · exact hs
  · exact hI.ite hs (hI.settled (hI.startMoves (hI.when (hI.stopDone (hI.stopUnitDone hs)) fun hs => hI.startUnit hs)))

theorem Stable.fatalError {b : Blk} {i : Nat} (hI : Stable I) (hs : I s) : I (s.fatalError b i) :=
  hI.when (hI.raise hs) fun hs => hI.requestFence hs

theorem Stable.doFatalStateError {page : Nat} (hI : Stable I) (hs : I s) : I (doFatalStateError page s) := by
  unfold Machine.doFatalStateError
  split
  · exact hs
  · exact hI.ite (hI.settled (hI.fatalError hs)) hs

theorem Stable.doHealthCheckComplete {page : Nat} {pass : Bool} (hI : Stable I) (hs : I s) : I (doHealthCheckComplete page pass s) := by
  unfold Machine.doHealthCheckComplete
  split
  · exact hs
  · exact hI.ite (hI.settled (hI.ite (hI.acceptReturn hs) (hI.refuseReturn hs))) hs

theorem Stable.doStackDrainTimeout {n : Nat} {left : List (Nat × Nat × Nat)} (hI : Stable I) (hs : I s) :
    I (doStackDrainTimeout n left s) :=
  hI.ite hs (hI.settled (hI.stopDone (hI.addReg (hI.foldl (fun _ _ hs => hI.poison hs) hs))))

/-! ### Hoops -/

theorem Stable.becomeReady {h : Nat} (hI : Stable I) (hs : I s) : I (s.becomeReady h) :=
  hI.when (hI.setHoop hs) fun hs => hI.beginStart hs

theorem Calm.newMemKey {k : Nat} (hI : Calm I) (hs : I s) : I (s.newMemKey k) := hI.ite (hI.set hs) (hI.set hs)

theorem Stable.dropHoop {h : Nat} (hI : Stable I) (hs : I s) : I (s.dropHoop h) := by
  unfold State.dropHoop
  extract_lets s1 s2 s3 s4 s5 s6 s7
  have h2 : I s2 := hI.killWhere (hI.addReg hs)
  have h3 : I s3 := hI.foldl (fun _ _ hs => hI.withdrawHead hs) h2
  have h4 : I s4 := hI.foldl (fun _ _ hs => hI.setCtx (hI.endAsk (hI.foldl (fun _ _ hs => hI.dropMove hs) hs))) h3
  have h5 : I s5 := hI.foldl (fun _ _ hs => hI.dropMove hs) h4
  have h6 : I s6 := hI.foldl (fun _ _ hs => hI.freeObj hs) h5
  have h7 : I s7 := hI.setRegFld h6
  exact hI.loose (hI.dropKnots (q := fun e => decide (e.1 / 16384 ≠ h)) h7) (by simp only [State.core])

theorem Stable.hoopReset {h : Nat} {pages : Bool} (hI : Stable I) (hs : I s) : I (s.hoopReset h pages) :=
  hI.ite hs (hI.resetTriggers (hI.setHoop hs))

theorem Stable.finishReset {h : Nat} (hI : Stable I) (hs : I s) : I (s.finishReset h) := by
  unfold State.finishReset
  extract_lets pages units s1 s2 s3 owned s4 s5
  have h2 : I s2 := hI.blockReset (hI.blockReset (hI.dropHoop hs))
  have h3 : I s3 := hI.ite (hI.foldl (fun _ _ hs => hI.blockReset hs) h2) h2
  have h4 : I s4 := hI.dropRegs h3
  exact hI.newMemKey (hI.setHoop (hI.set h4))

theorem Stable.resetWhole {h : Nat} {pages : Bool} (hI : Stable I) (hs : I s) : I (s.resetWhole h pages) :=
  hI.ite hs (hI.finishReset (hI.hoopReset hs))

theorem Stable.matchHoops (hI : Stable I) (hs : I s) : I s.matchHoops :=
  hI.foldl (fun _ _ hs => hI.ite (hI.hoopReset hs) (hI.ite (hI.becomeReady hs) hs)) hs

theorem Stable.doHoopEnableWrite {f h : Nat} {v : W32} (hI : Stable I) (hs : I s) : I (doHoopEnableWrite f h v s) :=
  hI.reach hs (fun hs => hI.ite hs (hI.settled (hI.startMoves (hI.matchHoops (hI.setRegFld hs)))))

theorem Stable.doHoopReset {f h : Nat} (hI : Stable I) (hs : I s) : I (doHoopReset f h s) :=
  hI.reach hs (fun hs => hI.settled (hI.startMoves (hI.hoopReset hs)))

theorem Stable.doVfEnableChange {en : Bool} {num : Nat} (hI : Stable I) (hs : I s) : I (doVfEnableChange en num s) :=
  hI.settled (hI.startMoves (hI.matchHoops (hI.set hs)))

theorem Stable.pfReset (hI : Stable I) (hs : I s) : I s.pfReset := hI.matchHoops (hI.hoopReset (hI.set hs))

theorem Stable.doFunctionLevelReset {h : Nat} (hI : Stable I) (hs : I s) : I (doFunctionLevelReset h s) :=
  hI.settled (hI.startMoves (hI.ite (hI.pfReset hs) (hI.hoopReset hs)))

theorem Stable.conventional (hI : Stable I) (hs : I s) : I s.conventional := hI.settled (hI.startMoves (hI.set (hI.pfReset hs)))

theorem Stable.doConventionalReset (hI : Stable I) (hs : I s) : I (doConventionalReset s) :=
  hI.ite (hI.conventional hs) (hI.ite (hI.wake (hI.conventional hs)) (hI.ite (hI.wake (hI.set hs)) hs))

theorem Stable.doPcieLinkUp (hI : Stable I) (hs : I s) : I (doPcieLinkUp s) :=
  hI.when (hI.set hs) fun hs => hI.conventional (hI.set hs)

theorem Stable.doScrubComplete {h : Nat} {bad : Option Nat} (hI : Stable I) (hs : I s) : I (doScrubComplete h bad s) := by
  unfold Machine.doScrubComplete
  refine hI.unless (hI.ite (hI.finishReset hs) hs) fun hs => ?_
  refine hI.settled (hI.startMoves (hI.when (hI.setHoop (hI.set ?_)) fun hs => hI.becomeReady hs))
  split
  · exact hI.fatalError hs
  · exact hI.fatalError hs
  · exact hs

theorem Stable.doDramZeroFill {h : Nat} (hI : Stable I) (hs : I s) : I (doDramZeroFill h s) := hI.startMoves (hI.setHoop hs)

theorem Stable.phasesEnd (hI : Stable I) (hs : I s) : I s.phasesEnd := by
  unfold State.phasesEnd
  extract_lets l s1
  have h1 : I s1 := hI.ite hs (hI.settled (hI.startMoves (hI.foldl (fun _ _ hs => hI.finishReset hs) hs)))
  exact hI.stopsEnd h1

theorem Stable.doPositionReached {dt sub : Nat} (hI : Stable I) (hs : I s) : I (doPositionReached dt sub s) := by
  unfold Machine.doPositionReached
  extract_lets s1
  have h1 : I s1 := hI.advance16 hs
  exact hI.dev h1 fun hs => hI.wakeAts (hI.ite hs (hI.phasesEnd hs))

/-! ### Security -/

theorem Stable.sealFail {c : Cmd} {reason : Nat} (hI : Stable I) (hs : I s) : I (s.sealFail c reason) :=
  hI.settled (hI.endCmd (hI.addReg hs))

theorem Stable.makeSealed {c : Cmd} {l : List (SealEntry × List Byte)} (hI : Stable I) (hs : I s) : I (s.makeSealed c l).1 := by
  induction l generalizing s with
  | nil => exact hs
  | cons e l ih =>
    unfold State.makeSealed
    split
    · exact ih hs
    · next hr => exact ih (hI.newObj hs hr)

theorem Stable.sealTile {c : Cmd} {b : Nat × Nat} (hI : Stable I) (hs : I s) : I (s.sealTile c b) :=
  hI.settled (hI.addReg (hI.endCmd hs))

theorem Stable.doSealLoad {h q : Nat} {host : List Byte} (hI : Stable I) (hs : I s) : I (doSealLoad h q host s) := by
  unfold Machine.doSealLoad
  split
  · exact hs
  · extract_lets p t s0 reason
    clear_value reason s0 t p
    split
    · refine hI.ite (hI.settled (hI.endGone hs)) (hI.ite (hI.settled (hI.endCmd hs)) (hI.ite hs ?_))
      split
      · exact hI.sealTile hs
      · refine hI.ite (hI.sealFail hs) ?_
        split
        · exact hI.sealTile hs
        · refine hI.ite (hI.settled (hI.endCmd hs)) (hI.ite hs ?_)
          split
          next hr =>
          have h1 := hI.fst hr (hI.reserve hs)
          refine hI.ite (hI.startMoves h1) (hI.ite (hI.meetBudget h1) ?_)
          split
          · exact hI.sealFail h1
          · split
            · exact hI.sealFail h1
            · extract_lets
              split
              next hr =>
              have h2 := hI.fst hr (hI.fresh (hI.hostRead (hI.transfer (hI.meetBudget h1))))
              split
              next hr =>
              have h3 := hI.fst hr (hI.makeSealed h2)
              exact hI.settled (hI.beginCmd (hI.set h3))
    · exact hI.ite (hI.settled (hI.endGone hs)) (hI.ite (hI.settled (hI.endCmd hs)) (hI.sealFail hs))

theorem Calm.mbResult {h r : Nat} (hI : Calm I) (hs : I s) : I (s.mbResult h r) := hI.setReg hs

theorem Calm.mailbox {f h : Nat} {random page0 co : Bool} {act : State → State} (hI : Calm I) (hs : I s) (hact : ∀ {s}, I s → I (act s)) :
    I (s.mailbox f h random page0 co act) :=
  hI.reach hs (fun hs => hI.ite hs (hI.ite (hI.mbResult hs) (hI.ite (hI.mbResult hs) (hact hs))))

theorem Stable.writeObj {k : Nat} {bytes : List Byte} (hI : Stable I) (hs : I s) : I (s.writeObj k bytes) := by
  unfold State.writeObj
  extract_lets s1 s2
  have h1 : I s1 := hI.transfer hs
  have h2 : I s2 := hI.ite (hI.hostWrite h1) h1
  exact hI.modObj h2

theorem Stable.doAttest {f h : Nat} (hI : Stable I) (hs : I s) : I (doAttest f h s) := by
  unfold Machine.doAttest
  refine hI.mailbox hs fun hs => ?_
  dsimp only
  split
  · exact hI.mbResult hs
  · exact hI.ite (hI.mbResult hs) (hI.mbResult (hI.addReg (hI.setReg (hI.writeObj hs))))

theorem Stable.doGetChain {f h : Nat} (hI : Stable I) (hs : I s) : I (doGetChain f h s) := by
  unfold Machine.doGetChain
  refine hI.mailbox hs fun hs => ?_
  split
  · exact hI.mbResult hs
  · exact hI.ite (hI.mbResult hs) (hI.mbResult (hI.setReg (hI.writeObj hs)))

theorem Calm.doExtend {f h : Nat} (hI : Calm I) (hs : I s) : I (doExtend f h s) :=
  hI.mailbox hs (fun hs => hI.mbResult (hI.extendMr hs))

theorem Calm.doCoChallenge {f h : Nat} (hI : Calm I) (hs : I s) : I (doCoChallenge f h s) :=
  hI.mailbox hs (fun hs => hI.mbResult (hI.setRegs (hI.set hs)))

theorem Calm.doCoAuth {f h : Nat} {host : List Byte} (hI : Calm I) (hs : I s) : I (doCoAuth f h host s) := by
  unfold Machine.doCoAuth
  refine hI.mailbox hs fun hs => ?_
  refine hI.ite (hI.mbResult hs) ?_
  split
  · exact hI.mbResult hs
  · exact hI.ite (hI.mbResult hs) (hI.ite (hI.mbResult (hI.set hs)) (hI.mbResult (hI.set hs)))

theorem Calm.doCoAuthExpiry (hI : Calm I) (hs : I s) : I (doCoAuthExpiry s) := hI.ite hs (hI.set hs)

theorem Calm.doCoAuthHoldoffEnd (hI : Calm I) (hs : I s) : I (doCoAuthHoldoffEnd s) := hI.ite hs (hI.set hs)

theorem Calm.doCoLogout {f h : Nat} (hI : Calm I) (hs : I s) : I (doCoLogout f h s) :=
  hI.mailbox hs (fun hs => hI.mbResult (hI.set hs))

theorem Calm.doEnrollCo {f h : Nat} {host : List Byte} (hI : Calm I) (hs : I s) : I (doEnrollCo f h host s) := by
  unfold Machine.doEnrollCo
  refine hI.mailbox hs fun hs => ?_
  refine hI.ite (hI.mbResult hs) ?_
  split
  · exact hI.mbResult hs
  · exact hI.ite (hI.mbResult hs) (hI.mbResult (hI.set hs))

theorem Calm.doAdvanceSvn {f h : Nat} (hI : Calm I) (hs : I s) : I (doAdvanceSvn f h s) := by
  unfold Machine.doAdvanceSvn
  refine hI.mailbox hs fun hs => ?_
  refine hI.ite (hI.mbResult hs) ?_
  split
  · exact hI.mbResult hs
  · exact hI.ite (hI.mbResult hs) (hI.mbResult (hI.set hs))

theorem Stable.flushHeld {h n : Nat} (hI : Stable I) (hs : I s) : I (s.flushHeld h n) := by
  induction n generalizing s with
  | zero => exact hs
  | succ n ih => exact ih (hI.doRecordSequenced hs)

theorem Stable.critical (hI : Stable I) (hs : I s) : I s.critical :=
  hI.ite hs (hI.settled (hI.startMoves (hI.foldl (fun _ _ hs => hI.hoopReset hs)
    (hI.foldl (fun _ _ hs => hI.lostLink hs) (hI.set (hI.foldl (fun _ _ hs => hI.flushHeld hs)
    (hI.foldl (fun _ _ hs => hI.fatalError hs) hs)))))))

theorem Stable.doZeroise {f h : Nat} (hI : Stable I) (hs : I s) : I (doZeroise f h s) :=
  hI.mailbox hs (fun hs => hI.ite (hI.mbResult hs) (hI.mbResult (hI.set (hI.critical hs))))

theorem Stable.doSelfTest {f h : Nat} {pass : Bool} (hI : Stable I) (hs : I s) : I (doSelfTest f h pass s) :=
  hI.mailbox hs (fun hs => hI.ite (hI.mbResult hs) (hI.mbResult (hI.critical hs)))

theorem Calm.doEntropyTestFail (hI : Calm I) (hs : I s) : I (doEntropyTestFail s) := hI.ite (hI.set hs) hs

theorem Calm.doEntropyRetest {pass : Bool} (hI : Calm I) (hs : I s) : I (doEntropyRetest pass s) :=
  hI.ite hs (hI.ite (hI.set hs) (hI.ite (hI.set hs) (hI.set hs)))

theorem Stable.doSoftErrorTimeout (hI : Stable I) (hs : I s) : I (doSoftErrorTimeout s) := hI.ite (hI.critical hs) hs

theorem Calm.spdm {random : Bool} {act : State → State} (hI : Calm I) (hs : I s) (hact : ∀ {s}, I s → I (act s)) : I (s.spdm random act) :=
  hI.ite hs (hI.ite (hI.set hs) (hact hs))

theorem Calm.answered {a : SpdmAnswer} (hI : Calm I) (hs : I s) : I (s.answered a) := hI.set hs

theorem Calm.doGetVersion (hI : Calm I) (hs : I s) : I (doGetVersion s) := hI.spdm hs (fun hs => hI.answered hs)

theorem Calm.doGetCapabilities (hI : Calm I) (hs : I s) : I (doGetCapabilities s) := hI.spdm hs (fun hs => hI.answered hs)

theorem Calm.doNegotiateAlgorithms (hI : Calm I) (hs : I s) : I (doNegotiateAlgorithms s) := hI.spdm hs (fun hs => hI.answered hs)

theorem Calm.doGetDigests (hI : Calm I) (hs : I s) : I (doGetDigests s) := hI.spdm hs (fun hs => hI.answered hs)

theorem Calm.doGetCertificate (hI : Calm I) (hs : I s) : I (doGetCertificate s) := hI.spdm hs (fun hs => hI.answered hs)

theorem Calm.doChallenge {nonce : BitVec 256} (hI : Calm I) (hs : I s) : I (doChallenge nonce s) :=
  hI.spdm hs (fun hs => hI.answered hs)

theorem Calm.doGetMeasurements (hI : Calm I) (hs : I s) : I (doGetMeasurements s) := hI.spdm hs (fun hs => hI.answered hs)

theorem Calm.doKeyExchange {pub : List Byte} (hI : Calm I) (hs : I s) : I (doKeyExchange pub s) :=
  hI.spdm hs (fun hs => hI.answered (hI.set hs))

theorem Calm.doFinish {ok : Bool} (hI : Calm I) (hs : I s) : I (doFinish ok s) :=
  hI.spdm hs (fun hs => hI.ite (hI.answered (hI.set hs)) (hI.answered hs))

theorem Calm.doEndSession (hI : Calm I) (hs : I s) : I (doEndSession s) :=
  hI.spdm hs (fun hs => hI.ite (hI.answered (hI.set hs)) (hI.answered hs))

theorem Calm.doKeyProg {stream : Nat} (hI : Calm I) (hs : I s) : I (doKeyProg stream s) :=
  hI.spdm hs (fun hs => hI.ite (hI.answered hs) (hI.ite (hI.answered hs)
    (hI.ite (hI.answered hs) (hI.ite (hI.answered hs) (hI.answered (hI.set hs))))))

theorem Calm.doJtagInstruction {kind : Nat} (hI : Calm I) (hs : I s) : I (doJtagInstruction kind s) :=
  hI.ite hs (hI.ite (hI.setRead (hI.set hs)) (hI.ite (hI.set hs) (hI.ite (hI.raise (hI.set hs)) (hI.set (hI.set hs)))))

/-! ### The begin of commands -/

theorem Stable.beginHead {h q : Nat} {host : List Byte} (hI : Stable I) (hs : I s) : I (s.beginHead h q host) := by
  unfold State.beginHead
  split
  · exact hs
  · split
    · exact hI.doNop hs
    · exact hI.ite (hI.doRunPatternArmOnly hs) (hI.doRunPattern hs)
    · exact hI.doMove hs
    · exact hI.doKnotWait hs
    · exact hI.doKnotSignal hs
    · exact hI.doAtStitch hs
    · exact hI.doFence hs
    · exact hI.doPostEvent hs
    · exact hI.doContextOpen hs
    · exact hI.doContextClose hs
    · exact hI.doSealLoad hs
    · exact hs

theorem Stable.doCommandBegin {h q : Nat} {host : List Byte} (hI : Stable I) (hs : I s) : I (doCommandBegin h q host s) :=
  hI.beginHead hs

theorem Stable.retryWait {w : AllocWait} (hI : Stable I) (hs : I s) : I (s.retryWait w) := by
  unfold State.retryWait
  refine hI.ite hs ?_
  split
  · exact hI.foldl (fun _ _ hs => hI.startRemote hs) (hI.giveRanges (hI.tryStart hs))
  · dsimp only
    split
    · exact hs
    · exact hI.beginHead (hI.foldl (fun _ _ hs => hI.makeSegment hs) hs)
  · exact hI.ite (hI.createNow (hI.endWait hs)) (hI.ite (hI.askRoom hs) (hI.objResult (hI.endWait hs)))
  · exact hs

theorem Stable.doAllocationGranted (hI : Stable I) (hs : I s) : I (doAllocationGranted s) :=
  hI.settled (hI.startMoves (hI.foldl (fun _ _ hs => hI.retryWait hs) hs))

theorem Stable.doBudgetAdmitted (hI : Stable I) (hs : I s) : I (doBudgetAdmitted s) :=
  hI.settled (hI.startMoves (hI.foldl (fun _ _ hs => hI.beginHead hs) hs))

/-! ### Power -/

theorem Calm.setPm {f : Pm → Pm} (hI : Calm I) (hs : I s) : I (s.setPm f) := hI.set hs

theorem Calm.alertNow (hI : Calm I) (hs : I s) : I s.alertNow := hI.ite (hI.setPm hs) hs

theorem Calm.doPlTargetWrite {f n : Nat} {v : W32} (hI : Calm I) (hs : I s) : I (doPlTargetWrite f n v s) :=
  hI.reach hs (fun hs => hI.alertNow (hI.setReg hs))

theorem Calm.doLevelChangeDone {n : Nat} (hI : Calm I) (hs : I s) : I (doLevelChangeDone n s) := hI.setPm hs

theorem Calm.doPmMemLevelWrite {f : Nat} {v : W32} (hI : Calm I) (hs : I s) : I (doPmMemLevelWrite f v s) :=
  hI.reach hs (fun hs => hI.setRegFld hs)

theorem Stable.doMemLevelChangeDone (hI : Stable I) (hs : I s) : I (doMemLevelChangeDone s) := hI.startMoves (hI.setPm (hI.accrue hs))

theorem Calm.capLower (hI : Calm I) (hs : I s) : I s.capLower := by
  unfold State.capLower
  split
  · exact hI.setPm hs
  · exact hI.ite hs (hI.setPm (hI.setReg (hI.accrue hs)))

theorem Calm.capRaise (hI : Calm I) (hs : I s) : I s.capRaise := by
  unfold State.capRaise
  refine hI.ite (hI.setPm (hI.setReg (hI.accrue hs))) ?_
  split
  · exact hs
  · exact hI.setPm hs

theorem Calm.doPowerMeasure {mw : Nat} (hI : Calm I) (hs : I s) : I (doPowerMeasure mw s) :=
  hI.ite hs (hI.alertNow (hI.ite (hI.capLower (hI.setReg (hI.setPm hs))) (hI.when (hI.setReg (hI.setPm hs)) fun hs => hI.capRaise hs)))

theorem Calm.thermStep {n : Nat} {t : ℤ} (hI : Calm I) (hs : I s) : I (s.thermStep n t) :=
  hI.ite (hI.setPm hs) (hI.ite (hI.setPm hs) hs)

theorem Calm.doThermalStep {cl dr sk : List ℤ} (hI : Calm I) (hs : I s) : I (doThermalStep cl dr sk s) :=
  hI.ite hs (hI.alertNow (hI.unless (hI.foldl (fun _ _ hs => hI.thermStep hs) (hI.foldl (fun _ _ hs => hI.setSk hs) (hI.set hs))) fun hs =>
    hI.ite (hI.setPm hs) (hI.when hs fun hs => hI.setPm hs)))

theorem Stable.pmKill (hI : Stable I) (hs : I s) : I s.pmKill := by
  unfold State.pmKill
  extract_lets qs s1 s2 s3 s4 s5
  have h1 : I s1 := hI.foldl (fun _ _ hs => hI.setCq (hI.killQueue hs)) hs
  have h3 : I s3 := hI.foldl (fun _ _ hs => hI.dropMove hs) (hI.killWhere h1)
  have h5 : I s5 := hI.foldl (fun _ _ hs => hI.pipeStop hs) (hI.set h3)
  exact hI.setPm h5

theorem Stable.pmAccept {target : Nat} {work : Bool} (hI : Stable I) (hs : I s) : I (s.pmAccept target work) :=
  hI.unless (hI.setPm (hI.setReg hs)) fun hs => hI.settled (hI.pmKill hs)

theorem Stable.doStateRequest {f target : Nat} {work : Bool} (hI : Stable I) (hs : I s) : I (doStateRequest f target work s) := by
  unfold Machine.doStateRequest
  refine hI.ite hs ?_
  refine hI.command hs fun hs => ?_
  extract_lets s1
  have hs1 : I s1 := hI.setRegFld (hI.setRegFld hs)
  exact hI.ite (hI.wake hs1) (hI.ite (hI.pmAccept hs1) (hI.pmResult hs1))

theorem Stable.doDrainComplete (hI : Stable I) (hs : I s) : I (doDrainComplete s) := hI.ite (hI.settled (hI.pmKill hs)) hs

theorem Stable.doDrainTimeout (hI : Stable I) (hs : I s) : I (doDrainTimeout s) := hI.ite (hI.pmBack hs) hs

theorem Calm.doPmeTurnOff (hI : Calm I) (hs : I s) : I (doPmeTurnOff s) := hI.ite (hI.setPm hs) hs

theorem Stable.doPmeTimeout (hI : Stable I) (hs : I s) : I (doPmeTimeout s) := hI.ite (hI.settled (hI.pmBack hs)) hs

theorem Stable.pmEvict {k tier loc : Nat} (hI : Stable I) (hs : I s) : I (s.pmEvict k tier loc) :=
  hI.addReg (hI.addPieces (hI.addReg (hI.setObj (hI.ite (hI.dramTraffic hs) hs))))

theorem Stable.keepT1 {room : Nat} {l : List Nat} (hI : Stable I) (hs : I s) : I (s.keepT1 room l) := by
  induction l generalizing s room with
  | nil => exact hs
  | cons k l ih => exact hI.ite (ih hs) (ih (hI.pmEvict hs))

theorem Stable.entryEvictions {target : Nat} (hI : Stable I) (hs : I s) : I (s.entryEvictions target) := by
  unfold State.entryEvictions
  extract_lets s1 s2
  have hs1 : I s1 := hI.foldl (fun _ _ hs => hI.ite (hI.pmEvict hs) (hI.pmEvict hs)) hs
  have hs2 : I s2 := hI.ite (hI.foldl (fun _ _ hs => hI.keepT1 hs) hs1) (hI.foldl (fun _ _ hs => hI.pmEvict hs) hs1)
  exact hI.set hs2

theorem Stable.powerStop {b : Blk} {i : Nat} (hI : Stable I) (hs : I s) : I (s.powerStop b i) :=
  hI.ite hs (hI.when (hI.unless (hI.setRegFld (hI.ite (hI.linkStop hs) (hI.ite (hI.pipeStop hs) hs))) fun hs => hI.enterState hs) fun hs =>
    hI.stopTrigger hs)

theorem Stable.powerDown {b : Blk} {i : Nat} (hI : Stable I) (hs : I s) : I (s.powerDown b i) :=
  hI.ite (hI.stopDone (hI.stopUnitDone hs)) hs

theorem Calm.skeinsDown (hI : Calm I) (hs : I s) : I s.skeinsDown := hI.foldl (fun _ _ hs => hI.setSk hs) hs

theorem Stable.dropSessions (hI : Stable I) (hs : I s) : I s.dropSessions := by
  unfold State.dropSessions
  extract_lets s1
  have h1 : I s1 := hI.foldl (fun _ _ hs => hI.foldl (fun _ _ hs => hI.dropAnswer hs) (hI.endRemote hs)) hs
  exact hI.cancelDraws (hI.set h1)

theorem Calm.skeinsUp {lost : Bool} (hI : Calm I) (hs : I s) : I (s.skeinsUp lost) := hI.foldl (fun _ _ hs => hI.setSk hs) hs

theorem Stable.clearDomains (hI : Stable I) (hs : I s) : I s.clearDomains := by
  unfold State.clearDomains
  extract_lets kept touched s1
  have h1 : I s1 := by
    refine hI.loose (hI.dropKnots (q := fun _ => false) (hI.dropRegs (q := fun e => kept e.1) hs)) ?_
    simp [s1, State.core]
  exact hI.ite (hI.orReg h1) h1

theorem Stable.resetHoops (hI : Stable I) (hs : I s) : I s.resetHoops := hI.foldl (fun _ _ hs => hI.resetWhole hs) hs

theorem Calm.endUpdate (hI : Calm I) (hs : I s) : I s.endUpdate :=
  hI.ite (hI.setRegFld (hI.setRegFld hs)) (hI.ite (hI.setReg (hI.setRegFld hs)) hs)

theorem Stable.warmReset {cause : Nat} (hI : Stable I) (hs : I s) : I (s.warmReset cause) :=
  hI.ite hs (hI.setReg (hI.setPm (hI.set (hI.foldl (fun _ _ hs => hI.setSk hs)
    (hI.skeinsUp (hI.endUpdate (hI.clearDomains (hI.resetHoops (hI.ite (hI.pmResult hs) hs)))))))))

theorem Stable.doPmResetWarm {f : Nat} {v : W32} (hI : Stable I) (hs : I s) : I (doPmResetWarm f v s) :=
  hI.reach hs (fun hs => hI.ite (hI.warmReset hs) hs)

theorem Stable.doColdReset {why : Nat} (hI : Stable I) (hs : I s) : I (doColdReset why s) :=
  hI.ite (hI.coldReset hs) (hI.ite (hI.coldReset hs) (hI.ite (hI.coldReset hs) (hI.ite (hI.coldReset hs) hs)))

theorem Stable.doWarmReset (hI : Stable I) (hs : I s) : I (doWarmReset s) := hI.warmReset hs

theorem Calm.powerLost (hI : Calm I) (hs : I s) : I s.powerLost := hI.ite hs (hI.foldl (fun _ _ hs => hI.setSk hs) hs)

theorem Calm.enterOff (hI : Calm I) (hs : I s) : I s.enterOff := hI.setPm (hI.set hs)

theorem Calm.doThermalTrip (hI : Calm I) (hs : I s) : I (doThermalTrip s) :=
  hI.ite hs (hI.setReg (hI.setPm (hI.enterOff (hI.powerLost hs))))

theorem Calm.doSysclkStop (hI : Calm I) (hs : I s) : I (doSysclkStop s) := hI.setPm (hI.enterOff (hI.powerLost hs))

theorem Stable.doSysclkReturn (hI : Stable I) (hs : I s) : I (doSysclkReturn s) := hI.ite hs (hI.ite (hI.setPm hs) (hI.coldReset hs))

theorem Calm.doAudclkStop (hI : Calm I) (hs : I s) : I (doAudclkStop s) :=
  hI.ite (hI.foldl (fun _ _ hs => hI.doPdmLineStuck hs) hs) hs

theorem Stable.doPowerGoodTimeout (hI : Stable I) (hs : I s) : I (doPowerGoodTimeout s) := hI.ite (hI.warmReset hs) hs

theorem Stable.doPowerGoodLost {pg : Nat} (hI : Stable I) (hs : I s) : I (doPowerGoodLost pg s) := hI.ite (hI.warmReset hs) hs

theorem Calm.setSlot {c : Nat} {i : FwImage} (hI : Calm I) (hs : I s) : I (s.setSlot c i) := hI.set hs

theorem Calm.runImage {c : Nat} {i : FwImage} (hI : Calm I) (hs : I s) : I (s.runImage c i) := hI.set hs

theorem Calm.rotUp (hI : Calm I) (hs : I s) : I s.rotUp := hI.ite hs (hI.foldl (fun _ _ hs => hI.newMemKey hs) (hI.set hs))

theorem Stable.bootStart {images : List (Nat × FwImage)} (hI : Stable I) (hs : I s) : I (s.bootStart images) :=
  hI.unless (hI.foldl (fun _ _ hs => hI.ite hs (hI.enterState hs))
    (hI.rotUp (hI.foldl (fun _ _ hs => hI.runImage hs) (hI.foldl (fun _ _ hs => hI.set hs) (hI.set hs))))) fun hs => hI.failImage hs

theorem Stable.bootEnd (hI : Stable I) (hs : I s) : I s.bootEnd :=
  hI.settled (hI.startMoves (hI.matchHoops (hI.computeIsUp (hI.orReg
    (hI.skeinsUp (hI.when (hI.foldl (fun _ _ hs => hI.ite (hI.failImageEnd hs) (hI.startDone hs)) (hI.setPm hs)) fun hs =>
    hI.failImageEnd hs))))))

theorem Stable.doBootComplete {images : List (Nat × FwImage)} {dt : Nat} (hI : Stable I) (hs : I s) : I (doBootComplete images dt s) :=
  hI.ite (hI.dev (hI.advance (hI.tsAwake (hI.dev hs (fun hs => hI.bootStart hs)))) (fun hs => hI.bootEnd hs)) hs

theorem Stable.doPrickingWake (hI : Stable I) (hs : I s) : I (doPrickingWake s) := hI.ite (hI.wake hs) hs

theorem Stable.doEntryComplete {dt : Nat} (hI : Stable I) (hs : I s) : I (doEntryComplete dt s) := by
  unfold Machine.doEntryComplete
  refine hI.ite hs ?_
  extract_lets t s1 s2 starting s3 s4 s5 s6 s7 off s8 latched
  have h2 : I s2 := hI.set (hI.entryEvictions hs)
  have h3 : I s3 := hI.ite h2 (hI.foldl (fun _ _ hs => hI.startDone (hI.zeroStart hs)) (hI.advance h2))
  have h4 : I s4 := hI.foldl (fun _ _ hs => hI.powerStop hs) h3
  have h6 : I s6 := hI.foldl (fun _ _ hs => hI.powerDown hs) (hI.advance h4)
  have h7 : I s7 := hI.ite h6 (hI.skeinsDown (hI.dropSessions h6))
  have h8 : I s8 := hI.pmResult (hI.setReg h7)
  refine hI.ite (hI.ite (hI.enterOff (hI.tsAsleep h8)) (hI.coldReset (hI.enterOff (hI.tsAsleep h8)))) ?_
  exact hI.foldl (fun _ _ hs => hI.wake hs) (hI.setPm (hI.tsAsleep h8))

theorem Stable.poisonLost (hI : Stable I) (hs : I s) : I s.poisonLost := hI.addReg (hI.foldl (fun _ _ hs => hI.poison hs) hs)

theorem Stable.powerUp {b : Blk} {i : Nat} (hI : Stable I) (hs : I s) : I (s.powerUp b i) := hI.ite hs (hI.beginStart hs)

theorem Stable.powerUpDone {b : Blk} {i : Nat} (hI : Stable I) (hs : I s) : I (s.powerUpDone b i) :=
  hI.ite hs (hI.startDone (hI.zeroStart hs))

theorem Calm.knotsLost (hI : Calm I) (hs : I s) : I s.knotsLost := hI.foldl (fun _ _ hs => hI.orReg hs) hs

theorem Stable.exitStart (hI : Stable I) (hs : I s) : I s.exitStart :=
  hI.foldl (fun _ _ hs => hI.powerUp hs) (hI.ite (hI.knotsLost (hI.clearDomains (hI.resetHoops hs))) (hI.ite (hI.poisonLost hs) hs))

theorem Stable.exitEnd (hI : Stable I) (hs : I s) : I s.exitEnd :=
  hI.settled (hI.startMoves (hI.matchHoops (hI.unmark (hI.computeIsUp
    (hI.orReg (hI.addReg (hI.setReg (hI.set (hI.foldl (fun _ _ hs => hI.powerUpDone hs)
    (hI.when (hI.setPm hs) fun hs => hI.skeinsUp hs))))))))))

theorem Stable.doExitComplete {dt : Nat} (hI : Stable I) (hs : I s) : I (doExitComplete dt s) :=
  hI.ite hs (hI.dev (hI.advance (hI.tsAwake (hI.dev hs (fun hs => hI.exitStart hs)))) (fun hs => hI.exitEnd hs))

theorem Stable.doWakeInEvent {pin : Nat} {level : Bool} (hI : Stable I) (hs : I s) : I (doWakeInEvent pin level s) := by
  unfold Machine.doWakeInEvent
  extract_lets _ s1 s2 _ _ _ s3
  have hs1 : I s1 := hI.setRegFld hs
  have hs2 : I s2 := hI.ite hs1 (hI.setPm hs1)
  have hs3 : I s3 := hI.setPm hs2
  exact hI.ite (hI.ite (hI.coldReset hs2) hs2) (hI.ite hs2 (hI.ite (hI.wake hs2) (hI.ite hs2 (hI.ite (hI.addReg hs3) (hI.wake hs3)))))

theorem Calm.doWakeStuck {pin : Nat} (hI : Calm I) (hs : I s) : I (doWakeStuck pin s) := hI.ite (hI.addReg (hI.setRegFld hs)) hs

theorem Calm.doWakeStuckClear {pin : Nat} (hI : Calm I) (hs : I s) : I (doWakeStuckClear pin s) := hI.ite hs (hI.setRegFld hs)

theorem Calm.doIdleEntry (hI : Calm I) (hs : I s) : I (doIdleEntry s) := hI.ite (hI.setPm hs) hs

/-! ### Measurements and SPDM -/

theorem Calm.readReg {f a : Nat} (hI : Calm I) (hs : I s) : I (s.readReg f a).1 := by
  unfold State.readReg
  refine hI.iteFst (hI.viewViolation hs) ?_
  refine hI.iteFst (hI.foldl (fun _ _ hs => hI.latchReg hs) (hI.set hs)) ?_
  split
  · exact hI.iteFst (hI.raise hs) hs
  · exact hs

/-! ### Service -/

theorem Calm.svcResult {r : Nat} (hI : Calm I) (hs : I s) : I (s.svcResult r) := hI.setReg hs

theorem Calm.svcCmd {f : Nat} {act : State → State} (hI : Calm I) (hs : I s) (hact : ∀ {s}, I s → I (act s)) : I (s.svcCmd f act) :=
  hI.command hs (fun hs => hI.ite (hact hs) hs)

theorem Calm.freeAnswer (hI : Calm I) (hs : I s) : I (s.freeAnswer).1 := hI.set hs

theorem Calm.setPhase {p : Nat} (hI : Calm I) (hs : I s) : I (s.setPhase p) := hI.setRegFld hs

theorem Calm.doFwStage {f : Nat} {verified : Option (Nat × Nat × Nat)} {host : List Byte} (hI : Calm I) (hs : I s) :
    I (doFwStage f verified host s) := by
  unfold Machine.doFwStage
  refine hI.svcCmd hs fun hs => ?_
  refine hI.ite (hI.svcResult hs) ?_
  refine hI.ite (hI.svcResult hs) ?_
  refine hI.ite (hI.svcResult hs) ?_
  split
  · exact hI.svcResult hs
  · refine hI.ite (hI.svcResult hs) ?_
    split
    · exact hI.svcResult hs
    · exact hI.ite (hI.svcResult hs) (hI.svcResult (hI.setReg (hI.set (hI.setSlot hs))))

theorem Calm.doFwActivate {f : Nat} (hI : Calm I) (hs : I s) : I (doFwActivate f s) := by
  unfold Machine.doFwActivate
  refine hI.svcCmd hs fun hs => ?_
  refine hI.ite (hI.svcResult hs) ?_
  split
  · exact hI.svcResult hs
  · exact hI.ite (hI.svcResult hs) (hI.ite (hI.svcResult hs) (hI.setReg (hI.setPhase (hI.setRegFld (hI.set hs)))))

theorem Calm.capAll (hI : Calm I) (hs : I s) : I s.capAll := hI.ite hs (hI.foldl (fun _ _ hs => hI.setPm hs) hs)

theorem Stable.doFwSafePoint (hI : Stable I) (hs : I s) : I (doFwSafePoint s) := by
  unfold Machine.doFwSafePoint
  extract_lets c s1
  have h1 : I s1 := hI.ite (hI.alertNow (hI.capAll hs)) hs
  refine hI.ite hs ?_
  split
  · exact hs
  · extract_lets s2
    have h2 : I s2 := hI.runImage h1
    split
    next b n _ =>
    extract_lets s3
    have h3 : I s3 := hI.ite (hI.acceptReturn h2) h2
    exact hI.svcResult (hI.setPhase (hI.set h3))

theorem Calm.doFwSafeTimeout (hI : Calm I) (hs : I s) : I (doFwSafeTimeout s) := hI.ite (hI.svcResult (hI.setPhase hs)) hs

theorem Calm.doFwConfirm {f : Nat} (hI : Calm I) (hs : I s) : I (doFwConfirm f s) := by
  unfold Machine.doFwConfirm
  refine hI.svcCmd hs fun hs => ?_
  refine hI.ite (hI.svcResult hs) ?_
  split
  · exact hI.svcResult hs
  · exact hI.svcResult (hI.setRegFld (hI.setPhase (hI.set (hI.runImage (hI.setSlot hs)))))

theorem Stable.revertTrial (hI : Stable I) (hs : I s) : I s.revertTrial := by
  unfold State.revertTrial
  extract_lets _ s1 _ s2
  have hs1 : I s1 := hI.setRegFld (hI.setPhase hs)
  have hs2 : I s2 := hI.set hs1
  refine hI.ite (hI.warmReset hs1) ?_
  split
  · exact hI.runImage hs1
  · exact hI.ite (hI.settled (hI.failImage hs2)) hs2

theorem Stable.doFwRevert {f : Nat} (hI : Stable I) (hs : I s) : I (doFwRevert f s) :=
  hI.svcCmd hs (fun hs => hI.ite (hI.svcResult hs) (hI.svcResult (hI.revertTrial hs)))

theorem Stable.doHeartbeatMissed (hI : Stable I) (hs : I s) : I (doHeartbeatMissed s) := hI.ite (hI.revertTrial hs) hs

theorem Stable.doTrialExpiry (hI : Stable I) (hs : I s) : I (doTrialExpiry s) := hI.ite (hI.revertTrial hs) hs

theorem Stable.doFatalStateErrorTrial {page : Nat} (hI : Stable I) (hs : I s) : I (doFatalStateErrorTrial page s) := by
  unfold Machine.doFatalStateErrorTrial
  dsimp only
  split
  · exact (hI.doFatalStateError hs)
  · exact hI.when (hI.doFatalStateError hs) fun hs => hI.revertTrial hs

theorem Stable.doDieFence {f : Nat} {bad : List (Nat × Nat × Nat)} (hI : Stable I) (hs : I s) : I (doDieFence f bad s) := by
  unfold Machine.doDieFence
  refine hI.svcCmd hs fun hs => ?_
  split
  · exact hI.svcResult hs
  · exact hI.ite (hI.svcResult hs) (hI.ite (hI.svcResult hs) (hI.ite (hI.svcResult hs)
      (hI.svcResult (hI.foldl (fun _ _ hs => hI.poison hs) (hI.setSk hs)))))

theorem Stable.doDieReturn {f : Nat} {pass : Bool} (hI : Stable I) (hs : I s) : I (doDieReturn f pass s) := by
  unfold Machine.doDieReturn
  refine hI.svcCmd hs fun hs => ?_
  split
  · exact hI.svcResult hs
  · exact hI.ite (hI.svcResult hs) (hI.ite (hI.svcResult hs) (hI.ite (hI.startMoves (hI.svcResult (hI.setSk hs)))
      (hI.svcResult (hI.freeAnswer hs))))

theorem Stable.setLanes {f : Nat} {out : Bool} (hI : Stable I) (hs : I s) : I (s.setLanes f out) := by
  unfold State.setLanes
  refine hI.svcCmd hs fun hs => ?_
  split
  · exact hI.svcResult hs
  · exact hI.svcResult (hI.when (hI.setLk hs) fun hs => hI.retrain hs)

theorem Stable.doLaneFence {f : Nat} (hI : Stable I) (hs : I s) : I (doLaneFence f s) := hI.setLanes hs

theorem Stable.doLaneReturn {f : Nat} (hI : Stable I) (hs : I s) : I (doLaneReturn f s) := hI.setLanes hs

theorem Calm.repairRow {n row : Nat} (hI : Calm I) (hs : I s) : I (s.repairRow n row) := hI.ite (hI.addReg (hI.set hs)) (hI.orReg hs)

theorem Stable.rasCount {b : Blk} {i : Nat} (hI : Stable I) (hs : I s) : I (s.rasCount b i) := by
  unfold State.rasCount
  split
  · exact hs
  · exact hI.unless (hI.set (hI.addReg hs)) fun hs => hI.when (hI.setReg (hI.orReg hs)) fun hs => hI.requestFence hs

theorem Stable.correctedError {b : Blk} {i row : Nat} (hI : Stable I) (hs : I s) : I (s.correctedError b i row) := by
  unfold State.correctedError
  refine hI.rasCount ?_
  split
  · exact hI.addReg hs
  · exact hI.addReg hs
  · exact hI.when (hI.set (hI.addReg hs)) fun hs => hI.repairRow hs
  · exact hs

theorem Calm.ringError {row : Nat} (hI : Calm I) (hs : I s) : I (s.ringError row) := hI.ite (hI.addReg (hI.set hs)) hs

theorem Stable.rulesLost {u : Nat} (hI : Stable I) (hs : I s) : I (s.rulesLost u) :=
  hI.raise (hI.foldl (fun _ _ hs => hI.setRule (hI.unpinTemplate hs)) hs)

theorem Stable.tileLost {k t : Nat} {consumer : Option (Nat × Nat)} (hI : Stable I) (hs : I s) : I (s.tileLost k t consumer) := by
  unfold State.tileLost
  dsimp only
  split
  · exact hI.settled (hI.tileFailed (hI.poison hs))
  · exact hI.ite (hI.set hs) (hI.poison hs)

theorem Stable.doEccError {page : Nat} {corrected : Bool} {row : Nat} {tile : Option (Nat × Nat × Nat)} {consumer : Option (Nat × Nat)}
    (hI : Stable I) (hs : I s) : I (doEccError page corrected row tile consumer s) := by
  unfold Machine.doEccError
  split
  · exact hs
  · refine hI.ite hs ?_
    refine hI.ite (hI.settled (hI.correctedError hs)) ?_
    extract_lets s1
    have hs1 : I s1 := hI.ite (hI.repairRow (hI.addReg hs)) (hI.ite (hI.rulesLost hs) (hI.ite (hI.ringError hs) hs))
    split
    · exact hI.ite (hI.tileLost hs1) hs1
    · exact hs1

theorem Stable.doSramPatrol {found : List Nat} (hI : Stable I) (hs : I s) : I (doSramPatrol found s) := by
  unfold Machine.doSramPatrol
  refine hI.settled ?_
  refine hI.foldl (fun _ _ hs => ?_) hs
  split
  · exact hI.ite (hI.correctedError hs) hs
  · exact hs

theorem Calm.showSnapshot (hI : Calm I) (hs : I s) : I s.showSnapshot :=
  hI.setReg (hI.setReg (hI.foldl (fun _ _ hs => hI.setReg hs) hs))

theorem Calm.doTelemetrySnapshot (hI : Calm I) (hs : I s) : I (doTelemetrySnapshot s) :=
  hI.ite hs (hI.unless (hI.set hs) fun hs => hI.showSnapshot hs)

theorem Calm.readTel {f a : Nat} (hI : Calm I) (hs : I s) : I (s.readTel f a).1 :=
  hI.iteFst (hI.readReg hs) (hI.iteFst (hI.set (hI.readReg hs)) (hI.iteFst (hI.showSnapshot (hI.set (hI.readReg hs))) (hI.readReg hs)))

theorem Calm.readWord {f a : Nat} (hI : Calm I) (hs : I s) : I (s.readWord f a) := hI.setRead (hI.readTel hs)

theorem Calm.doTelSeqLoRead {f : Nat} (hI : Calm I) (hs : I s) : I (doTelSeqLoRead f s) := hI.readWord hs

theorem Calm.doTelSeqHiRead {f : Nat} (hI : Calm I) (hs : I s) : I (doTelSeqHiRead f s) := hI.readWord hs

theorem Calm.smbRead {alsoOff : Bool} {v : Nat} (hI : Calm I) (hs : I s) : I (s.smbRead alsoOff v) := hI.set hs

theorem Calm.doSmbReadPmStatus (hI : Calm I) (hs : I s) : I (doSmbReadPmStatus s) := hI.smbRead hs

theorem Calm.doSmbReadPmTemp (hI : Calm I) (hs : I s) : I (doSmbReadPmTemp s) := hI.smbRead hs

theorem Calm.doSmbReadPmPower (hI : Calm I) (hs : I s) : I (doSmbReadPmPower s) := hI.smbRead hs

theorem Calm.doSmbReadResetCause (hI : Calm I) (hs : I s) : I (doSmbReadResetCause s) := hI.smbRead hs

theorem Calm.doSmbReadDevPart (hI : Calm I) (hs : I s) : I (doSmbReadDevPart s) := hI.smbRead hs

theorem Calm.doSmbReadDevStatus (hI : Calm I) (hs : I s) : I (doSmbReadDevStatus s) := hI.smbRead hs

theorem Calm.doSmbAlertResponse (hI : Calm I) (hs : I s) : I (doSmbAlertResponse s) :=
  hI.unless (hI.ite (hI.set hs) hs) fun hs => hI.setPm hs

/-! ### Registers -/

theorem Calm.clearFaults {b : Blk} {i : Nat} {v : W32} (hI : Calm I) (hs : I s) : I (s.clearFaults b i v) := hI.set (hI.setReg hs)

theorem Calm.setMask {b : Blk} {i : Nat} {v : W32} (hI : Calm I) (hs : I s) : I (s.setMask b i v) :=
  hI.foldl (fun _ _ hs => hI.post hs) (hI.setReg hs)

theorem Calm.injectFaults {b : Blk} {i : Nat} {v : W32} (hI : Calm I) (hs : I s) : I (s.injectFaults b i v) := by
  unfold State.injectFaults
  refine hI.ite (hI.accessRefused hs) ?_
  refine hI.foldl (fun _ _ hs => ?_) hs
  split
  · exact hI.raiseWith hs
  · exact hs

theorem Calm.setKey {b : Blk} {i : Nat} {v : W32} (hI : Calm I) (hs : I s) : I (s.setKey b i v) := hI.setReg hs

theorem Calm.setRoute {b : Blk} {i : Nat} {v : W32} (hI : Calm I) (hs : I s) : I (s.setRoute b i v) := hI.setReg hs

theorem Calm.setOwner {f : Nat} {b : Blk} {i : Nat} {v : W32} (hI : Calm I) (hs : I s) : I (s.setOwner f b i v) :=
  hI.ite (hI.accessRefused hs) (hI.ite (hI.assignCluster hs) (hI.unless (hI.setReg (hI.setReg (hI.setReg hs))) fun hs => hI.set hs))

theorem Stable.setCtrl {f : Nat} {b : Blk} {i : Nat} {v : W32} (hI : Stable I) (hs : I s) : I (s.setCtrl f b i v) :=
  hI.settled (hI.when (hI.when (hI.setEn (hI.when (hI.setExpertSel hs) fun hs => hI.ite (hI.accessRefused hs) (hI.requestFence hs)))
    fun hs => hI.ite (hI.accessRefused hs) (hI.requestReturn hs)) fun hs => hI.startMoves (hI.heldForces (hI.blockReset hs)))

theorem Stable.writeHeader {f : Nat} {b : Blk} {i off : Nat} {v : W32} (hI : Stable I) (hs : I s) : I (s.writeHeader f b i off v) :=
  hI.reach hs (fun hs => hI.ite (hI.setCtrl hs) (hI.ite (hI.clearFaults hs)
    (hI.ite (hI.setMask hs) (hI.ite (hI.setRoute hs) (hI.ite (hI.injectFaults hs) (hI.ite (hI.setOwner hs) (hI.ite (hI.setKey hs) hs)))))))

theorem Calm.onHeader {f page : Nat} {act : Blk → Nat → State → State} (hI : Calm I) (hs : I s)
    (hact : ∀ {x0 x1 s}, I s → I (act x0 x1 s)) : I (s.onHeader f page act) := by
  unfold State.onHeader
  refine hI.reach hs fun hs => ?_
  split
  · exact hact hs
  · exact hs

theorem Calm.doHoopOwnerWrite {f page : Nat} {v : W32} (hI : Calm I) (hs : I s) : I (doHoopOwnerWrite f page v s) :=
  hI.onHeader hs (fun hs => hI.setOwner hs)

theorem Calm.doExpertKeyWrite {f page : Nat} {v : W32} (hI : Calm I) (hs : I s) : I (doExpertKeyWrite f page v s) :=
  hI.onHeader hs (fun hs => hI.setKey hs)

theorem Calm.doFaultMaskWrite {f page : Nat} {v : W32} (hI : Calm I) (hs : I s) : I (doFaultMaskWrite f page v s) :=
  hI.onHeader hs (fun hs => hI.setMask hs)

theorem Calm.doFaultInject {f page : Nat} {v : W32} (hI : Calm I) (hs : I s) : I (doFaultInject f page v s) :=
  hI.onHeader hs (fun hs => hI.injectFaults hs)

theorem Calm.freeBytes {n : Nat} (hI : Calm I) (hs : I s) : I (s.freeBytes n).1 := hI.set hs

theorem Stable.writeMbCmd {f h : Nat} {v : W32} (hI : Stable I) (hs : I s) : I (s.writeMbCmd f h v) :=
  hI.ite (hI.doAttest hs) (hI.ite (hI.doGetChain hs) (hI.ite (hI.doExtend hs)
    (hI.ite (hI.doCoChallenge hs) (hI.ite (hI.doCoAuth (hI.freeBytes hs))
    (hI.ite (hI.doCoLogout hs) (hI.ite (hI.doEnrollCo (hI.freeBytes hs))
    (hI.ite (hI.doAdvanceSvn hs) (hI.ite (hI.doZeroise hs) (hI.ite (hI.doSelfTest (hI.freeAnswer hs)) (hI.reach hs (fun hs => hs)))))))))))

theorem Stable.writeSvcCmd {f : Nat} {v : W32} (hI : Stable I) (hs : I s) : I (s.writeSvcCmd f v) :=
  hI.ite (hI.doFwStage (hI.freeBytes (hI.freeAnswer (hI.freeAnswer hs))))
    (hI.ite (hI.doFwActivate hs) (hI.ite (hI.doFwConfirm hs) (hI.ite (hI.doFwRevert hs)
    (hI.ite (hI.doDieFence hs) (hI.ite (hI.doDieReturn (hI.freeAnswer hs))
    (hI.ite (hI.doLaneFence hs) (hI.ite (hI.doLaneReturn hs) (hI.reach hs (fun hs => hs)))))))))

theorem Calm.writeDet {which d : Nat} {v : W32} (hI : Calm I) (hs : I s) : I (s.writeDet which d v) :=
  hI.ite (hI.accessRefused hs) (hI.setReg hs)

theorem Calm.writeMsix {h k : Nat} {v : W32} (hI : Calm I) (hs : I s) : I (s.writeMsix h k v) :=
  hI.ite (hI.setReg hs) (hI.unless (hI.setReg hs) fun hs => hI.sendMsi (hI.setReg hs))

theorem Calm.clearBits {a : Nat} {v : W32} (hI : Calm I) (hs : I s) : I (s.clearBits a v) := hI.setReg hs

theorem Stable.writeHoopTable {h : Nat} {v : W32} (hI : Stable I) (hs : I s) : I (s.writeHoopTable h v) :=
  hI.when (hI.ite hs (hI.settled (hI.startMoves (hI.matchHoops (hI.setRegFld hs))))) fun hs => hI.settled (hI.startMoves (hI.hoopReset hs))

theorem Stable.storeWrite {f : Nat} {b : Blk} {u : Nat} {n : String} {i : Nat} {v : W32} (hI : Stable I) (hs : I s) :
    ∀ t ∈ storeWrite f b u n i v s, I t := by
  unfold Machine.storeWrite
  dsimp only
  split
  · exact hI.iteMem (hI.ofSome (hI.doTrigPartWrite hs)) (hI.iteMem (hI.ofSome (hI.reach hs (fun hs => hI.clearBits hs))) hI.ofNone)
  · exact hI.iteMem (hI.ofSome (hI.ite (hI.doRuleWrite hs) (hI.ite (hI.doRuleRead hs)
      (hI.ite (hI.doRuleEnable hs) (hI.ite (hI.doRuleDisable hs)
      (hI.ite (hI.doForceArm hs) (hI.ite (hI.doForceFire hs) (hI.ite (hI.doForceDisarm hs) (hI.reach hs (fun hs => hs))))))))))
      (hI.iteMem (hI.ofSome (hI.doPrickEnable hs)) hI.ofNone)
  · exact hI.iteMem (hI.ofSome (hI.ite (hI.doCreate hs) (hI.ite (hI.doDestroy hs)
      (hI.ite (hI.doPin hs) (hI.ite (hI.doUnpin hs) (hI.ite (hI.doQuery hs) (hI.reach hs (fun hs => hs))))))))
      (hI.iteMem (hI.ofSome (hI.reach hs (fun hs => hI.clearBits hs)))
      (hI.iteMem (hI.ofSome (hI.reach hs (fun hs => hI.ite (hI.orReg hs) (hI.startMoves (hI.setReg hs))))) hI.ofNone))
  · exact hI.iteMem (hI.ofSome (hI.doGuarWrite hs)) (hI.iteMem (hI.ofSome (hI.reach hs (fun hs => hI.setReg hs)))
      (hI.iteMem (hI.ofSome (hI.doOtEntriesWrite hs)) (hI.iteMem (hI.ofSome (hI.reach hs (fun hs => hI.clearBits hs)))
      (hI.iteMem (hI.ofSome (hI.reach hs (fun hs => hI.startMoves (hI.setReg hs)))) hI.ofNone))))
  · exact hI.iteMem (hI.ofSome (hI.reach hs (fun hs => hI.ite (hI.foldl (fun _ _ hs => hI.noteOcc (hI.setReg hs)) hs) hs))) hI.ofNone
  · exact hI.iteMem (hI.ofSome (hI.doBudgetRateWrite hs)) (hI.iteMem (hI.ofSome (hI.doBudgetCapWrite hs))
      (hI.iteMem (hI.ofSome (hI.ite (hI.doPreserve hs) (hI.ite (hI.doAdopt hs)
      (hI.ite (hI.doDiscard hs) (hI.ite (hI.doLookup hs) (hI.ite (hI.doCatalogueList hs) (hI.reach hs (fun hs => hs))))))))
      (hI.iteMem (hI.ofSome (hI.reach hs (fun hs => hI.skEvaluate (hI.setReg hs))))
      (hI.iteMem (hI.ofSome (hI.reach hs (fun hs => hI.skEvaluate (hI.setReg hs))))
      (hI.iteMem (hI.ofSome (hI.reach hs (fun hs => hI.skEvaluate (hI.setReg hs))))
      (hI.iteMem (hI.ofSome (hI.reach hs (fun hs => hI.wornNow (hI.setReg hs)))) hI.ofNone))))))
  · exact hI.iteMem (hI.ofSome (hI.doActGuarWrite hs)) (hI.iteMem (hI.ofSome (hI.reach hs (fun hs => hI.clearBits hs)))
      (hI.iteMem (hI.ofSome (hI.reach hs (fun hs => hI.setReg hs))) hI.ofNone))
  · exact hI.iteMem (hI.ofSome (hI.ite (hI.doCtxQuery hs) (hI.ite (hI.doCtxPin hs)
      (hI.ite (hI.doCtxUnpin hs) (hI.ite (hI.doCtxRestore hs) (hI.ite (hI.doPark hs)
      (hI.ite (hI.doCtxList hs) (hI.reach hs (fun hs => hs))))))))) hI.ofNone
  · exact hI.ofNone

theorem Stable.workWrite {f : Nat} {b : Blk} {u : Nat} {n : String} {i j : Nat} {v : W32} (hI : Stable I) (hs : I s) :
    ∀ t ∈ workWrite f b u n i j v s, I t := by
  unfold Machine.workWrite
  split
  · exact hI.iteMem (hI.ofSome (hI.doClGbHashWrite hs)) hI.ofNone
  · exact hI.iteMem (hI.ofSome (hI.reach hs (fun hs => hI.clearBits hs)))
      (hI.iteMem (hI.ofSome (hI.reach hs (fun hs => hI.ite (hI.accessRefused hs) (hI.setReg hs))))
      (hI.iteMem (hI.ofSome (hI.ite (hI.doChkOpen hs) (hI.ite (hI.doChkClose hs) (hI.reach hs (fun hs => hs)))))
      (hI.iteMem (hI.ofSome (hI.doKdbgSet hs)) hI.ofNone)))
  · exact hI.iteMem (hI.iteMem (hI.ofSome (hI.doPreempt (hI.freeAnswer hs)))
      (hI.ofSome (hI.ite (hI.doRelease hs) (hI.reach hs (fun hs => hs)))))
      (hI.iteMem (hI.ofSome (hI.reach hs (fun hs => hI.ite (hI.setReg hs) hs)))
      (hI.iteMem (hI.ofSome (hI.reach hs (fun hs => hI.clearBits hs)))
      (hI.iteMem (hI.ofSome (hI.doSchClusterWrite hs)) (hI.iteMem (hI.ofSome (hI.doShareWrite hs))
      (hI.iteMem (hI.ofSome (hI.doRegulatorWrite hs)) (hI.iteMem (hI.ofSome (hI.doRegulatorWrite hs))
      (hI.iteMem (hI.ofSome (hI.doRegulatorWrite hs)) hI.ofNone)))))))
  · exact hI.iteMem (hI.ofSome (hI.reach hs (fun hs => hI.ite (hI.setLk hs) hs))) (hI.iteMem (hI.ofSome (hI.doLkPkgIdWrite hs)) hI.ofNone)
  · exact hI.iteMem (hI.ofSome (hI.doIslSwMuteWrite hs)) (hI.iteMem (hI.ofSome (hI.reach hs (fun hs => hI.writeIsl hs)))
      (hI.iteMem (hI.ofSome (hI.doIslClear hs)) (hI.iteMem (hI.ofSome (hI.doRingNchWrite hs))
      (hI.iteMem (hI.ofSome (hI.doRchWrite hs)) (hI.iteMem (hI.ofSome (hI.reach hs (fun hs => hI.writeTdm hs)))
      (hI.iteMem (hI.ofSome (hI.reach hs (fun hs => hI.writeGrp hs)))
      (hI.iteMem (hI.ofSome (hI.reach hs (fun hs => hI.ite (hI.accessRefused hs) (hI.setReg hs))))
      (hI.iteMem (hI.ofSome (hI.reach hs (fun hs => hI.writeDet hs)))
      (hI.iteMem (hI.ofSome (hI.reach hs (fun hs => hI.writeDet hs)))
      (hI.iteMem (hI.ofSome (hI.reach hs (fun hs => hI.writeDet hs)))
      (hI.iteMem (hI.ofSome (hI.reach hs (fun hs => hI.clearBits hs)))
      (hI.iteMem (hI.ofSome (hI.ite (hI.doModelLoad hs) (hI.ite (hI.doModelUnload hs) (hI.reach hs (fun hs => hs))))) hI.ofNone))))))))))))
  · exact hI.iteMem (hI.ofSome (hI.reach hs (fun hs => hI.clearBits hs)))
      (hI.iteMem (hI.ofSome (hI.ite (hI.doBind hs) (hI.ite (hI.doUnbind hs)
      (hI.ite (hI.doMemRun hs) (hI.ite (hI.doMemAbort hs) (hI.reach hs (fun hs => hs)))))))
      (hI.iteMem (hI.ofSome (hI.ite (hI.doPipeApply hs) (hI.reach hs (fun hs => hs))))
      (hI.iteMem (hI.ofSome (hI.reach hs (fun hs => hI.ite (hI.accessRefused hs) (hI.setReg hs)))) hI.ofNone)))
  · exact hI.ofNone

theorem Stable.deviceWrite {f : Nat} {b : Blk} {u : Nat} {n : String} {i j : Nat} {v : W32} (hI : Stable I) (hs : I s) :
    ∀ t ∈ deviceWrite f b u n i j v s, I t := by
  unfold Machine.deviceWrite
  split
  · exact hI.iteMem (hI.ofSome (hI.reach hs (fun hs => hI.writeHoopTable hs))) hI.ofNone
  · exact hI.iteMem (hI.ofSome (hI.writeMbCmd hs)) hI.ofNone
  · exact hI.iteMem (hI.ofSome (hI.ite (hI.doStateRequest hs) (hI.reach hs (fun hs => hI.setReg hs))))
      (hI.iteMem (hI.ofSome (hI.doPlTargetWrite hs)) (hI.iteMem (hI.ofSome (hI.doPmMemLevelWrite hs))
      (hI.iteMem (hI.ofSome (hI.reach hs (fun hs => hI.setReg hs))) (hI.iteMem (hI.ofSome (hI.doPmResetWarm hs)) hI.ofNone))))
  · exact hI.iteMem (hI.ofSome (hI.writeSvcCmd hs)) (hI.iteMem (hI.ofSome (hI.reach hs (fun hs => hI.clearBits hs)))
      (hI.iteMem (hI.ofSome (hI.reach hs (fun hs => hI.clearBits hs))) hI.ofNone))
  · exact hI.iteMem (hI.ofSome (hI.ite (hI.doCqEnable hs) (hI.doCqDisable hs)))
      (hI.iteMem (hI.ofSome (hI.ite (hI.doCqResume hs) (hI.ite (hI.doCqRetry hs)
      (hI.ite (hI.doCqClearFlags hs) (hI.reach hs (fun hs => hs))))))
      (hI.iteMem (hI.ofSome (hI.reach hs (fun hs => hI.ite (hI.setCq hs) (hI.setReg hs))))
      (hI.iteMem (hI.ofSome (hI.ite (hI.doEqEnable hs) (hI.doEqDisable hs)))
      (hI.iteMem (hI.ofSome (hI.reach hs (fun hs => hI.ite (hI.setEq hs) (hI.setEq (hI.setReg hs)))))
      (hI.iteMem (hI.ofSome (hI.reach hs (fun hs => hI.writeMsix hs))) hI.ofNone)))))
  · exact hI.iteMem (hI.ofSome (hI.doCqDbTail hs)) (hI.iteMem (hI.ofSome (hI.reach hs (fun hs => hI.setReg hs)))
      (hI.iteMem (hI.ofSome (hI.doAppendGo hs)) hI.ofNone))
  · exact hI.iteMem (hI.ofSome (hI.doEqDbHead hs)) (hI.iteMem (hI.ofSome (hI.doEqDbArm hs)) hI.ofNone)
  · exact hI.ofNone

theorem Calm.storeReg {f a : Nat} {r : RegRow} {v : W32} (hI : Calm I) (hs : I s) : I (s.storeReg f a r v) :=
  hI.reach hs (fun hs => hI.ite (hI.setReg hs) hs)

theorem Stable.writeReg {f a : Nat} {v : W32} (hI : Stable I) (hs : I s) : I (s.writeReg f a v) := by
  unfold State.writeReg
  split
  · exact hI.reach hs fun hs => hs
  · refine hI.ite (hI.writeHeader hs) ?_
    split
    · exact hI.reach hs fun hs => hs
    · split
      · next h => exact hI.storeWrite hs _ h
      · split
        · next h => exact hI.workWrite hs _ h
        · split
          · next h => exact hI.deviceWrite hs _ h
          · exact hI.storeReg hs

theorem Stable.timeWrite {f : Nat} {n : String} {v : W32} {act : State → State} (hI : Stable I) (hs : I s)
    (hact : Machine.timeWrite f n v = some act) : I (act s) := by
  unfold Machine.timeWrite at hact
  split at hact
  · cases hact; exact hI.doTsSourceWrite hs
  split at hact
  · cases hact; exact hI.doLoadGo hs
  split at hact
  · cases hact; exact hI.doHostPosGo hs
  split at hact
  · cases hact; exact hI.doCaptureReq hs
  split at hact
  · cases hact; exact hI.reach hs fun hs => hI.setTs hs
  · exact nomatch hact

theorem Stable.write4 {f a : Nat} {v : W32} (hI : Stable I) (hs : I s) : I (s.write4 f a v) := by
  unfold State.write4
  have hw : I (Machine.dev (fun s => s.writeReg f a v) s) := hI.dev hs fun hs => hI.writeReg hs
  refine hI.ite (hI.ite (hI.doBlockReset (hI.dev hs fun hs => hI.writeReg hs)) ?_) hw
  split
  · next h =>
    obtain ⟨_, _, hact⟩ := Option.bind_eq_some_iff.mp h
    exact hI.timeWrite hs hact
  · exact hw

theorem Stable.writeKnot {f a : Nat} {v : W32} (hI : Stable I) (hs : I s) : I (s.writeKnot f a v) := by
  unfold State.writeKnot
  split
  exact hI.ite (hI.doKwAdd hs) (hI.ite (hI.doKwReset hs) (hI.knotWindow hs (fun hs => hs)))

theorem Stable.writeWord {f a : Nat} {v : W32} (hI : Stable I) (hs : I s) : I (s.writeWord f a v) :=
  hI.ite (hI.dev hs (fun hs => hI.writeKnot hs)) (hI.write4 hs)

theorem Stable.doRegisterWrite {f a n : Nat} {v : W64} (hI : Stable I) (hs : I s) : I (doRegisterWrite f a n v s) :=
  hI.ite (hI.writeWord hs) (hI.ite (hI.writeWord (hI.writeWord hs)) (hI.dev hs (fun hs => hI.ite (hI.badAccess hs) (hI.viewViolation hs))))

theorem Calm.clearRead {a : Nat} (hI : Calm I) (hs : I s) : I (s.clearRead a) := by
  unfold State.clearRead
  dsimp only
  split
  · exact hI.when (hI.setReg (hI.set hs)) fun hs => hI.setTu hs
  · exact (hI.setReg (hI.set hs))

theorem Calm.read4 {f a : Nat} (hI : Calm I) (hs : I s) : I (s.read4 f a).1 :=
  hI.iteFst (hI.clearRead (hI.readTel hs)) (hI.readTel hs)

theorem Calm.readAny {f a : Nat} (hI : Calm I) (hs : I s) : I (s.readAny f a).1 := by
  unfold State.readAny
  refine hI.iteFst ?_ (hI.read4 hs)
  split
  exact hs

theorem Calm.readWords {f first words : Nat} (hI : Calm I) (hs : I s) : I (s.readWords f first words).1 :=
  hI.foldlFst (fun _ _ hs => hI.iteFst (hI.readAny hs) hs) (hI.ite hs (hI.viewViolation hs))

theorem Calm.doReadClear {f a n : Nat} (hI : Calm I) (hs : I s) : I (doReadClear f a n s) := by
  unfold Machine.doReadClear
  refine hI.ite ?_ (hI.setRead (hI.readWords hs))
  split
  next hlo =>
  have h1 := hI.fst hlo (hI.readWords hs)
  split
  next hhi => exact hI.setRead (hI.fst hhi (hI.readWords h1))

theorem Calm.doStampLoRead {f a : Nat} (hI : Calm I) (hs : I s) : I (doStampLoRead f a s) := hI.ite (hI.readWord hs) hs

theorem Calm.doStitchLoRead {which : Nat} (hI : Calm I) (hs : I s) : I (doStitchLoRead which s) :=
  hI.ite (hI.readWord hs) (hI.ite (hI.readWord hs) (hI.ite (hI.readWord hs) (hI.readWord hs)))

theorem Calm.doOutOfViewAccess {f a : Nat} {write : Bool} (hI : Calm I) (hs : I s) : I (doOutOfViewAccess f a write s) :=
  hI.ite hs (hI.ite (hI.viewViolation hs) (hI.setRead (hI.viewViolation hs)))

end Invariants

/-! ## What the commands keep -/

/-- Every state that the answer leaves has `I`. -/
def leaves (I : State → Prop) (o : Out) : Prop := ∀ t, o = .next t → I t

section Commands
variable {I : State → Prop} {s : State} {f : State → State} {c : Instr}

theorem Calm.run (hI : Calm I) (hs : I s) (hf : ∀ {s}, I s → I (f s)) : leaves I (run f s) := by
  rintro t ⟨⟩
  exact hI.dev hs hf

theorem Calm.runIn {d : Domain} (hI : Calm I) (hs : I s) (hf : ∀ {s}, I s → I (f s)) : leaves I (runIn d f s) :=
  hI.run hs fun hs => hI.ite (hf hs) hs

theorem Calm.runIf {ok : Bool} (hI : Calm I) (hs : I s) (hf : ∀ {s}, I s → I (f s)) : leaves I (runIf ok f s) := by
  cases ok
  · exact fun t ht => nomatch ht
  · exact hI.run hs hf

theorem Calm.runTime (hI : Calm I) (hs : I s) (hf : ∀ {s}, I s → I (f s)) : leaves I (runTime f s) := by
  rintro t ⟨⟩
  exact hI.same (hI.part hs (hf hs)) rfl

theorem Calm.runOff (hI : Calm I) (hs : I s) (hf : ∀ {s}, I s → I (f s)) : leaves I (runOff f s) :=
  hI.runTime hs fun hs => hI.ite (hI.tsAsleep (hI.dev hs hf)) (hI.dev hs hf)

/-- A command of control keeps what goes through register writes and changes outside the stores. -/
theorem Calm.exec_of_isControl (hI : Calm I) (hs : I s) (hc : isControl c = true) : leaves I (exec c s) := by
  cases c
  case referenceEdge => exact hI.runTime hs fun hs => hI.doReferenceEdge hs
  case generatedBoundary => exact hI.runTime hs fun hs => hI.doGeneratedBoundary hs
  case refLost => exact hI.runTime hs fun hs => hI.doRefLost hs
  case tsSourceWrite => exact hI.runTime hs fun hs => hI.doTsSourceWrite hs
  case hostPosGo => exact hI.runTime hs fun hs => hI.doHostPosGo hs
  case captureReq => exact hI.run hs fun hs => hI.doCaptureReq hs
  case loadGo => exact hI.runTime hs fun hs => hI.doLoadGo hs
  case stitchLoRead => exact hI.run hs fun hs => hI.doStitchLoRead hs
  case ruleWrite => exact hI.run hs fun hs => hI.doRuleWrite hs
  case ruleRead => exact hI.run hs fun hs => hI.doRuleRead hs
  case trigPartWrite => exact hI.run hs fun hs => hI.doTrigPartWrite hs
  case outOfViewAccess => exact hI.run hs fun hs => hI.doOutOfViewAccess hs
  case readClear => exact hI.run hs fun hs => hI.doReadClear hs
  case stampLoRead => exact hI.run hs fun hs => hI.doStampLoRead hs
  case expertSelWrite => exact hI.run hs fun hs => hI.doExpertSelWrite hs
  case expertKeyWrite => exact hI.run hs fun hs => hI.doExpertKeyWrite hs
  case faultMaskWrite => exact hI.run hs fun hs => hI.doFaultMaskWrite hs
  case query => exact hI.run hs fun hs => hI.doQuery hs
  case lookup => exact hI.run hs fun hs => hI.doLookup hs
  case catalogueList => exact hI.run hs fun hs => hI.doCatalogueList hs
  case ctxQuery => exact hI.run hs fun hs => hI.doCtxQuery hs
  case ctxList => exact hI.run hs fun hs => hI.doCtxList hs
  case actGuarWrite => exact hI.run hs fun hs => hI.doActGuarWrite hs
  case clGbHashWrite => exact hI.run hs fun hs => hI.doClGbHashWrite hs
  case chkOpen => exact hI.run hs fun hs => hI.doChkOpen hs
  case chkClose => exact hI.run hs fun hs => hI.doChkClose hs
  case shareWrite => exact hI.run hs fun hs => hI.doShareWrite hs
  case regulatorWrite => exact hI.run hs fun hs => hI.doRegulatorWrite hs
  case lkPkgIdWrite => exact hI.run hs fun hs => hI.doLkPkgIdWrite hs
  case pdmLineStuck => exact hI.run hs fun hs => hI.doPdmLineStuck hs
  case pdmLineRecover => exact hI.run hs fun hs => hI.doPdmLineRecover hs
  case tdmPortLost => exact hI.run hs fun hs => hI.doTdmPortLost hs
  case tdmPortLocked => exact hI.run hs fun hs => hI.doTdmPortLocked hs
  case hwMuteRelease => exact hI.run hs fun hs => hI.doHwMuteRelease hs
  case ringClearComplete => exact hI.run hs fun hs => hI.doRingClearComplete hs
  case islSwMuteWrite => exact hI.run hs fun hs => hI.doIslSwMuteWrite hs
  case rchWrite => exact hI.run hs fun hs => hI.doRchWrite hs
  case coChallenge => exact hI.run hs fun hs => hI.doCoChallenge hs
  case coAuth => exact hI.run hs fun hs => hI.doCoAuth hs
  case coAuthExpiry => exact hI.run hs fun hs => hI.doCoAuthExpiry hs
  case coAuthHoldoffEnd => exact hI.run hs fun hs => hI.doCoAuthHoldoffEnd hs
  case coLogout => exact hI.run hs fun hs => hI.doCoLogout hs
  case enrollCo => exact hI.run hs fun hs => hI.doEnrollCo hs
  case advanceSvn => exact hI.run hs fun hs => hI.doAdvanceSvn hs
  case entropyTestFail => exact hI.run hs fun hs => hI.doEntropyTestFail hs
  case entropyRetest => exact hI.run hs fun hs => hI.doEntropyRetest hs
  case getVersion => exact hI.run hs fun hs => hI.doGetVersion hs
  case getCapabilities => exact hI.run hs fun hs => hI.doGetCapabilities hs
  case negotiateAlgorithms => exact hI.run hs fun hs => hI.doNegotiateAlgorithms hs
  case getDigests => exact hI.run hs fun hs => hI.doGetDigests hs
  case getCertificate => exact hI.run hs fun hs => hI.doGetCertificate hs
  case getMeasurements => exact hI.run hs fun hs => hI.doGetMeasurements hs
  case jtagInstruction => exact hI.run hs fun hs => hI.doJtagInstruction hs
  case pmeTurnOff => exact hI.run hs fun hs => hI.doPmeTurnOff hs
  case wakeStuck => exact hI.run hs fun hs => hI.doWakeStuck hs
  case powerMeasure => exact hI.run hs fun hs => hI.doPowerMeasure hs
  case plTargetWrite => exact hI.run hs fun hs => hI.doPlTargetWrite hs
  case levelChangeDone => exact hI.run hs fun hs => hI.doLevelChangeDone hs
  case pmMemLevelWrite => exact hI.run hs fun hs => hI.doPmMemLevelWrite hs
  case fwActivate => exact hI.run hs fun hs => hI.doFwActivate hs
  case fwSafeTimeout => exact hI.run hs fun hs => hI.doFwSafeTimeout hs
  case fwConfirm => exact hI.run hs fun hs => hI.doFwConfirm hs
  case telemetrySnapshot => exact hI.run hs fun hs => hI.doTelemetrySnapshot hs
  case telSeqLoRead => exact hI.run hs fun hs => hI.doTelSeqLoRead hs
  case telSeqHiRead => exact hI.run hs fun hs => hI.doTelSeqHiRead hs
  case smbReadPmStatus => exact hI.run hs fun hs => hI.doSmbReadPmStatus hs
  case smbReadPmTemp => exact hI.run hs fun hs => hI.doSmbReadPmTemp hs
  case smbReadPmPower => exact hI.run hs fun hs => hI.doSmbReadPmPower hs
  case smbReadResetCause => exact hI.run hs fun hs => hI.doSmbReadResetCause hs
  case smbReadDevPart => exact hI.run hs fun hs => hI.doSmbReadDevPart hs
  case smbReadDevStatus => exact hI.run hs fun hs => hI.doSmbReadDevStatus hs
  case smbAlertResponse => exact hI.run hs fun hs => hI.doSmbAlertResponse hs
  case wakeStuckClear => exact hI.run hs fun hs => hI.doWakeStuckClear hs
  all_goals exact nomatch hc

/-- Every command keeps what goes through writes of registers, objects and knots and changes outside them. -/
theorem Stable.exec (hI : Stable I) (hs : I s) (c : Instr) : leaves I (exec c s) := by
  cases hc : isControl c
  case true => exact hI.exec_of_isControl hs hc
  cases c
  case positionReached => exact hI.runTime hs fun hs => hI.doPositionReached hs
  case recordSequenced => exact hI.runIn hs fun hs => hI.doRecordSequenced hs
  case ruleEvaluate => exact hI.runIn hs fun hs => hI.doRuleEvaluate hs
  case pendingFireAppend => exact hI.runIn hs fun hs => hI.doPendingFireAppend hs
  case fireHoldExpiry => exact hI.runIn hs fun hs => hI.doFireHoldExpiry hs
  case disarm => exact hI.runIn hs fun hs => hI.doDisarm hs
  case ruleEnable => exact hI.run hs fun hs => hI.doRuleEnable hs
  case ruleDisable => exact hI.run hs fun hs => hI.doRuleDisable hs
  case forceArm => exact hI.run hs fun hs => hI.doForceArm hs
  case forceFire => exact hI.run hs fun hs => hI.doForceFire hs
  case forceDisarm => exact hI.run hs fun hs => hI.doForceDisarm hs
  case prickEnable => exact hI.run hs fun hs => hI.doPrickEnable hs
  case prickingEntry => exact hI.runIn hs fun hs => hI.doPrickingEntry hs
  case prickingWake => exact hI.run hs fun hs => hI.doPrickingWake hs
  case registerWrite => exact hI.runTime hs fun hs => hI.doRegisterWrite hs
  case blockEnable => exact hI.run hs fun hs => hI.doBlockEnable hs
  case blockDisable => exact hI.run hs fun hs => hI.doBlockDisable hs
  case fenceReq => exact hI.run hs fun hs => hI.doFenceReq hs
  case returnReq => exact hI.run hs fun hs => hI.doReturnReq hs
  case blockReset => exact hI.runTime hs fun hs => hI.doBlockReset hs
  case blockStartComplete => exact hI.run hs fun hs => hI.doBlockStartComplete hs
  case blockStopComplete => exact hI.run hs fun hs => hI.doBlockStopComplete hs
  case fatalStateError => exact hI.run hs fun hs => hI.doFatalStateErrorTrial hs
  case hoopOwnerWrite => exact hI.run hs fun hs => hI.doHoopOwnerWrite hs
  case faultInject => exact hI.run hs fun hs => hI.doFaultInject hs
  case cqDbTail => exact hI.run hs fun hs => hI.doCqDbTail hs
  case appendGo => exact hI.run hs fun hs => hI.doAppendGo hs
  case commandFetched => exact hI.run hs fun hs => hI.doCommandFetched hs
  case commandBegin => exact hI.run hs fun hs => hI.doCommandBegin hs
  case commandCommit => exact hI.run hs fun hs => hI.doCommandCommit hs
  case nop => exact hI.run hs fun hs => hI.doNop hs
  case runPattern => exact hI.run hs fun hs => hI.doRunPattern hs
  case runPatternArmOnly => exact hI.run hs fun hs => hI.doRunPatternArmOnly hs
  case move => exact hI.run hs fun hs => hI.doMove hs
  case knotWait => exact hI.run hs fun hs => hI.doKnotWait hs
  case knotWaitTimeout => exact hI.run hs fun hs => hI.doKnotWaitTimeout hs
  case knotSignal => exact hI.run hs fun hs => hI.doKnotSignal hs
  case atStitch => exact hI.run hs fun hs => hI.doAtStitch hs
  case fence => exact hI.run hs fun hs => hI.doFence hs
  case postEvent => exact hI.run hs fun hs => hI.doPostEvent hs
  case contextOpen => exact hI.run hs fun hs => hI.doContextOpen hs
  case contextClose => exact hI.run hs fun hs => hI.doContextClose hs
  case sealLoad => exact hI.run hs fun hs => hI.doSealLoad hs
  case cqResume => exact hI.run hs fun hs => hI.doCqResume hs
  case cqRetry => exact hI.run hs fun hs => hI.doCqRetry hs
  case cqClearFlags => exact hI.run hs fun hs => hI.doCqClearFlags hs
  case cqEnable => exact hI.run hs fun hs => hI.doCqEnable hs
  case cqDisable => exact hI.run hs fun hs => hI.doCqDisable hs
  case eqEnable => exact hI.run hs fun hs => hI.doEqEnable hs
  case eqDisable => exact hI.run hs fun hs => hI.doEqDisable hs
  case eqDbHead => exact hI.run hs fun hs => hI.doEqDbHead hs
  case eqDbArm => exact hI.run hs fun hs => hI.doEqDbArm hs
  case eqCoalesceExpiry => exact hI.run hs fun hs => hI.doEqCoalesceExpiry hs
  case hoopEnableWrite => exact hI.run hs fun hs => hI.doHoopEnableWrite hs
  case hoopReset => exact hI.run hs fun hs => hI.doHoopReset hs
  case vfEnableChange => exact hI.run hs fun hs => hI.doVfEnableChange hs
  case functionLevelReset => exact hI.run hs fun hs => hI.doFunctionLevelReset hs
  case conventionalReset => exact hI.run hs fun hs => hI.doConventionalReset hs
  case create => exact hI.run hs fun hs => hI.doCreate hs
  case destroy => exact hI.run hs fun hs => hI.doDestroy hs
  case pin => exact hI.run hs fun hs => hI.doPin hs
  case unpin => exact hI.run hs fun hs => hI.doUnpin hs
  case otEntriesWrite => exact hI.run hs fun hs => hI.doOtEntriesWrite hs
  case guarWrite => exact hI.run hs fun hs => hI.doGuarWrite hs
  case allocationGranted => exact hI.run hs fun hs => hI.doAllocationGranted hs
  case shuttleRangeDone => exact hI.run hs fun hs => hI.doShuttleRangeDone hs
  case codecRangeDone => exact hI.run hs fun hs => hI.doCodecRangeDone hs
  case retiringRelease => exact hI.run hs fun hs => hI.doRetiringRelease hs
  case flashPageRead => exact hI.run hs fun hs => hI.doFlashPageRead hs
  case patrolRead => exact hI.run hs fun hs => hI.doPatrolRead hs
  case internalWorkDone => exact hI.run hs fun hs => hI.doInternalWorkDone hs
  case budgetAdmitted => exact hI.run hs fun hs => hI.doBudgetAdmitted hs
  case budgetCapWrite => exact hI.run hs fun hs => hI.doBudgetCapWrite hs
  case budgetRateWrite => exact hI.run hs fun hs => hI.doBudgetRateWrite hs
  case preserve => exact hI.run hs fun hs => hI.doPreserve hs
  case adopt => exact hI.run hs fun hs => hI.doAdopt hs
  case discard => exact hI.run hs fun hs => hI.doDiscard hs
  case skeinReloadComplete => exact hI.run hs fun hs => hI.doSkeinReloadComplete hs
  case restoreStart => exact hI.runIn hs fun hs => hI.doRestoreStart hs
  case residencyStarved => exact hI.runIn hs fun hs => hI.doResidencyStarved hs
  case ctxPin => exact hI.run hs fun hs => hI.doCtxPin hs
  case ctxUnpin => exact hI.run hs fun hs => hI.doCtxUnpin hs
  case ctxRestore => exact hI.run hs fun hs => hI.doCtxRestore hs
  case park => exact hI.run hs fun hs => hI.doPark hs
  case gemm => exact hI.run hs fun hs => hI.doGemm hs
  case vector => exact hI.run hs fun hs => hI.doVector hs
  case knotWaitStep => exact hI.run hs fun hs => hI.doKnotWaitStep hs
  case knotSignalStep => exact hI.run hs fun hs => hI.doKnotSignalStep hs
  case conv => exact hI.run hs fun hs => hI.doConv hs
  case dwconv => exact hI.run hs fun hs => hI.doDwconv hs
  case pool => exact hI.run hs fun hs => hI.doPool hs
  case resize => exact hI.run hs fun hs => hI.doResize hs
  case argmax => exact hI.run hs fun hs => hI.doArgmax hs
  case boxdec => exact hI.run hs fun hs => hI.doBoxdec hs
  case haloPut => exact hI.run hs fun hs => hI.doHaloPut hs
  case haloGet => exact hI.run hs fun hs => hI.doHaloGet hs
  case kvAppend => exact hI.run hs fun hs => hI.doKvAppend hs
  case attnFwd => exact hI.run hs fun hs => hI.doAttnFwd hs
  case attnBwd => exact hI.run hs fun hs => hI.doAttnBwd hs
  case recLinear => exact hI.run hs fun hs => hI.doRecLinear hs
  case recGru => exact hI.run hs fun hs => hI.doRecGru hs
  case recLstm => exact hI.run hs fun hs => hI.doRecLstm hs
  case stepComplete => exact hI.run hs fun hs => hI.doStepComplete hs
  case kwAdd => exact hI.run hs fun hs => hI.doKwAdd hs
  case kwReset => exact hI.run hs fun hs => hI.doKwReset hs
  case kdbgSet => exact hI.run hs fun hs => hI.doKdbgSet hs
  case schClusterWrite => exact hI.run hs fun hs => hI.doSchClusterWrite hs
  case turnEnd => exact hI.run hs fun hs => hI.doTurnEnd hs
  case tokenIssue => exact hI.run hs fun hs => hI.doTokenIssue hs
  case preempt => exact hI.run hs fun hs => hI.doPreempt hs
  case release => exact hI.run hs fun hs => hI.doRelease hs
  case linkTrainingComplete => exact hI.run hs fun hs => hI.doLinkTrainingComplete hs
  case linkDown => exact hI.run hs fun hs => hI.doLinkDown hs
  case flitReceived => exact hI.run hs fun hs => hI.doFlitReceived hs
  case nak => exact hI.run hs fun hs => hI.doNak hs
  case linkRekey => exact hI.run hs fun hs => hI.doLinkRekey hs
  case peerNewSession => exact hI.run hs fun hs => hI.doPeerNewSession hs
  case peerUnreachableTimeout => exact hI.run hs fun hs => hI.doPeerUnreachableTimeout hs
  case moveReq => exact hI.run hs fun hs => hI.doMoveReq hs
  case pullReq => exact hI.run hs fun hs => hI.doPullReq hs
  case pullData => exact hI.runIf hs fun hs => hI.doPullData hs
  case prepared => exact hI.run hs fun hs => hI.doPrepared hs
  case refused => exact hI.run hs fun hs => hI.doRefused hs
  case committed => exact hI.run hs fun hs => hI.doCommitted hs
  case cancel => exact hI.run hs fun hs => hI.doCancel hs
  case knotSig => exact hI.run hs fun hs => hI.doKnotSig hs
  case eventFwd => exact hI.run hs fun hs => hI.doEventFwd hs
  case ringFrame => exact hI.runIf hs fun hs => hI.doRingFrame hs
  case detectorHop => exact hI.runIf hs fun hs => hI.doDetectorHop hs
  case segmentReady => exact hI.run hs fun hs => hI.doSegmentReady hs
  case modelLoad => exact hI.run hs fun hs => hI.doModelLoad hs
  case modelUnload => exact hI.run hs fun hs => hI.doModelUnload hs
  case hwMuteAssert => exact hI.run hs fun hs => hI.doHwMuteAssert hs
  case islClear => exact hI.run hs fun hs => hI.doIslClear hs
  case ringNchWrite => exact hI.run hs fun hs => hI.doRingNchWrite hs
  case groupEnable => exact hI.run hs fun hs => hI.doGroupEnable hs
  case csiFrameStart => exact hI.run hs fun hs => hI.doCsiFrameStart hs
  case csiLine => exact hI.runIf hs fun hs => hI.doCsiLine hs
  case csiFrameEnd => exact hI.run hs fun hs => hI.doCsiFrameEnd hs
  case frameTimeout => exact hI.run hs fun hs => hI.doFrameTimeout hs
  case frameCommit => exact hI.run hs fun hs => hI.doFrameCommit hs
  case bind => exact hI.run hs fun hs => hI.doBind hs
  case unbind => exact hI.run hs fun hs => hI.doUnbind hs
  case memRun => exact hI.run hs fun hs => hI.doMemRun hs
  case memAbort => exact hI.run hs fun hs => hI.doMemAbort hs
  case memJobCommit => exact hI.run hs fun hs => hI.doMemJobCommit hs
  case pipeApply => exact hI.run hs fun hs => hI.doPipeApply hs
  case attest => exact hI.run hs fun hs => hI.doAttest hs
  case getChain => exact hI.run hs fun hs => hI.doGetChain hs
  case extend => exact hI.run hs fun hs => hI.doExtend hs
  case zeroise => exact hI.run hs fun hs => hI.doZeroise hs
  case selfTest => exact hI.run hs fun hs => hI.doSelfTest hs
  case softErrorTimeout => exact hI.run hs fun hs => hI.doSoftErrorTimeout hs
  case challenge => exact hI.run hs fun hs => hI.doChallenge hs
  case keyExchange => exact hI.run hs fun hs => hI.doKeyExchange hs
  case finish => exact hI.run hs fun hs => hI.doFinish hs
  case endSession => exact hI.run hs fun hs => hI.doEndSession hs
  case keyProg => exact hI.run hs fun hs => hI.doKeyProg hs
  case scrubComplete => exact hI.run hs fun hs => hI.doScrubComplete hs
  case dramZeroFill => exact hI.run hs fun hs => hI.doDramZeroFill hs
  case stateRequestActive => exact hI.run hs fun hs => hI.doStateRequest hs
  case stateRequestDoze => exact hI.run hs fun hs => hI.doStateRequest hs
  case stateRequestListen => exact hI.run hs fun hs => hI.doStateRequest hs
  case stateRequestOff => exact hI.run hs fun hs => hI.doStateRequest hs
  case drainComplete => exact hI.run hs fun hs => hI.doDrainComplete hs
  case drainTimeout => exact hI.run hs fun hs => hI.doDrainTimeout hs
  case pmeTimeout => exact hI.run hs fun hs => hI.doPmeTimeout hs
  case entryComplete => exact hI.runTime hs fun hs => hI.doEntryComplete hs
  case wakeInEvent => exact hI.runTime hs fun hs => hI.doWakeInEvent hs
  case powerGoodTimeout => exact hI.run hs fun hs => hI.doPowerGoodTimeout hs
  case powerGoodLost => exact hI.run hs fun hs => hI.doPowerGoodLost hs
  case exitComplete => exact hI.runTime hs fun hs => hI.doExitComplete hs
  case idleEntry => exact hI.run hs fun hs => hI.doIdleEntry hs
  case thermalStep => exact hI.runIf hs fun hs => hI.doThermalStep hs
  case thermalTrip => exact hI.runOff hs fun hs => hI.doThermalTrip hs
  case memLevelChangeDone => exact hI.run hs fun hs => hI.doMemLevelChangeDone hs
  case pmResetWarm => exact hI.run hs fun hs => hI.doPmResetWarm hs
  case coldReset => exact hI.runTime hs fun hs => hI.doColdReset hs
  case warmReset => exact hI.run hs fun hs => hI.doWarmReset hs
  case bootComplete => exact hI.runTime hs fun hs => hI.doBootComplete hs
  case sysclkStop => exact hI.runOff hs fun hs => hI.doSysclkStop hs
  case audclkStop => exact hI.run hs fun hs => hI.doAudclkStop hs
  case fwStage => exact hI.run hs fun hs => hI.doFwStage hs
  case fwSafePoint => exact hI.run hs fun hs => hI.doFwSafePoint hs
  case fwRevert => exact hI.run hs fun hs => hI.doFwRevert hs
  case heartbeatMissed => exact hI.run hs fun hs => hI.doHeartbeatMissed hs
  case trialExpiry => exact hI.run hs fun hs => hI.doTrialExpiry hs
  case dieFence => exact hI.run hs fun hs => hI.doDieFence hs
  case dieReturn => exact hI.run hs fun hs => hI.doDieReturn hs
  case laneFence => exact hI.run hs fun hs => hI.doLaneFence hs
  case laneReturn => exact hI.run hs fun hs => hI.doLaneReturn hs
  case stackDrainTimeout => exact hI.run hs fun hs => hI.doStackDrainTimeout hs
  case healthCheckComplete => exact hI.run hs fun hs => hI.doHealthCheckComplete hs
  case eccError => exact hI.run hs fun hs => hI.doEccError hs
  case sramPatrol => exact hI.run hs fun hs => hI.doSramPatrol hs
  case laneFault => exact hI.run hs fun hs => hI.doLaneFault hs
  case ctxQuantumElapsed => exact hI.runIn hs fun hs => hI.doCtxQuantumElapsed hs
  case sysclkReturn => exact hI.runTime hs fun hs => hI.doSysclkReturn hs
  case pcieLinkUp => exact hI.run hs fun hs => hI.doPcieLinkUp hs
  all_goals exact nomatch hc

end Commands

/-! ## The invariants of the two statements -/

/-- The state of part `p`, with its stores in canonical form. -/
def State.canonicalOn (p : Part) (s : State) : Prop :=
  s.part = p ∧ mwf (regReset p) 0 s.regs = true ∧ mwf (fun _ => (0 : W32)) 0 s.knots = true ∧ mwf (fun _ => Obj.dflt) 0 s.objs = true

theorem canonicalOn_part {s : State} : s.canonicalOn s.part ↔ s.canonical = true := by
  simp [State.canonical, State.canonicalOn, and_assoc]

/-- The canonical form looks at no more than the core of the state. -/
theorem canonicalOn_of_core {p : Part} {s t : State} (hs : s.canonicalOn p) (h : t.core = s.core) : t.canonicalOn p := by
  simp only [State.core, Prod.mk.injEq] at h
  obtain ⟨hpart, hregs, hobjs, hknots⟩ := h
  simpa only [State.canonicalOn, hpart, hregs, hobjs, hknots] using hs

theorem core_of_stores {s t : State} (h : t.stores = s.stores) : t.core = s.core := by
  simp only [State.stores, Prod.mk.injEq] at h
  obtain ⟨hpart, hregs, hobjs, -, -, -, -, hknots, -⟩ := h
  simp only [State.core, hpart, hregs, hobjs, hknots]

/-- RESET_CAUSE resets to 0 on every part. -/
theorem regReset_RESET_CAUSE (p : Part) : regReset p R.RESET_CAUSE = 0 := rfl

/-- A cold reset leaves the object table and the knots empty, and of the register file some entries and RESET_CAUSE. -/
theorem canonicalOn_coldReset {p : Part} {s : State} {cause : Nat} (hs : s.canonicalOn p) : (s.coldReset cause).canonicalOn p := by
  obtain ⟨hpart, hregs, -, -⟩ := hs
  refine ⟨hpart, ?_, rfl, rfl⟩
  simp only [State.coldReset]
  rw [← regReset_RESET_CAUSE p]
  exact mwf_mset (regReset p) 0 _ R.RESET_CAUSE (w32 cause) (Nat.zero_le _) (mwf_filter _ _ _ _ hregs)

theorem mwf_foldl_mset {l : List (Nat × W32)} {m : SMap W32} (h : mwf (fun _ => (0 : W32)) 0 m = true) :
    mwf (fun _ => (0 : W32)) 0 (l.foldl (fun m x => mset 0 m x.1 x.2) m) = true :=
  List.foldlRecOn (motive := fun m => mwf (fun _ => (0 : W32)) 0 m = true) l _ h
    fun m hm x _ => mwf_mset (fun _ => 0) 0 m x.1 x.2 (Nat.zero_le _) hm

/-- The canonical form goes through the writes of registers, objects and knots. -/
theorem stable_canonicalOn (p : Part) : Stable (State.canonicalOn p) where
  setReg := by
    rintro s a v ⟨rfl, hregs, hrest⟩
    exact ⟨rfl, mwf_mset _ _ _ _ _ (Nat.zero_le _) hregs, hrest⟩
  dropRegs := fun ⟨hpart, hregs, hrest⟩ => ⟨hpart, mwf_filter _ _ _ _ hregs, hrest⟩
  same := fun hs h => canonicalOn_of_core hs (core_of_stores h)
  part := fun ⟨hs, _⟩ ⟨_, ht⟩ => ⟨hs, ht⟩
  setObj := fun ⟨hpart, hregs, hknots, hobjs⟩ => ⟨hpart, hregs, hknots, mwf_mset (fun _ => Obj.dflt) _ _ _ _ (Nat.zero_le _) hobjs⟩
  putKnots := fun ⟨hpart, hregs, hknots, hobjs⟩ => ⟨hpart, hregs, mwf_foldl_mset hknots, hobjs⟩
  dropKnots := fun ⟨hpart, hregs, hknots, hobjs⟩ => ⟨hpart, hregs, mwf_filter _ _ _ _ hknots, hobjs⟩
  loose := canonicalOn_of_core
  coldReset := canonicalOn_coldReset

/-- Register writes, and changes outside the stores, keep the stores that hold a program's work. -/
theorem calm_keepsStore (s : State) : Calm (keepsStore s) where
  setReg := id
  dropRegs := id
  same := by
    intro t u ht h
    simp only [State.stores, Prod.mk.injEq] at h
    obtain ⟨-, -, hobjs, hallocs, hmoves, hflights, hcqs, hknots, hctxs, hcat, hlinks⟩ := h
    simpa only [keepsStore, hobjs, hallocs, hmoves, hflights, hcqs, hknots, hctxs, hcat, hlinks] using ht
  part := fun _ ht => ht

/-! ## Every command answers -/

/-- The commands that may move the clock or the scene-time unit. -/
def movesTime : Instr → Bool
  | .referenceEdge .. | .generatedBoundary | .refLost | .tsSourceWrite .. | .hostPosGo .. | .loadGo .. | .positionReached .. | .blockReset ..
  | .registerWrite .. | .bootComplete .. | .entryComplete .. | .exitComplete .. | .thermalTrip | .wakeInEvent .. | .coldReset .. | .sysclkStop
  | .sysclkReturn => true
  | _ => false

/-- What a command of a sender answers: a state with the part and the waiting commands as before, and with the clock and the scene-time
unit as before where the command moves no time. -/
def answers (c : Instr) (s : State) (o : Out) : Prop :=
  ∃ t, o = .next t ∧ t.part = s.part ∧ t.pending = s.pending ∧ (movesTime c = false → t.now = s.now ∧ t.ts = s.ts ∧ t.pos = s.pos)

section Answers
variable {c : Instr} {s : State} {f : State → State}

theorem answers_run : answers c s (run f s) := ⟨_, rfl, rfl, rfl, fun _ => ⟨rfl, rfl, rfl⟩⟩

theorem answers_runIf {ok : Bool} (hok : ok = true) : answers c s (runIf ok f s) := by
  subst hok
  exact answers_run

theorem answers_runTime (hc : movesTime c = true) : answers c s (runTime f s) :=
  ⟨_, rfl, rfl, rfl, fun h => absurd hc (by simp [h])⟩

theorem answers_runOff (hc : movesTime c = true) : answers c s (runOff f s) := answers_runTime hc

theorem runIf_of_not {ok : Bool} (hok : ok = false) : runIf ok f s = .refused .illFormed := by
  subst hok
  rfl

/-- A command that a sender can send answers; each is an operation of the blocks, but for those that move time. -/
theorem exec_answers (hc : c.wellFormed = true) : answers c s (exec c s) := by
  cases c
  case pullData | ringFrame | detectorHop | csiLine | thermalStep => exact answers_runIf hc
  case referenceEdge | generatedBoundary | refLost | tsSourceWrite | hostPosGo | loadGo | positionReached | blockReset | registerWrite |
      bootComplete | entryComplete | exitComplete | wakeInEvent | coldReset | sysclkReturn =>
    exact answers_runTime rfl
  case thermalTrip | sysclkStop => exact answers_runOff rfl
  all_goals exact answers_run

/-- The terms that no sender can send are refused under that name. -/
theorem exec_illFormed (hc : c.wellFormed = false) : exec c s = .refused .illFormed := by
  cases c
  case pullData | ringFrame | detectorHop | csiLine | thermalStep =>
    exact runIf_of_not hc
  all_goals exact nomatch hc

end Answers

/-- Settles O3: the canonical form goes through the writes of registers, objects and knots, and through every change elsewhere; every
command is built of those. -/
theorem stepsKeepTheCanonicalForm : Obligations.StepsKeepTheCanonicalForm := by
  unfold Obligations.StepsKeepTheCanonicalForm
  intro s t hs ht
  have hs' := canonicalOn_part.mpr hs
  unfold step at ht
  split at ht
  · cases ht
    exact hs
  · next c rest _ =>
    have hrest : ({ s with pending := rest } : State).canonicalOn s.part := hs'
    have h := (stable_canonicalOn s.part).exec hrest c t ht
    obtain ⟨hpart, -⟩ := id h
    exact canonicalOn_part.mp (hpart ▸ h)

/-- Settles O4: by the form of each command's answer, and for the commands of control by what register writes and changes outside the
stores leave alone. -/
theorem commandsRunAndKeepTheRest : Obligations.CommandsRunAndKeepTheRest := by
  unfold Obligations.CommandsRunAndKeepTheRest
  refine ⟨fun c s => ⟨fun hc => ?_, exec_illFormed⟩, fun c s t ht => ?_⟩
  · obtain ⟨t, ht, -⟩ := exec_answers hc
    exact ⟨t, ht⟩
  · have hc : c.wellFormed = true := by
      by_contra hc
      rw [exec_illFormed (by simpa using hc)] at ht
      exact nomatch ht
    obtain ⟨u, hu, hpart, hpending, htime⟩ := exec_answers (s := s) hc
    cases hu.symm.trans ht
    refine ⟨hpart, hpending, fun hcontrol => ?_, fun h => htime ?_⟩
    · exact (calm_keepsStore s).exec_of_isControl ⟨rfl, rfl, rfl, rfl, rfl, rfl, rfl, rfl, rfl⟩ hcontrol t ht
    · cases c
      case referenceEdge | generatedBoundary | refLost | tsSourceWrite | hostPosGo | loadGo | positionReached | blockReset | registerWrite |
          bootComplete | entryComplete | exitComplete | thermalTrip | wakeInEvent | coldReset | sysclkStop | sysclkReturn =>
        exact h.elim
      all_goals rfl

end Sys2Proof.Machine

namespace Sys2Proof.Machine

/-! ## The header of a block's page -/

section Page
variable (s : State) (b : Blk) (i : Nat) (a st : Nat)

/-- A state entered: STATE and the two words of the stamp change together (R104). -/
theorem reg_enterState : (s.enterState b i st).reg a =
    if a = R.STAMP_HI (pageOf b i) then w32 (s.count / 2 ^ 32)
    else if a = R.STAMP_LO (pageOf b i) then w32 (s.count % 2 ^ 32)
    else if a = R.BLOCK_STATE (pageOf b i) then setFld (s.reg (R.BLOCK_STATE (pageOf b i))) 0 3 st
    else s.reg a := by
  simp only [State.enterState, reg_setReg, setRegFld_eq]
  rfl

theorem reg_state_enterState :
    (s.enterState b i st).reg (R.BLOCK_STATE (pageOf b i)) = setFld (s.reg (R.BLOCK_STATE (pageOf b i))) 0 3 st := by
  simp [reg_enterState]

theorem reg_ctrl_enterState : (s.enterState b i st).reg (R.BLOCK_CTRL (pageOf b i)) = s.reg (R.BLOCK_CTRL (pageOf b i)) := by
  simp [reg_enterState]

theorem stamp_enterState : (s.enterState b i st).reg (R.STAMP_LO (pageOf b i)) = w32 (s.count % 2 ^ 32) ∧
    (s.enterState b i st).reg (R.STAMP_HI (pageOf b i)) = w32 (s.count / 2 ^ 32) := by
  simp [reg_enterState]

theorem stOf_enterState : (s.enterState b i st).stOf b i = st % 8 := by
  simp only [State.stOf, State.blkState, reg_state_enterState]
  exact fld_setFld_same _ 0 3 st (by decide)

theorem en_enterState : (s.enterState b i st).en b i = s.en b i := by
  simp only [State.en, reg_ctrl_enterState]

/-- The bits above STATE stay. -/
theorem bit_state_enterState {n : Nat} (hn : 3 ≤ n) :
    bit ((s.enterState b i st).reg (R.BLOCK_STATE (pageOf b i))) n = bit (s.reg (R.BLOCK_STATE (pageOf b i))) n := by
  rw [reg_state_enterState]
  exact bit_setFld_ne _ 0 3 st n (by decide) (.inr hn)

/-- A start writes no register. -/
theorem reg_startUnit : (s.startUnit b i).reg a = s.reg a := by
  cases b <;> rfl

variable (lo len x : Nat)

/-- A field written in BLOCK_CTRL leaves BLOCK_STATE. -/
theorem reg_state_setCtrl :
    (s.setRegFld (R.BLOCK_CTRL (pageOf b i)) lo len x).reg (R.BLOCK_STATE (pageOf b i)) = s.reg (R.BLOCK_STATE (pageOf b i)) :=
  reg_setReg_ne _ _ _ _ (by simp)

/-- A field written in BLOCK_STATE leaves BLOCK_CTRL. -/
theorem reg_ctrl_setState :
    (s.setRegFld (R.BLOCK_STATE (pageOf b i)) lo len x).reg (R.BLOCK_CTRL (pageOf b i)) = s.reg (R.BLOCK_CTRL (pageOf b i)) :=
  reg_setReg_ne _ _ _ _ (by simp)

theorem reg_setRegFld_same : (s.setRegFld a lo len x).reg a = setFld (s.reg a) lo len x := reg_setReg_same _ _ _

end Page

/-! ## What a write on a page answers -/

/-- A write of a page acts on the block that the page belongs to. -/
theorem onPage_eq {s : State} {f page : Nat} {b : Blk} {i : Nat} {act : Blk → Nat → State → State} (hhead : headerAt page = some (b, i))
    (hreach : s.reaches f (R.BLOCK_CTRL (page * 0x1000)) = true) : s.onPage f page act = act b i s := by
  rw [State.onPage, reach_of_reaches _ _ _ _ hreach, hhead]

/-- The part of a machine is fixed. -/
theorem stable_part (p : Part) : Stable (fun s => s.part = p) where
  setReg := id
  dropRegs := id
  same := fun hs h => (congrArg Prod.fst h).trans hs
  part := fun hs _ => hs
  setObj := id
  putKnots := id
  dropKnots := id
  loose := fun hs h => (congrArg Prod.fst h).trans hs
  coldReset := id

/-- A command whose operation leaves what `g` makes of `u`. -/
theorem completesThen_run {c : Instr} {f g : State → State} {s u : State} {p : State → Prop} (hc : exec c s = run f s) (hf : f s = g u)
    (hp : p u) : completesThen c s g p := ⟨u, by rw [hc, run_next, dev_congr s (g := fun _ => g u) hf], hp⟩

/-- A command whose operation keeps the part leaves the registers that the operation leaves. -/
theorem completes_regs {c : Instr} {f : State → State} {s t : State} {p : State → Prop} (hc : exec c s = run f s) (hf : f s = t)
    (hpart : t.part = s.part) (hp : ∀ u : State, u.reg = t.reg → p u) : completes c s p :=
  ⟨dev f s, hc, hp _ (funext fun a => by rw [reg_dev s a f (by rw [hf, hpart]), hf])⟩

section SameRegisters
variable {s t : State} {b : Blk} {i : Nat} (h : t.reg = s.reg)
include h

theorem stOf_congr : t.stOf b i = s.stOf b i := by simp only [State.stOf, State.blkState, h]

theorem en_congr : t.en b i = s.en b i := by simp only [State.en, h]

theorem fencePending_congr : t.fencePending b i = s.fencePending b i := by simp only [State.fencePending, h]

end SameRegisters

/-! ## EN (R104) -/

section Enable
variable {s : State} {b : Blk} {i : Nat}

/-- The state in which a value of EN stands in BLOCK_CTRL, before the block moves. -/
def State.withEn (s : State) (b : Blk) (i : Nat) (on : Bool) : State := s.setRegFld (R.BLOCK_CTRL (pageOf b i)) 0 1 (b2n on)

theorem withEn_en (on : Bool) : (s.withEn b i on).en b i = on := by
  rw [State.en, State.withEn, reg_setRegFld_same, bit_setFld_same _ _ _ (by decide)]
  cases on <;> rfl

theorem reg_withEn_ne (on : Bool) {a : Nat} (ha : a ≠ R.BLOCK_CTRL (pageOf b i)) : (s.withEn b i on).reg a = s.reg a :=
  reg_setReg_ne _ _ _ _ ha

theorem reg_state_withEn (on : Bool) : (s.withEn b i on).reg (R.BLOCK_STATE (pageOf b i)) = s.reg (R.BLOCK_STATE (pageOf b i)) :=
  reg_state_setCtrl _ _ _ _ _ _

theorem stOf_withEn (on : Bool) : (s.withEn b i on).stOf b i = s.stOf b i := by simp only [State.stOf, State.blkState, reg_state_withEn]

theorem fencePending_withEn (on : Bool) : (s.withEn b i on).fencePending b i = s.fencePending b i := by
  simp only [State.fencePending, reg_state_withEn]

variable (hon : (blkRow b).alwaysOn = false)
include hon

theorem setEn_eq (on : Bool) : s.setEn b i on =
    if s.stOf b i = 0 then (if on = true ∧ s.fencePending b i = false ∧ s.mayStart b i = true then (s.withEn b i on).beginStart b i else s.withEn b i on)
    else if s.stOf b i = 1 then (s.withEn b i on).setRegFld (R.BLOCK_STATE (pageOf b i)) 4 1 (b2n (!on))
    else if s.stOf b i = 2 then (if on then s.withEn b i on else (s.withEn b i on).beginStop b i)
    else if s.stOf b i = 3 then (if on = true ∧ s.fencePending b i = false then (s.withEn b i on).enterState b i 4 else s.withEn b i on)
    else if s.stOf b i = 4 then (if on then s.withEn b i on else (s.withEn b i on).enterState b i 3)
    else s.withEn b i on := by
  rw [State.setEn, if_neg (by simp [hon])]
  have hctrl : s.setRegFld (R.BLOCK_CTRL (pageOf b i)) 0 1 (b2n on) = s.withEn b i on := rfl
  have hmay : (s.withEn b i on).mayStart b i = s.mayStart b i := rfl
  simp only [hctrl, stOf_withEn, fencePending_withEn, hmay]

end Enable

/-- Settles O13: EN is stored, and each state of the block but FENCED moves as R104 says. -/
theorem enableRequests : Obligations.EnableRequests := by
  unfold Obligations.EnableRequests
  intro s f page b i hhead hreach hon p stamped
  have henable {t : State} {q : State → Prop} (ht : s.setEn b i true = t) (hq : ∀ u : State, u.reg = t.reg → q u) :
      completes (.blockEnable f page) s q :=
    completes_regs rfl ((onPage_eq hhead hreach).trans ht) (ht ▸ (stable_part s.part).setEn rfl) hq
  have hdisable {g : State → State} {u : State} {q : State → Prop} (hu : (s.setEn b i false).settled = g u) (hq : q u) :
      completesThen (.blockDisable f page) s g q := completesThen_run rfl ((onPage_eq hhead hreach).trans hu) hq
  have hstamp {on : Bool} {st : Nat} {u : State} (hu : u.reg = ((s.withEn b i on).enterState b i st).reg) : stamped u := by
    simp only [stamped, hu]
    exact stamp_enterState _ b i st
  have hen {on : Bool} {st : Nat} : ((s.withEn b i on).enterState b i st).en b i = on := by rw [en_enterState, withEn_en]
  refine ⟨fun hst hfence hready => ?_, fun hst hfence => ?_, fun hst => ?_, fun hst => ?_, fun hst => ?_, fun hst => ?_⟩
  · have hmay : s.mayStart b i = true := by simpa [State.mayStart, imp_iff_not_or] using hready
    refine henable (t := (s.withEn b i true).beginStart b i) (by simp [setEn_eq hon, hst, hfence, hmay]) fun u hu => ?_
    have hu : u.reg = ((s.withEn b i true).enterState b i 1).reg := hu.trans (funext (reg_startUnit _ b i))
    exact ⟨(stOf_congr hu).trans (stOf_enterState _ b i 1), (en_congr hu).trans hen, hstamp hu⟩
  · refine henable (t := (s.withEn b i true).enterState b i 4) (by simp [setEn_eq hon, hst, hfence]) fun u hu => ?_
    exact ⟨(stOf_congr hu).trans (stOf_enterState _ b i 4), (en_congr hu).trans hen, hstamp hu⟩
  · refine henable (t := s.withEn b i true) (by simp [setEn_eq hon, hst]) fun u hu => ?_
    exact ⟨by rw [hu, reg_state_withEn], (en_congr hu).trans (withEn_en true)⟩
  · refine hdisable (u := (s.withEn b i false).enterState b i 3) (by simp [setEn_eq hon, hst, State.beginStop, State.enterStopping]) ?_
    exact ⟨stOf_enterState _ b i 3, hen, hstamp rfl⟩
  · refine hdisable (u := (s.withEn b i false).setRegFld (R.BLOCK_STATE p) 4 1 1) (by simp [setEn_eq hon, hst, b2n, p]) ⟨?_, ?_, ?_⟩
    · rw [State.stOf, State.blkState, reg_setRegFld_same, fld_setFld_below _ _ _ _ _ _ (by decide) (by decide), reg_state_withEn]
      exact hst
    · rw [State.en, reg_ctrl_setState]
      exact withEn_en false
    · rw [reg_setRegFld_same, bit_setFld_same _ _ _ (by decide)]
      rfl
  · refine hdisable (u := (s.withEn b i false).enterState b i 3) (by simp [setEn_eq hon, hst]) ?_
    exact ⟨stOf_enterState _ b i 3, hen, hstamp rfl⟩

end Sys2Proof.Machine

namespace Sys2Proof.Machine

/-! ## Faults of a page -/

section Faults
variable (s : State) (b : Blk) (i n : Nat)

theorem bit_setBit_same {w : Nat} (v : BitVec w) {n : Nat} (hn : n < w) : bit (setBit v n true) n = true := bit_setFld_same v n 1 hn

/-- A fault that occurs stands in FAULT_STATUS (R110). -/
theorem bit_raiseWith {n : Nat} (hn : n < 32) (code injected detail : Nat) :
    bit ((s.raiseWith b i n code injected detail).reg (R.FAULT_STATUS (pageOf b i))) n = true := by
  unfold State.raiseWith
  extract_lets page info s1 s2
  split
  · assumption
  · have h2 : bit (s2.reg (R.FAULT_STATUS (pageOf b i))) n = true := by
      rw [reg_setReg_same]
      exact bit_setBit_same _ hn
    split
    · exact h2
    · rw [reg_post]
      exact h2

theorem bit_raise {n : Nat} (hn : n < 32) (code : Nat) : bit ((s.raise b i n code).reg (R.FAULT_STATUS (pageOf b i))) n = true :=
  bit_raiseWith s b i hn code 0 0

theorem bit_accessRefused : bit ((s.accessRefused b i).reg (R.FAULT_STATUS (pageOf b i))) 28 = true := bit_raise s b i (by decide) 2

theorem reg_accessRefused_ne {a : Nat} (ha : a ≠ R.FAULT_STATUS (pageOf b i)) : (s.accessRefused b i).reg a = s.reg a :=
  reg_raise_ne s a b i 28 2 ha

end Faults

/-! ## Fences and returns (R94, R104, R108) -/

section Fence
variable {s : State} {b : Blk} {i : Nat}

/-- The state in which FENCE_REQ and FENCE_PENDING stand, before the block moves. -/
def State.withFence (s : State) (b : Blk) (i : Nat) : State :=
  (s.setRegFld (R.BLOCK_CTRL (pageOf b i)) 8 1 1).setRegFld (R.BLOCK_STATE (pageOf b i)) 7 1 1

theorem reg_state_withFence : (s.withFence b i).reg (R.BLOCK_STATE (pageOf b i)) = setFld (s.reg (R.BLOCK_STATE (pageOf b i))) 7 1 1 := by
  rw [State.withFence, reg_setRegFld_same, reg_state_setCtrl]

theorem reg_ctrl_withFence : (s.withFence b i).reg (R.BLOCK_CTRL (pageOf b i)) = setFld (s.reg (R.BLOCK_CTRL (pageOf b i))) 8 1 1 := by
  rw [State.withFence, reg_ctrl_setState, reg_setRegFld_same]

theorem stOf_withFence : (s.withFence b i).stOf b i = s.stOf b i := by
  rw [State.stOf, State.blkState, reg_state_withFence, fld_setFld_below _ _ _ _ _ _ (by decide) (by decide)]
  rfl

/-- A fence by software of a block that is OFF. -/
theorem requestFence_of_off (hst : s.stOf b i = 0) : s.requestFence b i 1 = (s.withFence b i).enterFenced b i 1 := by
  have hfence : (s.setRegFld (R.BLOCK_CTRL (pageOf b i)) 8 1 1).setRegFld (R.BLOCK_STATE (pageOf b i)) 7 1 1 = s.withFence b i := rfl
  simp [State.requestFence, hst, hfence, stOf_withFence]

/-- A fence by software of a block that is ON. -/
theorem requestFence_of_on (hst : s.stOf b i = 2) : s.requestFence b i 1 = (s.withFence b i).beginStop b i := by
  have hfence : (s.setRegFld (R.BLOCK_CTRL (pageOf b i)) 8 1 1).setRegFld (R.BLOCK_STATE (pageOf b i)) 7 1 1 = s.withFence b i := rfl
  simp [State.requestFence, hst, hfence, stOf_withFence]

theorem reg_withFatal (x : SMap Nat) (a : Nat) : ({ s with fatal := x } : State).reg a = s.reg a := rfl

/-- FENCED is entered with its cause, and nothing more is pending (R104). -/
theorem reg_state_enterFenced (cause : Nat) : (s.enterFenced b i cause).reg (R.BLOCK_STATE (pageOf b i)) =
    setFld (setFld (setFld (setFld (s.reg (R.BLOCK_STATE (pageOf b i))) 7 1 0) 4 1 0) 8 3 cause) 0 3 5 := by
  simp only [State.enterFenced, reg_state_enterState, reg_withFatal, reg_state_setCtrl, reg_setRegFld_same]

theorem reg_ctrl_enterFenced (cause : Nat) : (s.enterFenced b i cause).reg (R.BLOCK_CTRL (pageOf b i)) =
    setFld (s.reg (R.BLOCK_CTRL (pageOf b i))) 8 1 0 := by
  simp only [State.enterFenced, reg_ctrl_enterState, reg_withFatal, reg_setRegFld_same, reg_ctrl_setState]

/-- FENCED is entered with its cause, and with nothing pending (R104). -/
theorem enterFenced_fenced {cause : Nat} (hcause : cause < 8) :
    (s.enterFenced b i cause).stOf b i = 5 ∧ fld ((s.enterFenced b i cause).reg (R.BLOCK_STATE (pageOf b i))) 8 3 = cause ∧
    (s.enterFenced b i cause).fencePending b i = false ∧ bit ((s.enterFenced b i cause).reg (R.BLOCK_CTRL (pageOf b i))) 8 = false := by
  refine ⟨?_, ?_, ?_, ?_⟩
  · exact stOf_enterState _ b i 5
  · rw [reg_state_enterFenced, fld_setFld_above _ _ _ _ _ _ (by decide) (by decide), fld_setFld_same _ _ _ _ (by decide)]
    omega
  · rw [State.fencePending, reg_state_enterFenced, bit_setFld_ne _ _ _ _ _ (by decide) (by decide),
      bit_setFld_ne _ _ _ _ _ (by decide) (by decide), bit_setFld_ne _ _ _ _ _ (by decide) (by decide), bit_setFld_same _ _ _ (by decide)]
    rfl
  · rw [reg_ctrl_enterFenced, bit_setFld_same _ _ _ (by decide)]
    rfl

/-- The fields of BLOCK_STATE and the bits of BLOCK_CTRL as a return leaves FENCED (R104). -/
theorem reg_state_leaveFenced : (s.leaveFenced b i).reg (R.BLOCK_STATE (pageOf b i)) =
    setFld (setFld (setFld (s.reg (R.BLOCK_STATE (pageOf b i))) 8 3 0) 12 1 0) 0 3 (if s.en b i = true ∧ s.mayStart b i = true then 1 else 0) := by
  have hen : (((s.setRegFld (R.BLOCK_STATE (pageOf b i)) 8 3 0).setRegFld (R.BLOCK_STATE (pageOf b i)) 12 1 0).setRegFld
      (R.BLOCK_CTRL (pageOf b i)) 9 1 0).en b i = s.en b i := by
    rw [State.en, reg_setRegFld_same, bit_setFld_ne _ _ _ _ _ (by decide) (by decide)]
    simp only [reg_ctrl_setState]
    rfl
  simp only [State.leaveFenced, reg_state_enterState, hen, reg_state_setCtrl, reg_setRegFld_same]
  rfl

/-- A return that is refused leaves the state and the cause, and shows in RETURN_REFUSED (R108). -/
theorem reg_state_refuseReturn : (s.refuseReturn b i).reg (R.BLOCK_STATE (pageOf b i)) = setFld (s.reg (R.BLOCK_STATE (pageOf b i))) 12 1 1 := by
  simp only [State.refuseReturn, reg_state_setCtrl, reg_setRegFld_same]

/-- The state in which RETURN_REQ stands. -/
def State.withReturn (s : State) (b : Blk) (i : Nat) : State := s.setRegFld (R.BLOCK_CTRL (pageOf b i)) 9 1 1

theorem reg_state_withReturn : (s.withReturn b i).reg (R.BLOCK_STATE (pageOf b i)) = s.reg (R.BLOCK_STATE (pageOf b i)) :=
  reg_state_setCtrl _ _ _ _ _ _

theorem stOf_withReturn : (s.withReturn b i).stOf b i = s.stOf b i := by simp only [State.stOf, State.blkState, reg_state_withReturn]

theorem en_withReturn : (s.withReturn b i).en b i = s.en b i := by
  rw [State.en, State.withReturn, reg_setRegFld_same, bit_setFld_ne _ _ _ _ _ (by decide) (by decide)]
  rfl

theorem mayStart_withReturn : (s.withReturn b i).mayStart b i = s.mayStart b i := by
  refine decide_eq_decide.mpr ?_
  simp only [State.hoop, State.withReturn, setRegFld_eq, State.setReg_hoops]

/-- A return is accepted at once for cause 1, left to the health check for cause 2, and refused otherwise (R108). -/
theorem requestReturn_eq : s.requestReturn b i =
    if s.stOf b i = 5 ∧ fld (s.reg (R.BLOCK_STATE (pageOf b i))) 8 3 = 1 then (s.withReturn b i).acceptReturn b i
    else if s.stOf b i = 5 ∧ fld (s.reg (R.BLOCK_STATE (pageOf b i))) 8 3 = 2 then s.withReturn b i
    else (s.withReturn b i).refuseReturn b i := by
  have hreturn : s.setRegFld (R.BLOCK_CTRL (pageOf b i)) 9 1 1 = s.withReturn b i := rfl
  simp only [State.requestReturn, hreturn, stOf_withReturn, reg_state_withReturn]

/-- An accepted return leaves FENCED; a unit that then starts does so with what waits. -/
theorem acceptReturn_eq : s.acceptReturn b i =
    (let u := s.leaveFenced b i; (if u.stOf b i = 1 then u.startUnit b i else u).startMoves) := by
  unfold State.acceptReturn
  dsimp only
  split <;> rfl

end Fence

/-- Settles O14: each request is the operation that the block's state and the cause of its fence select. -/
theorem fenceAndReturnRequests : Obligations.FenceAndReturnRequests := by
  unfold Obligations.FenceAndReturnRequests
  intro s f page b i hhead hreach p cause
  refine ⟨fun hf hfenceable => ?_, fun hnot => ?_⟩
  · have hmay : ¬ ((f : Nat) ≠ 0 ∨ fenceable b = false) := by simp [hf, hfenceable]
    have hfence {g : State → State} {u : State} {q : State → Prop} (hu : (s.requestFence b i 1).settled = g u) (hq : q u) :
        completesThen (.fenceReq f page) s g q :=
      completesThen_run rfl ((onPage_eq hhead hreach).trans ((if_neg hmay).trans hu)) hq
    have hreturn {g : State → State} {u : State} {q : State → Prop} (hu : (s.requestReturn b i).settled = g u) (hq : q u) :
        completesThen (.returnReq f page) s g q :=
      completesThen_run rfl ((onPage_eq hhead hreach).trans ((if_neg hmay).trans hu)) hq
    refine ⟨fun hst => ?_, fun hst => ?_, fun hst hcause => ?_, fun hst => ?_⟩
    · exact hfence (by rw [requestFence_of_off hst]) (enterFenced_fenced (by decide))
    · refine hfence (u := (s.withFence b i).enterStopping b i) (by simp only [requestFence_of_on hst, State.beginStop]) ⟨stOf_enterState _ b i 3, ?_, ?_⟩
      · rw [State.fencePending, State.enterStopping, bit_state_enterState _ _ _ _ (by decide), reg_state_withFence,
          bit_setFld_same _ _ _ (by decide)]
        rfl
      · rw [State.enterStopping, reg_ctrl_enterState, reg_ctrl_withFence, bit_setFld_same _ _ _ (by decide)]
        rfl
    · refine hreturn (u := (s.withReturn b i).leaveFenced b i) ?_ ⟨?_, ?_, ?_⟩
      · rw [requestReturn_eq, if_pos ⟨hst, hcause⟩, acceptReturn_eq]
      · rw [State.stOf, State.blkState, reg_state_leaveFenced, en_withReturn, fld_setFld_same _ _ _ _ (by decide)]
        rw [mayStart_withReturn]
        split <;> rfl
      · simp only [cause, p]
        rw [reg_state_leaveFenced, fld_setFld_above _ _ _ _ _ _ (by decide) (by decide), fld_setFld_below _ _ _ _ _ _ (by decide) (by decide),
          fld_setFld_same _ _ _ _ (by decide)]
        rfl
      · rw [reg_state_leaveFenced, bit_setFld_ne _ _ _ _ _ (by decide) (by decide), bit_setFld_same _ _ _ (by decide)]
        rfl
    · have hrefused : ¬ (s.stOf b i = 5 ∧ cause s = 1) ∧ ¬ (s.stOf b i = 5 ∧ cause s = 2) := by omega
      refine hreturn (u := (s.withReturn b i).refuseReturn b i) ?_ ⟨?_, ?_, ?_⟩
      · rw [requestReturn_eq, if_neg hrefused.1, if_neg hrefused.2]
      · rw [State.stOf, State.blkState, reg_state_refuseReturn, reg_state_withReturn, fld_setFld_below _ _ _ _ _ _ (by decide) (by decide)]
        rfl
      · simp only [cause, p]
        rw [reg_state_refuseReturn, reg_state_withReturn, fld_setFld_below _ _ _ _ _ _ (by decide) (by decide)]
      · rw [reg_state_refuseReturn, bit_setFld_same _ _ _ (by decide)]
        rfl
  · have hno : (f : Nat) ≠ 0 ∨ fenceable b = false := hnot.imp_left fun h h0 => h (Fin.ext h0)
    have hrefused {c : Instr} {act : Blk → Nat → State → State} (hc : exec c s = run (State.onPage · f page act) s)
        (hact : act b i s = s.accessRefused b i) : completes c s fun t =>
          t.reg (R.BLOCK_STATE p) = s.reg (R.BLOCK_STATE p) ∧ bit (t.reg (R.FAULT_STATUS p)) 28 = true := by
      refine completes_regs hc ((onPage_eq hhead hreach).trans hact) (raise_part s b i 28 2) fun u hu => ?_
      rw [hu]
      exact ⟨reg_accessRefused_ne s b i (by simp [p]), bit_accessRefused s b i⟩
    intro c hc
    rcases List.mem_pair.mp hc with rfl | rfl
    · exact hrefused rfl (if_pos hno)
    · exact hrefused rfl (if_pos hno)

end Sys2Proof.Machine

namespace Sys2Proof.Machine

/-! ## Addresses of pages -/

section Addresses
variable {b : Blk} {i k : Nat}

/-- The windows of two blocks do not meet. -/
theorem windows_disjoint : ∀ b ∈ allBlks, ∀ b' ∈ allBlks, b = b' ∨
    (blkRow b).base + (blkRow b).stride * (blkRow b).count ≤ (blkRow b').base ∨
    (blkRow b').base + (blkRow b').stride * (blkRow b').count ≤ (blkRow b).base := by decide

theorem stride_pos : ∀ b ∈ allBlks, 0x1000 ≤ (blkRow b).stride ∧
    (blkRow b).base + (blkRow b).stride * (blkRow b).count ≤ doorbellBase := by decide

/-- A page that shows a header is of a unit that the map has. -/
theorem headerAt_valid {page : Nat} (h : headerAt page = some (b, i)) : b ∈ allBlks ∧ i < (blkRow b).count := by
  unfold headerAt at h
  split at h
  case h_2 => exact nomatch h
  next hblk =>
  split at h
  case isFalse => exact nomatch h
  next hlt =>
  cases h
  rw [blkAt, if_pos hlt] at hblk
  split at hblk
  case h_2 => exact nomatch hblk
  next hfind =>
  cases hblk
  have hin := List.find?_some hfind
  simp only [decide_eq_true_eq] at hin
  exact ⟨List.mem_of_find?_eq_some hfind, Nat.div_lt_of_lt_mul (by omega)⟩

/-- The address of a register of a unit names the unit and the register. -/
theorem blkAt_pageOf (hb : b ∈ allBlks) (hi : i < (blkRow b).count) (hk : k < (blkRow b).stride) :
    blkAt (pageOf b i + k) = some (b, i, k) := by
  have hle : (blkRow b).stride * (i + 1) ≤ (blkRow b).stride * (blkRow b).count := Nat.mul_le_mul_left _ hi
  obtain ⟨hstride, hend⟩ := stride_pos b hb
  rw [Nat.mul_add, Nat.mul_one] at hle
  have hfind : allBlks.find? (fun b' => decide ((blkRow b').base ≤ pageOf b i + k ∧
      pageOf b i + k < (blkRow b').base + (blkRow b').stride * (blkRow b').count)) = some b := by
    have hin : (blkRow b).base ≤ pageOf b i + k ∧ pageOf b i + k < (blkRow b).base + (blkRow b).stride * (blkRow b).count := by
      rw [pageOf]
      omega
    cases hf : allBlks.find? _ with
    | none => exact absurd hin (by simpa using List.find?_eq_none.mp hf b hb)
    | some b' =>
      have hin' := List.find?_some hf
      simp only [decide_eq_true_eq] at hin'
      rcases windows_disjoint b hb b' (List.mem_of_find?_eq_some hf) with rfl | hbelow | habove
      · rfl
      · omega
      · omega
  have hsub : pageOf b i + k - (blkRow b).base = (blkRow b).stride * i + k := by rw [pageOf]; omega
  have hlt : pageOf b i + k < doorbellBase := by rw [pageOf]; omega
  rw [blkAt, if_pos hlt, hfind]
  simp only [hsub]
  rw [Nat.mul_add_div (by omega), Nat.div_eq_of_lt hk, Nat.mul_add_mod, Nat.mod_eq_of_lt hk, Nat.add_zero]

end Addresses

/-! ## The per-block reset (R108) -/

theorem mget_filter_of_not {V : Type} (d : V) (m : SMap V) (q : Nat → Bool) {k : Nat} (hk : q k = false) :
    mget d (m.filter fun e => q e.1) k = d := by
  induction m with
  | nil => rfl
  | cons e m ih =>
    rw [List.filter_cons]
    split
    · next he =>
      have hne : e.1 ≠ k := fun h => by simp [h, hk] at he
      simp only [mget, hne, if_false]
      exact ih
    · exact ih

section Reset
variable {s : State} {b : Blk} {i : Nat} {a : Nat}

/-- The limits that a skein controller holds its blocks to are not registers. -/
theorem newLimits_regs : (s.newLimits b i).regs = s.regs := by
  unfold State.newLimits
  split <;> rfl

theorem newLimits_part : (s.newLimits b i).part = s.part := (stable_part s.part).newLimits rfl

theorem reg_newLimits : (s.newLimits b i).reg a = s.reg a := by
  rw [State.reg, State.reg, newLimits_regs, newLimits_part]

/-- A register of the unit that is not kept reads as at reset once the pages are cleared. -/
theorem reg_clearPages (hlo : pageOf b i ≤ a) (hhi : a < pageOf b i + (blkRow b).stride) (hkept : keptAtReset a = false) :
    (s.clearPages b i).reg a = regReset (s.clearPages b i).part a :=
  mget_filter_of_not _ s.regs (fun a => !(decide (pageOf b i ≤ a ∧ a < pageOf b i + (blkRow b).stride) && !keptAtReset a))
    (by simp [hlo, hhi, hkept])

/-- The state of a reset unit before the block moves. -/
def State.unitCleared (s : State) (b : Blk) (i : Nat) : State :=
  { ((s.clearUnit b i).clearPages b i).newLimits b i with fatal := mset 0 (((s.clearUnit b i).clearPages b i).newLimits b i).fatal (pageOf b i) 0 }

theorem reg_unitCleared (hlo : pageOf b i ≤ a) (hhi : a < pageOf b i + (blkRow b).stride) (hkept : keptAtReset a = false) :
    (s.unitCleared b i).reg a = regReset (s.unitCleared b i).part a := by
  have h : (s.unitCleared b i).reg a = (((s.clearUnit b i).clearPages b i).newLimits b i).reg a := rfl
  have hpart : (s.unitCleared b i).part = (((s.clearUnit b i).clearPages b i).newLimits b i).part := rfl
  rw [h, hpart, reg_newLimits, newLimits_part]
  exact reg_clearPages hlo hhi hkept

/-- The block's move at its reset: it stays FENCED with its cause, or it goes OFF, and an ALWAYS_ON block starts. -/
theorem blockReset_eq : s.blockReset b i =
    if s.stOf b i = 5 then
      (s.unitCleared b i).setReg (R.BLOCK_STATE (pageOf b i)) (w32 (5 + 2 ^ 8 * fld ((s.unitCleared b i).reg (R.BLOCK_STATE (pageOf b i))) 8 3))
    else if (blkRow b).alwaysOn = true then
      (((s.unitCleared b i).setReg (R.BLOCK_STATE (pageOf b i)) 0).enterState b i 0).beginStart b i
    else ((s.unitCleared b i).setReg (R.BLOCK_STATE (pageOf b i)) 0).enterState b i 0 := by
  simp only [State.blockReset, State.unitCleared, decide_eq_true_eq]

theorem stOf_beginStart : (s.beginStart b i).stOf b i = 1 :=
  (stOf_congr (funext (reg_startUnit _ b i))).trans (stOf_enterState s b i 1)

/-- The state that a reset leaves its block in. -/
theorem stOf_blockReset : (s.blockReset b i).stOf b i = if s.stOf b i = 5 then 5 else if (blkRow b).alwaysOn = true then 1 else 0 := by
  rw [blockReset_eq]
  split
  · rw [State.stOf, State.blkState, reg_setReg_same]
    have hx := fld_lt ((s.unitCleared b i).reg (R.BLOCK_STATE (pageOf b i))) 8 3
    rw [fld, w32, BitVec.toNat_ofNat]
    omega
  · split
    · exact stOf_beginStart
    · exact stOf_enterState _ b i 0

/-- A reset's move writes BLOCK_STATE and the stamp, and no more. -/
theorem reg_blockReset (hst : a ≠ R.BLOCK_STATE (pageOf b i)) (hlo : a ≠ R.STAMP_LO (pageOf b i)) (hhi : a ≠ R.STAMP_HI (pageOf b i)) :
    (s.blockReset b i).reg a = (s.unitCleared b i).reg a := by
  rw [blockReset_eq]
  split
  · exact reg_setReg_ne _ _ _ _ hst
  · split
    · rw [State.beginStart, reg_startUnit]
      simp only [reg_enterState, if_neg hst, if_neg hlo, if_neg hhi, reg_setReg_ne _ _ _ _ hst]
    · simp only [reg_enterState, if_neg hst, if_neg hlo, if_neg hhi, reg_setReg_ne _ _ _ _ hst]

theorem part_blockReset : (s.blockReset b i).part = (s.unitCleared b i).part := by
  have hI := stable_part (s.unitCleared b i).part
  rw [blockReset_eq]
  split
  · exact hI.setReg rfl
  · split
    · exact hI.beginStart (hI.enterState (hI.setReg rfl))
    · exact hI.enterState (hI.setReg rfl)

end Reset

/-! ## Expert selection and the key (R96, R100, R102) -/

section Expert
variable {s : State} {b : Blk} {i : Nat}

/-- The state in which a value of EXPERT_SEL stands, in BLOCK_CTRL and in BLOCK_STATE. -/
def State.withSel (s : State) (b : Blk) (i : Nat) (v : Bool) : State :=
  (s.setRegFld (R.BLOCK_CTRL (pageOf b i)) 1 1 (b2n v)).setRegFld (R.BLOCK_STATE (pageOf b i)) 6 1 (b2n v)

theorem withSel_selected (v : Bool) : bit ((s.withSel b i v).reg (R.BLOCK_CTRL (pageOf b i))) 1 = v ∧
    bit ((s.withSel b i v).reg (R.BLOCK_STATE (pageOf b i))) 6 = v := by
  constructor
  · rw [State.withSel, reg_ctrl_setState, reg_setRegFld_same, bit_setFld_same _ _ _ (by decide)]
    cases v <;> rfl
  · rw [State.withSel, reg_setRegFld_same, bit_setFld_same _ _ _ (by decide)]
    cases v <;> rfl

theorem setExpertSel_of_allowed {v : Bool} (h : v = true → bit (s.reg (R.EXPERT_KEY (pageOf b i))) 16 = true) :
    s.setExpertSel b i v = (s.withSel b i v).newLimits b i := by
  refine if_neg fun hno => ?_
  obtain ⟨hv, -, hlocked⟩ := hno
  rw [h hv] at hlocked
  exact nomatch hlocked

theorem setExpertSel_of_locked (hsel : bit (s.reg (R.BLOCK_CTRL (pageOf b i))) 1 = false) (hkey : bit (s.reg (R.EXPERT_KEY (pageOf b i))) 16 = false) :
    s.setExpertSel b i true = s.accessRefused b i := if_pos ⟨rfl, hsel, hkey⟩

end Expert

/-- A write of a page's header acts on the block that the page belongs to. -/
theorem onHeader_eq {s : State} {f page : Nat} {b : Blk} {i : Nat} {act : Blk → Nat → State → State} (hhead : headerAt page = some (b, i))
    (hreach : s.reaches f (page * 0x1000) = true) : s.onHeader f page act = act b i s := by
  rw [State.onHeader, reach_of_reaches _ _ _ _ hreach, hhead]

/-- A command of the clock's family whose operation is one of the device's blocks. -/
theorem completesThen_runTime {c : Instr} {f g : State → State} {s u : State} {p : State → Prop} (hc : exec c s = runTime f s)
    (hf : f s = dev (fun _ => g u) s) (hp : p u) : completesThen c s g p :=
  ⟨u, by rw [hc, runTime_next (by rw [hf]; rfl) (by rw [hf]; rfl), hf], hp⟩

/-- Settles O16: a reset clears the pages and then moves the block; the page's key and EXPERT_SEL are stored where they are allowed. -/
theorem blockResetAndExpertAccess : Obligations.BlockResetAndExpertAccess := by
  unfold Obligations.BlockResetAndExpertAccess
  intro s f page b i hhead p
  obtain ⟨hb, hi⟩ := headerAt_valid hhead
  have hkept (k : Nat) (hk : k = 0x28 ∨ k = 0x2C) : keptAtReset (p + k) = true := by
    have hstride := (stride_pos b hb).1
    rw [keptAtReset, blkAt_pageOf hb hi (by omega)]
    rcases hk with rfl | rfl <;> simp
  refine ⟨fun hreach => ⟨fun htime => ?_, fun hkey => ?_, fun hkey hsel => ?_, ?_⟩, fun hreach v => ?_⟩
  · have hdo : doBlockReset f page s = dev (fun s => ((s.blockReset b i).heldForces.startMoves).settled) s :=
      (onPage_eq hhead hreach).trans (if_neg htime)
    refine completesThen_runTime rfl (hdo.trans (dev_congr s rfl)) ⟨stOf_blockReset, fun a hlo hhi hnot hst => ?_⟩
    have hne (k : Nat) (hk : k = 0x28 ∨ k = 0x2C) : a ≠ p + k := fun h => by rw [h, hkept k hk] at hnot; exact nomatch hnot
    rw [reg_blockReset hst (hne _ (.inl rfl)) (hne _ (.inr rfl)), part_blockReset]
    exact reg_unitCleared hlo hhi hnot
  · refine completes_regs rfl ((onPage_eq hhead hreach).trans (setExpertSel_of_allowed fun _ => hkey)) newLimits_part fun u hu => ?_
    rw [hu, reg_newLimits, reg_newLimits]
    exact withSel_selected true
  · refine completes_regs rfl ((onPage_eq hhead hreach).trans (setExpertSel_of_locked hsel hkey)) (raise_part s b i 28 2) fun u hu => ?_
    rw [hu]
    exact ⟨reg_accessRefused_ne s b i (by simp [p]), bit_accessRefused s b i⟩
  · refine completes_regs rfl ((onPage_eq hhead hreach).trans (setExpertSel_of_allowed nofun)) newLimits_part fun u hu => ?_
    rw [hu, reg_newLimits, reg_newLimits]
    exact withSel_selected false
  · refine completes_regs rfl (onHeader_eq hhead hreach) rfl fun u hu => ?_
    rw [hu]
    exact reg_setReg_same _ _ _

end Sys2Proof.Machine

namespace Sys2Proof.Machine

/-! ## Owners, masks and injections (R97, R111, R113) -/

section Owners
variable {s : State} {b : Blk} {i : Nat} {v : W32}

/-- The state in which a page has a new owner: it is locked, and its faults go to hoop 0 (R97). -/
def State.owned (s : State) (b : Blk) (i own : Nat) : State :=
  ((s.setReg (R.HOOP_OWNER (pageOf b i)) (w32 own)).setReg (R.EXPERT_KEY (pageOf b i)) 0).setReg (R.FAULT_ROUTE (pageOf b i)) 0

theorem reg_owned (own : Nat) : (s.owned b i own).reg (R.HOOP_OWNER (pageOf b i)) = w32 own ∧
    (s.owned b i own).reg (R.EXPERT_KEY (pageOf b i)) = 0 ∧ (s.owned b i own).reg (R.FAULT_ROUTE (pageOf b i)) = 0 := by
  simp [State.owned, reg_setReg]

theorem reg_withZeroOwed {z : SMap Bool} : ({ s with zeroOwed := z } : State).reg = s.reg := rfl

/-- A page of hoop 0's to give, whose block is OFF or FENCED, changes its owner. -/
theorem reg_setOwner_of_free (hcore : b ≠ .core) (hcluster : b ≠ .cluster) (hfixed : bit (s.reg (R.HOOP_OWNER (pageOf b i))) 8 = false)
    (hbell : bit (s.reg (R.HOOP_OWNER (pageOf b i))) 9 = false) (hst : s.stOf b i = 0 ∨ s.stOf b i = 5) :
    (s.setOwner 0 b i v).reg = (s.owned b i (fld v 0 4)).reg := by
  have hno : ¬ ((0 : Nat) ≠ 0 ∨ b = .core ∨ bit (s.reg (R.HOOP_OWNER (pageOf b i))) 8 = true ∨ bit (s.reg (R.HOOP_OWNER (pageOf b i))) 9 = true ∨
      (s.stOf b i ≠ 0 ∧ s.stOf b i ≠ 5)) := by
    simp only [ne_eq, not_true_eq_false, hcore, hfixed, hbell, Bool.false_eq_true, false_or]
    omega
  rw [State.setOwner, if_neg hno, if_neg hcluster]
  dsimp only
  split
  · rfl
  · exact reg_withZeroOwed (s := s.owned b i (fld v 0 4))

variable (s b i v)

/-- A write of FAULT_MASK stores it; what it posts are records. -/
theorem reg_setMask : (s.setMask b i v).reg = (s.setReg (R.FAULT_MASK (pageOf b i)) v).reg :=
  List.foldlRecOn (motive := fun t : State => t.reg = (s.setReg (R.FAULT_MASK (pageOf b i)) v).reg) _ _ rfl
    fun t ht _ _ => (funext fun a => reg_post t a _).trans ht

variable {s b i v}

/-- Where no set bit becomes unmasked, no record is posted. -/
theorem setMask_of_none_due (hdue : s.reg (R.FAULT_MASK (pageOf b i)) &&& ~~~v &&& s.reg (R.FAULT_STATUS (pageOf b i)) = 0) :
    s.setMask b i v = s.setReg (R.FAULT_MASK (pageOf b i)) v := by
  have hnone : ((List.range 32).filter fun n => bit (0 : W32) n) = [] := by decide
  rw [State.setMask]
  simp only [hdue, hnone, List.foldl_nil]

/-- A fault bit that is set stays set when a fault occurs. -/
theorem bit_raiseWith_of_set {n m : Nat} (hm : m < 32) (code injected detail : Nat)
    (hset : bit (s.reg (R.FAULT_STATUS (pageOf b i))) n = true) :
    bit ((s.raiseWith b i m code injected detail).reg (R.FAULT_STATUS (pageOf b i))) n = true := by
  by_cases hnm : n = m
  · subst hnm
    exact bit_raiseWith s b i hm code injected detail
  · unfold State.raiseWith
    extract_lets page info s1 s2
    have h2 : bit (s2.reg (R.FAULT_STATUS (pageOf b i))) n = true := by
      rw [reg_setReg_same, setBit, bit_setFld_ne _ _ _ _ _ (by omega) (by omega)]
      exact hset
    split
    · exact hset
    · split
      · exact h2
      · rw [reg_post]
        exact h2

/-- What one element of a list brings about, and the others keep, holds after all of them. -/
theorem foldl_of_mem {α : Type} {P : State → Prop} {g : State → α → State} {l : List α} {x : α} (hx : x ∈ l)
    (hset : ∀ t, P (g t x)) (hkeep : ∀ t, ∀ y ∈ l, P t → P (g t y)) : P (l.foldl g s) := by
  obtain ⟨l1, l2, rfl⟩ := List.append_of_mem hx
  rw [List.foldl_append, List.foldl_cons]
  exact List.foldlRecOn l2 g (hset _) fun t ht y hy => hkeep t y (by simp [hy]) ht

/-- An injected fault of an unlocked page stands in FAULT_STATUS. -/
theorem bit_injectFaults {n : Nat} (hn : n < 32) (hbit : bit v n = true) (hcode : (faultCode b n).isSome = true)
    (hkey : bit (s.reg (R.EXPERT_KEY (pageOf b i))) 16 = true) :
    bit ((s.injectFaults b i v).reg (R.FAULT_STATUS (pageOf b i))) n = true := by
  rw [State.injectFaults, if_neg (by simp [hkey])]
  refine foldl_of_mem (P := fun t => bit (t.reg (R.FAULT_STATUS (pageOf b i))) n = true) (x := n) (by simp [hn, hbit]) (fun t => ?_)
    fun t m hm ht => ?_
  · obtain ⟨code, hsome⟩ := Option.isSome_iff_exists.mp hcode
    simp only [hsome]
    exact bit_raiseWith t b i hn code 1 0
  · have hm : m < 32 := List.mem_range.mp (List.mem_of_mem_filter hm)
    split
    · exact bit_raiseWith_of_set hm _ 1 0 ht
    · exact ht

end Owners

/-! ## Fatal errors (R104, R591) -/

section Fatal
variable {s : State} {b : Blk} {i : Nat}

/-- The state in which a fatal error stands, with its fence requested, before the block moves. -/
def State.withFatal (s : State) (b : Blk) (i : Nat) : State :=
  { (s.raise b i 31 5).withFence b i with fatal := mset 0 ((s.raise b i 31 5).withFence b i).fatal (pageOf b i) 2 }

theorem stOf_raise (n code : Nat) : (s.raise b i n code).stOf b i = s.stOf b i := by
  rw [State.stOf, State.blkState, reg_raise_ne _ _ _ _ _ _ (by simp)]
  rfl

theorem reg_withFatal_eq (a : Nat) : (s.withFatal b i).reg a = ((s.raise b i 31 5).withFence b i).reg a := rfl

theorem stOf_withFatal : (s.withFatal b i).stOf b i = s.stOf b i :=
  (stOf_congr (funext reg_withFatal_eq)).trans (stOf_withFence.trans (stOf_raise 31 5))

/-- A fatal error of a block that is ON takes it into STOPPING. -/
theorem fatalError_of_on (hpresent : present s.part b i = true) (hst : s.stOf b i = 2) :
    s.fatalError b i = ((s.withFatal b i).enterStopping b i).stopUnit b i := by
  have hraise : (s.raise b i 31 5).stOf b i = 2 := (stOf_raise 31 5).trans hst
  have hfence : ((s.raise b i 31 5).setRegFld (R.BLOCK_CTRL (pageOf b i)) 8 1 1).setRegFld (R.BLOCK_STATE (pageOf b i)) 7 1 1 =
      (s.raise b i 31 5).withFence b i := rfl
  have hfatal : { (s.raise b i 31 5).withFence b i with fatal := mset 0 ((s.raise b i 31 5).withFence b i).fatal (pageOf b i) 2 } =
      s.withFatal b i := rfl
  rw [State.fatalError]
  simp only [raise_part, hpresent, hraise]
  rw [if_pos (by decide), State.requestFence]
  simp [hraise, hfence, hfatal, stOf_withFatal, hst, State.beginStop]

/-- What stands as that block stops. -/
theorem enterStopping_withFatal : ((s.withFatal b i).enterStopping b i).stOf b i = 3 ∧
    ((s.withFatal b i).enterStopping b i).fencePending b i = true ∧
    bit (((s.withFatal b i).enterStopping b i).reg (R.FAULT_STATUS (pageOf b i))) 31 = true := by
  refine ⟨stOf_enterState _ b i 3, ?_, ?_⟩
  · rw [State.fencePending, State.enterStopping, bit_state_enterState _ _ _ _ (by decide), reg_withFatal_eq, reg_state_withFence,
      bit_setFld_same _ _ _ (by decide)]
    rfl
  · have hne : ((s.withFatal b i).enterStopping b i).reg (R.FAULT_STATUS (pageOf b i)) = (s.raise b i 31 5).reg (R.FAULT_STATUS (pageOf b i)) := by
      simp [State.enterStopping, reg_enterState, reg_withFatal_eq, State.withFence, setRegFld_eq, reg_setReg]
    rw [hne]
    exact bit_raise s b i (by decide) 5

end Fatal

/-- A page that a write reaches is of a unit that is there, in a domain that is on. -/
theorem present_of_reaches {s : State} {f page : Nat} {b : Blk} {i : Nat} (hhead : headerAt page = some (b, i))
    (hreach : s.reaches f (page * 0x1000) = true) : present s.part b i = true ∧ s.domainOn (blkRow b).domain = true := by
  unfold headerAt at hhead
  unfold State.reaches at hreach
  split at hhead
  case h_2 => exact nomatch hhead
  next hblk =>
  split at hhead
  case isFalse => exact nomatch hhead
  cases hhead
  simp only [hblk, Bool.and_eq_true] at hreach
  obtain ⟨-, ⟨hpresent, hdomain⟩, -⟩ := hreach
  exact ⟨hpresent, hdomain⟩

/-- Settles O17: each write of a header register is the operation that its guard selects; a fatal error raises its bit and requests the fence. -/
theorem ownersAndFaults : Obligations.OwnersAndFaults := by
  unfold Obligations.OwnersAndFaults
  intro s f page b i hhead hreach p o
  obtain ⟨hpresent, hdomain⟩ := present_of_reaches hhead hreach
  refine ⟨fun v hf hcore hcluster hfixed hbell hst => ?_, fun v hno => ?_, fun v => ?_, fun v n hn hbit hcode hkey => ?_, fun hst => ?_⟩
  · subst hf
    refine completes_regs rfl (onHeader_eq hhead hreach) ((stable_part s.part).setOwner rfl) fun u hu => ?_
    rw [hu]
    rw [show ((0 : Fin 16) : Nat) = 0 from rfl, reg_setOwner_of_free hcore hcluster hfixed hbell hst]
    exact reg_owned _
  · have hno : (f : Nat) ≠ 0 ∨ b = .core ∨ bit o 8 = true ∨ bit o 9 = true ∨ (s.stOf b i ≠ 0 ∧ s.stOf b i ≠ 5) :=
      hno.imp_left fun h h0 => h (Fin.ext h0)
    refine completes_regs rfl ((onHeader_eq hhead hreach).trans (if_pos hno)) (raise_part s b i 28 2) fun u hu => ?_
    rw [hu]
    exact ⟨reg_accessRefused_ne s b i (by simp [p]), bit_accessRefused s b i⟩
  · have hdo : doFaultMaskWrite f page v s = s.setMask b i v := onHeader_eq hhead hreach
    have hreg (a : Nat) : (dev (doFaultMaskWrite f page v) s).reg a = (s.setReg (R.FAULT_MASK p) v).reg a := by
      rw [reg_dev _ _ _ (by rw [hdo]; exact (stable_part s.part).setMask rfl), hdo, reg_setMask]
    refine ⟨_, rfl, ?_, ?_, fun hdue => ?_⟩
    · rw [hreg, reg_setReg_same]
    · rw [hreg, reg_setReg_ne _ _ _ _ (by simp)]
    · rw [dev_hoops, hdo, setMask_of_none_due hdue]
      rfl
  · refine completes_regs rfl (onHeader_eq hhead hreach) ((stable_part s.part).injectFaults rfl) fun u hu => ?_
    rw [hu]
    exact bit_injectFaults hn hbit hcode hkey
  · refine completesThen_run (u := (s.withFatal b i).enterStopping b i) rfl ?_ enterStopping_withFatal
    have hdo : doFatalStateError page s = (((s.withFatal b i).enterStopping b i).stopUnit b i).settled := by
      rw [doFatalStateError, hhead]
      simp only [hpresent, hdomain]
      rw [if_pos (by decide), fatalError_of_on hpresent hst]
    rw [doFatalStateErrorTrial, hhead, hdo]
    generalize (((s.withFatal b i).enterStopping b i).stopUnit b i).settled = t
    simp only [hpresent, hdomain, and_true]
    rfl

end Sys2Proof.Machine

namespace Sys2Proof.Machine

/-! ## Accesses of registers (R84, R85, R92, R98) -/

section Accesses
variable {s : State} {f a : Nat}

/-- A write that reaches its register is of a unit that is there and on, and neither of an expert nor of a debug register. -/
theorem reaches_iff : s.reaches f a = true ↔ s.inView f a = true ∧
    ∃ b i off, blkAt a = some (b, i, off) ∧ present s.part b i = true ∧ s.domainOn (blkRow b).domain = true ∧ off % 0x1000 < 0x800 := by
  unfold State.reaches
  cases blkAt a with
  | none => simp
  | some x =>
    obtain ⟨b, i, off⟩ := x
    simp [and_assoc]

/-- An access that reaches a register finds one that answers. -/
theorem answers_of_reaches (h : s.reaches f a = true) : s.answers a = true := by
  obtain ⟨-, b, i, off, hblk, hpresent, hdomain, hoff⟩ := reaches_iff.mp h
  have hdebug : ¬ 0xF00 ≤ off % 0x1000 := by omega
  simp [State.answers, hblk, hpresent, hdomain, hdebug]

/-- The knots lie beyond the registers. -/
theorem lt_knotsFrom_of_blkAt {x : Blk × Nat × Nat} (h : blkAt a = some x) : a < knotsFrom := by
  by_contra hge
  have hbell : doorbellBase = 0x4000000 := rfl
  have hknots : knotsFrom = 0x5000000 := rfl
  unfold blkAt at h
  rw [if_neg (by omega)] at h
  dsimp only at h
  rw [if_neg (by omega), if_neg (by omega)] at h
  exact nomatch h

theorem lt_knotsFrom_of_reaches (h : s.reaches f a = true) : a < knotsFrom := by
  obtain ⟨-, b, i, off, hblk, -⟩ := reaches_iff.mp h
  exact lt_knotsFrom_of_blkAt hblk

theorem sees_of_reaches (h : s.reaches f a = true) : s.sees f a = true := by
  rw [State.sees, if_neg (Nat.not_le.mpr (lt_knotsFrom_of_reaches h))]
  exact (reaches_iff.mp h).1

/-- What is latched beside a register is no part of the value of another. -/
theorem value_unlatch (k : Nat) : (s.unlatch k).value a = s.value a := rfl

/-! ### Accesses that do not act -/

variable (s)

theorem viewViolation_counts : s.viewViolation.reg R.VIEW_VIOLATION_COUNT = satAdd (s.reg R.VIEW_VIOLATION_COUNT) 1 ∧
    bit (s.viewViolation.reg (R.FAULT_STATUS (pageOf .devGlobal 0))) 0 = true := by
  refine ⟨?_, bit_raise _ _ _ (by decide) 6⟩
  rw [State.viewViolation, reg_raise_ne _ _ _ _ _ _ (by decide), reg_addReg_same]

theorem badAccess_counts : s.badAccess.reg R.BAD_ACCESS_COUNT = satAdd (s.reg R.BAD_ACCESS_COUNT) 1 ∧
    bit (s.badAccess.reg (R.FAULT_STATUS (pageOf .devGlobal 0))) 1 = true := by
  refine ⟨?_, bit_raise _ _ _ (by decide) 7⟩
  rw [State.badAccess, reg_raise_ne _ _ _ _ _ _ (by decide), reg_addReg_same]

variable {s}

/-! ### Writes -/

/-- A 4-byte write of an RW register that no rule singles out stores it, within its range. -/
theorem doRegisterWrite_of_stored {v : W64} {b : Blk} {u off i j : Nat} {r : RegRow} (halign : a % 4 = 0) (htime : a / 0x1000 ≠ 0x10)
    (hreach : s.reaches f a = true) (hblk : blkAt a = some (b, u, off)) (hoff : doorbellBase ≤ a ∨ 0x30 ≤ off % 0x1000)
    (hrow : rowAt b u off = some (r, i, j)) (hacc : r.acc = .RW) (hstore : storeWrite f b u r.name i (v.setWidth 32) s = none)
    (hwork : workWrite f b u r.name i j (v.setWidth 32) s = none) (hdevice : deviceWrite f b u r.name i j (v.setWidth 32) s = none) :
    doRegisterWrite f a 4 v s = s.setReg a (applyLimit r.limit (v.setWidth 32)) := by
  have hhead : ¬ (a < doorbellBase ∧ off % 0x1000 < 0x30) := by omega
  rw [doRegisterWrite, if_pos ⟨rfl, halign⟩, State.writeWord, if_neg (Nat.not_le.mpr (lt_knotsFrom_of_reaches hreach)), State.write4,
    if_neg htime]
  refine (dev_congr s ?_).trans (dev_setReg s a _)
  simp only [State.writeReg, hblk, if_neg hhead, hrow, hstore, hwork, hdevice]
  rw [State.storeReg, reach_of_reaches _ _ _ _ hreach, if_pos hacc]

/-- A write that is not of 4 or 8 aligned bytes is a bad access. -/
theorem doRegisterWrite_of_unaligned {n : Nat} {v : W64} (h4 : ¬ (n = 4 ∧ a % 4 = 0)) (h8 : ¬ (n = 8 ∧ a % 8 = 0)) (hsees : s.sees f a = true) :
    doRegisterWrite f a n v s = dev (fun s => s.badAccess) s := by
  rw [doRegisterWrite, if_neg h4, if_neg h8]
  exact dev_congr s (if_pos hsees)

/-! ### Reads -/

/-- A read of a register that is no counter of the telemetry. -/
theorem readTel_of_reaches (hreach : s.reaches f a = true) (hlo : a ≠ R.TEL_SEQ_LO) (hhi : a ≠ R.TEL_SEQ_HI) : s.readTel f a = s.readReg f a := by
  have hview := (reaches_iff.mp hreach).1
  simp [State.readTel, hview, answers_of_reaches hreach, hlo, hhi]

/-- A read returns the value of the register where nothing is latched for it. -/
theorem readReg_value (hreach : s.reaches f a = true) (hlatch : mget none s.latch (canonAt a) = none) :
    (s.readReg f a).2 = s.value a := by
  rw [readReg_of_answers s f a (reaches_iff.mp hreach).1 (answers_of_reaches hreach), hlatch, Option.getD_none]

/-- Registers that clear on read are no header registers, and stand at one address. -/
theorem canonAt_of_acc (h : accAt a = some .RC) : canonAt a = a := by
  unfold accAt at h
  unfold canonAt
  split at h
  · exact nomatch h
  · next hblk =>
    rw [hblk]
    dsimp only
    split at h
    · exact nomatch h
    · next hhead => exact if_neg hhead

theorem reg_clearRead (s : State) (a : Nat) : (s.clearRead a).reg a = 0 := by
  unfold State.clearRead
  extract_lets s1
  have h1 : s1.reg a = 0 := reg_setReg_same _ _ _
  split
  · split <;> exact h1
  · exact h1

/-- A read of a counter that clears on read. -/
theorem read4_of_clears (hreach : s.reaches f a = true) (hacc : accAt a = some .RC) (hlatch : mget none s.latch a = none) :
    s.read4 f a = ((s.readReg f a).1.clearRead a, s.value a) := by
  have hne : a ≠ R.TEL_SEQ_LO ∧ a ≠ R.TEL_SEQ_HI := by
    constructor <;> rintro rfl <;> exact absurd hacc (by decide)
  have hvalue := readReg_value hreach (by rw [canonAt_of_acc hacc]; exact hlatch)
  rw [State.read4, readTel_of_reaches hreach hne.1 hne.2]
  simp only [hacc, (reaches_iff.mp hreach).1, answers_of_reaches hreach, hvalue]
  rfl

/-- A read of one word is one access of it. -/
theorem readWords_one (hreach : s.reaches f a = true) : s.readWords f a 1 = ((s.read4 f a).1, (s.read4 f a).2.toNat) := by
  have hsees := sees_of_reaches hreach
  have hrange : List.range 1 = [0] := rfl
  simp only [State.readWords, hrange, List.all_cons, List.all_nil, Nat.mul_zero, Nat.add_zero, hsees, Bool.and_self, if_true,
    List.foldl_cons, List.foldl_nil, State.readAny, if_neg (Nat.not_le.mpr (lt_knotsFrom_of_reaches hreach)), Nat.zero_add, pow_zero, Nat.mul_one]

/-- A 4-byte read of a counter returns it and leaves 0. -/
theorem doReadClear_of_clears (halign : a % 4 = 0) (hreach : s.reaches f a = true) (hacc : accAt a = some .RC) (hlatch : mget none s.latch a = none) :
    doReadClear f a 4 s = ((s.readReg f a).1.clearRead a).setRead (s.value a).toNat := by
  have hfirst : a / 4 * 4 = a := by omega
  have hwords : (a + 4 + 3) / 4 - a / 4 = 1 := by omega
  rw [doReadClear, if_neg (by omega), hfirst, hwords, readWords_one hreach, read4_of_clears hreach hacc hlatch]
  have hlt := (s.value a).isLt
  simp only [halign, Nat.mul_zero, pow_zero, Nat.div_one]
  rw [Nat.mod_eq_of_lt hlt]

/-- A read of a stamp's low word returns it and latches the high word. -/
theorem doStampLoRead_of_lo (hreach : s.reaches f a = true) (hlo : isStampLo a = true) (hlatch : mget none s.latch (canonAt a) = none) :
    doStampLoRead f a s =
      ((s.unlatch (canonAt a)).latchReg (canonAt a + 4) (s.value (canonAt a + 4))).setRead (s.value a).toNat := by
  have hby : latchedBy (canonAt a) = [canonAt a + 4] := of_decide_eq_true hlo
  have hne : a ≠ R.TEL_SEQ_LO ∧ a ≠ R.TEL_SEQ_HI := by
    constructor <;> rintro rfl <;> exact absurd hlo (by decide)
  rw [doStampLoRead, if_pos hlo, State.readWord, readTel_of_reaches hreach hne.1 hne.2,
    readReg_of_answers s f a (reaches_iff.mp hreach).1 (answers_of_reaches hreach), hlatch, hby, List.foldl_cons, List.foldl_nil, value_unlatch,
    Option.getD_none]

end Accesses

/-- Settles O18: each access is the branch that its view, its size, its register's code and what is latched select. -/
theorem registerAccesses : Obligations.RegisterAccesses := by
  unfold Obligations.RegisterAccesses
  refine ⟨fun s f a write hsees => ?_, fun s f a v b u off i j r halign htime hreach hblk hoff hrow hacc hstore hwork hdevice => ?_,
    fun s f a n v h4 h8 hsees => ?_, fun s f a halign hreach hacc hlatch => ?_, fun s f a hreach hlo hlatch => ?_⟩
  · have hdo : doOutOfViewAccess f a write s = if write then s.viewViolation else s.viewViolation.setRead 0 := if_neg (by simp [hsees])
    have hreg (k : Nat) : (dev (doOutOfViewAccess f a write) s).reg k = s.viewViolation.reg k := by
      rw [reg_dev _ _ _ ((stable_part s.part).doOutOfViewAccess rfl), hdo]
      split <;> rfl
    refine ⟨_, rfl, ?_, ?_, fun hread => ?_⟩
    · rw [hreg]
      exact (viewViolation_counts s).1
    · rw [hreg]
      exact (viewViolation_counts s).2
    · rw [dev_readData, hdo, hread]
      rfl
  · have hdo := doRegisterWrite_of_stored halign htime hreach hblk hoff hrow hacc hstore hwork hdevice
    refine completes_runTime (f := doRegisterWrite f a 4 v) rfl ?_ ?_ ?_
    · rw [hdo]; rfl
    · rw [hdo]; rfl
    · rw [hdo]
      exact ⟨reg_setReg_same _ _ _, fun a' ha => reg_setReg_ne _ _ _ _ ha⟩
  · have hdo := doRegisterWrite_of_unaligned (v := v) h4 h8 hsees
    refine completes_runTime (f := doRegisterWrite f a n v) rfl ?_ ?_ ?_
    · rw [hdo]; rfl
    · rw [hdo]; rfl
    · rw [hdo, reg_dev _ _ _ ((stable_part s.part).badAccess rfl), reg_dev _ _ _ ((stable_part s.part).badAccess rfl)]
      exact badAccess_counts s
  · have hdo := doReadClear_of_clears halign hreach hacc hlatch
    refine ⟨_, rfl, ?_, ?_⟩
    · rw [dev_readData]
      exact congrArg State.readData hdo
    · rw [reg_dev _ _ _ ((stable_part s.part).doReadClear rfl)]
      exact (congrArg (State.reg · a) hdo).trans (reg_clearRead _ _)
  · have hdo := doStampLoRead_of_lo hreach hlo hlatch
    refine ⟨_, rfl, ?_, ?_⟩
    · rw [dev_readData, hdo]
      rfl
    · rw [dev_latch, hdo]
      exact latch_latchReg_same _ _ _

end Sys2Proof.Machine

namespace Sys2Proof.Machine

/-! ## Doorbells of hoops (R122, R151, R566) -/

section Doorbells
variable {s : State}

/-- A doorbell that reaches its page acts, and is a wake, while its hoop is not being reset (R151, R566). -/
theorem doorbell_of_reaches {f h a : Nat} (act : State → State) (hreach : s.reaches f a = true) (hphase : (s.hoop h).phase ≠ .resetting) :
    s.doorbell f h a act = (act s).wake 7 := by
  rw [State.doorbell, reach_of_reaches _ _ _ _ hreach, if_neg hphase]

/-- The doorbell page of command queue `q` of hoop `h` (R86, R89). -/
theorem blkAt_cqDbTail {h q : Nat} (hh : h < 16) (hq : q < 64) : blkAt (R.CQ_DB_TAIL h q) = some (.cqDoorbell, h * 256 + q, 0) := by
  have hbell : doorbellBase = 0x4000000 := rfl
  have haddr : R.CQ_DB_TAIL h q = 0x4000000 + 0x100000 * h + 0x1000 * q := rfl
  have hhoop : (R.CQ_DB_TAIL h q - doorbellBase) / 0x100000 = h := by omega
  have hpage : (R.CQ_DB_TAIL h q - doorbellBase) % 0x100000 / 0x1000 = q := by omega
  have hoff : (R.CQ_DB_TAIL h q - doorbellBase) % 0x1000 = 0 := by omega
  rw [blkAt, if_neg (by omega)]
  dsimp only
  rw [hhoop, hpage, hoff, if_pos ⟨hh, hq⟩]

/-- A read of CQ_DB_TAIL returns TAIL (R122). -/
theorem value_cqDbTail {f h q : Nat} (hh : h < 16) (hq : q < 64) (hreach : s.reaches f (R.CQ_DB_TAIL h q) = true) :
    s.value (R.CQ_DB_TAIL h q) = w32 (s.cq h q).tail := by
  obtain ⟨-, b, i, off, hblk, hpres, hon, -⟩ := reaches_iff.1 hreach
  obtain ⟨rfl, rfl, rfl⟩ : Blk.cqDoorbell = b ∧ h * 256 + q = i ∧ 0 = off := by simpa [blkAt_cqDbTail hh hq] using hblk
  have hbell : doorbellBase ≤ R.CQ_DB_TAIL h q := Nat.le_add_right_of_le (Nat.le_add_right _ _)
  have hrow : rowAt .cqDoorbell (h * 256 + q) 0 = some (⟨"CQ_DB_TAIL", 0x0, 1, 0x0, 1, 0x0, .RW, [0], .any, none⟩, 0, 0) := rfl
  have hu : (h * 256 + q) / 256 = h ∧ (h * 256 + q) % 256 = q := by omega
  have hshown : s.shown .cqDoorbell (h * 256 + q) "CQ_DB_TAIL" 0 0 = some (s.cq h q).tail := by
    simp [State.shown, showDoorbell, hu]
  simp [State.value, hblk, hpres, hon, hbell, hrow, hshown]

end Doorbells

/-- Settles O19: the read shows the queue's TAIL, and the write takes the branch that the three conditions select, and wakes. -/
theorem doorbellTailWrites : Obligations.DoorbellTailWrites := by
  unfold Obligations.DoorbellTailWrites
  intro s f h q t hreach hphase x ok
  have hrun : doCqDbTail f h q t s = _ := doorbell_of_reaches _ hreach hphase
  refine ⟨value_cqDbTail h.isLt q.isLt hreach, fun hok => ?_, fun hrefused => ?_⟩
  · refine completesThen_run (u := s.setCq h q { x with tail := t.toNat }) rfl (hrun.trans (congrArg (State.wake · 7) (if_pos hok))) ?_
    rw [cq_setCq_same]
    exact ⟨rfl, rfl⟩
  · refine completesThen_run (u := s.setCq h q { x with tailRefused := true }) rfl (hrun.trans (congrArg (State.wake · 7) (if_neg hrefused))) ?_
    rw [cq_setCq_same]
    exact ⟨rfl, rfl⟩

end Sys2Proof.Machine

namespace Sys2Proof.Machine

/-! ## Commands at the head of a queue (R125, R129, R133, R134, R135) -/

section Heads
variable {s : State} {h q : Nat} {c : Cmd}

/-- Outside an entry to sleep the head begins by the row of its opcode (R125, R557). -/
theorem headOp_of_head {op : Nat} (hmode : s.pm.mode ≠ .entering) (hhead : (s.cq h q).head = some c) (hop : c.opcode = op) :
    s.headOp h q op = some c := by
  simp [State.headOp, hmode, hhead, hop]

/-- A head whose context stands leaves the head as the last of the begun commands, complete, and begun at the position now. -/
theorem beginDone_begins (flags : Nat) (detail : BitVec 192) (hctx : s.ctxGone c = false) :
    ((s.beginDone c flags detail).cq c.hoop c.cq).head = none ∧
    ∃ f : InFlight, (s.beginDone c flags detail).flights = s.flights ++ [f] ∧ f.cmd = c ∧ f.done = true ∧ f.begin_ = s.pos := by
  rw [State.beginDone, hctx, if_neg Bool.false_ne_true]
  exact ⟨beginCmd_head _ _, _, beginCmd_flights _ _, rfl, rfl, rfl⟩

/-- A change of a command queue leaves the event queues. -/
theorem eq_setCq (x : Cq) (h' e : Nat) : (s.setCq h q x).eq h' e = s.eq h' e := rfl

/-- The queue of a FENCE that has taken its set of commits, and whose wait is over (R134). -/
def State.fencePassed (s : State) (h q : Nat) : State :=
  let t := s.setCq h q { s.cq h q with fenceAt := some ((s.cq h q).fenceAt.getD (s.now, s.pos)) }
  t.setCq h q { t.cq h q with fenceAt := none }

/-- The wait of a FENCE is its queue's alone: contexts, begun commands and the position are as before. -/
theorem ctxGone_fencePassed : (s.fencePassed h q).ctxGone c = s.ctxGone c := rfl
theorem flights_fencePassed : (s.fencePassed h q).flights = s.flights := rfl
theorem pos_fencePassed : (s.fencePassed h q).pos = s.pos := rfl

/-- A record that no commit caused: of another type than a command's, or a COMMAND_FAULT. -/
theorem byCommit_eq_false {ty : Nat} (hty : cmdRecType ty = false ∨ ty = 2) : (cmdRecType ty && decide (ty ≠ 2)) = false := by
  rcases hty with hty | hty <;> simp [hty]

/-- A FENCE behind which nothing is outstanding is complete (R134): the queue's earlier commands are over, and no record and no message of
its hoop that a commit caused waits. -/
theorem doFence_of_none_outstanding (hhead : s.headOp h q 6 = some c) (hearlier : s.earlierDone c = true)
    (hrecs : ∀ r ∈ (s.hoop h).held, cmdRecType r.ty = false ∨ r.ty = 2) (heqs : ∀ e < 16, (s.eq h e).held = [])
    (hmsgs : ∀ e ∈ s.sessions, ∀ m ∈ e.2.unacked ++ e.2.queued.map (·.2), m.hoop ≠ h ∨ (commitMsg m.ty = false ∧ m.ty ≠ 9)) :
    doFence h q s = ((s.fencePassed h q).beginDone c 0 0).settled := by
  rw [doFence, hhead]
  dsimp only
  rw [if_neg (by simp [hearlier])]
  refine if_pos (Bool.and_eq_true_iff.2 ⟨Bool.and_eq_true_iff.2 ⟨?_, ?_⟩, ?_⟩)
  · rw [Bool.not_eq_true', List.any_eq_false]
    intro r hr
    rw [byCommit_eq_false (hrecs r hr)]
    exact Bool.false_ne_true
  · refine List.all_eq_true.2 fun e he => ?_
    simp [eq_setCq, heqs e (List.mem_range.1 he)]
  · refine List.all_eq_true.2 fun e he => List.all_eq_true.2 fun m hm => ?_
    rcases hmsgs e he m hm with hh | ⟨hty, h9⟩
    · simp [hh]
    · simp [hty, h9]

/-- COMMAND_BEGIN has the effect of a command that does what the head's row does. -/
theorem sameEffect_commandBegin {h : Fin 16} {q : Fin 64} {host : List Byte} {d : Instr} {f : State → State} (hd : exec d s = run f s)
    (hf : s.beginHead h q host = f s) : sameEffect (.commandBegin h q host) d s :=
  ⟨dev f s, congrArg _ (dev_congr s hf), hd⟩

end Heads

/-- Settles O21: each head that its row lets begin is a complete command behind the others; COMMAND_BEGIN selects the row by the opcode. -/
theorem headCommandsBegin : Obligations.HeadCommandsBegin := by
  unfold Obligations.HeadCommandsBegin
  refine ⟨fun s h q c hmode hhead hh hq hctx => ?_, fun s h q c host hhead => ?_⟩
  · intro begun
    have hrow {op : Nat} (hop : c.opcode = op) := headOp_of_head hmode hhead hop
    have hbegun (u : State) (hu : u.ctxGone c = false) (hflights : u.flights = s.flights) (hpos : u.pos = s.pos) : begun (u.beginDone c 0 0) := by
      have h := beginDone_begins 0 0 hu
      rwa [hh, hq, hflights, hpos] at h
    refine ⟨fun hop => ?_, fun hop => ?_, fun hop hreached => ?_, fun hop hwaits => ?_, fun hop hearlier hrecs heqs hmsgs => ?_⟩
    · exact completesThen_run (f := doNop h q) rfl (by rw [doNop, hrow hop]) (hbegun s hctx rfl rfl)
    · exact completesThen_run (f := doPostEvent h q) rfl (by rw [doPostEvent, hrow hop]) (hbegun s hctx rfl rfl)
    · exact completesThen_run (f := doAtStitch h q) rfl (by rw [doAtStitch, hrow hop]; exact if_pos hreached) (hbegun s hctx rfl rfl)
    · exact completes_run (f := doAtStitch h q) rfl (by rw [doAtStitch, hrow hop]; exact if_neg (by omega)) rfl rfl
    · exact completesThen_run (f := doFence h q) rfl (doFence_of_none_outstanding (hrow hop) hearlier hrecs heqs hmsgs)
        (hbegun _ (ctxGone_fencePassed.trans hctx) flights_fencePassed pos_fencePassed)
  · have begins {d : Instr} {f : State → State} (hd : exec d s = run f s) (hf : s.beginHead h q host = f s) := sameEffect_commandBegin hd hf
    refine ⟨fun hop => begins rfl ?_, fun hop harm => begins rfl ?_, fun hop harm => begins rfl ?_, fun hop => begins rfl ?_,
      fun hop => begins rfl ?_, fun hop => begins rfl ?_, fun hop => begins rfl ?_, fun hop => begins rfl ?_, fun hop => begins rfl ?_,
      fun hop => begins rfl ?_, fun hop => begins rfl ?_, fun hop => begins rfl ?_⟩ <;> simp only [State.beginHead, *, Bool.false_eq_true, if_true, if_false]

end Sys2Proof.Machine

namespace Sys2Proof.Machine

/-! ## The commit of a command that holds nothing (R120, R136, R140, R146) -/

section Commits
variable {s : State} {f : InFlight}

/-- A begun NOP, AT_STITCH or FENCE that holds nothing: no output, input, segment, context, append or stage record, and code 0. -/
structure InFlight.plain (f : InFlight) : Prop where
  outs : f.outs = []
  ins : f.ins = []
  segs : f.segs = []
  ctxs : f.ctxs = []
  appended : f.appended = []
  carried : f.carried = []
  stageRec : f.stageRec = none
  code : f.code = 0
  opcode : f.cmd.opcode = 0 ∨ f.cmd.opcode = 5 ∨ f.cmd.opcode = 6

theorem commitFail_of_plain (hf : f.plain) : s.commitFail f = none := by
  simp [State.commitFail, hf.appended, hf.carried]

theorem commitCarried_of_plain (hf : f.plain) : s.commitCarried f = (s, none) := by
  simp [State.commitCarried, hf.appended, hf.carried]

theorem commitOwn_of_plain (hf : f.plain) : s.commitOwn f = (s, 0, f.flags, f.detail) := by
  rcases hf.opcode with h | h | h <;> simp [State.commitOwn, h, hf.code]

/-- The record a plain command's commit posts: COMMAND_DONE, or FENCE_DONE for a FENCE, with the commit-table entry that holds it. -/
def State.doneRec (s : State) (f : InFlight) (ent : Option (Nat × Nat)) : Rec :=
  { s.cmdRec f.cmd (if f.cmd.opcode = 6 then 4 else 1) 0 f.flags f.detail with entry := ent }

/-- The command's position is counted as committed and its record, if it posts one, is sent. -/
def State.marked (s : State) (f : InFlight) (ent : Option (Nat × Nat)) : State :=
  let t := s.markDone f.cmd.hoop f.cmd.cq f.cmd.pos true
  if f.posts then t.post (t.doneRec f ent) else t

/-- The commit of a command that holds nothing is its mark, with its record, and the moves that may then start: what it releases on the way
leaves the hoops, the queues and the position. -/
theorem commitWhole_of_plain (hf : f.plain) (hknots : ∀ x ∈ s.heldKnots, x.cmd ≠ f.id) :
    ∃ (t : State) (ent : Option (Nat × Nat)), t.hoops = s.hoops ∧ t.cqs = s.cqs ∧ t.pos = s.pos ∧ s.commitWhole f = (t.marked f ent).startMoves := by
  have hmine : s.heldKnots.filter (fun x => decide (x.cmd = f.id)) = [] := by simpa using hknots
  unfold State.commitWhole
  extract_lets c ent s1 s2 s3
  have houts : s3 = s2 := by dsimp only [s3]; rw [hf.outs]; rfl
  rw [commitCarried_of_plain hf]
  dsimp -zeta only
  extract_lets f' s4 s5 mine s6 s7 s8 x1 x2 x3 x4 x5
  have hins : s4 = s2 := by dsimp only [s4]; rw [hf.ins]; exact houts
  have hsegs : s5 = s2 := by
    dsimp only [s5]; rw [hf.segs]; exact hins
  have hknot : s6 = s2.unholdKnots f.id := by
    have hm : mine = [] := by dsimp only [mine]; rw [hsegs]; exact hmine
    dsimp only [s6]; rw [hm, hsegs]; rfl
  have hctxs : s7 = s6 := by dsimp only [s7]; rw [hf.ctxs]; rfl
  have hkept : s8.hoops = s.hoops ∧ s8.cqs = s.cqs ∧ s8.pos = s.pos := by
    dsimp only [s8]
    rw [hctxs, hknot]
    exact ⟨rfl, rfl, rfl⟩
  have hown := commitOwn_of_plain (s := s8) hf
  have hmark : x1 = s8.markDone f.cmd.hoop f.cmd.cq f.cmd.pos true := by
    dsimp only [x1]; rw [hown]
  have hposts : x2 = f.posts := by dsimp only [x2]; rw [hown]; simp [f']
  have hdone : x3 = x1.cmdRec f.cmd (if f.cmd.opcode = 6 then 4 else 1) 0 f.flags f.detail := by
    dsimp only [x3]; rw [hown]
  have hrec : x5 = s8.marked f ent := by
    dsimp only [x5, x4]
    rw [hf.stageRec, hposts, hdone, hmark]
    rfl
  exact ⟨s8, ent, hkept.1, hkept.2.1, hkept.2.2, by rw [hrec]⟩

/-- The payload of a command's record holds the command's tag (R146). -/
theorem doneRec_tag (ent : Option (Nat × Nat)) : (s.doneRec f ent).pay 24 4 = f.cmd.tag := by
  have htag : f.cmd.tag < 2 ^ 32 := fld_lt f.cmd.bits 64 32
  simp only [Rec.pay, State.doneRec, State.cmdRec, payAt, bytesAt, setBytes]
  rw [fld_setFld_same _ _ _ _ (by decide)]
  exact Nat.mod_eq_of_lt htag

/-- At its queue's DONE, with nothing else marked, a commit moves DONE past the position (R120). -/
theorem markDone_at_done {h q pos : Nat} (hdone : (s.cq h q).done = pos) (hmarks : (s.cq h q).marks = []) (hended : (s.cq h q).ended = []) :
    ((s.markDone h q pos true).cq h q).done = nextPos pos := by
  simp [State.markDone, hdone, hmarks, hended, advanceDone]

/-- A record leaves the command queues. -/
theorem cq_post (r : Rec) (h q : Nat) : (s.post r).cq h q = s.cq h q := congrArg (mget _ · _) (post_cqs s r)

/-- A record reaches the sequencer of a hoop that is READY (R45, R146). -/
theorem held_post {r : Rec} (hready : (s.hoop r.hoop).phase = .ready) :
    ((s.post r).hoop r.hoop).held = (s.hoop r.hoop).held ++ [{ r with arrived := s.now }] := by
  rw [State.post, if_neg (by simp [hready])]
  exact congrArg Hoop.held (mget_mset_same _ _ _ _)

end Commits

/-- Settles O22: the commit of a command that holds nothing marks its position and posts its record. -/
theorem commandsCommit : Obligations.CommandsCommit := by
  unfold Obligations.CommandsCommit
  intro s f hfind hh hq hp hready houts hins hsegs hctxs happ hcar hstage hknots hop hcode hdone hmarks hended hphase
  have hf : f.plain := ⟨houts, hins, hsegs, hctxs, happ, hcar, hstage, hcode, hop⟩
  obtain ⟨t, ent, hhoops, hcqs, hpos, hwhole⟩ := commitWhole_of_plain hf hknots
  have hrun : doCommandCommit f.cmd.hoop f.cmd.cq (BitVec.ofNat 32 f.cmd.pos).toNat s = (t.marked f ent).startMoves.settled := by
    rw [BitVec.toNat_ofNat, Nat.mod_eq_of_lt hp, doCommandCommit, hfind]
    exact (if_pos hready).trans (by rw [State.commitFlight, commitFail_of_plain hf, ← hwhole])
  have hcq : t.cq f.cmd.hoop f.cmd.cq = s.cq f.cmd.hoop f.cmd.cq := congrArg (mget _ · _) hcqs
  have hhoop : t.hoop f.cmd.hoop = s.hoop f.cmd.hoop := congrArg (mget _ · _) hhoops
  have hmark := markDone_at_done (s := t) (hcq ▸ hdone) (hcq ▸ hmarks) (hcq ▸ hended)
  refine completesThen_run (f := doCommandCommit f.cmd.hoop f.cmd.cq (BitVec.ofNat 32 f.cmd.pos).toNat) rfl hrun ⟨?_, fun hev => ?_, fun hev hop6 => ?_⟩
  · rw [State.marked]
    split
    · exact (cq_post _ _ _).symm ▸ hmark
    · exact hmark
  · have hposts : f.posts = true := by rcases hev with hev | hev <;> simp [InFlight.posts, hev]
    have hheld := held_post (s := t.markDone f.cmd.hoop f.cmd.cq f.cmd.pos true)
      (r := (t.markDone f.cmd.hoop f.cmd.cq f.cmd.pos true).doneRec f ent) (hhoop ▸ hphase)
    rw [State.marked, hposts]
    exact ⟨_, hheld.trans (congrArg (fun x : Hoop => x.held ++ _) hhoop), rfl, doneRec_tag ent, rfl, hpos⟩
  · have hposts : f.posts = false := by
      rcases hop with hop | hop | hop
      · simp [InFlight.posts, hev, hcode, hop]
      · simp [InFlight.posts, hev, hcode, hop]
      · exact absurd hop hop6
    rw [State.marked, hposts]
    exact hhoops

end Sys2Proof.Machine

namespace Sys2Proof.Machine

/-! ## Control of a command queue (R139, R121, R156) -/

section QueueControls
variable {s : State} {h q : Nat}

/-- A key that reads as another value than the default has an entry with that value. -/
theorem mem_of_mget_ne {V : Type} {d : V} {m : SMap V} {k : Nat} (hne : mget d m k ≠ d) : (k, mget d m k) ∈ m := by
  induction m with
  | nil => exact absurd rfl hne
  | cons e m ih =>
    obtain ⟨k', v⟩ := e
    by_cases hk : k' = k
    · simp [mget, hk]
    · simp only [mget, if_neg hk] at hne ⊢
      exact List.mem_cons_of_mem _ (ih hne)

/-- Marks do not change the mode of a queue (R120). -/
theorem advanceDone_mode (n : Nat) (c : Cq) : (advanceDone n c).mode = c.mode := by
  induction n generalizing c with
  | zero => rfl
  | succ n ih =>
    rw [advanceDone]
    split
    · rw [ih]
    · rfl

theorem cq_markDone_mode (pos : Nat) (committed : Bool) : ((s.markDone h q pos committed).cq h q).mode = (s.cq h q).mode := by
  rw [State.markDone, cq_setCq_same, advanceDone_mode]
  cases committed <;> rfl

/-- A head that is withdrawn is gone (R416). -/
theorem head_withdrawHead : ((s.withdrawHead h q).cq h q).head = none := by
  unfold State.withdrawHead
  extract_lets s1 s2 s3
  rw [cq_setCq_same]

/-- A killed queue has no head, and reads again from DONE (R416). -/
theorem cq_killQueue : ((s.killQueue h q).cq h q).head = none ∧ ((s.killQueue h q).cq h q).read = ((s.killQueue h q).cq h q).done := by
  unfold State.killQueue
  extract_lets s1 s2 c s3
  have hhead : c.head = none := head_withdrawHead (s := s1)
  clear_value c
  rw [cq_setCq_same]
  exact ⟨hhead, rfl⟩

/-- A stopped queue is STOPPING with READ at DONE and no head, and its EN is 0 (R156). -/
theorem cq_stopQueue : ((s.stopQueue h q).cq h q).mode = .stopping ∧ ((s.stopQueue h q).cq h q).head = none ∧
    ((s.stopQueue h q).cq h q).read = ((s.stopQueue h q).cq h q).done := by
  unfold State.stopQueue
  extract_lets s1 s2
  rw [cq_setCq_same]
  have hkill : (s2.cq h q).head = none ∧ (s2.cq h q).read = (s2.cq h q).done := cq_killQueue (s := s1)
  clear_value s2
  exact ⟨rfl, hkill⟩

/-- One queue's stop ends (R157). -/
def State.stopEnds (s : State) (e : Nat × Cq) : State := { s with cqs := mset Cq.dflt s.cqs e.1 { e.2 with mode := .disabled } }

theorem cq_stopEnds_same {e : Nat × Cq} (hk : e.1 = h * 64 + q) : ((s.stopEnds e).cq h q).mode = .disabled := by
  rw [State.cq, ← hk]
  exact congrArg Cq.mode (mget_mset_same _ _ _ _)

theorem cq_stopEnds_ne {e : Nat × Cq} (hk : e.1 ≠ h * 64 + q) : (s.stopEnds e).cq h q = s.cq h q := mget_mset_ne _ _ _ _ _ _ (Ne.symm hk)

/-- A queue whose stop is among those that end, or that was DISABLED already, ends DISABLED. -/
theorem cq_foldl_stopEnds (l : List (Nat × Cq)) (hmem : (∃ e ∈ l, e.1 = h * 64 + q) ∨ (s.cq h q).mode = .disabled) :
    ((l.foldl State.stopEnds s).cq h q).mode = .disabled := by
  induction l generalizing s with
  | nil => simpa using hmem
  | cons e l ih =>
    refine ih ?_
    by_cases hk : e.1 = h * 64 + q
    · exact .inr (cq_stopEnds_same hk)
    · rw [cq_stopEnds_ne hk]
      exact hmem.imp_left fun ⟨x, hx, hxk⟩ => ⟨x, (List.mem_cons.1 hx).resolve_left fun hxe => hk (hxe ▸ hxk), hxk⟩

/-- As time passes a STOPPING queue is DISABLED (R157). -/
theorem cq_stopsEnd (hstop : (s.cq h q).mode = .stopping) : ((s.stopsEnd fun _ => true).cq h q).mode = .disabled := by
  have hne : s.cq h q ≠ Cq.dflt := fun hd => by rw [hd] at hstop; cases hstop
  exact cq_foldl_stopEnds _ (.inl ⟨(h * 64 + q, s.cq h q), List.mem_filter.2 ⟨mem_of_mget_ne hne, by simp [hstop]⟩, rfl⟩)

/-- What an enable makes of a queue that passes its checks: position 0 for one that holds nothing, READ at DONE otherwise (R121, R156). -/
def Cq.enabled (x : Cq) : Cq :=
  { (if x.tail = x.done then { x with tail := 0, read := 0, done := 0, marks := [], ended := [] } else { x with read := x.done }) with
    mode := .running, head := none }

/-- A register's value is no part of a queue. -/
theorem cq_setReg (a : Nat) (v : W32) : (s.setReg a v).cq h q = s.cq h q := rfl

/-- An enable with a good ring stores CQ_CTRL and runs the queue; of the rest only the ring's object, which it pins, may change (R121). -/
theorem doCqEnable_of_ringOk {f : Nat} {v : W32} (hreach : s.reaches f (cqCtrl h q) = true) (hoff : bit (s.reg (cqCtrl h q)) 0 = false)
    (hready : s.hoopResetting h = false) (hring : s.ringOk h q (cqLimit (v ||| 1)) = true) :
    ∃ o, doCqEnable f h q v s = (State.setReg { s with objs := o } (cqCtrl h q) (cqLimit (v ||| 1))).setCq h q (s.cq h q).enabled := by
  rw [doCqEnable, reach_of_reaches s _ _ _ hreach]
  extract_lets w x old s1 x1
  rw [if_neg (by rw [show bit old 0 = false from hoff]; decide), if_neg (by simp [hready, show s.ringOk h q w = true from hring])]
  have hs1 : ∃ o, s1 = { s with objs := o } := by
    dsimp only [s1]
    split
    · split
      · exact ⟨_, rfl⟩
      · exact ⟨_, rfl⟩
    · exact ⟨_, rfl⟩
  obtain ⟨o, ho⟩ := hs1
  exact ⟨o, by rw [ho]; rfl⟩

/-- A queue that an ignored change of CQ_CTRL may flag is otherwise as it was (R121). -/
theorem cq_flagRefused (c : Prop) [Decidable c] :
    ∃ b, (if c then s.setCq h q { s.cq h q with cfgRefused := true } else s).cq h q = { s.cq h q with cfgRefused := b } := by
  by_cases hc : c
  · exact ⟨true, by rw [if_pos hc, cq_setCq_same]⟩
  · exact ⟨(s.cq h q).cfgRefused, by rw [if_neg hc]⟩

/-- As time passes where no hoop is RESETTING, only the stops of queues end (R151, R157). -/
theorem phasesEnd_of_none_resetting (hnone : ∀ k < 16, (s.hoop k).phase ≠ .resetting) : s.phasesEnd = s.stopsEnd fun _ => true := by
  unfold State.phasesEnd
  extract_lets l s1
  have hl : l = [] := List.filter_eq_nil_iff.2 fun k hk => by simpa using hnone k (List.mem_range.1 hk)
  rw [show s1 = s from if_pos hl]

end QueueControls

/-- Settles O23: each write of CQ_CMD and CQ_CTRL is followed through the branch its hypotheses choose; a stop ends in POSITION_REACHED. -/
theorem queueControl : Obligations.QueueControl := by
  unfold Obligations.QueueControl
  intro s f h q
  extract_lets x
  refine ⟨fun hreach => ?_, fun hreach v => ?_, fun dt sub hdt hstop hres => ?_⟩
  · have hrun (act : State → State) : s.cqCmd f h q act = act s := reach_of_reaches s _ f act hreach
    refine ⟨fun hm => ?_, fun hm => ?_, fun hm => ⟨?_, ?_⟩, ?_⟩
    · refine completes_run (f := doCqResume f h q) rfl ((hrun _).trans (if_pos hm)) rfl ?_
      rw [cq_markDone_mode, cq_setCq_same]
    · refine completes_run (f := doCqRetry f h q) rfl ((hrun _).trans (if_pos hm)) rfl ?_
      rw [cq_setCq_same]
      exact ⟨rfl, rfl⟩
    · exact completes_run (f := doCqResume f h q) rfl ((hrun _).trans (if_neg hm)) rfl rfl
    · exact completes_run (f := doCqRetry f h q) rfl ((hrun _).trans (if_neg hm)) rfl rfl
    · refine completes_run (f := doCqClearFlags f h q) rfl (hrun _) rfl ?_
      rw [cq_setCq_same]
      exact ⟨rfl, rfl, rfl, rfl⟩
  · refine ⟨fun hoff hready hring => ?_, fun hoff hbad => ?_, fun hon => ?_⟩
    · obtain ⟨o, ho⟩ := doCqEnable_of_ringOk (f := f) hreach hoff hready hring
      refine completes_run (f := doCqEnable f h q v) rfl ho rfl ⟨?_, ?_⟩
      · rw [reg_setCq, reg_setReg_same]
      · rw [cq_setCq_same]
        refine ⟨rfl, fun heq => ?_, fun hne => ?_⟩
        · rw [Cq.enabled, if_pos heq]
          exact ⟨rfl, rfl⟩
        · rw [Cq.enabled, if_neg hne]
          exact ⟨rfl, rfl⟩
    · refine completes_run (f := doCqEnable f h q v) rfl ((reach_of_reaches s _ _ _ hreach).trans
        ((if_neg (by simp [hoff])).trans (if_pos hbad))) rfl ⟨?_, ?_, ?_⟩
      · rw [reg_setCq, reg_setReg_same]
        exact bit_setFld_same _ 0 0 (by decide)
      · rw [cq_setCq_same]
      · rw [cq_setCq_same]
    · obtain ⟨hmode, hhead, hread⟩ := cq_stopQueue (s := s) (h := h) (q := q)
      obtain ⟨b, hb⟩ := cq_flagRefused (s := s.stopQueue h q) (h := h) (q := q) (cqOther (setBit (cqLimit v) 0 false) ≠ cqOther (s.reg (cqCtrl h q)))
      refine completesThen_run (f := doCqDisable f h q v) rfl ((reach_of_reaches s _ _ _ hreach).trans (if_pos hon)) ?_
      rw [cq_setReg, hb, reg_setReg_same]
      generalize (s.stopQueue h q).cq h q = stopped at hmode hhead hread
      refine ⟨hmode, hread, hhead, ?_⟩
      rw [setBit, bit_setFld_ne _ _ _ _ _ (by decide) (.inl (by decide))]
      exact bit_setFld_same _ 0 0 (by decide)
  · have hends : (if dt = 0 then s.advance16 (16 * dt + sub) else (s.advance16 (16 * dt + sub)).phasesEnd) =
        (s.advance16 (16 * dt + sub)).stopsEnd fun _ => true :=
      (if_neg (by omega)).trans (phasesEnd_of_none_resetting hres)
    refine ⟨(s.advance16 (16 * dt + sub)).stopsEnd fun _ => true, ?_, cq_stopsEnd (s := s.advance16 (16 * dt + sub)) hstop⟩
    refine (exec_positionReached s dt sub).trans (congrArg _ (dev_congr (g := fun _ => _) _ ?_))
    exact congrArg State.wakeAts hends

end Sys2Proof.Machine

namespace Sys2Proof.Machine

/-! ## Event queues (R148, R149, R158) -/

section EventQueueRules
variable {s : State} {h e : Nat}

/-- The queue's message is sent: it is disarmed, and the vector's message goes out or stays pending (R148). -/
def State.messageSent (s : State) (h e : Nat) : State := (s.setEq h e { s.eq h e with armed := false }).sendMsi h e

/-- The message of a vector that is not masked goes out. -/
theorem messageSent_of_unmasked (hmask : bit (s.reg (R.MSIX_TABLE h (4 * e + 3))) 0 = false) :
    s.messageSent h e = { s.setEq h e { s.eq h e with armed := false } with
      msiSent := mset 0 s.msiSent (h * 16 + e) (mget 0 s.msiSent (h * 16 + e) + 1) } := if_neg (by rw [reg_setEq, hmask]; decide)

/-- A message sent disarms its queue and counts one message of the vector. -/
theorem messageSent_effect (hmask : bit (s.reg (R.MSIX_TABLE h (4 * e + 3))) 0 = false) :
    ((s.messageSent h e).eq h e).armed = false ∧ mget 0 (s.messageSent h e).msiSent (h * 16 + e) = mget 0 s.msiSent (h * 16 + e) + 1 := by
  rw [messageSent_of_unmasked hmask]
  exact ⟨congrArg Eq.armed (eq_setEq_same s h e _), mget_mset_same 0 s.msiSent (h * 16 + e) (mget 0 s.msiSent (h * 16 + e) + 1)⟩

/-- An ARMED queue with COAL_COUNT records pending sends its message (R148). -/
theorem coalesce_of_count (harmed : (s.eq h e).armed = true) (hcount : max 1 (fld (s.reg (R.EQ_CTRL h e)) 16 16) ≤ (s.eq h e).pendingCount) :
    s.coalesce h e = s.messageSent h e := if_pos ⟨harmed, .inl hcount⟩

/-- An ARMED queue whose oldest pending record has waited COAL_STITCHES sends its message (R148). -/
theorem coalesce_of_timeout {x : Nat} {r : List Nat} (harmed : (s.eq h e).armed = true) (hpend : 0 < (s.eq h e).pendingCount)
    (hstamps : (s.eq h e).pendStamps = x :: r) (hon : s.reg (R.EQ_COAL_STITCHES h e) ≠ 0)
    (htime : x / 65536 + (s.reg (R.EQ_COAL_STITCHES h e)).toNat ≤ s.count) : s.coalesce h e = s.messageSent h e := by
  have hne : (s.reg (R.EQ_COAL_STITCHES h e)).toNat ≠ 0 := fun h0 => hon (BitVec.eq_of_toNat_eq h0)
  refine if_pos ⟨harmed, .inr ⟨hpend, ?_⟩⟩
  rw [hstamps]
  exact decide_eq_true ⟨hne, htime⟩

/-- A queue with nothing pending sends nothing (R148). -/
theorem coalesce_of_empty (hempty : (s.eq h e).pendingCount = 0) : s.coalesce h e = s := if_neg (by rw [hempty]; omega)

/-- A refused write of EQ_CTRL sets CFG_REFUSED and leaves the queue's EN, HEAD and TAIL (R158). -/
theorem eq_refusing (t : State) (q : Eq) : ((t.setEq h e { q with cfgRefused := true }).eq h e).cfgRefused = true ∧
    ((t.setEq h e { q with cfgRefused := true }).eq h e).en = q.en ∧ ((t.setEq h e { q with cfgRefused := true }).eq h e).head = q.head ∧
    ((t.setEq h e { q with cfgRefused := true }).eq h e).tail = q.tail := by
  rw [eq_setEq_same]
  exact ⟨rfl, rfl, rfl, rfl⟩

/-- While no command is complete, a disable stores EQ_CTRL and drops, and counts, the records held for the queue (R158). -/
theorem doEqDisable_of_none_done {f : Nat} {v : W32} (hreach : s.reaches f (R.EQ_CTRL h e) = true) (hnone : ∀ g ∈ s.flights, g.done = false) :
    ∃ w c, doEqDisable f h e v s = (((s.addReg (R.EQ_DROP_COUNT h e) (s.eq h e).held.length).setReg (R.EQ_CTRL h e) w).setEq h e
      { s.eq h e with en := false, held := [], loss := (s.eq h e).loss || !(s.eq h e).held.isEmpty, cfgRefused := c }).settled := by
  rw [doEqDisable, reach_of_reaches s _ _ _ hreach]
  extract_lets w old q chg s1 waiting s2
  have hwait : waiting = [] := List.filter_eq_nil_iff.2 fun g hg => by simp [hnone g hg]
  rw [hwait]
  exact ⟨_, _, rfl⟩

end EventQueueRules

/-- Settles O24: each write of EQ_CTRL, HEAD and ARM, and the timeout, is followed through the branch its hypotheses choose. -/
theorem eventQueues : Obligations.EventQueues := by
  unfold Obligations.EventQueues
  intro s f h e
  extract_lets q size sent
  refine ⟨fun hreach v => ?_, fun hreach hphase v => ?_, fun hreach hphase v hv => ?_, fun x r harmed hpend hstamps hon htime hmask => ?_⟩
  · have hrun (act : State → State) : s.reach f (R.EQ_CTRL h e) act = act s := reach_of_reaches s _ f act hreach
    refine ⟨fun hready hoff => ?_, fun hresets => ?_, fun hready hon => ?_, fun hdone => ?_⟩
    · refine completes_run (f := doEqEnable f h e v) rfl ((hrun _).trans ((if_neg (by simp [hready])).trans ((if_neg (by simp [hoff])).trans
        (if_neg (by simp [hready]))))) rfl ?_
      rw [eq_setEq_same, reg_setEq, reg_setReg_same]
      exact ⟨rfl, rfl, rfl, rfl⟩
    · cases hon : bit (s.reg (R.EQ_CTRL h e)) 0 with
      | true => exact completes_run (f := doEqEnable f h e v) rfl ((hrun _).trans (if_pos ⟨hresets, hon⟩)) rfl (eq_refusing _ q)
      | false =>
        exact completes_run (f := doEqEnable f h e v) rfl ((hrun _).trans ((if_neg (by simp [hon])).trans ((if_neg (by simp [hon])).trans
          (if_pos hresets)))) rfl (eq_refusing _ q)
    · refine completesThen_run (f := doEqEnable f h e v) rfl ((hrun _).trans ((if_neg (by simp [hready])).trans (if_pos hon))) ?_
      rw [eq_setEq_same]
      exact ⟨rfl, rfl⟩
    · obtain ⟨w, c, hdis⟩ := doEqDisable_of_none_done (e := e) (v := v) hreach hdone
      refine completesThen_run (f := doEqDisable f h e v) rfl hdis ?_
      rw [eq_setEq_same, reg_setEq, reg_setReg_ne _ _ _ _ (by dsimp only [R.EQ_CTRL, R.EQ_DROP_COUNT]; omega), reg_addReg_same]
      exact ⟨rfl, rfl, rfl⟩
  · have hrun (act : State → State) : s.doorbell f h (R.EQ_DB_HEAD h e) act = (act s).wake 7 := doorbell_of_reaches act hreach hphase
    refine ⟨fun hroom => ?_, fun hbeyond => ?_⟩
    · refine completesThen_run (f := doEqDbHead f h e v) rfl ((hrun _).trans (congrArg (State.wake · 7) (if_pos hroom))) ?_
      rw [eq_setEq_same]
      exact ⟨rfl, rfl, rfl⟩
    · refine completesThen_run (f := doEqDbHead f h e v) rfl ((hrun _).trans (congrArg (State.wake · 7) (if_neg (Nat.not_le.2 hbeyond)))) ?_
      rw [eq_setEq_same]
      exact ⟨rfl, rfl⟩
  · have hrun : doEqDbArm f h e v s = ((s.setEq h e { q with armed := true }).coalesce h e).wake 7 :=
      (doorbell_of_reaches _ hreach hphase).trans (congrArg (State.wake · 7) (if_pos hv))
    have hq : (s.setEq h e { q with armed := true }).eq h e = { q with armed := true } := eq_setEq_same _ _ _ _
    refine ⟨fun hcount hmask => ?_, fun hempty => ?_⟩
    · refine completesThen_run (f := doEqDbArm f h e v) rfl hrun ?_
      rw [coalesce_of_count (by rw [hq]) (by rw [hq]; exact hcount)]
      exact messageSent_effect hmask
    · refine completesThen_run (f := doEqDbArm f h e v) rfl hrun ?_
      rw [coalesce_of_empty (by rw [hq]; exact hempty), hq]
      exact ⟨rfl, rfl⟩
  · refine completes_run (f := doEqCoalesceExpiry h e) rfl (coalesce_of_timeout harmed hpend hstamps hon htime) ?_ (messageSent_effect hmask)
    rw [messageSent_of_unmasked hmask]
    rfl

end Sys2Proof.Machine

namespace Sys2Proof.Machine

/-! ## Hoops: their resets, their scrubs and the host's resets (R118, R119, R151 to R153) -/

section HoopResets
variable {s : State} {h k r : Nat}

/-- What decides which hoops run: the hoops' own states and the VF settings (R118). -/
def State.seats (s : State) : SMap Hoop × Bool × Nat := (s.hoops, s.vfEnable, s.numVfs)

theorem hoop_of_seats {t : State} (hseats : t.seats = s.seats) : t.hoop k = s.hoop k :=
  congrArg (fun x : SMap Hoop × Bool × Nat => mget Hoop.dflt x.1 k) hseats
theorem vfEnable_of_seats {t : State} (hseats : t.seats = s.seats) : t.vfEnable = s.vfEnable := congrArg (fun x => x.2.1) hseats
theorem numVfs_of_seats {t : State} (hseats : t.seats = s.seats) : t.numVfs = s.numVfs := congrArg (fun x => x.2.2) hseats

theorem hoop_setHoop_same (x : Hoop) : (s.setHoop h x).hoop h = x := mget_mset_same _ _ _ _
theorem hoop_setHoop_ne (x : Hoop) (hne : k ≠ h) : (s.setHoop h x).hoop k = s.hoop k := mget_mset_ne _ _ _ _ _ _ hne

/-- One rule of a hoop's range is disabled and unpinned, its state and counters cleared (R82). -/
def State.clearRule (h : Nat) (s : State) (r : Nat) : State :=
  if s.ruleOf h r then
    let t := if (s.rule r).enabled then s.unpinTemplate h r else s
    t.setRule r { Rule.dflt with bits := (t.rule r).bits }
  else s

/-- Unpinning a template changes objects only (R66). -/
theorem unpinTemplate_objs : ∃ o, s.unpinTemplate h r = { s with objs := o } := by
  unfold State.unpinTemplate
  split
  · exact ⟨_, rfl⟩
  · exact ⟨_, rfl⟩

/-- A cleared rule of the range is a disabled one; beside it only objects change. -/
theorem clearRule_eq (hof : s.ruleOf h r = true) :
    ∃ o, s.clearRule h r = State.setRule { s with objs := o } r { Rule.dflt with bits := (s.rule r).bits } := by
  rw [State.clearRule, if_pos hof]
  cases (s.rule r).enabled with
  | true =>
    obtain ⟨o, ho⟩ := unpinTemplate_objs (s := s) (h := h) (r := r)
    exact ⟨o, by rw [if_pos rfl, ho]; rfl⟩
  | false => exact ⟨s.objs, rfl⟩

theorem clearRule_of_not (hof : s.ruleOf h r = false) : s.clearRule h r = s := if_neg (by rw [hof]; decide)

theorem seats_clearRule : (s.clearRule h r).seats = s.seats := by
  cases hof : s.ruleOf h r with
  | true => obtain ⟨o, ho⟩ := clearRule_eq hof; rw [ho]; rfl
  | false => rw [clearRule_of_not hof]

theorem ruleOf_clearRule (x : Nat) : (s.clearRule h r).ruleOf h x = s.ruleOf h x := by
  cases hof : s.ruleOf h r with
  | true => obtain ⟨o, ho⟩ := clearRule_eq hof; rw [ho]; rfl
  | false => rw [clearRule_of_not hof]

theorem rule_clearRule_ne {x : Nat} (hne : x ≠ r) : (s.clearRule h r).rule x = s.rule x := by
  cases hof : s.ruleOf h r with
  | true => obtain ⟨o, ho⟩ := clearRule_eq hof; rw [ho]; exact mget_mset_ne _ _ _ _ _ _ hne
  | false => rw [clearRule_of_not hof]

/-- A rule of the range that is among those cleared, or was disabled already, ends disabled. -/
theorem enabled_foldl_clearRule (l : List Nat) (hof : s.ruleOf h r = true) (hmem : r ∈ l ∨ (s.rule r).enabled = false) :
    ((l.foldl (State.clearRule h) s).rule r).enabled = false := by
  induction l generalizing s with
  | nil => simpa using hmem
  | cons x l ih =>
    refine ih ((ruleOf_clearRule r).trans hof) ?_
    by_cases hx : r = x
    · subst hx
      obtain ⟨o, ho⟩ := clearRule_eq hof
      rw [ho, rule_setRule_same]
      exact .inr rfl
    · rw [rule_clearRule_ne hx]
      exact hmem.imp_left fun hr => (List.mem_cons.1 hr).resolve_left hx

/-- The rules of the hoop that stand in the store, once cleared, are all disabled: a rule that does not stand there is disabled as it is. -/
theorem enabled_clearRules (hof : s.ruleOf h r = true) : (((s.rules.map (·.1)).foldl (State.clearRule h) s).rule r).enabled = false := by
  refine enabled_foldl_clearRule _ hof ?_
  by_cases hdflt : s.rule r = Rule.dflt
  · exact .inr (by rw [hdflt]; rfl)
  · exact .inl (List.mem_map.2 ⟨(r, s.rule r), mem_of_mget_ne hdflt, rfl⟩)

/-- A reset of a hoop's triggers leaves every hoop's state and the VF settings (R82). -/
theorem seats_resetTriggers : (s.resetTriggers h).seats = s.seats := by
  unfold State.resetTriggers
  extract_lets dflt s1 s2 s3
  have h1 : s1.seats = s.seats := foldl_keeps State.seats (State.clearRule h) (fun _ _ => seats_clearRule) _ _
  have h2 : s2.seats = s1.seats := foldl_keeps State.seats _ (fun s n => by dsimp only; split <;> [(split <;> rfl); rfl]) _ _
  have h3 : s3.seats = s2.seats := by dsimp only [s3]; split <;> rfl
  exact h3.trans (h2.trans h1)

/-- It disables the rules of the hoop's range (R82). -/
theorem enabled_resetTriggers (hof : s.ruleOf h r = true) : ((s.resetTriggers h).rule r).enabled = false := by
  unfold State.resetTriggers
  extract_lets dflt s1 s2 s3
  have h1 : (s1.rule r).enabled = false := enabled_clearRules hof
  have h2 : s2.rules = s1.rules := foldl_keeps State.rules _ (fun s n => by dsimp only; split <;> [(split <;> rfl); rfl]) _ _
  have h3 : s3.rules = s2.rules := by dsimp only [s3]; split <;> rfl
  have hrule : s3.rule r = s1.rule r := rule_of_rules s1 r (h3.trans h2)
  exact (congrArg Rule.enabled hrule).trans h1

/-- Its waiting blocks are gone (R82). -/
theorem hoop_ne_of_pendFires_resetTriggers : ∀ p ∈ (s.resetTriggers h).pendFires, p.hoop ≠ h :=
  fun _ hp => of_decide_eq_true (List.mem_filter.1 hp).2

/-- The hoop is neither RESETTING nor SCRUBBING, so that a reset of it is not absorbed (R152). -/
def State.mayReset (s : State) (h : Nat) : Prop := (s.hoop h).phase ≠ .resetting ∧ (s.hoop h).phase ≠ .scrubbing

theorem hoopReset_of_may {pages : Bool} (hmay : s.mayReset h) :
    s.hoopReset h pages = (s.setHoop h { s.hoop h with phase := .resetting, resetPages := pages }).resetTriggers h :=
  if_neg (not_or.2 hmay)

theorem hoopReset_of_absorbed {pages : Bool} (hmay : ¬ s.mayReset h) : s.hoopReset h pages = s :=
  if_pos (not_not.1 fun hor => hmay (not_or.1 hor))

/-- The request of a reset takes a hoop to RESETTING, with its rules disabled and its waiting blocks gone (R151). -/
theorem hoopReset_resets {pages : Bool} (hmay : s.mayReset h) :
    ((s.hoopReset h pages).hoop h).phase = .resetting ∧ ((s.hoopReset h pages).hoop h).resetPages = pages ∧
    (∀ r, s.ruleOf h r = true → ((s.hoopReset h pages).rule r).enabled = false) ∧ ∀ p ∈ (s.hoopReset h pages).pendFires, p.hoop ≠ h := by
  rw [hoopReset_of_may hmay]
  have hhoop (x : Hoop) : ((s.setHoop h x).resetTriggers h).hoop h = x := (hoop_of_seats seats_resetTriggers).trans (hoop_setHoop_same x)
  refine ⟨congrArg Hoop.phase (hhoop _), congrArg Hoop.resetPages (hhoop _), fun r hr => enabled_resetTriggers hr,
    hoop_ne_of_pendFires_resetTriggers⟩

/-- It leaves the VF settings and the other hoops (R151). -/
theorem hoopReset_vf {pages : Bool} : (s.hoopReset h pages).vfEnable = s.vfEnable ∧ (s.hoopReset h pages).numVfs = s.numVfs := by
  unfold State.hoopReset
  split
  · exact ⟨rfl, rfl⟩
  · exact ⟨(vfEnable_of_seats seats_resetTriggers).trans rfl, (numVfs_of_seats seats_resetTriggers).trans rfl⟩

theorem hoop_hoopReset_ne {pages : Bool} (hne : k ≠ h) : (s.hoopReset h pages).hoop k = s.hoop k := by
  unfold State.hoopReset
  split
  · rfl
  · exact (hoop_of_seats seats_resetTriggers).trans (hoop_setHoop_ne _ hne)

/-- A hoop that becomes READY leaves the others and the VF settings (R119): the start of its host interface is no hoop's state. -/
theorem seats_becomeReady : (s.becomeReady h).seats = (s.setHoop h { s.hoop h with phase := .ready }).seats := by
  unfold State.becomeReady
  extract_lets s1
  split <;> rfl

/-- The request of a PF reset, before the hoops are matched to the VF settings it clears (R153). -/
def State.pfRequest (s : State) : State := State.hoopReset { s with vfEnable := false, numVfs := 0 } 0 false

theorem pfReset_eq : s.pfReset = s.pfRequest.matchHoops := rfl

theorem doFunctionLevelReset_zero : doFunctionLevelReset 0 s = (s.pfRequest.matchHoops.startMoves).settled := by
  rw [doFunctionLevelReset, if_pos rfl, pfReset_eq]

theorem doFunctionLevelReset_of_ne (hne : h ≠ 0) : doFunctionLevelReset h s = ((s.hoopReset h true).startMoves).settled := by
  rw [doFunctionLevelReset, if_neg hne]

/-- What a conventional reset ends beside the functions: the SPDM session and the IDE keys (R518). -/
def State.linkSecretsEnd (s : State) : State := { s with rot := { s.rot with session := 0, answer := .none, ide := [] } }

theorem doConventionalReset_of_on (hmode : s.pm.mode = .active ∨ s.pm.mode = .idle) :
    doConventionalReset s = s.pfRequest.matchHoops.linkSecretsEnd.startMoves.settled := by
  rw [doConventionalReset, if_pos hmode, State.conventional, pfReset_eq]
  rfl

theorem doConventionalReset_of_asleep (hmode : s.pm.mode = .doze ∨ s.pm.mode = .listen) :
    doConventionalReset s = State.wake { s with pm := { s.pm with perst := true } } 9 := by
  rcases hmode with hmode | hmode <;> simp [doConventionalReset, hmode]

/-- One hoop is brought in line with R118. -/
def State.matchHoop (s : State) (h : Nat) : State :=
  if (s.hoop h).phase = .ready ∧ s.hoopAllowed h = false then s.hoopReset h true
  else if (s.hoop h).phase = .absent ∧ s.hoopAllowed h = true ∧ s.pm.mode ≠ .boot then s.becomeReady h else s

theorem vfEnable_matchHoop : (s.matchHoop h).vfEnable = s.vfEnable := by
  unfold State.matchHoop
  split
  · exact hoopReset_vf.1
  · split
    · exact (vfEnable_of_seats seats_becomeReady).trans rfl
    · rfl

theorem hoop_matchHoop_ne (hne : k ≠ h) : (s.matchHoop h).hoop k = s.hoop k := by
  unfold State.matchHoop
  split
  · exact hoop_hoopReset_ne hne
  · split
    · exact (hoop_of_seats seats_becomeReady).trans (hoop_setHoop_ne _ hne)
    · rfl

/-- Without VF Enable no hoop but 0 may run (R118). -/
theorem hoopAllowed_of_no_vfs (hvf : s.vfEnable = false) (hne : h ≠ 0) : s.hoopAllowed h = false := by
  simp [State.hoopAllowed, hvf, hne]

theorem phase_matchHoop_of_ready (hvf : s.vfEnable = false) (hne : h ≠ 0) (hready : (s.hoop h).phase = .ready) :
    ((s.matchHoop h).hoop h).phase = .resetting := by
  rw [State.matchHoop, if_pos ⟨hready, hoopAllowed_of_no_vfs hvf hne⟩]
  exact (hoopReset_resets (by rw [State.mayReset, hready]; exact ⟨nofun, nofun⟩)).1

theorem phase_matchHoop_of_resetting (hres : (s.hoop h).phase = .resetting) : ((s.matchHoop h).hoop h).phase = .resetting := by
  rw [State.matchHoop, if_neg (by rw [hres]; exact fun hc => nomatch hc.1), if_neg (by rw [hres]; exact fun hc => nomatch hc.1), hres]

/-- Without VF Enable a READY hoop but 0 that is among those matched is RESETTING afterwards, as one is that was RESETTING already. -/
theorem phase_foldl_matchHoop (l : List Nat) (hvf : s.vfEnable = false) (hne : k ≠ 0)
    (hphase : (k ∈ l ∧ (s.hoop k).phase = .ready) ∨ (s.hoop k).phase = .resetting) :
    ((l.foldl State.matchHoop s).hoop k).phase = .resetting := by
  induction l generalizing s with
  | nil => simpa using hphase
  | cons x l ih =>
    refine ih (vfEnable_matchHoop.trans hvf) ?_
    by_cases hx : k = x
    · subst hx
      exact .inr (hphase.elim (fun hr => phase_matchHoop_of_ready hvf hne hr.2) phase_matchHoop_of_resetting)
    · rw [hoop_matchHoop_ne hx]
      exact hphase.imp_left fun ⟨hr, hready⟩ => ⟨(List.mem_cons.1 hr).resolve_left hx, hready⟩

/-- Without VF Enable every READY hoop but 0 is reset (R118, R153). -/
theorem phase_matchHoops (hvf : s.vfEnable = false) (hlt : k < 16) (hne : k ≠ 0) (hready : (s.hoop k).phase = .ready) :
    (s.matchHoops.hoop k).phase = .resetting :=
  phase_foldl_matchHoop (List.range 16) hvf hne (.inl ⟨List.mem_range.2 hlt, hready⟩)

/-- A new memory key is no part of a hoop's state, and no other secret's (R538, R542). -/
theorem newMemKey_effect : (s.newMemKey h).hoops = s.hoops ∧ (s.newMemKey h).rot.hoops = s.rot.hoops ∧
    mget 0 (s.newMemKey h).rot.memKeys h = (if (s.newMemKey h).rot.mode = .criticalError then 0 else (s.newMemKey h).rot.drbg) := by
  unfold State.newMemKey
  by_cases hcrit : s.rot.mode = .criticalError
  · rw [if_pos hcrit]
    exact ⟨rfl, rfl, (mget_mset_same 0 s.rot.memKeys h 0).trans (if_pos hcrit).symm⟩
  · rw [if_neg hcrit]
    exact ⟨rfl, rfl, (mget_mset_same 0 s.rot.memKeys h (s.rot.drbg + 1)).trans (if_neg hcrit).symm⟩

/-- The end of a reset: the hoop is SCRUBBING with no record held, SEQ 0, its measurement register cleared and its new key (R151, R538). -/
theorem finishReset_effect : ((s.finishReset h).hoop h).phase = .scrubbing ∧ ((s.finishReset h).hoop h).held = [] ∧
    ((s.finishReset h).hoop h).seq = 0 ∧ (s.finishReset h).hoopSec h = HoopSec.dflt ∧
    mget 0 (s.finishReset h).rot.memKeys h = (if (s.finishReset h).rot.mode = .criticalError then 0 else (s.finishReset h).rot.drbg) := by
  unfold State.finishReset
  extract_lets pages units s1 s2 s3 owned s4 rot s5 x s6
  obtain ⟨hhoops, hsecs, hkey⟩ := newMemKey_effect (s := s6) (h := h)
  have hhoop : (s6.newMemKey h).hoop h =
      { x with phase := .scrubbing, seq := 0, held := [], scrubUnits := (s5.hoop h).scrubUnits + units, resetPages := false } :=
    (congrArg (mget Hoop.dflt · h) hhoops).trans (hoop_setHoop_same _)
  have hsec : (s6.newMemKey h).hoopSec h = HoopSec.dflt := by
    have hset : s6.rot.hoops = mset HoopSec.dflt s4.rot.hoops h HoopSec.dflt := by dsimp only [s6, s5, State.setHoop]
    rw [State.hoopSec, hsecs, hset, mget_mset_same]
  rw [hhoop]
  exact ⟨rfl, rfl, rfl, hsec, hkey⟩

/-- As time passes where one hoop alone is RESETTING, its reset ends, and then the stops of queues (R151, R157). -/
theorem phasesEnd_of_resetting (hlt : h < 16) (hone : ∀ k < 16, (s.hoop k).phase = .resetting ↔ k = h) :
    s.phasesEnd = ((s.finishReset h).startMoves.settled).stopsEnd fun _ => true := by
  unfold State.phasesEnd
  extract_lets l s1
  have hl : l = [h] := by
    have hfilter : l = (List.range 16).filter (fun k => decide (k = h)) := List.filter_congr fun k hk => by rw [decide_eq_decide, hone k (List.mem_range.1 hk)]
    rw [hfilter]
    interval_cases h <;> rfl
  have hs1 : s1 = (s.finishReset h).startMoves.settled := by
    dsimp only [s1]
    rw [hl]
    rfl
  rw [hs1]

/-- A completed scrub with no bad unit leaves the hoop ABSENT and takes the rules of its range away; then it runs if R118 allows it (R538). -/
def State.scrubbed (s : State) (h : Nat) : State :=
  let t := { s with rules := s.rules.filter (fun e => !s.ruleOf h e.1), retiring := s.retiring.filter fun r => decide (r.hoop ≠ h) }
  t.setHoop h { t.hoop h with phase := .absent }

theorem doScrubComplete_of_scrubbing (hphase : (s.hoop h).phase = .scrubbing) :
    doScrubComplete h none s = ((if (s.scrubbed h).hoopAllowed h then (s.scrubbed h).becomeReady h else s.scrubbed h).startMoves).settled := by
  unfold doScrubComplete
  extract_lets s1 s2 s3 x s4
  have hs1 : s1 = s := if_neg (by simp [hphase])
  have hs2 : s2 = s := hs1
  have hs4 : s4 = s.scrubbed h := by
    dsimp only [s4, x, s3]
    rw [hs2]
    rfl
  rw [hs1, if_neg (not_not.2 hphase), hs4]

end HoopResets

/-- Settles O25: the requests of resets, by the hoop's own request and the match of the others to the VF settings, and the ends of the reset and of
the scrub. -/
theorem hoopsResetAndScrub : Obligations.HoopsResetAndScrub := by
  unfold Obligations.HoopsResetAndScrub
  intro s h
  extract_lets resets mayReset noVfs
  have hpf (hmay : mayReset 0) : resets s.pfRequest 0 false ∧ noVfs s.pfRequest :=
    ⟨hoopReset_resets (s := { s with vfEnable := false, numVfs := 0 }) hmay, hoopReset_vf.1, hoopReset_vf.2, fun k hk hne hready =>
      phase_matchHoops hoopReset_vf.1 hk hne ((congrArg Hoop.phase (hoop_hoopReset_ne hne)).trans hready)⟩
  refine ⟨fun f hreach => ?_, fun hne hmay => ?_, fun hmay => ?_, fun hmay hmode => ?_, fun dt sub hdt hone => ?_, fun hmode => ?_, fun en num => ?_,
    fun hperst => ?_, fun hphase => ?_, ?_⟩
  · have hrun (act : State → State) : s.reach f (R.HOOP_TABLE h) act = act s := reach_of_reaches s _ f act hreach
    refine ⟨fun hmay => ?_, fun hmay => ?_, fun v h0 => ?_, fun v hne => ?_⟩
    · exact completesThen_run (f := doHoopReset f h) rfl (hrun _) (hoopReset_resets hmay)
    · exact completesThen_run (f := doHoopReset f h) rfl ((hrun _).trans (by rw [hoopReset_of_absorbed hmay])) rfl
    · exact completes_run (f := doHoopEnableWrite f h v) rfl ((hrun _).trans (if_pos (congrArg Fin.val h0))) rfl rfl
    · refine completesThen_run (f := doHoopEnableWrite f h v) rfl ((hrun _).trans (if_neg fun h0 => hne (Fin.ext h0))) ?_
      rw [reg_setRegFld_same, fld_setFld_same _ _ _ _ (by decide)]
      exact Nat.mod_eq_of_lt (fld_lt v 0 1)
  · exact completesThen_run (f := doFunctionLevelReset h) rfl (doFunctionLevelReset_of_ne fun h0 => hne (Fin.ext h0)) (hoopReset_resets hmay)
  · exact completesThen_run (f := doFunctionLevelReset 0) rfl doFunctionLevelReset_zero (hpf hmay)
  · exact completesThen_run (f := doConventionalReset) rfl (doConventionalReset_of_on hmode) (hpf hmay)
  · intro later
    refine ⟨later.finishReset h, (exec_positionReached s dt sub).trans (congrArg _ (dev_congr (g := fun _ => _) _ ?_)), finishReset_effect⟩
    exact congrArg State.wakeAts ((if_neg (by omega)).trans (phasesEnd_of_resetting (s := later) h.isLt hone))
  · exact completesThen_run (f := doConventionalReset) rfl (doConventionalReset_of_asleep hmode) rfl
  · exact completesThen_run (f := doVfEnableChange en num) rfl rfl ⟨rfl, rfl⟩
  · exact completes_run (f := doPcieLinkUp) rfl (if_neg (by simp [hperst])) rfl ⟨rfl, rfl⟩
  · refine completesThen_run (f := doScrubComplete h none) rfl (doScrubComplete_of_scrubbing hphase) ⟨?_, fun e he => ?_⟩
    · exact congrArg Hoop.phase (hoop_setHoop_same _)
    · simpa using (List.mem_filter.1 he).2
  · exact completesThen_run (f := doDramZeroFill h) rfl rfl (congrArg Hoop.scrubUnits (hoop_setHoop_same _))

end Sys2Proof.Machine

namespace Sys2Proof.Machine

/-! ## Moves: their begins, their ranges and their commits (R132, R180 to R184, R386, R412) -/

section MoveCommits
variable {s : State} {m : Move}

/-- The objects, the moves and the allocations: what the counting of a transfer leaves alone. -/
def State.homes (s : State) : SMap Obj × List Move × List Alloc := (s.objs, s.moves, s.allocs)

theorem calm_homes (x : SMap Obj × List Move × List Alloc) : Calm (fun s => s.homes = x) where
  setReg := id
  dropRegs := id
  same := fun hs h => (congrArg (fun y => (y.2.2.1, y.2.2.2.2.1, y.2.2.2.1)) h).trans hs
  part := fun _ ht => ht

theorem moves_of_homes {t : State} (hhomes : t.homes = s.homes) : t.moves = s.moves :=
  congrArg (fun x : SMap Obj × List Move × List Alloc => x.2.1) hhomes

/-- A move that copies puts the object at its target as it was, but for its place and, of a MOVE, its age (R180, R182). -/
theorem moveResult_of_copy (hcodec : m.codec = 0) (htier : m.tier ≤ 3) (hhomed : (s.obj m.obj).homed = true) (hsrc : (s.obj m.obj).tier ≤ 2)
    (hbad : m.bad = []) :
    (s.moveResult m).1.tier = m.tier ∧ (s.moveResult m).1.loc = m.loc ∧ (s.moveResult m).1.data = (s.obj m.obj).data ∧
    (s.moveResult m).1.tiles = (s.obj m.obj).tiles ∧ (m.ageStamp = none → (s.moveResult m).1.age = s.pos) := by
  unfold State.moveResult
  extract_lets o src base lost base' base''
  rw [if_neg (by rw [hhomed]; decide), if_neg (by rw [hcodec]; decide), if_neg (by rw [hcodec]; decide)]
  have hsrc' : o.tier ≤ 2 := hsrc
  have h3 : o.tier ≠ 3 := by omega
  have h4 : o.tier ≠ 4 := by omega
  have hlost : lost = [] := List.filter_eq_nil_iff.2 fun t _ => by simp [hbad, h3]
  have hdata : src = (s.obj m.obj).data := if_neg fun hc => h4 hc.1
  have hbase : base'' = base' := by
    dsimp only [base'']
    rw [if_neg (by omega), if_neg h4]
  rw [hbase]
  refine ⟨rfl, rfl, hdata, ?_, fun hage => ?_⟩
  · dsimp only [base']
    rw [hlost]
    rfl
  · dsimp only [base', base]
    rw [hage]

/-- What is kept of freed room for a context is no move's allocation (R244). -/
theorem holder_ne_of_keep {i bytes id : Nat} (hallocs : ∀ a ∈ s.allocs, a.holder ≠ .move id) :
    ∀ a ∈ (s.keep i bytes).allocs, a.holder ≠ .move id := by
  intro a ha
  rcases List.mem_append.1 ha with ha | ha
  · exact hallocs a (List.mem_filter.1 ha).1
  · split at ha
    · cases ha
    · rw [List.mem_singleton.1 ha]
      exact nofun

/-- The commit of a move stores its result, and takes the move and what it held away (R180). -/
theorem moveCommit_effect : (s.moveCommit m).1.objs = mset Obj.dflt s.objs m.obj (s.moveResult m).1 ∧
    (s.moveCommit m).1.moves = s.moves.filter (fun x => decide (x.id ≠ m.id)) ∧
    ∀ a ∈ (s.moveCommit m).1.allocs, a.holder ≠ .move m.id := by
  unfold State.moveCommit
  extract_lets o worst place s1 s2
  have hI := calm_homes s1.homes
  have h2 : s2.homes = s1.homes := hI.ite (hI.retire rfl) rfl
  generalize s.moveResult m = result
  obtain ⟨o', code, det⟩ := result
  dsimp -zeta only
  extract_lets s3 s4 s5 s6 s7
  have h3 : s3.homes = s1.homes := hI.ite (hI.programAll h2) h2
  have h4 : s4.homes = s1.homes := hI.ite (hI.refund h3) h3
  have h5 : s5.homes = s1.homes := hI.ite (hI.ite (hI.addReg (hI.addPieces (hI.addReg h4))) h4) h4
  have h7 : s7.homes = s6.homes := by
    dsimp only [s7]
    split <;> rfl
  have hobjs : s7.objs = mset Obj.dflt s.objs m.obj o' :=
    (congrArg Prod.fst h7).trans (congrArg (fun x : SMap Obj × List Move × List Alloc => mset Obj.dflt x.1 m.obj o') h5)
  have hmoves : s7.moves = s1.moves := (congrArg (·.2.1) h7).trans (congrArg (·.2.1) h5)
  have hheld : s7.allocs = s1.allocs := (congrArg (·.2.2) h7).trans (congrArg (·.2.2) h5)
  have hallocs : ∀ a ∈ s7.allocs, a.holder ≠ .move m.id := by
    rw [hheld]
    exact fun a ha => of_decide_eq_true (List.mem_filter.1 ha).2
  split
  · split
    · exact ⟨hobjs, hmoves, holder_ne_of_keep hallocs⟩
    · exact ⟨hobjs, hmoves, hallocs⟩
  · exact ⟨hobjs, hmoves, hallocs⟩

end MoveCommits

section Draws
variable {s : State} {a : Nat}

/-- No counter of a DRAM stack's bytes (R202). -/
def noStackBytes (a : Nat) : Prop := ∀ u, a ≠ R.DS_READ_MIB u ∧ a ≠ R.DS_WRITE_MIB u

/-- A register of a page at another offset than those counters, or below them all, is none of them. -/
theorem noStackBytes_of_offset {base u : Nat} (hoff : base % 0x1000 ≠ 0x104 ∧ base % 0x1000 ≠ 0x108 ∨ base + 0x1000 * u < 0xC0104) :
    noStackBytes (base + 0x1000 * u) := fun v => by
  dsimp only [R.DS_READ_MIB, R.DS_WRITE_MIB]
  omega

theorem reg_addPieces_ne {a' unit n : Nat} (hne : a ≠ a') : (s.addPieces a' unit n).reg a = s.reg a := reg_addReg_ne _ _ _ _ hne

/-- A draw of tokens stores in no register (R412). -/
theorem reg_draw {h r n : Nat} {f : DrawFor} : (s.draw h r n f).reg a = s.reg a := by
  unfold State.draw
  extract_lets svc s1 b issued
  split <;> rfl

/-- Traffic of T2 counts on the stacks' byte counters alone (R202). -/
theorem reg_dramTraffic {write : Bool} {loc : Nat} {l : List (Nat × Nat)} (ha : noStackBytes a) : (s.dramTraffic write loc l).reg a = s.reg a := by
  refine foldl_keeps (State.reg · a) _ (fun s e => ?_) _ s
  cases write with
  | true => exact reg_addPieces_ne (ha e.1).2
  | false => exact reg_addPieces_ne (ha e.1).1

theorem reg_transfer {h : Nat} {write : Bool} {tier loc : Nat} {l : List (Nat × Nat)} {f : DrawFor} (ha : noStackBytes a) :
    (s.transfer h write tier loc l f).reg a = s.reg a := by
  unfold State.transfer
  extract_lets n
  split
  · rw [reg_dramTraffic ha, reg_draw]
  · split
    · exact reg_draw
    · split
      · exact reg_draw
      · rfl

/-- A move's range crosses its regulators and stacks with no other register changed (R202, R411). -/
theorem reg_drawMove {m : Move} {i rd wr : Nat} (ha : noStackBytes a) : (s.drawMove m i rd wr).reg a = s.reg a := by
  unfold State.drawMove
  extract_lets o first s1 s2
  have h2 : s2.reg a = s.reg a := (reg_transfer (s := s.transfer _ _ _ _ _ _) ha).trans (reg_transfer ha)
  split
  · exact h2
  · unfold State.hostRead
    extract_lets o'
    split <;> exact h2

/-- A range's requests, made unless they were made before (R412). -/
def State.asking (s : State) (m : Move) (i rd wr : Nat) : State := if m.drew i then s else s.drawMove m i rd wr

theorem reg_asking {m : Move} {i rd wr : Nat} (ha : noStackBytes a) : (s.asking m i rd wr).reg a = s.reg a := by
  unfold State.asking
  split
  · rfl
  · exact reg_drawMove ha

theorem part_asking {m : Move} {i rd wr : Nat} : (s.asking m i rd wr).part = s.part :=
  (stable_part s.part).ite rfl ((stable_part s.part).drawMove rfl)

/-- A command whose operation leaves `t`, of the same part, leaves its moves and its registers. -/
theorem completes_moves_reg {c : Instr} {f : State → State} {t : State} (hc : exec c s = run f s) (hf : f s = t) (hpart : t.part = s.part) :
    completes c s fun u => u.moves = t.moves ∧ u.reg a = t.reg a :=
  ⟨dev f s, hc, (congrArg State.moves hf : (f s).moves = t.moves), by rw [reg_dev s a f (by rw [hf, hpart]), hf]⟩

end Draws

section Ranges
variable {s : State} {m : Move} {i u cyc : Nat}

/-- The end of a shuttle's range is counted on the shuttle (R180). -/
def State.shuttleCounted (s : State) (u cyc bytes : Nat) : State :=
  ((s.addReg (R.SH_RANGES u) 1).addPieces (R.SH_MIB u) (2 ^ 20) bytes).addReg (R.SH_BUSY_CYCLES u) cyc

theorem reg_shuttleCounted_ne {a bytes : Nat} (hr : a ≠ R.SH_RANGES u) (hm : a ≠ R.SH_MIB u) (hb : a ≠ R.SH_BUSY_CYCLES u) :
    (s.shuttleCounted u cyc bytes).reg a = s.reg a := by
  rw [State.shuttleCounted, reg_addReg_ne _ _ _ _ hb, reg_addPieces_ne hm, reg_addReg_ne _ _ _ _ hr]

theorem reg_shuttleCounted_ranges {bytes : Nat} : (s.shuttleCounted u cyc bytes).reg (R.SH_RANGES u) = satAdd (s.reg (R.SH_RANGES u)) 1 := by
  simp (disch := omega) only [State.shuttleCounted, R.SH_RANGES, R.SH_MIB, R.SH_BUSY_CYCLES, reg_addReg_ne, reg_addPieces_ne, reg_addReg_same]

theorem reg_shuttleCounted_busy {bytes : Nat} : (s.shuttleCounted u cyc bytes).reg (R.SH_BUSY_CYCLES u) = satAdd (s.reg (R.SH_BUSY_CYCLES u)) cyc := by
  simp (disch := omega) only [State.shuttleCounted, R.SH_RANGES, R.SH_MIB, R.SH_BUSY_CYCLES, reg_addReg_ne, reg_addPieces_ne, reg_addReg_same]

/-- A shuttle's range ends once its requests have their tokens; until then only they are made (R180, R412). -/
theorem doShuttleRangeDone_eq (hrange : s.rangeOf (fun r => decide (r.shuttle = some u) && r.codec.isNone) = some (m, i)) :
    let bytes := 4096 * ((m.ranges[i]?).map (·.count) |>.getD 0)
    let t := s.asking m i bytes bytes
    doShuttleRangeDone u cyc [] s = if t.drawHeld (.range m.id i) then t else (t.shuttleCounted u cyc bytes).rangeDone m.id i [] := by
  intro bytes t
  rw [doShuttleRangeDone, hrange]
  dsimp only
  rw [ite_self]
  rfl

/-- The end of a codec's range is counted on the codec, and on the shuttle that carries it (R386). -/
def State.codecCounted (s : State) (m : Move) (r : Range) (w : CodecWork) (u cyc stall : Nat) : State :=
  let s := (s.addPieces (R.PC_IN_MIB u) (2 ^ 20) w.inBytes).addPieces (R.PC_OUT_MIB u) (2 ^ 20) w.outBytes
  let s := ((s.addReg (R.PC_BLOCKS_CODED u) w.coded).addReg (R.PC_BLOCKS_RAW u) w.raw).addReg (R.PC_BLOCKS_ZERO u) w.zero
  let s := ((s.addReg (R.PC_SIZE_OVER u) w.over_).addReg (R.PC_SIZE_UNDER u) w.under_).addReg (R.PC_MALFORMED u) w.malformed
  let s := (s.addReg (R.PC_BUSY_CYCLES u) cyc).addReg (R.PC_OUT_STALL_CYCLES u) stall
  (s.setReg (R.PC_LAST_BLOCK u) (w32 (r.first + r.count - 1))).setReg (R.PC_LAST_OBJECT u) (w32 (s.handleOf m.obj))

/-- The shuttle that carries a codec's range counts it too (R386). -/
def State.carried (s : State) (r : Range) (cyc bytes : Nat) : State :=
  match r.shuttle with
  | some v => s.shuttleCounted v cyc bytes
  | none => s

/-- No counter of a shuttle's ranges. -/
def noShuttleCount (a : Nat) : Prop := ∀ v, a ≠ R.SH_RANGES v ∧ a ≠ R.SH_MIB v ∧ a ≠ R.SH_BUSY_CYCLES v

/-- A register at another offset of its page than those counters is none of them. -/
theorem noShuttleCount_of_offset {base : Nat} (hoff : base % 0x1000 ≠ 0x104 ∧ base % 0x1000 ≠ 0x108 ∧ base % 0x1000 ≠ 0x110) :
    noShuttleCount (base + 0x1000 * u) := fun v => by
  dsimp only [R.SH_RANGES, R.SH_MIB, R.SH_BUSY_CYCLES]
  omega

/-- A range's shuttle counts it on registers of its own. -/
theorem reg_carried {r : Range} {a bytes : Nat} (ha : noShuttleCount a) :
    (s.carried r cyc bytes).reg a = s.reg a := by
  unfold State.carried
  split
  case h_1 v _ =>
    obtain ⟨hr, hm, hb⟩ := ha v
    exact reg_shuttleCounted_ne hr hm hb
  case h_2 => rfl

theorem moves_carried {r : Range} {bytes : Nat} : (s.carried r cyc bytes).moves = s.moves := by
  unfold State.carried
  split <;> rfl

theorem homes_codecCounted {r : Range} {w : CodecWork} {stall : Nat} : (s.codecCounted m r w u cyc stall).homes = s.homes := by
  unfold State.codecCounted
  extract_lets s1 s2 s3 s4
  have hI := calm_homes s.homes
  have h1 : s1.homes = s.homes := hI.addPieces (hI.addPieces rfl)
  have h2 : s2.homes = s.homes := hI.addReg (hI.addReg (hI.addReg h1))
  have h3 : s3.homes = s.homes := hI.addReg (hI.addReg (hI.addReg h2))
  have h4 : s4.homes = s.homes := hI.addReg (hI.addReg h3)
  exact hI.setReg (hI.setReg h4)

/-- What the end of a codec's range counts: the coded blocks, the cycles and the last block (R386). -/
theorem codecCounted_effect {r : Range} {w : CodecWork} {stall : Nat} :
    (s.codecCounted m r w u cyc stall).reg (R.PC_BLOCKS_CODED u) = satAdd (s.reg (R.PC_BLOCKS_CODED u)) w.coded ∧
    (s.codecCounted m r w u cyc stall).reg (R.PC_BUSY_CYCLES u) = satAdd (s.reg (R.PC_BUSY_CYCLES u)) cyc ∧
    (s.codecCounted m r w u cyc stall).reg (R.PC_LAST_BLOCK u) = w32 (r.first + r.count - 1) := by
  refine ⟨?_, ?_, ?_⟩ <;>
  simp (disch := omega) only [State.codecCounted, R.PC_BLOCKS_CODED, R.PC_BUSY_CYCLES, R.PC_LAST_BLOCK, R.PC_LAST_OBJECT, R.PC_IN_MIB, R.PC_OUT_MIB,
    R.PC_BLOCKS_RAW, R.PC_BLOCKS_ZERO, R.PC_SIZE_OVER, R.PC_SIZE_UNDER, R.PC_MALFORMED, R.PC_OUT_STALL_CYCLES, reg_addReg_ne, reg_addPieces_ne,
    reg_setReg_ne, reg_addReg_same, reg_setReg_same]

theorem drew_of_get {r : Range} (hget : m.ranges[i]? = some r) : m.drew i = r.drawn := by rw [Move.drew, hget]

/-- A codec's range ends once its requests have their tokens; until then only they are made (R386, R412). -/
theorem doCodecRangeDone_eq {r : Range} {stall : Nat} (hrange : s.rangeOf (fun r => decide (r.codec = some u)) = some (m, i))
    (hget : m.ranges[i]? = some r) (hfind : s.moves.find? (fun x => decide (x.id = m.id)) = some m) :
    let w := s.codecWork m r.first r.count
    let t := s.asking m i w.inBytes w.outBytes
    doCodecRangeDone u cyc stall [] s =
      if t.drawHeld (.range m.id i) then t else ((t.codecCounted m r w u cyc stall).carried r cyc w.outBytes).rangeDone m.id i [] := by
  intro w t
  rw [doCodecRangeDone, hrange]
  dsimp -zeta only
  extract_lets r' s1 m' w' s2 s3 s4 s5 s6 s7 s8
  have hr : r' = r := by dsimp only [r']; rw [hget]; rfl
  have hs1 : s1 = s := if_neg fun hc => hc.2 rfl
  have hm : m' = m := by dsimp only [m']; rw [hs1, hfind]; rfl
  have hw : w' = w := by dsimp only [w']; rw [hs1, hm, hr]
  have hs2 : s2 = t := by
    dsimp only [s2, t, State.asking]
    rw [drew_of_get hget, hs1, hm, hw, hr]
  have hs7 : s7 = t.codecCounted m r w u cyc stall := by
    dsimp only [s7, s6, s5, s4, s3]
    rw [hs2, hm, hw, hr]
    rfl
  have hs8 : s8 = (t.codecCounted m r w u cyc stall).carried r cyc w.outBytes := by
    dsimp only [s8]
    rw [hs7, hw, hr]
    rfl
  rw [hs2, hm, hs8]

end Ranges

section MoveBegins
variable {s : State}

theorem nextId_endWait (p : AllocWait → Bool) : (s.endWait p).nextId = s.nextId :=
  foldl_keeps State.nextId _ (fun s w => by unfold State.maxReg; split <;> rfl) _ s

/-- A command that begins takes no number of its own. -/
theorem nextId_beginCmd (f : InFlight) : (s.beginCmd f).nextId = s.nextId := by
  unfold State.beginCmd State.noteOcc
  extract_lets c x s1 s2 o
  have h2 : s2.nextId = s.nextId := nextId_endWait (s := s1) _
  split <;> exact h2

/-- The move that a MOVE command adds (R179, R180). -/
def State.moveFor (s : State) (c : Cmd) (h k : Nat) (host : List Byte) : Move :=
  { Move.dflt with
    id := s.nextId, kind := .command s.nextId, hoop := h, obj := k, tier := c.mvTier, loc := c.mvLocation, codec := c.mvCodec, param := c.mvParam,
    nshuttle := c.mvShuttles, payer := h, hostBytes := if (s.obj k).tier = 4 then msetList 0 [] 0 host else [] }

/-- A command that begins with work to do. -/
def State.flightFor (s : State) (c : Cmd) (h q : Nat) : InFlight :=
  { InFlight.of s.nextId c s.pos false with code := if (s.cq h q).headDelayed then 0x301 else 0 }

/-- The state in which a command has begun with work to do: it stands behind the others, with the next number. -/
def State.begun (s : State) (c : Cmd) (h q : Nat) : State := s.fresh.1.beginCmd (s.flightFor c h q)

theorem begun_flights {c : Cmd} {h q : Nat} : (s.begun c h q).flights = s.flights ++ [s.flightFor c h q] := beginCmd_flights _ _

theorem begun_nextId {c : Cmd} {h q : Nat} : (s.begun c h q).nextId = s.nextId + 1 := nextId_beginCmd _

theorem mem_begun_flights {c : Cmd} {h q : Nat} : s.flightFor c h q ∈ (s.begun c h q).flights := by
  rw [begun_flights]
  exact List.mem_append_right _ (List.mem_singleton_self _)

/-- A MOVE within the package, of a DECLARED object, or behind another move of its object begins as a local move (R180, R181, R183). -/
theorem doMove_of_local {h q k : Nat} {host : List Byte} {c : Cmd} (hhead : s.headOp h q 2 = some c) (hctx : s.ctxGone c = false)
    (hcheck : s.moveCheck c = 0) (hres : s.resolve h c.mvObject = some k)
    (hlocal : (s.obj k).homed = false ∨ (c.mvTier ≠ 5 ∧ (s.obj k).tier ≠ 5) ∨ s.moving k = true) :
    doMove h q host s = (State.startMoves { s.begun c h q with moves := s.moves ++ [s.moveFor c h k host] }).settled := by
  rw [doMove, hhead]
  dsimp -zeta only
  extract_lets code
  rw [if_neg (by rw [hctx]; decide), if_neg (not_not.2 hcheck), hres]
  dsimp -zeta only
  extract_lets o remote
  dsimp only [State.fresh]
  refine if_pos ?_
  rcases hlocal with hlocal | hlocal | hlocal
  · exact .inl (decide_eq_false fun hc => by rw [hlocal] at hc; cases hc.1)
  · exact .inl (decide_eq_false fun hc => hc.2.elim hlocal.1 hlocal.2)
  · exact .inr hlocal

/-- A MOVE to or from a peer that is reachable, and does not name its object's own place, begins as a remote move (R182, R436). -/
theorem doMove_of_remote {h q k : Nat} {host : List Byte} {c : Cmd} (hhead : s.headOp h q 2 = some c) (hctx : s.ctxGone c = false)
    (hcheck : s.moveCheck c = 0) (hres : s.resolve h c.mvObject = some k) (hhomed : (s.obj k).homed = true)
    (hpeer : c.mvTier = 5 ∨ (s.obj k).tier = 5) (hstill : s.moving k = false)
    (hother : ¬ (c.mvTier = 5 ∧ (s.obj k).tier = 5 ∧ c.mvLocation = (s.obj k).loc ∧ c.mvCodec = 0)) (hok : s.remoteError (s.moveFor c h k host) = none) :
    doMove h q host s =
      (State.startMoves { s.begun c h q with remotes := s.remotes ++ [s.remoteMove s.nextId q c.pos (s.moveFor c h k host)] }).settled := by
  rw [doMove, hhead]
  dsimp -zeta only
  extract_lets code
  rw [if_neg (by rw [hctx]; decide), if_neg (not_not.2 hcheck), hres]
  dsimp -zeta only
  extract_lets o remote
  dsimp only [State.fresh]
  have hremote : remote = true := decide_eq_true ⟨hhomed, hpeer⟩
  rw [if_neg (by rw [hremote, hstill]; decide), if_neg hother]
  split
  case h_1 e he => exact absurd (hok.symm.trans he) nofun
  case h_2 => rfl

/-- ARM_ONLY of a pattern that its checks let through begins the command and then its prefetch moves (R132). -/
theorem doRunPatternArmOnly_of_ok {h q k : Nat} {c : Cmd} (hhead : s.headOp h q 1 = some c) (harm : c.armOnly = true) (hctx : s.ctxGone c = false)
    (hres : s.resolve h c.pattern = some k) (hearlier : s.earlierWrites c k = false) (hkind : (s.obj k).kind = 7) (hhomed : (s.obj k).homed = true)
    (htier0 : (s.obj k).tier ≠ 0) (htier4 : (s.obj k).tier < 4) (hslots : c.nslot = (s.obj k).pNslot)
    (hloc : locOk c.armTier (if c.armTier ≤ 1 then c.armTarget else 0) = true)
    (hthere : c.armTier ≤ 1 → s.locAbsent c.armTier c.armTarget false = false) :
    doRunPatternArmOnly h q s = ((s.begun c h q).prefetch (.armOnly s.nextId) h c.pattern c.armTier (if c.armTier ≤ 1 then c.armTarget else 0) c.armDepth
      s.pos).1.settled := by
  rw [doRunPatternArmOnly, hhead]
  dsimp -zeta only
  rw [if_neg (by rw [harm]; decide), if_neg (by rw [hctx]; decide), hres]
  dsimp -zeta only
  rw [if_neg (by rw [hearlier]; decide), if_neg (by simp [hkind, hhomed, htier0, htier4, hslots, hloc]), if_neg fun hc => by rw [hthere hc.1] at hc; cases hc.2]
  rfl

end MoveBegins

/-- Settles O28: the begins by the row that their checks choose, the ranges' ends by what is counted before the range is marked done, and the commit
of a copy by the object it stores. -/
theorem movesRangesAndCommits : Obligations.MovesRangesAndCommits := by
  unfold Obligations.MovesRangesAndCommits
  refine ⟨⟨fun s h q host c k hhead hctx hcheck hres => ⟨fun hlocal => ?_, fun hhomed hpeer hstill hother hok => ?_⟩, fun s h q c k hhead harm hctx hres
      hearlier hkind hhomed htier0 htier4 hslots hloc hthere => ?_, fun s u cyc m i hrange htier => ?_, fun s u cyc stall m i r hrange hget hfind => ?_⟩,
    fun s m hcodec htier hhomed hsrc hbad => ?_⟩
  · refine completesThen_run (f := doMove h q host) rfl (doMove_of_local hhead hctx hcheck hres hlocal) ?_
    have hmem : s.flightFor c h q ∈ (s.begun c h q).flights := mem_begun_flights
    exact ⟨s.moveFor c h k host, rfl, rfl, rfl, rfl, rfl, rfl, s.flightFor c h q, hmem, rfl, rfl, rfl⟩
  · refine completesThen_run (f := doMove h q host) rfl (doMove_of_remote hhead hctx hcheck hres hhomed hpeer hstill hother hok) ?_
    have hmem : s.flightFor c h q ∈ (s.begun c h q).flights := mem_begun_flights
    exact ⟨s.remoteMove s.nextId q c.pos (s.moveFor c h k host), rfl, rfl, s.flightFor c h q, hmem, rfl, rfl, rfl⟩
  · refine completesThen_run (f := doRunPatternArmOnly h q) rfl
      (doRunPatternArmOnly_of_ok hhead harm hctx hres hearlier hkind hhomed htier0 htier4 hslots hloc hthere) ?_
    exact ⟨begun_nextId, s.flightFor c h q, begun_flights, rfl, rfl, rfl⟩
  · intro bytes s'
    have hs' : s' = s.asking m i bytes bytes := rfl
    have hrun : doShuttleRangeDone u cyc.toNat [] s = if s'.drawHeld (.range m.id i) then s' else
        (s'.shuttleCounted u cyc.toNat bytes).rangeDone m.id i [] := doShuttleRangeDone_eq hrange
    have hreg {a : Nat} (ha : noStackBytes a) : s'.reg a = s.reg a := hs' ▸ reg_asking ha
    have hranges : noStackBytes (R.SH_RANGES u) := noStackBytes_of_offset (by omega)
    have hbusy : noStackBytes (R.SH_BUSY_CYCLES u) := noStackBytes_of_offset (.inl (by decide))
    clear_value s'
    refine ⟨fun hheld => ?_, fun hfree => ?_⟩
    · rw [← hreg hranges]
      exact completes_moves_reg (f := doShuttleRangeDone u cyc.toNat []) rfl (hrun.trans (if_pos hheld)) (hs' ▸ part_asking)
    · refine completesThen_run (f := doShuttleRangeDone u cyc.toNat []) (u := s'.shuttleCounted u cyc.toNat bytes) rfl
        (hrun.trans (if_neg (by rw [hfree]; decide))) ⟨?_, ?_, rfl⟩
      · rw [reg_shuttleCounted_ranges, hreg hranges]
      · rw [reg_shuttleCounted_busy, hreg hbusy]
  · intro w s'
    have hs' : s' = s.asking m i w.inBytes w.outBytes := by rw [State.asking, drew_of_get hget]
    have hrun : doCodecRangeDone u cyc.toNat stall.toNat [] s = if s'.drawHeld (.range m.id i) then s' else
        ((s'.codecCounted m r w u cyc.toNat stall.toNat).carried r cyc.toNat w.outBytes).rangeDone m.id i [] := by
      rw [hs']
      exact doCodecRangeDone_eq hrange hget hfind
    have hreg {a : Nat} (ha : noStackBytes a) : s'.reg a = s.reg a := hs' ▸ reg_asking ha
    have hcoded : noStackBytes (R.PC_BLOCKS_CODED u) := noStackBytes_of_offset (.inl (by decide))
    have hbusy : noStackBytes (R.PC_BUSY_CYCLES u) := noStackBytes_of_offset (.inl (by decide))
    clear_value s'
    refine ⟨fun hheld => ?_, fun hfree => ?_⟩
    · rw [← hreg hcoded]
      exact completes_moves_reg (f := doCodecRangeDone u cyc.toNat stall.toNat []) rfl (hrun.trans (if_pos hheld)) (hs' ▸ part_asking)
    · obtain ⟨hblocks, hcycles, hlast⟩ := codecCounted_effect (s := s') (m := m) (u := u) (cyc := cyc.toNat) (r := r) (w := w) (stall := stall.toNat)
      refine completesThen_run (f := doCodecRangeDone u cyc.toNat stall.toNat [])
        (u := (s'.codecCounted m r w u cyc.toNat stall.toNat).carried r cyc.toNat w.outBytes) rfl
        (hrun.trans (if_neg (by rw [hfree]; decide))) ⟨?_, ?_, ?_, moves_carried.trans (moves_of_homes homes_codecCounted)⟩
      · rw [reg_carried (noShuttleCount_of_offset (by decide)), hblocks, hreg hcoded]
      · rw [reg_carried (noShuttleCount_of_offset (by decide)), hcycles, hreg hbusy]
      · rw [reg_carried (noShuttleCount_of_offset (by decide)), hlast]
  · intro t
    obtain ⟨hobjs, hmoves, hallocs⟩ := moveCommit_effect (s := s) (m := m)
    obtain ⟨htgt, hplace, hdata, htiles, hage⟩ := moveResult_of_copy hcodec htier hhomed hsrc hbad
    have hobj (k : Nat) : t.obj k = mget Obj.dflt (mset Obj.dflt s.objs m.obj (s.moveResult m).1) k := congrArg (mget Obj.dflt · k) hobjs
    have hown : t.obj m.obj = (s.moveResult m).1 := (hobj _).trans (mget_mset_same _ _ _ _)
    rw [hown]
    refine ⟨htgt, hplace, hdata, htiles, hage, fun x hx => ?_, fun k hk => (hobj k).trans (mget_mset_ne _ _ _ _ _ _ hk), hallocs⟩
    rw [show t.moves = _ from hmoves] at hx
    exact of_decide_eq_true (List.mem_filter.1 hx).2

end Sys2Proof.Machine

namespace Sys2Proof.Machine

/-! ## The SPDM responder (R518, R537) -/

section Spdm
variable {s : State}

/-- Where the root of trust offers no service the responder answers an error, whatever the request (R537). -/
theorem completes_spdm_error {c : Instr} {random : Bool} {f act : State → State} (hon : s.domainOn .ioMain = true)
    (herr : s.rot.mode = .selfTest ∨ s.rot.mode = .criticalError) (hc : exec c s = run f s) (hf : f s = s.spdm random act) :
    completes c s fun t => t.rot = { s.rot with answer := .error } := by
  have hans : s.spdm random act = s.answered .error := by
    rcases herr with herr | herr <;> simp [State.spdm, hon, herr, State.answered]
  exact completes_run hc (hf.trans hans) rfl rfl

variable (hon : s.domainOn .ioMain = true) (hmode : s.rot.mode = .operational)
include hon hmode

/-- In OPERATIONAL every request is served (R537). -/
theorem spdm_of_operational (random : Bool) (act : State → State) : s.spdm random act = act s := by
  simp [State.spdm, hon, hmode]

/-- A verified FINISH after KEY_EXCHANGE completes the session; any other is an error (R537). -/
theorem doFinish_of_operational (ok : Bool) : doFinish ok s =
    if s.rot.session = 1 ∧ ok = true then ({ s with rot := { s.rot with session := 2 } } : State).answered .finish else s.answered .error :=
  spdm_of_operational hon hmode _ _

/-- END_SESSION ends a completed session with its keys, and is an error without one (R518). -/
theorem doEndSession_of_operational : doEndSession s =
    if s.rot.session = 2 then ({ s with rot := { s.rot with session := 0, ide := [] } } : State).answered .ended else s.answered .error :=
  spdm_of_operational hon hmode _ _

theorem doKeyProg_without_session (stream : Nat) (hses : s.rot.session ≠ 2) : doKeyProg stream s = s.answered .error :=
  (spdm_of_operational hon hmode _ _).trans (if_pos hses)

variable (hses : s.rot.session = 2)
include hses

theorem doKeyProg_without_officer (stream : Nat) (hco : s.coOn = false) : doKeyProg stream s = s.answered .unauthorised :=
  (spdm_of_operational hon hmode _ _).trans (by simp [hses, hco])

variable (hco : s.coOn = true)
include hco

theorem doKeyProg_of_keyed {stream : Nat} (hin : stream ∈ s.rot.ide) : doKeyProg stream s = s.answered .keyed :=
  (spdm_of_operational hon hmode _ _).trans (by simp [hses, hco, hin])

theorem doKeyProg_of_full {stream : Nat} (hnot : stream ∉ s.rot.ide) (h0 : stream ≠ 0)
    (hfull : 16 ≤ (s.rot.ide.filter fun x => decide (x ≠ 0)).length) : doKeyProg stream s = s.answered .error :=
  (spdm_of_operational hon hmode _ _).trans
    ((if_neg (not_not.2 hses)).trans ((if_neg (by simp [hco])).trans ((if_neg hnot).trans (if_pos ⟨h0, hfull⟩))))

theorem doKeyProg_of_room {stream : Nat} (hnot : stream ∉ s.rot.ide) (hroom : stream = 0 ∨ (s.rot.ide.filter fun x => decide (x ≠ 0)).length < 16) :
    doKeyProg stream s = ({ s with rot := { s.rot with ide := s.rot.ide ++ [stream] } } : State).answered .keyed :=
  (spdm_of_operational hon hmode _ _).trans
    ((if_neg (not_not.2 hses)).trans ((if_neg (by simp [hco])).trans ((if_neg hnot).trans (if_neg (by omega)))))

end Spdm

/-- Settles O52: each request by the responder's mode, and then by the session, the Crypto Officer and the streams keyed. -/
theorem spdmRequests : Obligations.SpdmRequests := by
  unfold Obligations.SpdmRequests
  intro s nonce pub stream hon gives
  refine ⟨fun herr c hc => ?_, fun hmode => ?_⟩
  · fin_cases hc <;> exact completes_spdm_error hon herr rfl rfl
  have hserved := spdm_of_operational hon hmode
  refine ⟨completes_run rfl (hserved _ _) rfl rfl, completes_run rfl (hserved _ _) rfl rfl, completes_run rfl (hserved _ _) rfl rfl,
    completes_run rfl (hserved _ _) rfl rfl, completes_run rfl (hserved _ _) rfl rfl, completes_run rfl (hserved _ _) rfl rfl,
    completes_run rfl (hserved _ _) rfl rfl, completes_run rfl (hserved _ _) rfl ⟨rfl, rfl, rfl, rfl⟩, fun hses => ?_, ?_, fun hses => ?_,
    fun hses => ⟨?_, ?_⟩⟩
  · exact completes_run rfl ((doFinish_of_operational hon hmode true).trans (if_pos ⟨hses, rfl⟩)) rfl ⟨rfl, rfl⟩
  · exact completes_run rfl ((doFinish_of_operational hon hmode false).trans (if_neg (by simp))) rfl ⟨rfl, rfl⟩
  · refine ⟨completes_run rfl ((doEndSession_of_operational hon hmode).trans (if_pos hses)) rfl ⟨rfl, rfl, rfl⟩,
      fun hco => completes_run rfl (doKeyProg_without_officer hon hmode hses _ hco) rfl ⟨rfl, rfl⟩, fun hco => ?_⟩
    intro selective
    refine ⟨fun hroom => ?_, fun hnot h0 hfull => ?_⟩
    · by_cases hin : stream.toNat ∈ s.rot.ide
      · exact completes_run rfl (doKeyProg_of_keyed hon hmode hses hco hin) rfl ⟨rfl, hin, fun _ hx => hx⟩
      · exact completes_run rfl (doKeyProg_of_room hon hmode hses hco hin (hroom.resolve_left hin)) rfl
          ⟨rfl, List.mem_append_right _ (List.mem_singleton_self _), fun _ hx => List.mem_append_left _ hx⟩
    · exact completes_run rfl (doKeyProg_of_full hon hmode hses hco hnot h0 hfull) rfl ⟨rfl, rfl⟩
  · exact completes_run rfl ((doEndSession_of_operational hon hmode).trans (if_neg hses)) rfl ⟨rfl, rfl⟩
  · exact completes_run rfl (doKeyProg_without_session hon hmode _ hses) rfl ⟨rfl, rfl⟩

end Sys2Proof.Machine

namespace Sys2Proof.Machine

/-! ## Object commands (R159, R163, R191, R195, R196) -/

section TableEntries
variable {s : State} {h i : Nat} {o : Obj}

@[simp] theorem obj_setObj_same (k : Nat) (x : Obj) : (s.setObj k x).obj k = x := mget_mset_same _ _ _ _

@[simp] theorem obj_setReg (a k : Nat) (v : W32) : (s.setReg a v).obj k = s.obj k := rfl
@[simp] theorem objs_objResult (n : Nat) : (s.objResult h n).objs = s.objs := rfl
@[simp] theorem obj_objResult (n k : Nat) : (s.objResult h n).obj k = s.obj k := rfl

/-- The object that a new entry at a key holds (R159). -/
def State.entry (s : State) (k : Nat) (o : Obj) : Obj := { o with used := true, gen := nextGen (s.obj k).gen }

/-- A hoop with a free index gives out the lowest one (R159). -/
theorem newObj_of_free (hi : s.freeIndex h = some i) : s.newObj h o = some (s.setObj (oKey h i) (s.entry (oKey h i) o), oKey h i) := by
  rw [State.newObj, hi]; rfl

/-- The object that CREATE makes, with its age, its T4 pages and its T3 stacks (R196, R205). -/
def State.made (s : State) (h k : Nat) (o : Obj) : Obj :=
  s.entry k { o with age := s.pos, aux := if o.tier = 4 then (s.t4Fit h o.ntiles).getD 0 else 0, place := if o.homed then s.placeMask o.tier o.loc else 0 }

theorem objOut_ne_objResult (j : Nat) : R.OBJ_OUT h j ≠ R.OBJ_RESULT h := by
  dsimp only [R.OBJ_OUT, R.OBJ_RESULT]
  omega

theorem objOut_ne_objOut {j k : Nat} (hne : j ≠ k) : R.OBJ_OUT h j ≠ R.OBJ_OUT h k := by
  dsimp only [R.OBJ_OUT]
  omega

theorem objOut_eq (j : Nat) : R.OBJ_OUT h j = R.OBJ_OUT h 0 + 4 * j := by
  dsimp only [R.OBJ_OUT]
  omega

/-- A CREATE's report: the handle of the entry and its host offset in OBJ_OUT, and DONE (R195, R196). -/
def State.reported (s : State) (h k aux : Nat) : State :=
  ((s.setReg (R.OBJ_OUT h 0) (w32 (s.handleOf k))).setReg (R.OBJ_OUT h 1) (w32 aux)).objResult h 0

@[simp] theorem obj_reported (k j aux : Nat) : (s.reported h k aux).obj j = s.obj j := by
  rw [State.reported, obj_objResult, obj_setReg, obj_setReg]

theorem reg_result_reported (k aux : Nat) : (s.reported h k aux).reg (R.OBJ_RESULT h) = w32 (1 + 16 * 0) := reg_setReg_same _ _ _

/-- OBJ_OUT[0] holds the new object's handle (R195). -/
theorem reg_handle_reported (k aux : Nat) : (s.reported h k aux).reg (R.OBJ_OUT h 0) = w32 ((s.reported h k aux).handleOf k) := by
  have hhandle : (s.reported h k aux).handleOf k = s.handleOf k := by rw [State.handleOf, obj_reported, State.handleOf]
  rw [hhandle, State.reported, State.objResult, reg_setReg_ne _ _ _ _ (objOut_ne_objResult 0), reg_setReg_ne _ _ _ _ (objOut_ne_objOut Nat.zero_ne_one),
    reg_setReg_same]

/-- What a CREATE that is made leaves: the entry and the report (R196). -/
def State.created (s : State) (h i : Nat) (o : Obj) : State :=
  (s.setObj (oKey h i) (s.made h (oKey h i) o)).reported h (oKey h i) (s.made h (oKey h i) o).aux

theorem createNow_of_free (hi : s.freeIndex h = some i) : s.createNow h o = (s.created h i o).startMoves := by
  simp only [State.createNow, newObj_of_free hi]; rfl

theorem obj_created : (s.created h i o).obj (oKey h i) = s.made h (oKey h i) o := by
  rw [State.created, obj_reported, obj_setObj_same]

end TableEntries

section RegisterLists
variable {s : State}

/-- A store of consecutive registers changes the registers only. -/
theorem setRegs_eq (a : Nat) (l : List W32) : s.setRegs a l = { s with regs := (s.setRegs a l).regs } := by
  induction l generalizing s a with
  | nil => rfl
  | cons v l ih => exact ih (s := s.setReg a v) (a + 4)

theorem dev_setRegs_objResult (a : Nat) (l : List W32) (h n : Nat) :
    dev (fun _ => (s.setRegs a l).objResult h n) s = (s.setRegs a l).objResult h n := by
  rw [setRegs_eq]; rfl

theorem objs_setRegs (a : Nat) (l : List W32) : (s.setRegs a l).objs = s.objs := by
  rw [setRegs_eq]

theorem reg_setRegs_below {a a' : Nat} (l : List W32) (hlt : a' < a) : (s.setRegs a l).reg a' = s.reg a' := by
  induction l generalizing s a with
  | nil => rfl
  | cons v l ih => exact (ih (Nat.lt_add_right 4 hlt)).trans (reg_setReg_ne _ _ _ _ hlt.ne)

theorem reg_setRegs {a i : Nat} {l : List W32} (hi : i < l.length) : (s.setRegs a l).reg (a + 4 * i) = l[i] := by
  induction l generalizing s a i with
  | nil => exact absurd hi (Nat.not_lt_zero i)
  | cons v l ih =>
    cases i with
    | zero => exact (reg_setRegs_below l (by omega)).trans (reg_setReg_same _ _ _)
    | succ i =>
      rw [show a + 4 * (i + 1) = a + 4 + 4 * i by omega]
      exact ih (Nat.lt_of_succ_lt_succ hi)

end RegisterLists

section Waits
variable {s : State} {a h : Nat}

/-- The end of a wait counts its stitches in a register, and changes no other part of the state but the waits (R189). -/
theorem endWait_eq (p : AllocWait → Bool) : s.endWait p = { s with regs := (s.endWait p).regs, waits := s.waits.filter fun w => !p w } := by
  have hbut : ({ s.endWait p with regs := [], waits := s.waits } : State) = { s with regs := [] } :=
    foldl_keeps (fun t : State => ({ t with regs := [], waits := s.waits } : State)) _ (fun t w => by unfold State.maxReg; split <;> rfl) _ s
  have hwaits : (s.endWait p).waits = s.waits.filter fun w => !p w :=
    congrArg (List.filter fun w => !p w) (foldl_keeps State.waits _ (fun t w => by unfold State.maxReg; split <;> rfl) _ s)
  calc s.endWait p
      = { ({ s.endWait p with regs := [], waits := s.waits } : State) with regs := (s.endWait p).regs, waits := (s.endWait p).waits } := rfl
    _ = { s with regs := (s.endWait p).regs, waits := s.waits.filter fun w => !p w } := by rw [hbut, hwaits]

/-- The only registers it changes are ALLOC_WAIT_STITCHES of the hoops whose waits end (R189). -/
theorem reg_endWait {p : AllocWait → Bool} (ha : ∀ w, p w = true → a ≠ R.ALLOC_WAIT_STITCHES w.hoop) : (s.endWait p).reg a = s.reg a := by
  refine List.foldlRecOn (motive := fun t : State => t.reg a = s.reg a) _ _ rfl fun t ht w hw => ?_
  unfold State.maxReg
  split
  · exact (reg_setReg_ne _ _ _ _ (ha w (List.mem_filter.1 hw).2)).trans ht
  · exact ht

theorem objs_addWait (w : AllocWait) : (s.addWait w).objs = s.objs := by
  unfold State.addWait
  split
  · rfl
  · have hobjs := congrArg State.objs (endWait_eq (s := s) fun x => x.same w)
    exact hobjs

/-- A CREATE's wait replaces one of its own hoop at most (R189). -/
theorem reg_addWait {w : AllocWait} (hcreate : w.create ≠ none) (ha : a ≠ R.ALLOC_WAIT_STITCHES w.hoop) : (s.addWait w).reg a = s.reg a := by
  unfold State.addWait
  split
  · rfl
  · refine reg_endWait (s := s) fun x hx => ?_
    obtain ⟨-, -, hhoop⟩ := of_decide_eq_true hx
    rwa [hhoop.resolve_left hcreate]

end Waits

section ObjectCalls
variable {s : State} {f h i k : Nat} (haccepts : s.accepts f (R.OBJ_CMD h) = true) (hdone : bit (s.reg (R.OBJ_RESULT h)) 0 = true)
include haccepts hdone

/-- An object command while DONE is 1 is taken (R195). -/
theorem objCmd_of_done (act : State → State) : s.objCmd f h act = act s := by
  rw [State.objCmd, command_of_accepts s _ _ _ haccepts, if_pos hdone]

theorem onHandle_of_none (hnone : s.resolve h (s.objHandle h) = none) (act : Nat → State → State) : s.onHandle f h act = s.objResult h 1 := by
  rw [State.onHandle, objCmd_of_done haccepts hdone, hnone]

theorem onHandle_of_some (hk : s.resolve h (s.objHandle h) = some k) (act : Nat → State → State) : s.onHandle f h act = act k s := by
  rw [State.onHandle, objCmd_of_done haccepts hdone, hk]

theorem doCreate_of_bad (hbad : createBad (s.createObj h) = true) : doCreate f h s = s.objResult h 2 := by
  rw [doCreate, objCmd_of_done haccepts hdone]
  exact if_pos hbad

theorem doCreate_of_full (hgood : createBad (s.createObj h) = false) (hfull : s.freeIndex h = none) : doCreate f h s = s.objResult h 3 := by
  rw [doCreate, objCmd_of_done haccepts hdone]
  exact (if_neg (by simp [hgood])).trans (if_pos (by simp [hfull]))

section Admitted
variable (hgood : createBad (s.createObj h) = false) (hfree : s.freeIndex h = some i)
  (hpresent : s.locAbsent (s.createObj h).tier (s.createObj h).loc true = false)
include hgood hfree hpresent

/-- A CREATE with room, or of a DECLARED object, is made at once (R196). -/
theorem doCreate_of_room (hfits : (s.createObj h).homed = true → s.createFits h (s.createObj h) = true) :
    doCreate f h s = (s.created h i (s.createObj h)).startMoves := by
  rw [doCreate, objCmd_of_done haccepts hdone]
  dsimp only
  rw [if_neg (by simp [hgood]), if_neg (by simp [hfree])]
  by_cases hhomed : (s.createObj h).homed = true
  · have hroom := hfits hhomed
    rw [if_neg (by simp [hhomed]), if_neg (by simp [hroom]), if_neg (by simp [hpresent]), if_pos hroom, createNow_of_free hfree]
  · rw [if_pos (by simp [hhomed]), if_neg (by simp [hpresent]), createNow_of_free hfree]

/-- The request for room that a CREATE makes where it does not fit (R196). -/
def State.createWait (s : State) (h : Nat) : AllocWait :=
  let o := s.createObj h
  ⟨h, o.tier, locUnit o.tier o.loc, o.bytes, s.count, none, none, some o⟩

/-- A CREATE whose room evictions can make waits for them with DONE 0 (R196). -/
theorem doCreate_of_wait (hhomed : (s.createObj h).homed = true) (hfits : s.createFits h (s.createObj h) = false)
    (hreachable : s.reachable h (s.createObj h) = true) : doCreate f h s =
      ((((s.setReg (R.OBJ_RESULT h) 0).addWait (s.createWait h)).askRoom h (s.createObj h).tier
        (locUnit (s.createObj h).tier (s.createObj h).loc) (s.createObj h).bytes).startMoves) := by
  rw [doCreate, objCmd_of_done haccepts hdone]
  dsimp only
  rw [if_neg (by simp [hgood]), if_neg (by simp [hfree]), if_neg (by simp [hhomed]), if_neg (by simp [hreachable]), if_neg (by simp [hpresent]),
    if_neg (by simp [hfits])]
  rfl

end Admitted

variable (hk : s.resolve h (s.objHandle h) = some k)
include hk

theorem doDestroy_of_free (hctx : (s.obj k).ctxState = false) (hbusy : s.busy k = false) (hmoving : s.moving k = false) (hpins : (s.obj k).pins = 0) :
    doDestroy f h s = ((s.freeObj k).objResult h 0).startMoves := by
  rw [doDestroy, onHandle_of_some haccepts hdone hk, if_neg (by simp [hctx]), if_neg (by simp [hbusy, hmoving]), if_neg (by simp [hpins])]

theorem doDestroy_of_used (hctx : (s.obj k).ctxState = false) (hused : s.busy k = true ∨ s.moving k = true) : doDestroy f h s = s.objResult h 5 := by
  rw [doDestroy, onHandle_of_some haccepts hdone hk, if_neg (by simp [hctx]), if_pos hused]

/-- PIN of a homed object, whose first pin keeps its hoop's PIN_LIMIT (R191). -/
theorem doPin_of_allowed (hhomed : (s.obj k).homed = true) (hmax : (s.obj k).pins < 57343) (hlimit : (s.obj k).tier ≤ 4 → 0 < (s.obj k).pins ∨
      s.pinned h (s.obj k).tier (locUnit (s.obj k).tier (s.obj k).loc) + (s.obj k).bytes ≤
        s.guarBytes (s.obj k).tier (s.reg (R.PIN_LIMIT (s.obj k).tier h)).toNat) :
    doPin f h s = (s.modObj k fun o => { o with pins := o.pins + 1 }).objResult h 0 := by
  rw [doPin, onHandle_of_some haccepts hdone hk]
  dsimp only
  rw [if_neg (by simp [hhomed]), if_neg]
  rintro (hfull | ⟨htier, habove⟩)
  · omega
  · obtain ⟨hfirst, hmore⟩ := Bool.and_eq_true_iff.1 habove
    have hnone := of_decide_eq_true hfirst
    have hover := of_decide_eq_true hmore
    have := hlimit htier
    omega

theorem doUnpin_of_handle : doUnpin f h s = ((s.modObj k fun o => { o with pins := o.pins - 1 }).objResult h 0).startMoves := by
  rw [doUnpin, onHandle_of_some haccepts hdone hk]

theorem doQuery_of_handle : doQuery f h s =
    (s.setRegs (R.OBJ_OUT h 0) ((List.range 8).map fun i => w32 (bytesAt (s.queryRecord k) (4 * i) 4))).objResult h 0 := by
  rw [doQuery, onHandle_of_some haccepts hdone hk]

end ObjectCalls

/-- An object command that only reports a result. -/
theorem completes_objResult {c : Instr} {g : State → State} {s : State} {h n : Nat} (hc : exec c s = run g s) (hg : g s = s.objResult h n) :
    completes c s fun t => t.reg (R.OBJ_RESULT h) = w32 (1 + 16 * n) ∧ t.objs = s.objs :=
  completes_run hc hg rfl ⟨reg_setReg_same _ _ _, rfl⟩

/-- QUERY leaves the record in OBJ_OUT, word by word, and only registers change (R163). -/
theorem completes_query {s : State} {f h : Fin 16} {k : Nat} (hq : doQuery f h s =
      (s.setRegs (R.OBJ_OUT h 0) ((List.range 8).map fun i => w32 (bytesAt (s.queryRecord k) (4 * i) 4))).objResult h 0) :
    completes (.query f h) s fun t => t.reg (R.OBJ_RESULT h) = w32 (1 + 16 * 0) ∧ t.objs = s.objs ∧
      ∀ i < 8, t.reg (R.OBJ_OUT h i) = w32 (bytesAt (s.queryRecord k) (4 * i) 4) := by
  refine completes_run rfl hq (dev_setRegs_objResult _ _ _ _) ⟨reg_setReg_same _ _ _, by rw [objs_objResult, objs_setRegs], fun i hi => ?_⟩
  rw [State.objResult, reg_setReg_ne _ _ _ _ (objOut_ne_objResult i), objOut_eq i, reg_setRegs (by simpa using hi),
    List.getElem_map, List.getElem_range]

/-- Settles O26: each command by the branch that its hypotheses choose; what a CREATE makes and what its wait changes are said once above. -/
theorem objectCommands : Obligations.ObjectCommands := by
  unfold Obligations.ObjectCommands
  intro s f h hacc hdone answers o unit
  refine ⟨fun hbad => ?_, fun hgood hfull => ?_, fun i hgood hfree hpresent hfits => ?_, fun i hgood hfree hhomed hpresent hfits hreach => ?_,
    fun hnone c hc => ?_, fun k hk => ⟨fun hctx hbusy hmoving hpins => ?_, fun hctx hused => ?_, fun hhomed hmax hlimit => ?_, ?_, ?_⟩⟩
  · exact completes_objResult rfl (doCreate_of_bad hacc hdone hbad)
  · exact completes_objResult rfl (doCreate_of_full hacc hdone hgood hfull)
  · refine completesThen_run rfl (doCreate_of_room hacc hdone hgood hfree hpresent hfits) ⟨reg_result_reported _ _, ?_⟩
    intro k
    rw [show (s.created h i o).obj k = s.made h k o from obj_created]
    exact ⟨rfl, rfl, rfl, rfl, rfl, rfl, rfl, reg_handle_reported _ _⟩
  · refine completesThen_run rfl (doCreate_of_wait hacc hdone hgood hfree hpresent hhomed hfits hreach) ⟨?_, objs_addWait _⟩
    exact (reg_addWait (Option.some_ne_none _) (by dsimp only [State.createWait, R.ALLOC_WAIT_STITCHES, R.OBJ_RESULT]; omega)).trans (reg_setReg_same _ _ _)
  · fin_cases hc <;> exact completes_objResult rfl (onHandle_of_none hacc hdone hnone _)
  · exact completesThen_run rfl (doDestroy_of_free hacc hdone hk hctx hbusy hmoving hpins) ⟨reg_setReg_same _ _ _, obj_setObj_same _ _⟩
  · exact completes_objResult rfl (doDestroy_of_used hacc hdone hk hctx hused)
  · refine completes_run rfl (doPin_of_allowed hacc hdone hk hhomed hmax hlimit) rfl ⟨reg_setReg_same _ _ _, ?_⟩
    rw [obj_objResult, obj_modObj_same]
    exact ⟨rfl, rfl⟩
  · exact completesThen_run rfl (doUnpin_of_handle hacc hdone hk) ⟨reg_setReg_same _ _ _, by rw [obj_objResult, obj_modObj_same]⟩
  · exact completes_query (doQuery_of_handle hacc hdone hk)

end Sys2Proof.Machine

namespace Sys2Proof.Machine

/-! ## Object tables, guarantees, waiting allocations and the skein catalogue (R160, R171, R186, R189, R222, R223, R230) -/

section Kept
variable {s t : State} {v : W32}

/-- A bit of a mask is set once the mask is set. -/
theorem bit_or_of_bit {m : W32} {i : Nat} (hm : bit m i = true) : bit (v ||| m) i = true := by
  rw [bit] at hm
  rw [bit, BitVec.getLsbD_or, hm, Bool.or_true]

/-- A further store keeps what a device command keeps. -/
theorem dev_setReg_of_dev {a : Nat} (hkept : dev (fun _ => t) s = t) : dev (fun _ => t.setReg a v) s = t.setReg a v :=
  congrArg (fun x : State => { x with regs := (t.setReg a v).regs }) hkept

end Kept

section Tables
variable {s : State} {f h : Nat} {v : W32}

/-- A table of `n` entries would leave out an entry in use, or does not fit T2 (R160). -/
def State.tableRefused (s : State) (h n : Nat) : Prop :=
  (0 < s.highIndex h ∧ n < s.highIndex h + 1) ∨ s.freeRoom h 2 0 < (n - s.otEntries h) * 64

theorem doOtEntriesWrite_of_fits (hreach : s.reaches f (R.OT_ENTRIES h) = true) (hfits : ¬ s.tableRefused h (applyLimit (.whole 0 1048576) v).toNat) :
    doOtEntriesWrite f h v s = (s.setReg (R.OT_ENTRIES h) (applyLimit (.whole 0 1048576) v)).startMoves := by
  rw [doOtEntriesWrite, reach_of_reaches s _ _ _ hreach]
  exact if_neg hfits

theorem doOtEntriesWrite_of_refused (hreach : s.reaches f (R.OT_ENTRIES h) = true) (hbad : s.tableRefused h (applyLimit (.whole 0 1048576) v).toNat) :
    doOtEntriesWrite f h v s = s.orReg (R.POOL_STATUS 2) 2 := by
  rw [doOtEntriesWrite, reach_of_reaches s _ _ _ hreach]
  exact if_pos hbad

/-- The guarantees of a pool's hoops with `n` for hoop `h` (R186). -/
def State.guarSum (s : State) (tier h n : Nat) : Nat :=
  (List.range 16).foldl (fun a g => a + if g = h then n else (s.reg (R.GUAR tier g)).toNat) 0

/-- Guarantees that sum to `sum` do not keep the pool's capacity (R186). -/
def State.guarRefused (s : State) (tier sum : Nat) : Prop := (tier ≤ 1 ∧ 256 < sum) ∨ (2 ≤ tier ∧ s.poolCap tier 0 < sum * 2 ^ 20)

variable {tier : Nat} (hreach : s.reaches f (R.GUAR tier h) = true) (htier : tier ≠ 4)
include hreach htier

theorem doGuarWrite_of_keeps (hkeeps : ¬ s.guarRefused tier (s.guarSum tier h v.toNat)) :
    doGuarWrite f tier h v s = (s.setReg (R.GUAR tier h) v).startMoves := by
  rw [doGuarWrite, reach_of_reaches s _ _ _ hreach]
  exact (if_neg htier).trans (if_neg hkeeps)

theorem doGuarWrite_of_refused (hbad : s.guarRefused tier (s.guarSum tier h v.toNat)) : doGuarWrite f tier h v s = s.orReg (R.POOL_STATUS tier) 1 := by
  rw [doGuarWrite, reach_of_reaches s _ _ _ hreach]
  exact (if_neg htier).trans (if_pos hbad)

end Tables

section WaitingCreate
variable {s : State} {w : AllocWait} {o : Obj} {i : Nat}

/-- The end of waits of hoop `h` leaves its free indices as they are: no table and no page's owner stands in ALLOC_WAIT_STITCHES (R159, R189). -/
theorem freeIndex_endWait {p : AllocWait → Bool} {h : Nat} (hp : ∀ x, p x = true → x.hoop = h) : (s.endWait p).freeIndex h = s.freeIndex h := by
  have hreg {a : Nat} (ha : a ≠ R.ALLOC_WAIT_STITCHES h) : (s.endWait p).reg a = s.reg a := reg_endWait fun x hx => by rwa [hp x hx]
  have hentries : (s.endWait p).otEntries h = s.otEntries h := congrArg BitVec.toNat (hreg (by dsimp only [R.OT_ENTRIES, R.ALLOC_WAIT_STITCHES]; omega))
  have howner (n : Nat) : (s.endWait p).reg (R.HOOP_OWNER (pageOf .pipeline n)) = s.reg (R.HOOP_OWNER (pageOf .pipeline n)) :=
    hreg (by dsimp only [R.HOOP_OWNER, R.ALLOC_WAIT_STITCHES, pageOf, blkRow]; omega)
  have hobjs : (s.endWait p).objs = s.objs := by rw [endWait_eq]
  have hpipes : (s.endWait p).pipes = s.pipes := by rw [endWait_eq]
  have hset (n : Nat) (set : SMap W32) : (s.endWait p).setObjects n set = s.setObjects n set := by rw [endWait_eq]; rfl
  have hframes : (s.endWait p).frameEntries h = s.frameEntries h := by simp only [State.frameEntries, howner, hpipes, hset]
  have hfree : (s.endWait p).freeEntries h = s.freeEntries h := by rw [State.freeEntries, hentries, hobjs, hframes, ← State.freeEntries]
  rw [State.freeIndex, hobjs, hentries, hfree, ← State.freeIndex]

/-- A CREATE alone in waiting that now fits is made (R189, R196). -/
theorem doAllocationGranted_of_fits (hwaits : s.waits = [w]) (hmove : w.move = none) (hcq : w.cq = none) (hcreate : w.create = some o)
    (hfits : s.createFits w.hoop o = true) (hfree : s.freeIndex w.hoop = some i) :
    doAllocationGranted s = ((s.endWait fun x => decide (x = w)).created w.hoop i o).startMoves.startMoves.settled := by
  have hmade : s.retryWait w = ((s.endWait fun x => decide (x = w)).created w.hoop i o).startMoves := by
    rw [State.retryWait, if_neg (by simp [hwaits]), hmove, hcq, hcreate]
    dsimp only
    rw [if_pos hfits, createNow_of_free]
    rw [freeIndex_endWait fun x hx => congrArg AllocWait.hoop (of_decide_eq_true hx)]
    exact hfree
  rw [doAllocationGranted, hwaits]
  exact congrArg (fun t : State => t.startMoves.settled) hmade

theorem waits_created (h : Nat) : (s.created h i o).waits = s.waits := by
  rw [State.created, State.reported, State.objResult, State.setReg_waits, State.setReg_waits, State.setReg_waits, State.setObj_waits]

end WaitingCreate

/-- The head that the write budget delayed, alone, is begun as by COMMAND_BEGIN (R216). -/
theorem doBudgetAdmitted_of_one {s : State} {h q : Nat} {x : Cq} (hq : q < 64) (hone : s.cqs.filter (fun e => e.2.headDelayed) = [(h * 64 + q, x)]) :
    doBudgetAdmitted s = (s.beginHead h q []).startMoves.settled := by
  have hdiv : (h * 64 + q) / 64 = h := by omega
  have hmod : (h * 64 + q) % 64 = q := by omega
  rw [doBudgetAdmitted, hone, List.foldl_cons, List.foldl_nil, hdiv, hmod]

section Catalogue
variable {s : State} {f i k : Nat} {e : Extent}

theorem length_insertExtent (e : Extent) (l : List Extent) : (insertExtent e l).length = l.length + 1 := by
  induction l with
  | nil => rfl
  | cons x l ih =>
    unfold insertExtent
    split
    · rfl
    · rw [List.length_cons, ih, List.length_cons]

theorem mem_insertExtent (e : Extent) (l : List Extent) : e ∈ insertExtent e l := by
  induction l with
  | nil => exact List.mem_singleton_self e
  | cons x l ih =>
    unfold insertExtent
    split
    · exact List.mem_cons_self
    · exact List.mem_cons_of_mem _ ih

/-- The catalogue without the extent of a key, after ADOPT or DISCARD (R223). -/
def State.without (s : State) (key : Nat) : State := { s with catalogue := s.catalogue.filter fun x => decide (x.key ≠ key) }

theorem key_ne_of_mem_without {key : Nat} {x : Extent} (hx : x ∈ (s.without key).catalogue) : x.key ≠ key :=
  of_decide_eq_true (List.mem_filter.1 hx).2

/-- The object leaves its table for the catalogue, under the key of CAT_ARG (R223). -/
def State.preserved (s : State) (k : Nat) : State :=
  { s with catalogue := insertExtent ⟨s.catKey, (s.obj k).kind, s.catHoop, s.obj k⟩ s.catalogue }.setObj k { Obj.dflt with gen := (s.obj k).gen }

theorem obj_preserved : (s.preserved k).obj k = { Obj.dflt with gen := (s.obj k).gen } := obj_setObj_same _ _

/-- The extent as an object of the hoop of CAT_ARG, unpinned and with the age of its adoption (R223). -/
def State.adopted (s : State) (i : Nat) (e : Extent) : State :=
  (s.without e.key).setObj (oKey s.catHoop i) (s.entry (oKey s.catHoop i) { e.obj with pins := 0, age := s.pos })

theorem obj_adopted : (s.adopted i e).obj (oKey s.catHoop i) = s.entry (oKey s.catHoop i) { e.obj with pins := 0, age := s.pos } := obj_setObj_same _ _

variable (hreach : s.reaches f R.CAT_CMD = true) (hready : (s.sk 0).ready = true) (hon : s.isOn .skein 0 = true)
include hreach hready hon

/-- A catalogue command that reaches the ready controller is taken (R225, R230). -/
theorem catCmd_of_ready (act : State → State) : s.catCmd f act = act s := by
  rw [State.catCmd, reach_of_reaches s _ _ _ hreach, if_pos ⟨hready, hon⟩]

section OfHoop
variable (hgood : s.catBadArg true true = false)
include hgood

section Free
variable (hk : s.resolve s.catHoop s.catHandle = some k) (hhomed : (s.obj k).homed = true) (htier : (s.obj k).tier = 3) (hsealed : (s.obj k).sealed = false)
  (hpins : (s.obj k).pins = 0) (hbusy : s.busy k = false) (hmoving : s.moving k = false) (hretiring : s.isRetiring k = false)
  (hctx : (s.obj k).ctxState = false)
include hk hhomed htier hsealed hpins hbusy hmoving hretiring hctx

/-- PRESERVE of a free T3 object turns on its key and the catalogue's room (R223, R230). -/
theorem doPreserve_of_free : doPreserve f s =
    if (s.extent s.catKey).isSome then s.catResult 6 else if 4096 ≤ s.catalogue.length then s.catResult 8 else (s.preserved k).catResult 0 := by
  rw [doPreserve, catCmd_of_ready hreach hready hon, hk]
  dsimp only
  rw [if_neg (by simp [hgood]), if_neg (by simp [hhomed, htier]), if_neg (by simp [hsealed]), if_neg (by simp [hpins, hbusy, hmoving, hretiring, hctx])]
  rfl

end Free

theorem doAdopt_of_extent (he : s.extent s.catKey = some e) (hlive : ∀ t < e.obj.ntiles, s.live .skein (e.obj.tileStack t) = true)
    (hfree : s.freeIndex s.catHoop = some i) : doAdopt f s = ((s.adopted i e).catOut 0 ((s.adopted i e).handleOf (oKey s.catHoop i))).catResult 0 := by
  have hplaced : ((List.range e.obj.ntiles).any fun t => !s.live .skein (e.obj.tileStack t)) = false :=
    List.any_eq_false.2 fun t ht => by simp [hlive t (List.mem_range.1 ht)]
  rw [doAdopt, catCmd_of_ready hreach hready hon, if_neg (by simp [hgood]), he]
  dsimp only
  rw [hplaced, newObj_of_free hfree]
  rfl

theorem doAdopt_of_none (he : s.extent s.catKey = none) : doAdopt f s = s.catResult 7 := by
  rw [doAdopt, catCmd_of_ready hreach hready hon, if_neg (by simp [hgood]), he]

end OfHoop

section OfKey
variable (hgood : s.catBadArg false true = false)
include hgood

theorem doDiscard_of_extent (he : s.extent s.catKey = some e) : doDiscard f s = ((s.without e.key).catResult 0).startMoves := by
  rw [doDiscard, catCmd_of_ready hreach hready hon, if_neg (by simp [hgood]), he]
  rfl

theorem doDiscard_of_none (he : s.extent s.catKey = none) : doDiscard f s = s.catResult 7 := by
  rw [doDiscard, catCmd_of_ready hreach hready hon, if_neg (by simp [hgood]), he]

theorem doLookup_of_extent (he : s.extent s.catKey = some e) : ∃ x y, doLookup f s =
    (((s.catOut 0 (e.obj.size % 2 ^ 32)).catOut 1 x).catOut 2 y).catResult 0 := by
  rw [doLookup, catCmd_of_ready hreach hready hon, if_neg (by simp [hgood]), he]
  exact ⟨_, _, rfl⟩

theorem doLookup_of_none (he : s.extent s.catKey = none) : doLookup f s = s.catResult 7 := by
  rw [doLookup, catCmd_of_ready hreach hready hon, if_neg (by simp [hgood]), he]

end OfKey

theorem doCatalogueList_of_extent (he : s.catalogue[s.catHandle]? = some e) :
    doCatalogueList f s = ((s.catOut 0 (e.key % 2 ^ 32)).catOut 1 (e.key / 2 ^ 32)).catResult 0 := by
  rw [doCatalogueList, catCmd_of_ready hreach hready hon, he]

end Catalogue

theorem obj_catResult {s : State} {n k : Nat} : (s.catResult n).obj k = s.obj k := rfl

theorem obj_catOut {s : State} {i n k : Nat} : (s.catOut i n).obj k = s.obj k := rfl

theorem reg_catResult {s : State} {a n : Nat} (ha : a ≠ R.CAT_RESULT) : (s.catResult n).reg a = s.reg a := reg_setReg_ne _ _ _ _ ha

theorem reg_catOut_same {s : State} {i n : Nat} : (s.catOut i n).reg (R.CAT_OUT i) = w32 n := reg_setReg_same _ _ _

theorem reg_catOut_ne {s : State} {a i n : Nat} (ha : a ≠ R.CAT_OUT i) : (s.catOut i n).reg a = s.reg a := reg_setReg_ne _ _ _ _ ha

/-- A catalogue command that only reports a result. -/
theorem completes_catResult {c : Instr} {g : State → State} {s : State} {n : Nat} {p : State → Prop} (hc : exec c s = run g s)
    (hg : g s = s.catResult n) (hp : ∀ t : State, t.reg R.CAT_RESULT = w32 (1 + 16 * n) → t.objs = s.objs → t.catalogue = s.catalogue → p t) :
    completes c s p := completes_run hc hg rfl (hp _ (reg_setReg_same _ _ _) rfl rfl)

/-- Settles O27: each command by the branch that its hypotheses choose; a CREATE that waits is made by ALLOCATION_GRANTED as one that is made at once. -/
theorem tablesPoolsAndCatalogue : Obligations.TablesPoolsAndCatalogue := by
  unfold Obligations.TablesPoolsAndCatalogue
  refine ⟨⟨fun s f h v hreach => ⟨fun hfits => ?_, fun hbad => ?_⟩, fun s f tier h v hreach htier => ?_,
    fun s w o i hwaits hmove hcq hcreate hfits hfree => ?_, fun s h idx => ?_, fun s h q x hone => ?_⟩, fun s f hreach hready hon => ?_⟩
  · exact completesThen_run rfl (doOtEntriesWrite_of_fits hreach hfits) (congrArg BitVec.toNat (reg_setReg_same _ _ _))
  · refine completes_run rfl (doOtEntriesWrite_of_refused hreach hbad) (dev_setReg _ _ _) ⟨?_, ?_⟩
    · exact congrArg BitVec.toNat (reg_setReg_ne _ _ _ _ (by dsimp only [R.OT_ENTRIES, R.POOL_STATUS]; omega))
    · rw [orReg_eq, reg_setReg_same, bit_or_of_bit (by decide)]
  · intro sum bad
    have htier' : tier.val ≠ 4 := fun h4 => htier (Fin.ext h4)
    have hbad : bad ↔ s.guarRefused tier (s.guarSum tier h v.toNat) := Iff.rfl
    refine ⟨fun hkeeps => ?_, fun hrefused => ?_⟩
    · exact completesThen_run rfl (doGuarWrite_of_keeps hreach htier' fun hr => hkeeps (hbad.2 hr)) (reg_setReg_same _ _ _)
    · refine completes_run rfl (doGuarWrite_of_refused hreach htier' (hbad.1 hrefused)) (dev_setReg _ _ _) ⟨?_, ?_⟩
      · exact reg_setReg_ne _ _ _ _ (by dsimp only [R.GUAR, R.POOL_STATUS]; omega)
      · rw [orReg_eq, reg_setReg_same, bit_or_of_bit (by decide)]
  · refine completesThen_run (g := fun u => u.startMoves.startMoves.settled) rfl (doAllocationGranted_of_fits hwaits hmove hcq hcreate hfits hfree)
      ⟨?_, reg_result_reported _ _, ?_⟩
    · rw [waits_created, endWait_eq]
      simp [hwaits]
    · rw [obj_created]
      exact ⟨rfl, rfl⟩
  · refine completesThen_run rfl rfl ⟨fun r hr => ?_, fun r hr hne => ?_⟩
    · obtain ⟨hold, hkept⟩ := List.mem_filter.1 hr
      exact ⟨hold, fun hobj => by simpa [hobj] using hkept⟩
    · exact List.mem_filter.2 ⟨hr, by simp [hne]⟩
  · refine ⟨s.beginHead h q [], rfl, ?_⟩
    exact congrArg Host.Outcome.next (dev_congr s (doBudgetAdmitted_of_one q.isLt hone))
  · intro answers
    refine ⟨fun hgood => ⟨fun k hk hhomed htier hsealed hpins hbusy hmoving hretiring hctx => ?_, fun e i he hlive hfree => ?_, fun he => ?_⟩,
      fun hgood => ⟨fun e he => ⟨?_, ?_⟩, fun he c hc => ?_⟩, fun e he => ?_⟩
    · have hfree := doPreserve_of_free hreach hready hon hgood hk hhomed htier hsealed hpins hbusy hmoving hretiring hctx
      refine ⟨fun hnew hroom => ?_, fun hused => completes_catResult rfl (hfree.trans (if_pos hused)) fun _ ha ho hc => ⟨ha, ho, hc⟩⟩
      have hdone := hfree.trans ((if_neg (by simp [hnew])).trans (if_neg (by omega)))
      refine completes_run rfl hdone rfl ⟨reg_setReg_same _ _ _, ?_⟩
      rw [obj_catResult, obj_preserved]
      exact ⟨rfl, rfl, length_insertExtent _ _, _, mem_insertExtent _ _, rfl, rfl, rfl⟩
    · refine completes_run rfl (doAdopt_of_extent hreach hready hon hgood he hlive hfree) (dev_setReg_of_dev (dev_setReg_of_dev rfl)) ?_
      dsimp only
      rw [obj_catResult, obj_catOut, obj_adopted]
      exact ⟨reg_setReg_same _ _ _, rfl, rfl, rfl, rfl, rfl, fun x hx => key_ne_of_mem_without hx⟩
    · exact completes_catResult rfl (doAdopt_of_none hreach hready hon hgood he) fun _ ha ho _ => ⟨ha, ho⟩
    · exact completesThen_run rfl (doDiscard_of_extent hreach hready hon hgood he) ⟨reg_setReg_same _ _ _, fun x hx => key_ne_of_mem_without hx⟩
    · obtain ⟨x, y, hlookup⟩ := doLookup_of_extent hreach hready hon hgood he
      refine completes_run rfl hlookup (dev_setReg_of_dev (dev_setReg_of_dev (dev_setReg_of_dev (dev_setReg_of_dev rfl)))) ⟨reg_setReg_same _ _ _, ?_, rfl⟩
      rw [reg_catResult (by decide), reg_catOut_ne (by decide), reg_catOut_ne (by decide), reg_catOut_same]
    · fin_cases hc
      · exact completes_catResult rfl (doDiscard_of_none hreach hready hon hgood he) fun _ ha _ hc => ⟨ha, hc⟩
      · exact completes_catResult rfl (doLookup_of_none hreach hready hon hgood he) fun _ ha _ hc => ⟨ha, hc⟩
    · refine completes_run rfl (doCatalogueList_of_extent hreach hready hon he) (dev_setReg_of_dev (dev_setReg_of_dev (dev_setReg_of_dev rfl)))
        ⟨reg_setReg_same _ _ _, ?_, ?_⟩
      · rw [reg_catResult (by decide), reg_catOut_ne (by decide), reg_catOut_same]
      · rw [reg_catResult (by decide), reg_catOut_same]

end Sys2Proof.Machine

namespace Sys2Proof.Machine

/-! ## The use of a tile by a move of a hoop that is not there (R176, R212) -/

/-- A device in ACTIVE whose skein stack 0 is READY and decodes object 5 of hoop 0 for command 9. The move's hoop is 80, past the 16 that there are;
no move begins so, but the statement asks only for the move's object, kind and codec. -/
def State.strayDecode : State :=
  { State.reset with
    pm := { Pm.dflt with mode := .active }
    regs := [(R.BLOCK_STATE (pageOf .skein 0), 2)]
    skeins := [(0, { Skein.dflt with ready := true })]
    objs := [(5, { Obj.dflt with used := true, homed := true, tier := 3, size := 4096 })]
    moves := [{ Move.dflt with id := 4, kind := .command 9, hoop := 80, obj := 5, tier := 2, codec := 1, started := true }] }

/-- Past the object pages of the 16 hoops lie the skein pages: where hoop 80 would count its failed tiles, stack 0 counts its uncorrectable codewords. -/
theorem tileCheckCount_eighty : R.TILE_CHECK_COUNT 80 = R.LDPC_UNCORR 0 := rfl

/-- Both codewords of the tile that the stray decode reads are uncorrectable: the register counts them, and then the failed use. -/
theorem tileCheckCount_strayDecode :
    (dev (doFlashPageRead 0 0 0 3 3 0 5 0 none) State.strayDecode).reg (R.TILE_CHECK_COUNT 80) = satAdd (State.strayDecode.reg (R.LDPC_UNCORR 0)) 3 := by
  decide +kernel

/-- Refutes O29: with a move of hoop 80, which no hypothesis excludes, an uncorrectable tile whose content the move uses is counted in
TILE_CHECK_COUNT of hoop 80, which is LDPC_UNCORR of stack 0, so that this register rises by 3 and not by the two codewords. -/
theorem not_skeinReadsAndBudget : ¬ Obligations.SkeinReadsAndBudget := by
  intro h
  have hpresent : present State.strayDecode.part .skein 0 = true := by decide +kernel
  have hon : State.strayDecode.domainOn .ioMain = true := by decide +kernel
  have hlive : State.strayDecode.live .skein 0 = true := by decide +kernel
  have hready : (State.strayDecode.sk 0).ready = true := by decide +kernel
  have hreadable : State.strayDecode.readable 0 0 1 = true := by decide +kernel
  have hused : (State.strayDecode.obj (oKey 0 5)).used = true := by decide +kernel
  have htile : 0 < (State.strayDecode.obj (oKey 0 5)).ntiles := by decide +kernel
  obtain ⟨hread, -⟩ := h
  obtain ⟨-, huncorrectable⟩ := hread State.strayDecode 0 0 0 3 3 0 5 0 hpresent hon hlive hready hreadable
  obtain ⟨-, hmove, -⟩ := huncorrectable (Or.inl rfl) hused htile
  obtain ⟨t, hexec, ⟨-, -, -, hcount⟩, -, -⟩ := hmove _ 9 rfl rfl rfl (Or.inl Nat.one_ne_zero) rfl
  have ht : dev (doFlashPageRead 0 0 0 3 3 0 5 0 none) State.strayDecode = t := Host.Outcome.next.inj hexec
  have hafter : t.reg (R.LDPC_UNCORR 0) = satAdd (State.strayDecode.reg (R.LDPC_UNCORR 0)) 3 := by
    rw [← ht, ← tileCheckCount_eighty]
    exact tileCheckCount_strayDecode
  exact absurd (hcount.symm.trans hafter) (by decide +kernel)

end Sys2Proof.Machine

namespace Sys2Proof.Machine

/-! ## The pages of the context manager (R242, R251, R255, R256) -/

section Descriptors
variable {s : State} {c : Instr} {g : State → State} {h i : Nat} {v : W32}

@[simp] theorem ctx_setCtx_same (x : Ctx) : (s.setCtx i x).ctx i = x := mget_mset_same _ _ _ _

/-- A command of a page that only reports a result. -/
theorem completes_ctxResult {n : Nat} (hc : exec c s = run g s) (hg : g s = s.ctxResult h n) :
    completes c s fun t => t.reg (R.CTX_RESULT h) = w32 (1 + 16 * n) ∧ t.ctxs = s.ctxs :=
  completes_run hc hg rfl ⟨reg_setReg_same _ _ _, rfl⟩

/-- A command of a page that changes one descriptor, with what CTX_RESULT then holds. -/
theorem completes_setCtx {x : Ctx} (hc : exec c s = run g s) (hg : g s = (s.setCtx i x).setReg (R.CTX_RESULT h) v) :
    completes c s fun t => t.reg (R.CTX_RESULT h) = v ∧ t.ctx i = x :=
  completes_run hc hg rfl ⟨reg_setReg_same _ _ _, ctx_setCtx_same x⟩

theorem ctxOut_eq (j : Nat) : R.CTX_OUT h j = R.CTX_OUT h 0 + 4 * j := by
  dsimp only [R.CTX_OUT]
  omega

theorem ctxOut_ne_ctxResult (j : Nat) : R.CTX_OUT h j ≠ R.CTX_RESULT h := by
  dsimp only [R.CTX_OUT, R.CTX_RESULT]
  omega

end Descriptors

section Refusals
variable {s : State} {i : Nat}

/-- The state beside its counters: the registers, and the parts of a unit that MB counters keep. -/
def State.besideCounters (s : State) : State := { s with regs := [], partials := [] }

/-- The same beside the descriptors, in which refusals are counted too (R248). -/
def State.besideRefusals (s : State) : State := { s.besideCounters with ctxs := [] }

theorem besideCounters_addReg (a n : Nat) : (s.addReg a n).besideCounters = s.besideCounters := rfl
theorem besideCounters_addPieces (a unit n : Nat) : (s.addPieces a unit n).besideCounters = s.besideCounters := rfl

/-- The refusal of a T3 request is counted, and changes nothing else (R216). -/
theorem besideCounters_countRefusal (loc tiles : Nat) (claims : Nat → Nat) : (s.countRefusal loc tiles claims).besideCounters = s.besideCounters := by
  refine foldl_keeps State.besideCounters _ (fun t e => ?_) _ s
  split
  · rfl
  · rw [besideCounters_addPieces, besideCounters_addReg]

/-- So is a refused spill (R246). -/
theorem besideCounters_refuseSpill : (s.refuseSpill i).besideCounters = s.besideCounters := by
  unfold State.refuseSpill
  dsimp only
  split
  · rw [foldl_keeps State.besideCounters _ fun _ _ => besideCounters_countRefusal _ _ _]
    rw [besideCounters_addReg, besideCounters_addReg]
  · rw [besideCounters_addReg, besideCounters_addReg]

theorem besideRefusals_refuseSpill : (s.refuseSpill i).besideRefusals = s.besideRefusals := by
  rw [State.besideRefusals, besideCounters_refuseSpill, ← State.besideRefusals]

theorem besideRefusals_refusedFor : (s.refusedFor i).besideRefusals = s.besideRefusals := rfl

/-- The spills that a restore was refused are counted in descriptors too (R246, R248). -/
theorem besideRefusals_refuseSpills (l : List Nat) : (s.refuseSpills i l).besideRefusals = s.besideRefusals :=
  foldl_keeps State.besideRefusals _ (fun _ _ => besideRefusals_refusedFor.trans besideRefusals_refuseSpill) l s

/-- A state is what stands beside its counters, with its counters. -/
theorem eq_of_besideCounters {t : State} (hbut : t.besideCounters = s.besideCounters) : t = { s with regs := t.regs, partials := t.partials } :=
  calc t = { t.besideCounters with regs := t.regs, partials := t.partials } := rfl
    _ = { s with regs := t.regs, partials := t.partials } := by rw [hbut]; rfl

theorem eq_of_besideRefusals {t : State} (hbut : t.besideRefusals = s.besideRefusals) :
    t = { s with regs := t.regs, partials := t.partials, ctxs := t.ctxs } :=
  calc t = { t.besideRefusals with regs := t.regs, partials := t.partials, ctxs := t.ctxs } := rfl
    _ = { s with regs := t.regs, partials := t.partials, ctxs := t.ctxs } := by rw [hbut]; rfl

theorem refuseSpill_eq : s.refuseSpill i = { s with regs := (s.refuseSpill i).regs, partials := (s.refuseSpill i).partials } :=
  eq_of_besideCounters besideCounters_refuseSpill

theorem refuseSpills_eq (l : List Nat) : s.refuseSpills i l =
    { s with regs := (s.refuseSpills i l).regs, partials := (s.refuseSpills i l).partials, ctxs := (s.refuseSpills i l).ctxs } :=
  eq_of_besideRefusals (besideRefusals_refuseSpills l)

end Refusals

section AskedRestores
variable {s : State} {h i ask : Nat}

/-- A RESTORE or PIN that waits: its context asks for residency, with DONE 0 (R242, R256). -/
def State.asked (s : State) (h i ask : Nat) : State := (s.setCtx i { s.ctx i with ask := ask }).setReg (R.CTX_RESULT h) 0

/-- A RESTORE or PIN that its refused spills `l` leave without room (R256). -/
def State.noRoom (s : State) (h i : Nat) (l : List Nat) : State :=
  ((s.refuseSpills i l).setCtx i { (s.refuseSpills i l).ctx i with ask := 0 }).ctxResult h 2

/-- No stack of a restore's mask comes or goes by the wait of a page's command. -/
theorem maskStacks_asked (hh : h < 16) : (s.asked h i ask).maskStacks 2 ((s.asked h i ask).t2Loc h) = s.maskStacks 2 (s.t2Loc h) := by
  have hspill : (s.asked h i ask).reg (R.SPILL h) = s.reg (R.SPILL h) := reg_setReg_ne _ _ _ _ (by dsimp only [R.SPILL, R.CTX_RESULT]; omega)
  have hloc : (s.asked h i ask).t2Loc h = s.t2Loc h := by rw [State.t2Loc, hspill]; rfl
  have hlive (n : Nat) : (s.asked h i ask).live .dramStack n = s.live .dramStack n := by
    have hstate : (s.asked h i ask).reg (R.BLOCK_STATE (pageOf .dramStack n)) = s.reg (R.BLOCK_STATE (pageOf .dramStack n)) :=
      reg_setReg_ne _ _ _ _ (by dsimp only [R.BLOCK_STATE, R.CTX_RESULT, pageOf, blkRow]; omega)
    rw [State.live, State.blkState, hstate]
    rfl
  rw [hloc]
  exact List.filter_congr fun n _ => congrArg (· && _) (hlive n)

/-- While a spill, a restore or a sleep is in the way, what a page asks for waits (R247, R252). -/
theorem askRestore_of_wait (hwait : (s.ctx i).spilling = true ∨ (s.ctx i).restoring = true ∨ s.pmFrozen = true) :
    s.askRestore h i ask = s.asked h i ask := if_pos hwait

/-- Without a stack to restore to, nothing begins (R256). -/
theorem askRestore_of_no_stack (hspill : (s.ctx i).spilling = false) (hrestore : (s.ctx i).restoring = false) (hfrozen : s.pmFrozen = false)
    (hh : h < 16) (hhoop : (s.ctx i).hoop = h) (hnone : s.maskStacks 2 (s.t2Loc h) = []) :
    ∃ l, s.askRestore h i ask = (s.asked h i ask).noRoom h i l := by
  have hhoop' : ((s.asked h i ask).ctx i).hoop = h := (congrArg Ctx.hoop (ctx_setCtx_same _)).trans hhoop
  have htry : ∃ l, (s.asked h i ask).tryAsked i = ((s.asked h i ask).refuseSpills i l, false) :=
    ⟨_, if_neg fun hroom => hroom.1 (by rw [hhoop', maskStacks_asked hh, hnone])⟩
  obtain ⟨l, hl⟩ := htry
  refine ⟨l, (if_neg (by simp [hspill, hrestore, hfrozen])).trans ?_⟩
  exact congrArg (fun r : State × Bool => if r.2 then r.1 else (r.1.setCtx i { r.1.ctx i with ask := 0 }).ctxResult h 2) hl

theorem dev_noRoom (l : List Nat) : dev (fun _ => (s.asked h i ask).noRoom h i l) s = (s.asked h i ask).noRoom h i l := by
  rw [State.noRoom, refuseSpills_eq]
  rfl

end AskedRestores

/-- A context that PARK refuses as BUSY (R256). -/
def State.parkBusy (s : State) (i : Nat) : Prop := s.ctxStatus i = 3 ∨ s.ctxStatus i = 6 ∨ s.isRestoring i = true ∨ (s.ctx i).spilling = true

section ContextCalls
variable {s : State} {f h i : Nat} (haccepts : s.accepts f (R.CTX_CMD h) = true) (hdone : bit (s.reg (R.CTX_RESULT h)) 0 = true)
include haccepts hdone

/-- A CTX_CMD while DONE is 1 is taken (R255). -/
theorem ctxCmd_of_done (act : State → State) : s.ctxCmd f h act = act s := by
  rw [State.ctxCmd, command_of_accepts s _ _ _ haccepts, if_pos hdone]

theorem onCtx_of_closed (hopen : s.ctxOpen h (fld (s.reg (R.CTX_ARG0 h)) 0 18) = false) (act : Nat → State → State) :
    s.onCtx f h act = s.ctxResult h 1 := by
  rw [State.onCtx, ctxCmd_of_done haccepts hdone]
  exact if_neg (by simp [hopen])

theorem doCtxList_of_found {k : Nat} {x : Ctx}
    (hfind : s.ctxs.find? (fun e => e.2.isOpen && decide (e.2.hoop = h ∧ fld (s.reg (R.CTX_ARG1 h)) 0 18 ≤ e.1)) = some (k, x)) :
    doCtxList f h s = (s.setReg (R.CTX_OUT h 0) (w32 k)).ctxResult h 0 := by
  rw [doCtxList, ctxCmd_of_done haccepts hdone]
  dsimp only
  rw [hfind]

section Open
variable (hi : fld (s.reg (R.CTX_ARG0 h)) 0 18 = i) (hopen : s.ctxOpen h i = true)
include hi hopen

theorem onCtx_of_open (act : Nat → State → State) : s.onCtx f h act = act i s := by
  rw [State.onCtx, ctxCmd_of_done haccepts hdone, hi]
  exact if_pos hopen

theorem doCtxQuery_of_open : doCtxQuery f h s =
    (s.setRegs (R.CTX_OUT h 0) ((List.range 32).map fun j => w32 (bytesAt (s.ctxDesc i) (4 * j) 4))).ctxResult h 0 := by
  rw [doCtxQuery, onCtx_of_open haccepts hdone hi hopen]

theorem doCtxPin_of_refused (hpin : s.pinAllowed i = false) : doCtxPin f h s = s.ctxResult h 3 := by
  rw [doCtxPin, onCtx_of_open haccepts hdone hi hopen, if_pos (by simp [hpin])]

theorem doCtxPin_of_resident (hpin : s.pinAllowed i = true) (hres : s.resident i = true) :
    doCtxPin f h s = (s.setCtx i { s.ctx i with pins := (s.ctx i).pins + 1 }).ctxResult h 0 := by
  rw [doCtxPin, onCtx_of_open haccepts hdone hi hopen, if_neg (by simp [hpin]), if_pos hres]

theorem doCtxPin_of_cold (hpin : s.pinAllowed i = true) (hres : s.resident i = false) : doCtxPin f h s = s.askRestore h i 2 := by
  rw [doCtxPin, onCtx_of_open haccepts hdone hi hopen, if_neg (by simp [hpin]), if_neg (by simp [hres])]

theorem doCtxUnpin_of_open : doCtxUnpin f h s = (s.setCtx i { s.ctx i with pins := (s.ctx i).pins - 1 }).ctxResult h 0 := by
  rw [doCtxUnpin, onCtx_of_open haccepts hdone hi hopen]

theorem doCtxRestore_of_resident (hres : s.resident i = true) : doCtxRestore f h s = s.ctxResult h 0 := by
  rw [doCtxRestore, onCtx_of_open haccepts hdone hi hopen, if_pos hres]

theorem doCtxRestore_of_cold (hres : s.resident i = false) : doCtxRestore f h s = s.askRestore h i 1 := by
  rw [doCtxRestore, onCtx_of_open haccepts hdone hi hopen, if_neg (by simp [hres])]

theorem doPark_of_busy (hbusy : s.parkBusy i) : doPark f h s = s.ctxResult h 4 := by
  rw [doPark, onCtx_of_open haccepts hdone hi hopen]
  exact if_pos hbusy

section Idle
variable (hidle : ¬ s.parkBusy i)
include hidle

theorem doPark_of_pinned (hpins : 0 < (s.ctx i).pins) : doPark f h s = s.ctxResult h 6 := by
  rw [doPark, onCtx_of_open haccepts hdone hi hopen]
  exact (if_neg hidle).trans (if_pos hpins)

section Unpinned
variable (hpins : (s.ctx i).pins = 0)
include hpins

/-- With nothing in T2 the context only leaves the active set (R256). -/
theorem doPark_of_outside (hout : s.inT2 i = []) : doPark f h s = (s.setCtx i { s.ctx i with inActive := false }).ctxResult h 0 := by
  rw [doPark, onCtx_of_open haccepts hdone hi hopen]
  exact (if_neg hidle).trans ((if_neg hpins.not_gt).trans (if_pos (List.isEmpty_iff.2 hout)))

section Inside
variable (hin : s.inT2 i ≠ [])
include hin

/-- The spill that PARK asks for turns on the spill tier's budget, and on a sleep (R246, R252, R256). -/
theorem doPark_of_inside : doPark f h s =
    if !s.spillAdmitted i then (s.refuseSpill i).ctxResult h 5
    else if s.pmFrozen then s.asked h i 4
    else (((s.setCtx i { s.ctx i with ask := 4 }).spillCtx i h none).setReg (R.CTX_RESULT h) 0).settled := by
  rw [doPark, onCtx_of_open haccepts hdone hi hopen]
  exact (if_neg hidle).trans ((if_neg hpins.not_gt).trans (if_neg (by simp [hin])))

theorem doPark_of_refused (hfull : s.spillAdmitted i = false) : doPark f h s = (s.refuseSpill i).ctxResult h 5 := by
  rw [doPark_of_inside haccepts hdone hi hopen hidle hpins hin, if_pos (by simp [hfull])]

variable (hfits : s.spillAdmitted i = true)
include hfits

theorem doPark_of_frozen (hfrozen : s.pmFrozen = true) : doPark f h s = s.asked h i 4 := by
  rw [doPark_of_inside haccepts hdone hi hopen hidle hpins hin, if_neg (by simp [hfits]), if_pos hfrozen]

theorem doPark_of_admitted (hawake : s.pmFrozen = false) : doPark f h s =
    (((s.setCtx i { s.ctx i with ask := 4 }).spillCtx i h none).setReg (R.CTX_RESULT h) 0).settled := by
  rw [doPark_of_inside haccepts hdone hi hopen hidle hpins hin, if_neg (by simp [hfits]), if_neg (by simp [hawake])]

end Inside
end Unpinned
end Idle
end Open
end ContextCalls

section Guarantees
variable {s : State} {f h : Nat} {v : W32}

/-- The active-set guarantees of the hoops with `n` for hoop `h` (R251). -/
def State.actGuarSum (s : State) (h n : Nat) : Nat :=
  (List.range 16).foldl (fun a g => a + if g = h then n else (s.reg (R.ACT_GUAR g)).toNat) 0

theorem doActGuarWrite_of_reaches (hreach : s.reaches f (R.ACT_GUAR h) = true) :
    doActGuarWrite f h v s = if 4096 < s.actGuarSum h v.toNat then s.orReg R.CM_FLAGS 1 else s.setReg (R.ACT_GUAR h) v := by
  rw [doActGuarWrite, reach_of_reaches s _ _ _ hreach]
  rfl

end Guarantees

/-- QUERY leaves the descriptor in CTX_OUT, word by word, and only registers change (R232, R255). -/
theorem completes_ctxQuery {s : State} {f h : Fin 16} {i : Nat} (hq : doCtxQuery f h s =
      (s.setRegs (R.CTX_OUT h 0) ((List.range 32).map fun j => w32 (bytesAt (s.ctxDesc i) (4 * j) 4))).ctxResult h 0) :
    completes (.ctxQuery f h) s fun t => t.reg (R.CTX_RESULT h) = w32 (1 + 16 * 0) ∧ t.ctxs = s.ctxs ∧
      ∀ j < 32, t.reg (R.CTX_OUT h j) = w32 (bytesAt (s.ctxDesc i) (4 * j) 4) := by
  refine completes_run rfl hq (by rw [setRegs_eq]; rfl) ⟨reg_setReg_same _ _ _, by rw [setRegs_eq]; rfl, fun j hj => ?_⟩
  rw [State.ctxResult, reg_setReg_ne _ _ _ _ (ctxOut_ne_ctxResult j), ctxOut_eq j, reg_setRegs (by simpa using hj),
    List.getElem_map, List.getElem_range]

/-- Settles O32: each command by the branch that its hypotheses choose; what a refused spill changes is said once above. -/
theorem contextManagerPages : Obligations.ContextManagerPages := by
  unfold Obligations.ContextManagerPages
  intro s f h
  refine ⟨fun hacc hdone => ?_, fun hreach v => ?_⟩
  · intro answers i
    refine ⟨fun hclosed c hc => ?_, fun hopen => ?_, fun k x hfind => ?_⟩
    · fin_cases hc <;> exact completes_ctxResult rfl (onCtx_of_closed hacc hdone hclosed _)
    · have hhoop : (s.ctx i).hoop = h := of_decide_eq_true (Bool.and_eq_true_iff.1 hopen).2
      intro x busy
      refine ⟨?_, fun hpin => ?_, fun hpin hres => ?_, ?_, fun hres => ?_, fun hres hwait => ?_, fun hres hpin hwait => ?_,
        fun hres hspill hrestore hfrozen hnone => ?_, fun hbusy => ?_, fun hidle hpins => ?_, fun hidle hpins hout => ?_,
        fun hidle hpins hin hfull => ?_, fun hidle hpins hin hfits hfrozen => ?_, fun hidle hpins hin hfits hawake => ?_⟩
      · exact completes_ctxQuery (doCtxQuery_of_open hacc hdone rfl hopen)
      · exact completes_ctxResult rfl (doCtxPin_of_refused hacc hdone rfl hopen hpin)
      · exact completes_setCtx rfl (doCtxPin_of_resident hacc hdone rfl hopen hpin hres)
      · exact completes_setCtx rfl (doCtxUnpin_of_open hacc hdone rfl hopen)
      · exact completes_ctxResult rfl (doCtxRestore_of_resident hacc hdone rfl hopen hres)
      · exact completes_setCtx rfl ((doCtxRestore_of_cold hacc hdone rfl hopen hres).trans (askRestore_of_wait hwait))
      · exact completes_setCtx rfl ((doCtxPin_of_cold hacc hdone rfl hopen hpin hres).trans (askRestore_of_wait hwait))
      · obtain ⟨l, hl⟩ := askRestore_of_no_stack (ask := 1) hspill hrestore hfrozen h.isLt hhoop hnone
        refine completes_run rfl ((doCtxRestore_of_cold hacc hdone rfl hopen hres).trans hl) (dev_noRoom l) ⟨reg_setReg_same _ _ _, ?_⟩
        rw [State.noRoom, refuseSpills_eq]
        exact ⟨rfl, rfl⟩
      · exact completes_ctxResult rfl (doPark_of_busy hacc hdone rfl hopen hbusy)
      · exact completes_ctxResult rfl (doPark_of_pinned hacc hdone rfl hopen hidle hpins)
      · exact completes_setCtx rfl (doPark_of_outside hacc hdone rfl hopen hidle hpins hout)
      · refine completes_run rfl (doPark_of_refused hacc hdone rfl hopen hidle hpins hin hfull) (by rw [refuseSpill_eq]; rfl)
          ⟨reg_setReg_same _ _ _, ?_⟩
        rw [refuseSpill_eq]
        exact ⟨rfl, rfl⟩
      · exact completes_setCtx rfl (doPark_of_frozen hacc hdone rfl hopen hidle hpins hin hfits hfrozen)
      · exact completesThen_run (g := fun u => ((u.spillCtx i h none).setReg (R.CTX_RESULT h) 0).settled) rfl
          (doPark_of_admitted hacc hdone rfl hopen hidle hpins hin hfits hawake) ⟨ctx_setCtx_same _, rfl⟩
    · refine completes_run rfl (doCtxList_of_found hacc hdone hfind) rfl ⟨reg_setReg_same _ _ _, ?_⟩
      rw [State.ctxResult, reg_setReg_ne _ _ _ _ (ctxOut_ne_ctxResult 0), reg_setReg_same]
  · have hwrite := doActGuarWrite_of_reaches (v := v) hreach
    refine ⟨fun hkeeps => ?_, fun hover => ?_⟩
    · exact completes_run rfl (hwrite.trans (if_neg (Nat.not_lt.2 hkeeps))) (dev_setReg _ _ _) (reg_setReg_same _ _ _)
    · refine completes_run rfl (hwrite.trans (if_pos hover)) (dev_setReg _ _ _) ⟨?_, ?_⟩
      · exact reg_setReg_ne _ _ _ _ (by dsimp only [R.ACT_GUAR, R.CM_FLAGS]; omega)
      · rw [orReg_eq, reg_setReg_same, bit_or_of_bit (by decide)]

end Sys2Proof.Machine

namespace Sys2Proof.Machine

/-! ## Restores, starvation and quanta (R243, R244, R245, R248, R250) -/

section Folds
variable {α β : Type} {f : α → β → α} {a : α} {l : List β} {x : β}

/-- A fold whose steps leave the state as it is leaves it. -/
theorem foldl_of_idle (hidle : ∀ y ∈ l, f a y = a) : l.foldl f a = a :=
  List.foldlRecOn (motive := (· = a)) l f rfl fun b hb y hy => by rw [hb, hidle y hy]

/-- Where all but one element of a list leave the state as it is, before that one and after it, the fold is its step. -/
theorem foldl_of_one (hl : l.Nodup) (hx : x ∈ l) (hbefore : ∀ y ∈ l, y ≠ x → f a y = a) (hafter : ∀ y ∈ l, y ≠ x → f (f a x) y = f a x) :
    l.foldl f a = f a x := by
  obtain ⟨l1, l2, rfl⟩ := List.append_of_mem hx
  obtain ⟨hfirst, hsecond⟩ := List.nodup_cons.1 (List.nodup_middle.1 hl)
  have hne {y : β} (hy : y ∈ l1 ++ l2) : y ≠ x := fun hyx => hfirst (hyx ▸ hy)
  rw [List.foldl_append, List.foldl_cons, foldl_of_idle fun y hy => hbefore y (by simp [hy]) (hne (List.mem_append_left _ hy)),
    foldl_of_idle fun y hy => hafter y (by simp [hy]) (hne (List.mem_append_right _ hy))]

end Folds

section Restores
variable {s : State} {h i : Nat}

/-- No command of a page waits for a context of the hoop, and no restore of one that is not resident has begun. -/
def State.unasked (s : State) (h : Nat) : Prop :=
  ∀ e ∈ s.ctxs, e.2.hoop = h → (s.ctx e.1).ask = 0 ∧ ((s.ctx e.1).restoring = true → s.resident e.1 = true)

theorem nextVictims_of_restored (hdone : (s.ctx i).restoring = true → s.resident i = true) : s.nextVictims i = s :=
  if_neg fun hrun => by simp [hdone hrun.1] at hrun

theorem resumeAsk_of_unasked (hask : (s.ctx i).ask = 0) : s.resumeAsk i = s := by
  unfold State.resumeAsk
  simp [hask]

/-- A context that a fold over a hoop's descriptors meets. -/
theorem mem_of_hoop (hi : i ∈ (s.ctxs.filter fun e => decide (e.2.hoop = h)).map (·.1)) : ∃ e ∈ s.ctxs, e.2.hoop = h ∧ e.1 = i := by
  obtain ⟨e, he, rfl⟩ := List.mem_map.1 hi
  obtain ⟨hmem, hhoop⟩ := List.mem_filter.1 he
  exact ⟨e, hmem, of_decide_eq_true hhoop, rfl⟩

/-- The hoop's waiting contexts tried in their order, until a restore begins (R243). -/
def State.restoreFirst (s : State) (l : List Nat) : State × Bool :=
  l.foldl (fun (x : State × Bool) i => if x.2 then x else x.1.tryRestore i true) (s, false)

/-- With nothing asked of the hoop's contexts, RESTORE_START only tries those that wait. -/
theorem doRestoreStart_of_unasked (hawake : s.pmFrozen = false) (hask : s.unasked h) :
    doRestoreStart h s = if (s.force R.RESTORE_PARALLEL).toNat ≤ s.restoresOf h then s else (s.restoreFirst (s.waitingCtxs h)).1 := by
  have hvictims : ((s.ctxs.filter fun e => decide (e.2.hoop = h)).map (·.1)).foldl (fun (s : State) i => s.nextVictims i) s = s :=
    foldl_of_idle fun i hi => by
      obtain ⟨e, hmem, hhoop, rfl⟩ := mem_of_hoop hi
      exact nextVictims_of_restored (hask e hmem hhoop).2
  have hasks : ((s.ctxs.filter fun e => decide (e.2.hoop = h)).map (·.1)).foldl (fun (s : State) i => s.resumeAsk i) s = s :=
    foldl_of_idle fun i hi => by
      obtain ⟨e, hmem, hhoop, rfl⟩ := mem_of_hoop hi
      exact resumeAsk_of_unasked (hask e hmem hhoop).1
  rw [doRestoreStart, if_neg (by simp [hawake])]
  dsimp only
  rw [hvictims, hasks]
  rfl

/-- A hoop that waits for nothing starts nothing. -/
theorem doRestoreStart_of_idle (hask : s.unasked h) (hnone : s.waitingCtxs h = []) : doRestoreStart h s = s := by
  by_cases hfrozen : s.pmFrozen = true
  · rw [doRestoreStart, if_pos hfrozen]
  · rw [doRestoreStart_of_unasked (Bool.eq_false_iff.2 hfrozen) hask, hnone]
    exact ite_self _

/-- Once a restore has begun, the contexts behind it are not tried. -/
theorem restoreFirst_of_begun {t : State} (hbegun : s.tryRestore i true = (t, true)) (l : List Nat) : s.restoreFirst (i :: l) = (t, true) :=
  calc s.restoreFirst (i :: l)
      = l.foldl (fun (x : State × Bool) i => if x.2 then x else x.1.tryRestore i true) (s.tryRestore i true) := rfl
    _ = (t, true) := by
      rw [hbegun]
      exact List.foldl_fixed' (fun _ => rfl) l

theorem restoreFirst_single : s.restoreFirst [i] = s.tryRestore i true := rfl

theorem tryRestore_of_no_stack {classB : Bool} (hnone : s.maskStacks 2 (s.t2Loc (s.ctx i).hoop) = []) :
    s.tryRestore i classB = (s.noteCauses i, false) := if_pos hnone

theorem tryRestore_of_no_entry {classB : Bool} (hstack : s.maskStacks 2 (s.t2Loc (s.ctx i).hoop) ≠ []) (hentry : s.entryFor i classB = false) :
    s.tryRestore i classB = (s.noteCauses i, false) := (if_neg hstack).trans (if_pos (by simp [hentry]))

/-- Room that is there needs no victims (R244). -/
theorem spillFor_of_room {classB : Bool} {l : List Nat} {n : Nat} (hroom : s.unmet i ≤ s.t2Avail i) : s.spillFor i classB (n + 1) l = (s, []) := by
  unfold State.spillFor
  exact if_pos hroom

/-- With an entry and room, the restore begins (R243, R244). -/
theorem tryRestore_of_room {classB : Bool} (hstack : s.maskStacks 2 (s.t2Loc (s.ctx i).hoop) ≠ []) (hentry : s.entryFor i classB = true)
    (hroom : (s.takeEntry i classB).unmet i ≤ (s.takeEntry i classB).t2Avail i) :
    s.tryRestore i classB = ((s.takeEntry i classB).restoreCtx i, true) := by
  have hcovered : (s.takeEntry i classB).covered i classB = true := decide_eq_true (Nat.le_add_right_of_le hroom)
  unfold State.tryRestore
  rw [if_neg hstack, if_neg (by simp [hentry])]
  dsimp only
  rw [spillFor_of_room hroom]
  exact if_pos hcovered

/-- Taking an entry changes no object and no move (R244). -/
theorem takeEntry_keeps {classB : Bool} : (s.takeEntry i classB).objs = s.objs ∧ (s.takeEntry i classB).moves = s.moves := by
  unfold State.takeEntry
  dsimp only
  split
  · exact ⟨rfl, rfl⟩
  · split
    · exact ⟨rfl, rfl⟩
    · split <;> exact ⟨rfl, rfl⟩

/-- A context for which an entry can be had is in the active set once it is taken (R244). -/
theorem inActive_takeEntry {classB : Bool} (hentry : s.entryFor i classB = true) : ((s.takeEntry i classB).ctx i).inActive = true := by
  unfold State.takeEntry
  dsimp only
  split
  case isTrue hactive => exact hactive
  case isFalse hactive =>
    split
    case isTrue => rw [ctx_setCtx_same]
    case isFalse hfull =>
      split
      case h_1 => rw [ctx_setCtx_same]
      case h_2 hnone => simp [State.entryFor, hactive, hfull, hnone] at hentry

/-- A cause among the lowest eight that is noted is recorded in the descriptor (R248). -/
theorem bit_causes_noteCauses {k : Nat} (hk : k < 8) (hcause : (s.stuckBits i).testBit k = true) :
    bit (BitVec.ofNat 32 ((s.noteCauses i).ctx i).causes) k = true := by
  rw [State.noteCauses, ctx_setCtx_same]
  have hk' : k < 32 := by omega
  have hset : (BitVec.ofNat 8 (s.ctx i).causes ||| BitVec.ofNat 8 (s.stuckBits i)).getLsbD k = true := by
    rw [BitVec.getLsbD_or, BitVec.getLsbD_ofNat (i := k) 8 (s.stuckBits i), hcause]
    simp [hk]
  rw [bit, BitVec.getLsbD_ofNat, BitVec.testBit_toNat, hset]
  simp [hk']

/-- PINNED_RESIDENT is bit 0 of the causes (R248). -/
theorem stuckBits_of_entriesStuck (hstuck : s.entriesStuck i = true) : (s.stuckBits i).testBit 0 = true := by
  have hone : b2n (s.entriesStuck i) = 1 := congrArg b2n hstuck
  rw [State.stuckBits, hone, Nat.testBit_zero]
  exact decide_eq_true (by omega)

/-- The lack of a stack is in bit 1 (R248). -/
theorem stuckBits_of_no_stack (hnone : s.maskStacks 2 (s.t2Loc (s.ctx i).hoop) = []) : (s.stuckBits i).testBit 1 = true := by
  simp only [State.stuckBits, hnone, List.isEmpty_nil, Bool.or_true]
  cases s.entriesStuck i <;> decide

end Restores

section Starvation
variable {s : State} {i since : Nat}

/-- A hoop that is not being reset takes a record (R45, R119). -/
theorem held_post_of_not_resetting {r : Rec} (hphase : (s.hoop r.hoop).phase ≠ .resetting) :
    ((s.post r).hoop r.hoop).held = (s.hoop r.hoop).held ++ [{ r with arrived := s.now }] := by
  rw [State.post, if_neg hphase]
  exact congrArg Hoop.held (mget_mset_same _ _ _ _)

/-- A record leaves the descriptors. -/
theorem ctx_post (r : Rec) : (s.post r).ctx i = s.ctx i := by
  unfold State.post
  split <;> rfl

/-- A record in its hold list leaves the part, the clock, scene time and the waiting commands. -/
theorem dev_post {t : State} (r : Rec) (hkept : dev (fun _ => t) s = t) : dev (fun _ => t.post r) s = t.post r := by
  rw [← hkept]
  unfold State.post
  split <;> rfl

/-- A starved episode: marked in its descriptor, and counted (R250). -/
def State.starve (s : State) (i : Nat) : State :=
  (s.setCtx i { s.ctx i with starved := true }).addReg (R.STARVED_COUNT (s.ctx i).hoop) 1

/-- A context that waits STARVE_BOUND stitches is reported by a record of type 0x30 (R250). -/
theorem doResidencyStarved_of_bound (hsince : (s.ctx i).runnableSince = some since) (hwant : s.wanting i = true) (hcold : s.resident i = false)
    (hfirst : (s.ctx i).starved = false) (hbound : since + (s.reg (R.STARVE_BOUND (s.ctx i).hoop)).toNat ≤ s.count) :
    ∃ r : Rec, doResidencyStarved i s = (s.starve i).post r ∧ r.ty = 0x30 ∧ r.context = i ∧ r.hoop = (s.ctx i).hoop ∧ r.stamp = s.pos := by
  unfold doResidencyStarved
  dsimp only
  split
  case h_1 hnone => simp [hsince] at hnone
  case h_2 t ht =>
    obtain rfl : since = t := Option.some.inj (hsince.symm.trans ht)
    rw [if_neg (by simp [hwant, hcold, hfirst, hbound])]
    exact ⟨_, rfl, ⟨rfl, rfl, rfl, rfl⟩⟩

end Starvation

/-- A command of a domain that is on, whose operation makes a state that keeps what a device command keeps. -/
theorem completes_runIn_kept {c : Instr} {d : Domain} {f : State → State} {s t : State} {p : State → Prop} (hc : exec c s = runIn d f s)
    (hon : s.domainOn d = true) (hf : f s = t) (hkept : dev (fun _ => t) s = t) (hp : p t) : completes c s p :=
  completes_runIn hc hon (by rwa [dev_congr s (g := fun _ => t) hf, hkept])

/-- The end of a quantum starts the restores of every hoop (R245). -/
theorem doCtxQuantumElapsed_of_elapsed {s : State} {i : Nat} (hstatus : s.ctxStatus i = 2) (hres : s.resident i = true)
    (hquantum : (s.force R.CTX_QUANTUM).toNat ≤ s.count - (s.ctx i).residentSince) :
    doCtxQuantumElapsed i s = (List.range 16).foldl (fun s h => doRestoreStart h s) s := if_pos ⟨hstatus, hres, hquantum⟩

/-- Settles O33: where nothing is asked RESTORE_START tries the contexts that wait, in their order, and a hoop with none of them does nothing. -/
theorem contextsAreRestored : Obligations.ContextsAreRestored := by
  unfold Obligations.ContextsAreRestored
  refine ⟨fun s h i l hon hawake hask hparallel hwaiting => ?_, fun s i since hon => ?_, fun s i h hon hstatus hres hquantum hothers => ?_⟩
  · have hstart : doRestoreStart h s = (s.restoreFirst (i :: l)).1 := by
      rw [doRestoreStart_of_unasked hawake fun e he _ => hask e he, if_neg (Nat.not_le.2 hparallel), hwaiting]
    have hnoted (hl : l = []) (htry : s.tryRestore i true = (s.noteCauses i, false)) : doRestoreStart h s = s.noteCauses i := by
      rw [hstart, hl, restoreFirst_single, htry]
    refine ⟨fun hstack hentry hroom => ?_, fun hl hnone => ?_, fun hl hstack hentry hstuck => ?_⟩
    · have hbegun : doRestoreStart h s = (s.takeEntry i true).restoreCtx i := by
        rw [hstart, restoreFirst_of_begun (tryRestore_of_room hstack hentry hroom)]
      exact completesThen_runIn (g := fun u => u.restoreCtx i) rfl hon hbegun ⟨inActive_takeEntry hentry, takeEntry_keeps⟩
    · exact completes_runIn_kept rfl hon (hnoted hl (tryRestore_of_no_stack hnone)) rfl
        ⟨bit_causes_noteCauses (by decide) (stuckBits_of_no_stack hnone), rfl, rfl⟩
    · exact completes_runIn_kept rfl hon (hnoted hl (tryRestore_of_no_entry hstack hentry)) rfl
        ⟨bit_causes_noteCauses (by decide) (stuckBits_of_entriesStuck hstuck), rfl, rfl⟩
  · intro c hsince hwant hcold hfirst hbound hphase
    obtain ⟨r, hrun, hty, hctx, hhoop, hstamp⟩ := doResidencyStarved_of_bound hsince hwant hcold hfirst hbound
    refine completes_runIn_kept rfl hon hrun (dev_post r rfl) ⟨?_, ?_, { r with arrived := s.now }, ?_, hty, hctx, hhoop, hstamp⟩
    · rw [ctx_post]
      exact congrArg Ctx.starved (ctx_setCtx_same _)
    · rw [reg_post]
      exact reg_addReg_same _ _ _
    · rw [← hhoop]
      exact held_post_of_not_resetting (by rwa [hhoop])
  · have hidle {g : Nat} (hg : g ∈ List.range 16) (hne : g ≠ h) {u : State} (hu : u ∈ [s, doRestoreStart h s]) : doRestoreStart g u = u := by
      obtain ⟨hnone, hunasked⟩ := hothers g (List.mem_range.1 hg) hne u hu
      exact doRestoreStart_of_idle hunasked hnone
    have hone : doCtxQuantumElapsed i s = doRestoreStart h s := by
      rw [doCtxQuantumElapsed_of_elapsed hstatus hres hquantum]
      exact foldl_of_one (f := fun s h => doRestoreStart h s) List.nodup_range (List.mem_range.2 h.isLt) (fun g hg hne => hidle hg hne (by simp))
        fun g hg hne => hidle hg hne (by simp)
    exact ⟨dev (doRestoreStart h) s, (runIn_on s _ _ hon).trans (congrArg Host.Outcome.next (dev_congr s hone)), runIn_on s _ _ hon⟩

end Sys2Proof.Machine

namespace Sys2Proof.Machine

/-! ## Powers of two and rounding (R259, R268) -/

section Rounding

theorem pow2_eq_zpow (e : Int) : pow2 e = (2 : ℚ) ^ e := by
  unfold pow2
  split
  next he =>
    lift e to ℕ using he
    simp
  next he =>
    obtain ⟨n, rfl⟩ : ∃ n : ℕ, e = -n := ⟨(-e).toNat, by omega⟩
    simp

theorem pow2_pos (e : Int) : 0 < pow2 e := by
  rw [pow2_eq_zpow]
  positivity

theorem pow2_add (a b : Int) : pow2 (a + b) = pow2 a * pow2 b := by
  simp only [pow2_eq_zpow, zpow_add₀ (two_ne_zero' ℚ)]

theorem pow2_mul_pow2_neg (e : Int) : pow2 e * pow2 (-e) = 1 := by
  rw [← pow2_add, add_neg_cancel]
  rfl

theorem pow2_natCast (n : ℕ) : pow2 n = ((2 ^ n : ℕ) : ℚ) := by
  rw [pow2_eq_zpow]
  simp

theorem pow2_le_pow2 {a b : Int} (h : a ≤ b) : pow2 a ≤ pow2 b := by
  simpa only [pow2_eq_zpow] using zpow_le_zpow_right₀ one_le_two h

theorem log2Rat_eq_of_bounds {q : ℚ} {e : Int} (hlow : pow2 e ≤ q) (hhigh : q < pow2 (e + 1)) : Int.log 2 q = e := by
  have hq : 0 < q := (pow2_pos e).trans_le hlow
  rw [pow2_eq_zpow] at hlow hhigh
  have hle := (Int.zpow_le_iff_le_log (b := 2) one_lt_two hq).1 (by exact_mod_cast hlow)
  have hlt := (Int.lt_zpow_iff_log_lt (b := 2) one_lt_two hq).1 (by exact_mod_cast hhigh)
  omega

theorem pow2_log2_le {n : ℕ} (hn : n ≠ 0) : pow2 n.log2 ≤ n := by
  rw [pow2_natCast]
  exact_mod_cast Nat.log2_self_le hn

theorem lt_pow2_log2_add_one (n : ℕ) : (n : ℚ) < pow2 (n.log2 + 1) := by
  rw [← Nat.cast_add_one, pow2_natCast]
  exact_mod_cast Nat.lt_log2_self

/-- The estimate that `log2Rat` begins with, the difference of the logarithms of numerator and denominator, is the logarithm or one more. -/
theorem log2Rat_eq_log {q : ℚ} (hq : 0 < q) : log2Rat q = Int.log 2 q := by
  have hnum : 0 < q.num := Rat.num_pos.2 hq
  have hqnd : q * q.den = (q.num.natAbs : ℚ) := by
    rw [Rat.mul_den_eq_num, ← Int.cast_natCast, Int.natAbs_of_nonneg hnum.le]
  have hlow := pow2_log2_le (n := q.num.natAbs) (by omega)
  have hhigh := lt_pow2_log2_add_one q.num.natAbs
  have hdlow := pow2_log2_le q.den_nz
  have hdhigh := lt_pow2_log2_add_one q.den
  rw [log2Rat]
  generalize (q.num.natAbs.log2 : Int) = n at *
  generalize (q.den.log2 : Int) = d at *
  have hgt : pow2 (n - d - 1) ≤ q := by
    refine le_of_mul_le_mul_right ?_ (pow2_pos (d + 1))
    rw [← pow2_add, show n - d - 1 + (d + 1) = n by omega]
    calc pow2 n ≤ q * q.den := hqnd ▸ hlow
      _ ≤ q * pow2 (d + 1) := by gcongr
  have hlt : q < pow2 (n - d + 1) := by
    refine lt_of_mul_lt_mul_right ?_ (pow2_pos d).le
    rw [← pow2_add, show n - d + 1 + d = n + 1 by omega]
    calc q * pow2 d ≤ q * q.den := by gcongr
      _ < pow2 (n + 1) := hqnd ▸ hhigh
  split
  next hbelow => exact (log2Rat_eq_of_bounds hgt (by rwa [sub_add_cancel])).symm
  next hge => rw [if_neg (not_le.2 hlt), log2Rat_eq_of_bounds (not_lt.1 hge) hlt]

theorem floor_toNat_natCast (k : ℕ) : ((k : ℚ).floor).toNat = k := by
  rw [← Int.cast_natCast, Rat.floor_intCast, Int.toNat_natCast]

theorem roundEven_natCast (k : ℕ) : roundEven k = k := by
  simp [roundEven, floor_toNat_natCast]

theorem roundEven_zero : roundEven 0 = 0 := by
  simpa using roundEven_natCast 0

theorem roundInt_intCast (x : Int) : roundInt x = x := by
  unfold roundInt
  obtain ⟨n, rfl | rfl⟩ := x.eq_nat_or_neg
  · have : ¬ ((n : Int) : ℚ) < 0 := by simp
    rw [if_neg this, Int.cast_natCast, roundEven_natCast]
  · rcases n.eq_zero_or_pos with rfl | hn
    · simp [roundEven_zero]
    · have : ((-(n : Int) : Int) : ℚ) < 0 := by simpa using hn
      rw [if_pos this, Int.cast_neg, neg_neg, Int.cast_natCast, roundEven_natCast]

end Rounding

/-! ## Magnitudes that a format holds (R259, R268) -/

section Grid

/-- The magnitude of `k` units at the `d`-th spacing of a format. -/
def Fmt.gridMag (g : Fmt) (k d : ℕ) : ℚ := k * pow2 (1 - g.bias - g.mb + d)

/-- `k` units at the `d`-th spacing need no finer one, and no coarser one where there is a finer. -/
def Fmt.onGrid (g : Fmt) (k d : ℕ) : Prop := k < 2 ^ (g.mb + 1) ∧ (2 ^ g.mb ≤ k ∨ d = 0)

variable {g : Fmt} {k d : ℕ}

theorem gridMag_lt {n : ℕ} (hk : k < 2 ^ n) : g.gridMag k d < pow2 (n + (1 - g.bias - g.mb + d)) := by
  rw [pow2_add, pow2_natCast, Fmt.gridMag]
  gcongr
  exact pow2_pos _

theorem le_gridMag {n : ℕ} (hk : 2 ^ n ≤ k) : pow2 (n + (1 - g.bias - g.mb + d)) ≤ g.gridMag k d := by
  rw [pow2_add, pow2_natCast, Fmt.gridMag]
  gcongr
  exact (pow2_pos _).le

theorem max_log2Rat_gridMag (h : g.onGrid k d) (hk : k ≠ 0) : max (1 - (g.bias : Int)) (log2Rat (g.gridMag k d)) = 1 - g.bias + d := by
  obtain ⟨hhigh, hlow⟩ := h
  have hpos : 0 < g.gridMag k d := mul_pos (by exact_mod_cast Nat.pos_of_ne_zero hk) (pow2_pos _)
  have hlt := gridMag_lt (g := g) (d := d) hhigh
  rw [pow2_eq_zpow, ← Nat.cast_two, Int.lt_zpow_iff_log_lt one_lt_two hpos, ← log2Rat_eq_log hpos] at hlt
  rcases hlow with hlow | rfl
  · have hle := le_gridMag (g := g) (d := d) hlow
    rw [pow2_eq_zpow, ← Nat.cast_two, Int.zpow_le_iff_le_log one_lt_two hpos, ← log2Rat_eq_log hpos] at hle
    omega
  · omega

theorem roundMag_gridMag (h : g.onGrid k d) : roundMag g (g.gridMag k d) = g.gridMag k d := by
  rcases eq_or_ne k 0 with rfl | hk
  · simp [roundMag, Fmt.gridMag, roundEven_zero]
  · have hne : g.gridMag k d ≠ 0 := mul_ne_zero (by exact_mod_cast hk) (pow2_pos _).ne'
    have hspacing : spacing g (g.gridMag k d) = pow2 (1 - g.bias - g.mb + d) := by
      rw [spacing, if_neg hne, max_log2Rat_gridMag h hk]
      congr 1
      ring
    rw [roundMag, hspacing, Fmt.gridMag, mul_div_cancel_right₀ _ (pow2_pos _).ne', roundEven_natCast]

theorem magBits_gridMag (h : g.onGrid k d) : magBits g (g.gridMag k d) = k + d * 2 ^ g.mb := by
  rcases eq_or_ne k 0 with rfl | hk
  · obtain rfl : d = 0 := h.2.resolve_left (by simp)
    simp [magBits, Fmt.gridMag]
  · have hne : g.gridMag k d ≠ 0 := mul_ne_zero (by exact_mod_cast hk) (pow2_pos _).ne'
    have hunits : g.gridMag k d * pow2 (g.mb - (1 - g.bias + d)) = (k : ℚ) := by
      rw [Fmt.gridMag, mul_assoc, show (g.mb : Int) - (1 - g.bias + d) = -(1 - g.bias - g.mb + d) by ring, pow2_mul_pow2_neg, mul_one]
    rw [magBits, if_neg hne]
    simp only [max_log2Rat_gridMag h hk, hunits, floor_toNat_natCast, Int.toNat_natCast, add_sub_cancel_left]
    split
    next hsub => rw [h.2.resolve_left (by omega)]; simp
    next hnormal => rw [add_mul, one_mul]; omega

theorem gridMag_le_gridMag {k' d' : ℕ} (hk : k ≤ k') (hd : d ≤ d') : g.gridMag k d ≤ g.gridMag k' d' :=
  mul_le_mul (by exact_mod_cast hk) (pow2_le_pow2 (by omega)) (pow2_pos _).le (by positivity)

end Grid

/-! ## Codes of floating formats (R259, R268) -/

section FloatCodes

/-- The exponent field of a code. -/
def Fmt.expField (g : Fmt) (x : ℕ) : ℕ := x / 2 ^ g.mb % 2 ^ g.eb

/-- The units of a finite code: its fraction, with the leading 1 of a normal number. -/
def Fmt.units (g : Fmt) (x : ℕ) : ℕ := if g.expField x = 0 then x % 2 ^ g.mb else 2 ^ g.mb + x % 2 ^ g.mb

/-- The sign of a code. -/
def Fmt.negative (g : Fmt) (x : ℕ) : Bool := decide (x / 2 ^ (g.eb + g.mb) % 2 = 1)

variable {g : Fmt} {x : ℕ}

theorem units_onGrid (g : Fmt) (x : ℕ) : g.onGrid (g.units x) (g.expField x - 1) := by
  have hfraction := Nat.mod_lt x (Nat.two_pow_pos g.mb)
  unfold Fmt.onGrid Fmt.units
  rw [pow_succ]
  split
  next hsub => exact ⟨by omega, .inr (by omega)⟩
  next => exact ⟨by omega, .inl (by omega)⟩

theorem decodeFmt_of_finite (h : ¬ (g.hasInf = true ∧ g.expField x = 2 ^ g.eb - 1)) :
    decodeFmt g x = .fin (g.negative x) (g.gridMag (g.units x) (g.expField x - 1)) := by
  refine (if_neg h).trans ?_
  unfold Fmt.units
  change (if g.expField x = 0 then _ else _) = _
  split
  next hsub => rw [hsub]; simp [Fmt.gridMag, Fmt.negative]
  next hnormal =>
    rw [Fmt.gridMag, Nat.cast_sub (Nat.one_le_iff_ne_zero.2 hnormal), Nat.cast_one,
      show (1 : Int) - g.bias - g.mb + (g.expField x - 1) = g.expField x - g.bias - g.mb by ring]
    rfl

theorem decodeFmt_of_top (h : g.hasInf = true ∧ g.expField x = 2 ^ g.eb - 1) :
    decodeFmt g x = if x % 2 ^ g.mb = 0 then .inf (g.negative x) else .nan := if_pos h

/-- A code is its fraction, its exponent field and its sign. -/
theorem code_eq (hx : x < 2 ^ (1 + g.eb + g.mb)) :
    x % 2 ^ g.mb + g.expField x * 2 ^ g.mb + b2n (g.negative x) * 2 ^ (g.eb + g.mb) = x := by
  have hsign : b2n (g.negative x) = x / 2 ^ (g.eb + g.mb) := by
    have hlt : x / 2 ^ (g.eb + g.mb) < 2 := Nat.div_lt_of_lt_mul (by rwa [← pow_succ, add_comm _ 1, ← add_assoc])
    unfold b2n Fmt.negative
    generalize x / 2 ^ (g.eb + g.mb) = sign at hlt ⊢
    interval_cases sign <;> rfl
  have hexp : g.expField x + 2 ^ g.eb * (x / 2 ^ (g.eb + g.mb)) = x / 2 ^ g.mb := by
    rw [pow_add, mul_comm (2 ^ g.eb) (2 ^ g.mb), ← Nat.div_div_eq_div_mul]
    exact Nat.mod_add_div _ _
  calc _ = x % 2 ^ g.mb + 2 ^ g.mb * (g.expField x + 2 ^ g.eb * (x / 2 ^ (g.eb + g.mb))) := by rw [hsign, pow_add]; ring
    _ = x := by rw [hexp, Nat.mod_add_div]

theorem units_add_step (g : Fmt) (x : ℕ) : g.units x + (g.expField x - 1) * 2 ^ g.mb = x % 2 ^ g.mb + g.expField x * 2 ^ g.mb := by
  unfold Fmt.units
  split
  next hsub => rw [hsub]
  next hnormal =>
    obtain ⟨e, he⟩ := Nat.exists_eq_succ_of_ne_zero hnormal
    rw [he, Nat.succ_sub_one, Nat.succ_mul]
    omega

theorem convert_gridMag {f k d : ℕ} {n : Bool} (hfloat : isIntFmt f = false) (hgrid : (floatOf f).onGrid k d)
    (hmax : (floatOf f).gridMag k d ≤ maxFinite f) :
    convert f false none (.fin n ((floatOf f).gridMag k d)) =
      (k + d * 2 ^ (floatOf f).mb + b2n n * 2 ^ ((floatOf f).eb + (floatOf f).mb), ⟨0, 0⟩) := by
  simp only [convert, hfloat, ite_self, roundMag_gridMag hgrid, magBits_gridMag hgrid, if_neg (not_lt.2 hmax), Bool.false_eq_true, if_false]

theorem convert_inf {f : ℕ} {n : Bool} (hfloat : isIntFmt f = false) (h3 : f ≠ 3) :
    convert f false none (.inf n) = ((2 ^ (floatOf f).eb - 1) * 2 ^ (floatOf f).mb + b2n n * 2 ^ ((floatOf f).eb + (floatOf f).mb), ⟨0, 0⟩) := by
  simp [convert, hfloat, h3]

/-- A finite code of a floating format is written back as it was read. -/
theorem convert_decodeFmt_of_finite {f : ℕ} (hfloat : isIntFmt f = false) (hx : x < 2 ^ (1 + (floatOf f).eb + (floatOf f).mb))
    (hfin : ¬ ((floatOf f).hasInf = true ∧ (floatOf f).expField x = 2 ^ (floatOf f).eb - 1))
    (hmax : (floatOf f).gridMag ((floatOf f).units x) ((floatOf f).expField x - 1) ≤ maxFinite f) :
    convert f false none (decodeFmt (floatOf f) x) = (x, ⟨0, 0⟩) := by
  rw [decodeFmt_of_finite hfin, convert_gridMag hfloat (units_onGrid _ x) hmax, units_add_step, code_eq hx]

theorem expField_lt (g : Fmt) (x : ℕ) : g.expField x < 2 ^ g.eb := Nat.mod_lt _ (Nat.two_pow_pos _)

/-- A code of a format with infinities, that is no NaN, is written back as it was read. -/
theorem convert_decodeFmt_of_hasInf {f : ℕ} (hfloat : isIntFmt f = false) (hinf : (floatOf f).hasInf = true) (h3 : f ≠ 3)
    (hmax : maxFinite f = (floatOf f).gridMag (2 ^ ((floatOf f).mb + 1) - 1) (2 ^ (floatOf f).eb - 3)) (hx : x < 2 ^ (1 + (floatOf f).eb + (floatOf f).mb))
    (hnan : (decodeFmt (floatOf f) x).isNan = false) : convert f false none (decodeFmt (floatOf f) x) = (x, ⟨0, 0⟩) := by
  by_cases htop : (floatOf f).expField x = 2 ^ (floatOf f).eb - 1
  · have hdecode := decodeFmt_of_top ⟨hinf, htop⟩
    split at hdecode
    next hzero =>
      rw [hdecode, convert_inf hfloat h3, ← htop]
      simpa [hzero] using code_eq hx
    next => rw [hdecode] at hnan; exact nomatch hnan
  · refine convert_decodeFmt_of_finite hfloat hx (fun h => htop h.2) (hmax ▸ gridMag_le_gridMag ?_ ?_)
    · have := (units_onGrid (floatOf f) x).1
      omega
    · have := expField_lt (floatOf f) x
      omega

end FloatCodes

/-! ## Codes of integer formats (R259, R268) -/

section IntegerCodes

theorem num_ofRat (q : ℚ) : (FVal.ofRat q).num = q := by
  unfold FVal.ofRat FVal.num
  by_cases hq : q < 0 <;> simp [hq]

theorem convert_ofRat_of_inRange {f : ℕ} {x : Int} (hint : isIntFmt f = true) (hlow : (intRange f).1 ≤ x) (hhigh : x ≤ (intRange f).2) :
    convert f false none (FVal.ofRat x) = ((x % (2 ^ elemBits f : ℕ)).toNat, ⟨0, 0⟩) := by
  have hround : roundInt (FVal.ofRat x).num = x := by rw [num_ofRat, roundInt_intCast]
  unfold FVal.ofRat at hround ⊢
  simp only [convert, hint, if_true, hround, if_neg (not_lt.2 hlow), if_neg (not_lt.2 hhigh)]

/-- The two's complement of a signed field is the field. -/
theorem signedOf_mod (n raw : ℕ) : (signedOf n raw % (2 ^ n : ℕ)).toNat = raw % 2 ^ n := by
  unfold signedOf
  split
  next => rw [← Int.natCast_mod, Int.toNat_natCast, Nat.mod_mod]
  next => rw [Int.sub_emod_right, ← Int.natCast_mod, Int.toNat_natCast, Nat.mod_mod]

theorem signedOf_bounds {n raw : ℕ} : -(2 ^ n : ℕ) ≤ signedOf (n + 1) raw ∧ signedOf (n + 1) raw < (2 ^ n : ℕ) := by
  have := Nat.mod_lt raw (Nat.two_pow_pos (n + 1))
  unfold signedOf
  rw [Nat.add_sub_cancel]
  rw [pow_succ] at *
  split <;> omega

theorem convert_signedOf {f n raw : ℕ} (hint : isIntFmt f = true) (hbits : elemBits f = n + 1)
    (hrange : intRange f = (-((2 ^ n : ℕ) : Int), ((2 ^ n : ℕ) : Int) - 1))
    (hraw : raw < 2 ^ elemBits f) : convert f false none (fint (signedOf (n + 1) raw)) = (raw, ⟨0, 0⟩) := by
  obtain ⟨hlow, hhigh⟩ := signedOf_bounds (n := n) (raw := raw)
  rw [fint, convert_ofRat_of_inRange hint (by rw [hrange]; exact hlow) (by rw [hrange]; exact Int.le_sub_one_of_lt hhigh), hbits, signedOf_mod,
    Nat.mod_eq_of_lt (hbits ▸ hraw)]

theorem convert_unsigned {raw : ℕ} (hraw : raw < 2 ^ elemBits 1) : convert 1 false none (fnat (raw % 256)) = (raw, ⟨0, 0⟩) := by
  change raw < 256 at hraw
  have hval : fnat (raw % 256) = FVal.ofRat ((raw : Int) : ℚ) := by
    have : ¬ (raw : ℚ) < 0 := by simp
    simp [fnat, FVal.ofRat, this, Nat.mod_eq_of_lt hraw]
  rw [hval, convert_ofRat_of_inRange rfl (Int.natCast_nonneg raw) (by change (raw : Int) ≤ 255; omega)]
  change (((raw : Int) % (256 : ℕ)).toNat, _) = _
  rw [← Int.natCast_mod, Int.toNat_natCast, Nat.mod_eq_of_lt hraw]

end IntegerCodes

/-! ## Every format without blocks (R260) -/

/-- E4M3 has one NaN of each sign beside its greatest finite number, 448, and no infinities. -/
theorem convert_e4m3 {raw : ℕ} (hraw : raw < 2 ^ elemBits 3) (hnan : raw % 128 ≠ 127) : convert 3 false none (decodeFmt fmtE4M3 raw) = (raw, ⟨0, 0⟩) := by
  refine convert_decodeFmt_of_finite (f := 3) rfl hraw (fun h => nomatch h.1) ?_
  have hexp : fmtE4M3.expField raw = raw / 8 % 16 := rfl
  have hunits : fmtE4M3.units raw = if fmtE4M3.expField raw = 0 then raw % 8 else 8 + raw % 8 := rfl
  have hbelow : fmtE4M3.units raw ≤ 14 ∧ fmtE4M3.expField raw - 1 ≤ 14 ∨ fmtE4M3.units raw ≤ 15 ∧ fmtE4M3.expField raw - 1 ≤ 13 := by
    split at hunits <;> omega
  rcases hbelow with ⟨hk, hd⟩ | ⟨hk, hd⟩
  · exact (gridMag_le_gridMag hk hd).trans (by decide +kernel)
  · exact (gridMag_le_gridMag hk hd).trans (by decide +kernel)

/-- Settles O36: an integer is in its format's range, and a number of a floating format lies on the grid of its spacings, where rounding changes
nothing and the code is read off the units and the spacing. -/
theorem elementCodesRoundTrip : Obligations.ElementCodesRoundTrip := by
  intro f hf raw hraw hnan
  simp only [List.mem_cons, List.not_mem_nil, or_false] at hf
  rcases hf with rfl | rfl | rfl | rfl | rfl | rfl | rfl | rfl | rfl
  case inl => exact convert_signedOf (n := 7) rfl rfl rfl hraw
  · exact convert_unsigned hraw
  · exact convert_signedOf (n := 3) rfl rfl rfl hraw
  · change (if raw % 128 = 127 then FVal.nan else decodeFmt fmtE4M3 raw).isNan = false at hnan
    change convert 3 false none (if raw % 128 = 127 then FVal.nan else decodeFmt fmtE4M3 raw) = _
    split at hnan
    next => exact nomatch hnan
    next hne => rw [if_neg hne, convert_e4m3 hraw hne]
  · exact convert_decodeFmt_of_hasInf (f := 4) rfl rfl (by decide) (by decide +kernel) hraw hnan
  · exact convert_decodeFmt_of_hasInf (f := 5) rfl rfl (by decide) (by decide +kernel) hraw hnan
  · exact convert_decodeFmt_of_hasInf (f := 6) rfl rfl (by decide) (by decide +kernel) hraw hnan
  · exact convert_decodeFmt_of_hasInf (f := 7) rfl rfl (by decide) (by decide +kernel) hraw hnan
  · exact convert_signedOf (n := 31) rfl rfl rfl hraw

end Sys2Proof.Machine

namespace Sys2Proof.Machine

/-! ## Turns, and the traffic of steps (R202, R290, R408, R411) -/

/-- The state beside what turns, draws and their counters change: the registers and the parts of units they keep, the turns, the buckets and the
period's drawn bytes. -/
def State.besideTraffic (s : State) : State := { s.besideCounters with turns := [], buckets := [], svc := { s.svc with drawn := [] } }

section Traffic
variable {s : State} {a : Nat}

theorem besideTraffic_setReg (b : Nat) (v : W32) : (s.setReg b v).besideTraffic = s.besideTraffic := rfl

theorem besideTraffic_addReg (b n : Nat) : (s.addReg b n).besideTraffic = s.besideTraffic := rfl

theorem besideTraffic_setTurn (n : Nat) (t : Turn) : (s.setTurn n t).besideTraffic = s.besideTraffic := rfl

theorem besideTraffic_passTurn (n h fuel : Nat) : (s.passTurn n h fuel).besideTraffic = s.besideTraffic := by
  induction fuel generalizing s h with
  | zero => rfl
  | succ fuel ih =>
    unfold State.passTurn
    extract_lets g t full d
    split
    · exact ih g
    · split
      · exact (ih g).trans (besideTraffic_setTurn _ _)
      · exact (besideTraffic_setReg _ _).trans (besideTraffic_setTurn _ _)

theorem besideTraffic_openTurn (n : Nat) : (s.openTurn n).besideTraffic = s.besideTraffic := by
  unfold State.openTurn
  split
  · exact besideTraffic_passTurn _ _ _
  · rfl

theorem reg_passTurn {n h fuel : Nat} (ha : a ≠ R.SCH_TURN_HOOP n) : (s.passTurn n h fuel).reg a = s.reg a := by
  induction fuel generalizing s h with
  | zero => rfl
  | succ fuel ih =>
    unfold State.passTurn
    extract_lets g t full d
    split
    · exact ih
    · split
      · exact ih (s := s.setTurn n _)
      · exact reg_setReg_ne _ _ _ _ ha

theorem reg_openTurn {n : Nat} (ha : a ≠ R.SCH_TURN_HOOP n) : (s.openTurn n).reg a = s.reg a := by
  unfold State.openTurn
  split
  · exact reg_passTurn ha
  · rfl

theorem besideTraffic_draw (h r n : Nat) (f : DrawFor) : (s.draw h r n f).besideTraffic = s.besideTraffic := by
  unfold State.draw
  extract_lets svc s1 b issued
  split <;> rfl

theorem besideTraffic_addPieces (b unit n : Nat) : (s.addPieces b unit n).besideTraffic = s.besideTraffic := rfl

theorem besideTraffic_dramTraffic (write : Bool) (loc : Nat) (l : List (Nat × Nat)) : (s.dramTraffic write loc l).besideTraffic = s.besideTraffic := by
  refine foldl_keeps State.besideTraffic _ (fun s e => ?_) _ s
  exact besideTraffic_addPieces _ _ _

theorem besideTraffic_transfer (h : Nat) (write : Bool) (tier loc : Nat) (l : List (Nat × Nat)) (f : DrawFor) :
    (s.transfer h write tier loc l f).besideTraffic = s.besideTraffic := by
  unfold State.transfer
  extract_lets n
  split
  · exact (besideTraffic_dramTraffic _ _ _).trans (besideTraffic_draw _ _ _ _)
  · split
    · exact besideTraffic_draw _ _ _ _
    · split
      · exact besideTraffic_draw _ _ _ _
      · rfl

theorem besideTraffic_portBytes (core tier loc n : Nat) (write : Bool) : (s.portBytes core tier loc n write).besideTraffic = s.besideTraffic := by
  unfold State.portBytes
  extract_lets u
  split
  · rfl
  · exact besideTraffic_addPieces _ _ _

theorem reg_portBytes {core tier loc n : Nat} {write : Bool} (hwr : a ≠ R.CL_PORT_WR_MIB (core / 8)) (hrd : a ≠ R.CL_PORT_RD_MIB (core / 8)) :
    (s.portBytes core tier loc n write).reg a = s.reg a := by
  unfold State.portBytes
  extract_lets u
  split
  · rfl
  · cases write with
    | true => exact reg_addPieces_ne hwr
    | false => exact reg_addPieces_ne hrd

/-- A step's traffic is bytes through its cluster's port and transfers of the tiers: what neither changes, it does not change. -/
theorem stepTraffic_keeps {α : Type} (p : State → α) {core : Nat} (hport : ∀ s tier loc n write, p (State.portBytes s core tier loc n write) = p s)
    (htransfer : ∀ s h write tier loc l f, p (State.transfer s h write tier loc l f) = p s) (f : InFlight) (k idx : Nat) (t : Step) (x : StepOut) :
    p (s.stepTraffic f core k idx t x) = p s := by
  unfold State.stepTraffic
  extract_lets own s1 s2 s3
  have h1 : p s1 = p s := foldl_keeps p _ (fun s j => (htransfer _ _ _ _ _ _ _).trans (hport _ _ _ _ _)) _ _
  have h2 : p s2 = p s1 := by
    dsimp only [s2]
    split
    · rfl
    · refine foldl_keeps p _ (fun s d => ?_) _ _
      split
      · rfl
      · exact (htransfer _ _ _ _ _ _ _).trans (hport _ _ _ _ _)
  have h3 : p s3 = p s2 := by
    refine foldl_keeps p _ (fun s e => ?_) _ _
    split
    · exact hport _ _ _ _ _
    · split
      · rfl
      · exact hport _ _ _ _ _
  exact (foldl_keeps p _ (fun s e => hport _ _ _ _ _) _ _).trans (h3.trans (h2.trans h1))

theorem besideTraffic_stepTraffic (f : InFlight) (core k idx : Nat) (t : Step) (x : StepOut) :
    (s.stepTraffic f core k idx t x).besideTraffic = s.besideTraffic :=
  stepTraffic_keeps State.besideTraffic (fun _ _ _ _ _ => besideTraffic_portBytes _ _ _ _ _) (fun _ _ _ _ _ _ _ => besideTraffic_transfer _ _ _ _ _ _) _ _ _ _ _

theorem reg_stepTraffic {f : InFlight} {core k idx : Nat} {t : Step} {x : StepOut} (hstack : noStackBytes a) (hwr : a ≠ R.CL_PORT_WR_MIB (core / 8))
    (hrd : a ≠ R.CL_PORT_RD_MIB (core / 8)) : (s.stepTraffic f core k idx t x).reg a = s.reg a :=
  stepTraffic_keeps (State.reg · a) (fun _ _ _ _ _ => reg_portBytes hwr hrd) (fun _ _ _ _ _ _ _ => reg_transfer hstack) _ _ _ _ _

/-- What a device command keeps stands beside the traffic. -/
theorem dev_of_besideTraffic {t : State} (h : t.besideTraffic = s.besideTraffic) : dev (fun _ => t) s = t := by
  have hpart : t.part = s.part := (congrArg State.part h :)
  have hnow : t.now = s.now := (congrArg State.now h :)
  have hsub : t.sub = s.sub := (congrArg State.sub h :)
  have hts : t.ts = s.ts := (congrArg State.ts h :)
  have hpending : t.pending = s.pending := (congrArg State.pending h :)
  rw [dev, ← hpart, ← hnow, ← hsub, ← hts, ← hpending]

end Traffic

/-! ## What a step writes into its command (R276, R286) -/

/-- A command beside what its steps write: its buffers, its scratch, and its notes of what was appended, carried and empty. -/
def InFlight.besideOut (f : InFlight) : InFlight := { f with outs := [], scr0 := [], scr1 := [], appended := [], carried := [], flags := 0 }

theorem besideOut_applyOut (f : InFlight) (core : Nat) (x : StepOut) : (f.applyOut core x).besideOut = f.besideOut := by
  unfold InFlight.applyOut
  extract_lets put f1 f2 f3 flags
  have h1 : f1.besideOut = f.besideOut := foldl_keeps InFlight.besideOut _ (fun f e => by
    split
    · rfl
    · split
      · rfl
      · split <;> rfl) _ _
  have h2 : f2.besideOut = f1.besideOut := foldl_keeps InFlight.besideOut (fun f (e : Nat × Nat × List Byte) => put f e.1 e.2.1 e.2.2) (fun _ _ => rfl) _ _
  exact h2.trans h1

section Written
variable {f : InFlight} {core : Nat} {x : StepOut}

@[simp] theorem applyOut_id : (f.applyOut core x).id = f.id := (congrArg InFlight.id (besideOut_applyOut f core x) :)
@[simp] theorem applyOut_cmd : (f.applyOut core x).cmd = f.cmd := (congrArg InFlight.cmd (besideOut_applyOut f core x) :)
@[simp] theorem applyOut_fail : (f.applyOut core x).fail = f.fail := (congrArg InFlight.fail (besideOut_applyOut f core x) :)
@[simp] theorem applyOut_streams : (f.applyOut core x).streams = f.streams := (congrArg InFlight.streams (besideOut_applyOut f core x) :)
@[simp] theorem applyOut_patObj : (f.applyOut core x).patObj = f.patObj := (congrArg InFlight.patObj (besideOut_applyOut f core x) :)
@[simp] theorem applyOut_layersBegun : (f.applyOut core x).layersBegun = f.layersBegun := (congrArg InFlight.layersBegun (besideOut_applyOut f core x) :)
@[simp] theorem applyOut_layersDone : (f.applyOut core x).layersDone = f.layersDone := (congrArg InFlight.layersDone (besideOut_applyOut f core x) :)

end Written

/-! ## The start of a step (R285, R286) -/

/-- The command with stream `k` running a step of layer `l`, in a turn that must end by `due`. -/
def InFlight.starting (f : InFlight) (k due l : Nat) : InFlight :=
  { f with
    streams := f.streams.modify k (fun x => { x with running := true, due := due })
    layersBegun := if l ∈ f.layersBegun then f.layersBegun else l :: f.layersBegun }

/-- The state in which a step has written `x`: its turn stands open, its saturations and NaNs are counted, and so is its traffic. -/
def State.stepCounted (s : State) (f : InFlight) (core k : Nat) (t : Step) (x : StepOut) : State :=
  (((s.openTurn (core / 8)).addReg (R.SAT_COUNT core) x.cnt.sat).addReg (R.NAN_OUT_COUNT core) x.cnt.nan).stepTraffic f core k
    ((f.streams[k]?.map (·.step)).getD 0) t x

/-- The command of a step that has written `x` and runs on. -/
def State.stepCommand (s : State) (f : InFlight) (core k : Nat) (t : Step) (x : StepOut) : InFlight :=
  let turn := (s.stepCounted f core k t x).turn ((f.streams[k]?.map (·.core)).getD 0 / 8)
  (f.applyOut core x).starting k (turn.start + turn.limit) (stLayer t)

/-- The state in which a step that has written `x` runs, before its command's walk goes on. -/
def State.stepBegun (s : State) (f : InFlight) (core k : Nat) (t : Step) (x : StepOut) : State :=
  ((s.stepCounted f core k t x).setFlight (s.stepCommand f core k t x)).awake

/-- The command that a failed step leaves. -/
def InFlight.failing (f : InFlight) (k : Nat) (e : StepErr) : InFlight :=
  { f with fail := some e, streams := f.streams.modify k (fun x => { x with running := true }) }

/-- The state that a failed step leaves, before what can commit commits. -/
def State.stepFailed (s : State) (f : InFlight) (core k : Nat) (e : StepErr) : State :=
  let s0 := s.openTurn (core / 8)
  (if e.1 = 0x300 then s0.addReg (R.TILE_CHECK_COUNT f.cmd.hoop) 1 else s0).setFlight (f.failing k e)

section Steps
variable {s : State} {core : Fin 64} {f : InFlight} {k : Nat} {t : Step} {x : StepOut} {e : StepErr} {op : Nat}
  {act : StepRun → Except StepErr StepOut}

theorem runStep_of_none (hidle : (s.openTurn (core / 8)).coreBusy core = false) (hon : (s.openTurn (core / 8)).isOn .core core = true)
    (hnone : (s.openTurn (core / 8)).nextOn core ((s.openTurn (core / 8)).turnAdmits core) = none) {op : Nat → Bool} :
    s.runStep core op act = s.openTurn (core / 8) := by
  simp [State.runStep, hidle, hon, hnone]

/-- What a step gives once its outputs are known to lie in reach (R274). -/
def State.stepResult (s : State) (f : InFlight) (core : Nat) (k : Nat) (t : Step) : Except StepErr StepOut → Except StepErr StepOut
  | .error e => .error e
  | .ok x =>
    if !x.empty && (s.openTurn (core / 8)).outElsewhere f core t then .error (0x202, reasonDetail 25 ((f.streams[k]?.map (·.step)).getD 0)) else .ok x

theorem startStep_applyOut : (s.stepCounted f core k t x).startStep (f.applyOut core x) k t =
    if stLayer t ∈ f.layersBegun then s.stepBegun f core k t x else (s.stepBegun f core k t x).walkBegin f.id (stLayer t) := by
  simp only [State.startStep, State.stepBegun, State.stepCommand, InFlight.starting, applyOut_id, applyOut_streams, applyOut_layersBegun]

/-- A step that is its core's turn runs by what its meaning gives: it fails, or it starts, and the walk of a command whose layer it begins goes on. -/
theorem runStep_of_starts (hstarts : starts s core f k t) (hop : stOp t = op) :
    s.runStep core (fun o => decide (o = op)) act = match s.stepResult f core k t (act (startView s core f k t)) with
      | .error e => (s.stepFailed f core k e).settled
      | .ok x => if stLayer t ∈ f.layersBegun then s.stepBegun f core k t x else (s.stepBegun f core k t x).walkBegin f.id (stLayer t) := by
  obtain ⟨hidle, hon, hnext, hstep⟩ := hstarts
  have hfree : ¬ ((s.openTurn (core / 8)).coreBusy core = true ∨ (s.openTurn (core / 8)).isOn .core core = false) := by simp [hidle, hon]
  unfold State.runStep
  extract_lets s0
  rw [if_neg hfree]
  simp only [s0, hnext, hstep, hop, decide_true, Bool.not_true, Bool.false_eq_true, if_false]
  unfold startView
  cases act ((s.openTurn (core / 8)).viewOf f core k ((f.streams[k]?.map (·.step)).getD 0) t) with
  | error e => rfl
  | ok x =>
    simp only [State.stepResult]
    by_cases hfar : (!x.empty && (s.openTurn (core / 8)).outElsewhere f core t) = true
    · rw [if_pos hfar]
      rfl
    · rw [if_neg hfar]
      exact startStep_applyOut

theorem runStep_of_ok (hstarts : starts s core f k t) (hop : stOp t = op) (hx : act (startView s core f k t) = .ok x)
    (hout : x.empty = true ∨ (s.openTurn (core / 8)).outElsewhere f core t = false) : s.runStep core (fun o => decide (o = op)) act =
      if stLayer t ∈ f.layersBegun then s.stepBegun f core k t x else (s.stepBegun f core k t x).walkBegin f.id (stLayer t) := by
  have hok : s.stepResult f core k t (.ok x) = .ok x := if_neg (by rcases hout with h | h <;> simp [h])
  rw [runStep_of_starts hstarts hop, hx, hok]

theorem runStep_of_error (hstarts : starts s core f k t) (hop : stOp t = op) (hresult : s.stepResult f core k t (act (startView s core f k t)) = .error e) :
    s.runStep core (fun o => decide (o = op)) act = (s.stepFailed f core k e).settled := by
  rw [runStep_of_starts hstarts hop, hresult]

/-! ### What its start leaves (R286) -/

theorem besideTraffic_stepCounted : (s.stepCounted f core k t x).besideTraffic = s.besideTraffic := by
  rw [State.stepCounted, besideTraffic_stepTraffic, besideTraffic_addReg, besideTraffic_addReg, besideTraffic_openTurn]

theorem flights_stepBegun : (s.stepBegun f core k t x).flights = s.flights.map fun g => if g.id = f.id then s.stepCommand f core k t x else g := by
  have hflights : (s.stepCounted f core k t x).flights = s.flights := (congrArg State.flights (besideTraffic_stepCounted (f := f)) :)
  have hid : (s.stepCommand f core k t x).id = f.id := applyOut_id
  unfold State.stepBegun State.awake
  split <;> simp only [State.setFlight, hflights, hid]

theorem objs_stepBegun : (s.stepBegun f core k t x).objs = s.objs := by
  have hobjs : (s.stepCounted f core k t x).objs = s.objs := (congrArg State.objs (besideTraffic_stepCounted (f := f)) :)
  unfold State.stepBegun State.awake
  split <;> exact hobjs

theorem knots_stepBegun : (s.stepBegun f core k t x).knots = s.knots := by
  have hknots : (s.stepCounted f core k t x).knots = s.knots := (congrArg State.knots (besideTraffic_stepCounted (f := f)) :)
  unfold State.stepBegun State.awake
  split <;> exact hknots

theorem walks_stepBegun : (s.stepBegun f core k t x).walks = s.walks := by
  have hwalks : (s.stepCounted f core k t x).walks = s.walks := (congrArg State.walks (besideTraffic_stepCounted (f := f)) :)
  unfold State.stepBegun State.awake
  split <;> exact hwalks

theorem reg_stepBegun {a : Nat} : (s.stepBegun f core k t x).reg a = (s.stepCounted f core k t x).reg a := by
  unfold State.stepBegun State.awake
  split <;> rfl

/-- The registers that a core counts its steps in lie apart from those of turns and traffic. -/
theorem reg_traffic_ne {a : Nat} (hlow : 0x800110 + 0x4000 * core ≤ a) (hhigh : a ≤ 0x80012C + 0x4000 * core) :
    a ≠ R.SCH_TURN_HOOP (core / 8) ∧ noStackBytes a ∧ a ≠ R.CL_PORT_WR_MIB (core / 8) ∧ a ≠ R.CL_PORT_RD_MIB (core / 8) := by
  have := core.isLt
  refine ⟨?_, fun u => ?_, ?_, ?_⟩
  all_goals dsimp only [R.SCH_TURN_HOOP, R.CL_PORT_WR_MIB, R.CL_PORT_RD_MIB, R.DS_READ_MIB, R.DS_WRITE_MIB]; omega

theorem reg_stepCounted {a : Nat} (hlow : 0x800110 + 0x4000 * core ≤ a) (hhigh : a ≤ 0x80012C + 0x4000 * core) :
    (s.stepCounted f core k t x).reg a = (((s.openTurn (core / 8)).addReg (R.SAT_COUNT core) x.cnt.sat).addReg (R.NAN_OUT_COUNT core) x.cnt.nan).reg a := by
  obtain ⟨-, hstack, hwr, hrd⟩ := reg_traffic_ne hlow hhigh
  exact reg_stepTraffic hstack hwr hrd

theorem sat_stepBegun : (s.stepBegun f core k t x).reg (R.SAT_COUNT core) = satAdd (s.reg (R.SAT_COUNT core)) x.cnt.sat := by
  have hlow : 0x800110 + 0x4000 * core.val ≤ R.SAT_COUNT core := by dsimp only [R.SAT_COUNT]; omega
  have hhigh : R.SAT_COUNT core ≤ 0x80012C + 0x4000 * core := by dsimp only [R.SAT_COUNT]; omega
  rw [reg_stepBegun, reg_stepCounted hlow hhigh, reg_addReg_ne _ _ _ _ (by dsimp only [R.SAT_COUNT, R.NAN_OUT_COUNT]; omega), reg_addReg_same,
    reg_openTurn (reg_traffic_ne hlow hhigh).1]

theorem nan_stepBegun : (s.stepBegun f core k t x).reg (R.NAN_OUT_COUNT core) = satAdd (s.reg (R.NAN_OUT_COUNT core)) x.cnt.nan := by
  have hlow : 0x800110 + 0x4000 * core.val ≤ R.NAN_OUT_COUNT core := by dsimp only [R.NAN_OUT_COUNT]; omega
  rw [reg_stepBegun, reg_stepCounted hlow (le_refl _), reg_addReg_same, reg_addReg_ne _ _ _ _ (by dsimp only [R.SAT_COUNT, R.NAN_OUT_COUNT]; omega),
    reg_openTurn (reg_traffic_ne hlow (le_refl _)).1]

/-- The command of a step that starts is among the begun ones, and the stream is its own on the core. -/
theorem mem_of_starts (hstarts : starts s core f k t) : f ∈ s.flights ∧ f.streamOn core = some k ∧ f.fail = none := by
  obtain ⟨-, -, hnext, -⟩ := hstarts
  obtain ⟨g, hg, hsome⟩ := List.exists_of_findSome?_eq_some hnext
  have hflights : (s.openTurn (core / 8)).flights = s.flights := (congrArg State.flights (besideTraffic_openTurn (core / 8)) :)
  split at hsome
  next =>
    obtain ⟨j, hj, hable⟩ := Option.bind_eq_some_iff.1 hsome
    split at hable
    next hab =>
      obtain ⟨rfl, rfl⟩ : g = f ∧ j = k := by simpa using hable
      refine ⟨hflights ▸ hg, hj, ?_⟩
      unfold State.able at hab
      split at hab
      · exact nomatch hab
      · simp only [Bool.and_eq_true, Option.isNone_iff_eq_none] at hab
        exact hab.1.1
    next => exact nomatch hable
  next => exact nomatch hsome

theorem idle_of_starts (hstarts : starts s core f k t) : s.coreBusy core = false := by
  have hflights : (s.openTurn (core / 8)).flights = s.flights := (congrArg State.flights (besideTraffic_openTurn (core / 8)) :)
  simpa only [State.coreBusy, hflights] using hstarts.1

theorem getElem?_stepCommand : (s.stepCommand f core k t x).streams[k]? = f.streams[k]?.map fun y =>
    let turn := (s.stepCounted f core k t x).turn ((f.streams[k]?.map (·.core)).getD 0 / 8)
    { y with running := true, due := turn.start + turn.limit } := by
  simp only [State.stepCommand, InFlight.starting, applyOut_streams, List.getElem?_modify_eq]
  rfl

/-- The layer of a step has begun (R286). -/
theorem layer_stepCommand : stLayer t ∈ (s.stepCommand f core k t x).layersBegun := by
  unfold State.stepCommand InFlight.starting
  dsimp only
  split
  next hbegun => exact hbegun
  next => exact List.mem_cons_self

/-- The stream runs on its core. -/
theorem running_stepCommand (hon : f.streamOn core = some k) : ∃ e ∈ (s.stepCommand f core k t x).streams, e.core = core.val ∧ e.running = true := by
  obtain ⟨hk, hcore, -⟩ := List.findIdx?_eq_some_iff_getElem.1 hon
  have hget := getElem?_stepCommand (s := s) (core := core) (f := f) (k := k) (t := t) (x := x)
  rw [List.getElem?_eq_getElem hk] at hget
  exact ⟨_, List.mem_of_getElem? hget, of_decide_eq_true hcore, rfl⟩

theorem mem_stepBegun (hmem : f ∈ s.flights) : s.stepCommand f core k t x ∈ (s.stepBegun f core k t x).flights := by
  rw [flights_stepBegun]
  exact List.mem_map.2 ⟨f, hmem, if_pos rfl⟩

theorem mem_stepFailed (hmem : f ∈ s.flights) : f.failing k e ∈ (s.stepFailed f core k e).flights := by
  have hflights : (s.openTurn (core / 8)).flights = s.flights := (congrArg State.flights (besideTraffic_openTurn (core / 8)) :)
  unfold State.stepFailed
  extract_lets s0
  refine List.mem_map.2 ⟨f, ?_, if_pos rfl⟩
  split <;> exact hflights ▸ hmem

end Steps

/-- Settles O34: every kind of step is `State.runStep` with its own meaning, and what that leaves is said above for each end of it. -/
theorem computeStepsRun : Obligations.ComputeStepsRun := by
  unfold Obligations.ComputeStepsRun
  intro s core c op act hkind s0
  have hrun : exec c s = run (State.runStep · core (fun o => decide (o = op)) act) s := by
    rcases hkind with h | h | h | h | h | h | h | h | h | h | h | h | h | h <;> obtain ⟨rfl, rfl, rfl⟩ := h <;> rfl
  constructor
  · intro hidle hon hnone
    exact completes_run hrun (runStep_of_none hidle hon hnone) (dev_of_besideTraffic (besideTraffic_openTurn _)) rfl
  · intro f k t hstarts hop run_ fails
    obtain ⟨hmem, hstream, -⟩ := mem_of_starts hstarts
    have hfails {e : StepErr} (hresult : s.stepResult f core k t (act run_) = .error e) : fails e :=
      completesThen_run hrun (runStep_of_error hstarts hop hresult) ⟨_, mem_stepFailed hmem, rfl, rfl, rfl⟩
    refine ⟨fun x hx hout => ?_, fun x hx hfull hfar => hfails ?_, fun e he => hfails ?_⟩
    · exact completesThen_run hrun (u := s.stepBegun f core k t x) (runStep_of_ok hstarts hop hx hout)
        ⟨⟨_, mem_stepBegun hmem, applyOut_id, rfl, running_stepCommand hstream, layer_stepCommand⟩, sat_stepBegun, nan_stepBegun, objs_stepBegun,
          knots_stepBegun⟩
    · rw [hx]
      exact if_pos (by simp [hfull, hfar, s0])
    · rw [he]
      rfl

end Sys2Proof.Machine

namespace Sys2Proof.Machine

/-! ## Lists with one entry replaced or changed -/

section Lists
variable {α β : Type} {l : List α}

/-- The first answer of a list that had none is that of the entry put in it. -/
theorem findSome?_replaced {p : α → Prop} [DecidablePred p] {g a : α} {q : α → Option β} {b : β} (hmem : a ∈ l) (hp : p a)
    (hnone : ∀ y ∈ l, q y = none) (hg : q g = some b) : (l.map fun y => if p y then g else y).findSome? q = some b := by
  induction l with
  | nil => exact nomatch hmem
  | cons y l ih =>
    rw [List.map_cons, List.findSome?_cons]
    by_cases hy : p y
    · rw [if_pos hy, hg]
    · rw [if_neg hy, hnone y List.mem_cons_self]
      exact ih ((List.mem_cons.1 hmem).resolve_left fun h => hy (h ▸ hp)) fun z hz => hnone z (List.mem_cons_of_mem _ hz)

theorem find?_replaced {p : α → Prop} [DecidablePred p] {g a : α} {q : α → Bool} (hmem : a ∈ l) (hp : p a) (hnone : ∀ y ∈ l, q y = false) (hg : q g = true) :
    (l.map fun y => if p y then g else y).find? q = some g := by
  rw [← List.findSome?_guard]
  exact findSome?_replaced hmem hp (fun y hy => by simp [hnone y hy]) (by simp [hg])

theorem map_modify_congr {p : α → β} {F G : α → α} (h : ∀ x, p (F x) = p (G x)) (k : Nat) : (l.modify k F).map p = (l.modify k G).map p := by
  induction l generalizing k with
  | nil => simp
  | cons x l ih => cases k with
    | zero => simp [h]
    | succ k => simp [ih]

end Lists

/-! ## Where streams stand (R285, R286) -/

/-- Where a stream stands: its core, its step, whether that runs, and whether all are done. -/
def Stream.place (x : Stream) : Nat × Nat × Bool × Bool := (x.core, x.step, x.running, x.done)

/-- The layers that are over follow from the pattern and from where the streams stand. -/
theorem layersOver_congr {f g : InFlight} (hpat : g.patObj = f.patObj) (hplaces : g.streams.map Stream.place = f.streams.map Stream.place) :
    g.layersOver = f.layersOver := by
  have hover (f : InFlight) : f.layersOver = ((f.streams.map Stream.place).zipIdx).foldl (fun m e =>
      min m (if e.1.2.2.2 then f.patObj.pNlayers else stLayer (f.patObj.pStep e.2 e.1.2.1))) f.patObj.pNlayers := by
    rw [List.zipIdx_map, List.foldl_map]
    rfl
  rw [hover, hover, hpat, hplaces]

/-! ## The end of a step (R285, R286, R289, R290) -/

section Ends
variable {s : State} {core slots vec bank stage knot port k : Nat} {f : InFlight}

/-- Beside its command, the end of a step changes only counters and its cluster's turn. -/
theorem Calm.countStep {I : State → Prop} (hI : Calm I) (hs : I (s.setFlight (f.advance k))) : I (s.countStep core slots vec bank stage knot port f k) :=
  hI.when (hI.addReg (hI.addReg (hI.addReg (hI.addReg (hI.addReg (hI.addReg (hI.addReg hs))))))) fun hs => hI.setTurn hs

theorem countStep_keeps : keepsStore (s.setFlight (f.advance k)) (s.countStep core slots vec bank stage knot port f k) :=
  (calm_keepsStore _).countStep ⟨rfl, rfl, rfl, rfl, rfl, rfl, rfl, rfl, rfl⟩

theorem flights_countStep : (s.countStep core slots vec bank stage knot port f k).flights =
    s.flights.map fun g => if g.id = f.id then f.advance k else g := by
  obtain ⟨-, -, -, hflights, -⟩ := countStep_keeps (s := s) (f := f) (k := k)
  exact hflights

theorem objs_countStep : (s.countStep core slots vec bank stage knot port f k).objs = s.objs := by
  obtain ⟨hobjs, -⟩ := countStep_keeps (s := s) (f := f) (k := k)
  exact hobjs

theorem knots_countStep : (s.countStep core slots vec bank stage knot port f k).knots = s.knots := by
  obtain ⟨-, -, -, -, -, hknots, -⟩ := countStep_keeps (s := s) (f := f) (k := k)
  exact hknots

end Ends

/-! ## Several counters at once (R98) -/

/-- Add to several counters in turn. -/
def State.addRegs (s : State) (l : List (Nat × Nat)) : State := l.foldl (fun s e => s.addReg e.1 e.2) s

section Counters
variable {s : State} {l : List (Nat × Nat)} {a n : Nat}

theorem reg_addRegs_ne (ha : a ∉ l.map Prod.fst) : (s.addRegs l).reg a = s.reg a := by
  induction l generalizing s with
  | nil => rfl
  | cons e l ih =>
    rw [List.map_cons, List.mem_cons, not_or] at ha
    exact (ih ha.2).trans (reg_addReg_ne _ _ _ _ ha.1)

theorem reg_addRegs (hl : (l.map Prod.fst).Nodup) (hmem : (a, n) ∈ l) : (s.addRegs l).reg a = satAdd (s.reg a) n := by
  induction l generalizing s with
  | nil => exact nomatch hmem
  | cons e l ih =>
    rw [List.map_cons, List.nodup_cons] at hl
    rcases List.mem_cons.1 hmem with rfl | hmem
    · exact (reg_addRegs_ne hl.1).trans (reg_addReg_same _ _ _)
    · have hne : a ≠ e.1 := fun h => hl.1 (h ▸ List.mem_map_of_mem hmem)
      exact (ih hl.2 hmem).trans (congrArg (satAdd · n) (reg_addReg_ne _ _ _ _ hne))

end Counters

/-- What the end of a step adds to the counters of its core and of its cluster's port (R289, R290). -/
def stepCounts (core slots vec bank stage knot port : Nat) : List (Nat × Nat) :=
  [(R.STEPS_DONE core, 1), (R.ARRAY_ISSUE_SLOTS core, slots), (R.VECTOR_BUSY_CYCLES core, vec), (R.BANK_STALL_CYCLES core, bank),
    (R.STAGE_STALL_CYCLES core, stage), (R.KNOT_STALL_CYCLES core, knot), (R.CL_PORT_WAIT_CYCLES (core / 8), port)]

section Counts
variable {s : State} {core slots vec bank stage knot port k : Nat} {f : InFlight}

theorem stepCounts_nodup : ((stepCounts core slots vec bank stage knot port).map Prod.fst).Nodup := by
  simp only [stepCounts, List.map_cons, List.map_nil, List.nodup_cons, List.mem_cons, List.not_mem_nil, not_or, R.STEPS_DONE, R.ARRAY_ISSUE_SLOTS,
    R.VECTOR_BUSY_CYCLES, R.BANK_STALL_CYCLES, R.STAGE_STALL_CYCLES, R.KNOT_STALL_CYCLES, R.CL_PORT_WAIT_CYCLES]
  simp
  omega

theorem reg_ite_setTurn {c : Prop} [Decidable c] {n a : Nat} {t : Turn} : (if c then s.setTurn n t else s).reg a = s.reg a := by
  split <;> rfl

theorem reg_countStep {a : Nat} : (s.countStep core slots vec bank stage knot port f k).reg a =
    ((s.setFlight (f.advance k)).addRegs (stepCounts core slots vec bank stage knot port)).reg a := by
  unfold State.countStep
  extract_lets s1 s2 s3 s4 n' t due
  refine reg_ite_setTurn.trans ?_
  have : s4 = (s.setFlight (f.advance k)).addRegs (stepCounts core slots vec bank stage knot port) := by
    simp only [s4, s3, s2, s1, State.addRegs, stepCounts, List.foldl_cons, List.foldl_nil]
  rw [this]

/-- The counters of the core, and its cluster's, rise by what the step counted. -/
theorem countStep_rises {a n : Nat} (hmem : (a, n) ∈ stepCounts core slots vec bank stage knot port) :
    (s.countStep core slots vec bank stage knot port f k).reg a = satAdd (s.reg a) n :=
  reg_countStep.trans (reg_addRegs stepCounts_nodup hmem)

/-- The end of a step is its count, and what follows for the command (R285 to R287). -/
theorem endStep_of_running {mid : State → State} (hfind : s.flights.find? (fun f => f.streams.any fun t => decide (t.core = core) && t.running) = some f)
    (hstream : f.streams.findIdx? (fun t => decide (t.core = core) && t.running) = some k) : s.endStep core slots vec bank stage knot port mid =
      (mid (s.countStep core slots vec bank stage knot port f k)).afterStep f.id f.layersDone (f.advance k).layersDone := by
  rw [State.endStep, hfind]
  dsimp only
  rw [hstream]

/-- After the end of its step a command stands as `f` does after it, where it is `f` but for the step that ran. -/
theorem stepEnded_countStep {g y : InFlight} (hmem : y ∈ s.flights) (hy : y.id = f.id) (hid : f.id = g.id)
    (hplaces : (f.advance k).streams.map Stream.place = (g.advance k).streams.map Stream.place) :
    stepEnded (s.countStep core slots vec bank stage knot port f k) g k := by
  refine ⟨f.advance k, ?_, hid, hplaces⟩
  rw [flights_countStep]
  exact List.mem_map.2 ⟨y, hmem, if_pos hy⟩

theorem knot_countStep {h n : Nat} : (s.countStep core slots vec bank stage knot port f k).knot h n = s.knot h n := by
  rw [State.knot, knots_countStep, ← State.knot]

end Counts

/-! ## A step that has started runs on its core (R285) -/

section Running
variable {s : State} {core : Fin 64} {f : InFlight} {k : Nat} {t : Step} {x : StepOut}

theorem nextStep_eq_some : f.nextStep k = some t ↔ ∃ y, f.streams[k]? = some y ∧ y.done = false ∧ f.patObj.pStep k y.step = t := by
  unfold InFlight.nextStep
  cases f.streams[k]? with
  | none => simp
  | some y => cases h : y.done <;> simp [h]

theorem nextStep_stepCommand (hstep : f.nextStep k = some t) : (s.stepCommand f core k t x).nextStep k = some t := by
  obtain ⟨y, hy, hdone, hpat⟩ := nextStep_eq_some.1 hstep
  refine nextStep_eq_some.2 ⟨_, getElem?_stepCommand.trans (congrArg _ hy), hdone, ?_⟩
  rw [← hpat, ← applyOut_patObj (f := f) (core := core) (x := x)]
  rfl

/-- The stream that has started is the first one that runs on the core. -/
theorem findIdx?_stepCommand (hstream : f.streamOn core = some k) :
    (s.stepCommand f core k t x).streams.findIdx? (fun y => decide (y.core = core.val) && y.running) = some k := by
  obtain ⟨hk, hcore, hbefore⟩ := List.findIdx?_eq_some_iff_getElem.1 hstream
  simp only [State.stepCommand, InFlight.starting, applyOut_streams]
  refine List.findIdx?_eq_some_iff_getElem.2 ⟨by simpa using hk, ?_, fun j hj => ?_⟩
  · rw [List.getElem_modify_eq]
    simpa using hcore
  · rw [List.getElem_modify_ne _ _ (Nat.ne_of_gt hj)]
    simp [hbefore j hj]

theorem not_running_of_idle (hidle : s.coreBusy core = false) {g : InFlight} (hg : g ∈ s.flights) :
    (g.streams.any fun y => decide (y.core = core.val) && y.running) = false := by
  simpa only [State.coreBusy, List.any_eq_false, Bool.not_eq_true] using List.any_eq_false.1 hidle g hg

/-- The command of the step is the one found running on the core. -/
theorem find?_stepBegun (hstarts : starts s core f k t) : (s.stepBegun f core k t x).flights.find?
    (fun g => g.streams.any fun y => decide (y.core = core.val) && y.running) = some (s.stepCommand f core k t x) := by
  obtain ⟨hmem, hstream, -⟩ := mem_of_starts hstarts
  obtain ⟨e, he, hcore, hrun⟩ := running_stepCommand (s := s) (t := t) (x := x) hstream
  rw [flights_stepBegun]
  exact find?_replaced hmem rfl (fun g hg => not_running_of_idle (idle_of_starts hstarts) hg) (List.any_eq_true.2 ⟨e, he, by simp [hcore, hrun]⟩)

theorem running_stepBegun (hstarts : starts s core f k t) : (s.stepBegun f core k t x).running core = some (s.stepCommand f core k t x, t) := by
  obtain ⟨hmem, hstream, -⟩ := mem_of_starts hstarts
  obtain ⟨-, -, -, hstep⟩ := id hstarts
  unfold State.running
  rw [flights_stepBegun]
  refine findSome?_replaced hmem rfl (fun g hg => ?_) ?_
  · have hnone := not_running_of_idle (idle_of_starts hstarts) hg
    rw [List.findIdx?_eq_none_iff.2 fun y hy => List.any_eq_false.1 hnone y hy |> Bool.eq_false_of_not_eq_true]
    rfl
  · rw [findIdx?_stepCommand hstream, Option.bind_some, nextStep_stepCommand hstep]
    rfl

/-- The step that ran ends as one of the command before it started. -/
theorem places_stepCommand : ((s.stepCommand f core k t x).advance k).streams.map Stream.place = (f.advance k).streams.map Stream.place := by
  simp only [InFlight.advance, State.stepCommand, InFlight.starting, applyOut_streams, List.modify_modify_eq]
  refine map_modify_congr (fun y => ?_) k
  have hpat := applyOut_patObj (f := f) (core := core) (x := x)
  simp only [Stream.place, Function.comp]
  rw [← hpat]
  rfl

theorem layersDone_stepCommand : ((s.stepCommand f core k t x).advance k).layersDone = (f.advance k).layersDone :=
  layersOver_congr (applyOut_patObj (f := f) (core := core) (x := x)) places_stepCommand

theorem walkBegin_of_no_walk {id l : Nat} (hnone : ∀ w ∈ s.walks, w.id ≠ id) : s.walkBegin id l = s := by
  rw [State.walkBegin, List.find?_eq_none.2 (by simpa using hnone)]

/-- A step of a command whose walk has no entries left to issue only starts (R193). -/
theorem runStep_of_noWalk {op : Nat} {act : StepRun → Except StepErr StepOut} (hstarts : starts s core f k t) (hwalk : noWalk s f t) (hop : stOp t = op)
    (hx : act (startView s core f k t) = .ok x) (hout : x.empty = true ∨ (s.openTurn (core / 8)).outElsewhere f core t = false) :
    s.runStep core (fun o => decide (o = op)) act = s.stepBegun f core k t x := by
  rw [runStep_of_ok hstarts hop hx hout]
  split
  next => rfl
  next hnew => exact walkBegin_of_no_walk fun w hw => hwalk.resolve_left hnew w (walks_stepBegun ▸ hw)

/-- A step that writes no operand writes none elsewhere (R274). -/
theorem outElsewhere_of_none {s : State} {core : Nat} (hnone : (stepOperands t).2 = []) : s.outElsewhere f core t = false := by
  rw [State.outElsewhere, hnone]
  rfl

theorem reg_stepBegun_of_core {a : Nat} (hlow : 0x800110 + 0x4000 * core ≤ a) (hhigh : a ≤ 0x800124 + 0x4000 * core) :
    (s.stepBegun f core k t x).reg a = s.reg a := by
  have hhigh' : a ≤ 0x80012C + 0x4000 * core := by omega
  rw [reg_stepBegun, reg_stepCounted hlow hhigh', reg_addReg_ne _ _ _ _ (by dsimp only [R.NAN_OUT_COUNT]; omega),
    reg_addReg_ne _ _ _ _ (by dsimp only [R.SAT_COUNT]; omega), reg_openTurn (reg_traffic_ne hlow hhigh').1]

theorem knot_setKnot {h n : Nat} {v : W32} : (s.setKnot h n v).knot h n = v := mget_mset_same _ _ _ _

theorem knot_stepBegun {h n : Nat} : (s.stepBegun f core k t x).knot h n = s.knot h n := by rw [State.knot, knots_stepBegun, ← State.knot]

end Running

/-! ## Steps on knots (R285, R318, R401) -/

section KnotSteps
variable {s : State} {core : Fin 64} {f : InFlight} {k : Nat} {t : Step} {x : StepOut}

/-- The end of the step that has started on a core, by whatever it leaves beside the commands (R285 to R287). -/
theorem endStep_of_starts {u : State} {slots vec bank stage knot port : Nat} {mid : State → State} (hstarts : starts s core f k t)
    (hu : u.flights = (s.stepBegun f core k t x).flights) : u.endStep core slots vec bank stage knot port mid =
      (mid (u.countStep core slots vec bank stage knot port (s.stepCommand f core k t x) k)).afterStep f.id f.layersDone (f.advance k).layersDone := by
  obtain ⟨-, hstream, -⟩ := mem_of_starts hstarts
  rw [endStep_of_running (hu ▸ find?_stepBegun hstarts) (findIdx?_stepCommand hstream), layersDone_stepCommand]
  congr 1
  · exact applyOut_id
  · exact applyOut_layersDone

theorem stepEnded_of_starts {u : State} {slots vec bank stage knot port : Nat} (hstarts : starts s core f k t)
    (hu : u.flights = (s.stepBegun f core k t x).flights) :
    stepEnded (u.countStep core slots vec bank stage knot port (s.stepCommand f core k t x) k) f k := by
  obtain ⟨hmem, -⟩ := mem_of_starts hstarts
  exact stepEnded_countStep (hu ▸ mem_stepBegun hmem) rfl applyOut_id places_stepCommand

theorem doKnotWaitStep_of_starts (hstarts : starts s core f k t) (hwalk : noWalk s f t) (hop : stOp t = 3) (cyc : Nat) : doKnotWaitStep core cyc s =
    ((s.stepBegun f core k t .none).countStep core 0 0 0 0 cyc 0 (s.stepCommand f core k t .none) k).afterStep f.id f.layersDone (f.advance k).layersDone := by
  have hnone : (stepOperands t).2 = [] := by simp [stepOperands, hop]
  unfold doKnotWaitStep
  rw [runStep_of_noWalk hstarts hwalk hop rfl (.inr (outElsewhere_of_none hnone))]
  simp only [running_stepBegun hstarts, if_pos hop]
  exact endStep_of_starts hstarts rfl

/-- The state in which a step has added to its knot. -/
def State.stepSignalled (s : State) (f : InFlight) (core k : Nat) (t : Step) (x : StepOut) (n : Nat) (v : W32) : State :=
  (s.stepBegun f core k t x).setKnot f.cmd.hoop n (s.knot f.cmd.hoop n + v)

theorem flights_stepSignalled {n : Nat} {v : W32} : (s.stepSignalled f core k t x n v).flights = (s.stepBegun f core k t x).flights := rfl

theorem objs_stepSignalled {n : Nat} {v : W32} : (s.stepSignalled f core k t x n v).objs = s.objs := objs_stepBegun

theorem reg_stepSignalled {n a : Nat} {v : W32} : (s.stepSignalled f core k t x n v).reg a = (s.stepBegun f core k t x).reg a := rfl

theorem knot_stepSignalled {n : Nat} {v : W32} : (s.stepSignalled f core k t x n v).knot f.cmd.hoop n = s.knot f.cmd.hoop n + v := knot_setKnot

theorem doKnotSignalStep_of_starts (hstarts : starts s core f k t) (hwalk : noWalk s f t) (hop : stOp t = 4) : doKnotSignalStep core s =
    ((((s.stepSignalled f core k t .none (st2 t 4) (w32 (st4 t 8))).countStep core 0 0 0 0 0 0 (s.stepCommand f core k t .none) k).testWaits f.cmd.hoop
      (st2 t 4)).settled).afterStep f.id f.layersDone (f.advance k).layersDone := by
  have hnone : (stepOperands t).2 = [] := by simp [stepOperands, hop]
  have hcmd : (s.stepCommand f core k t .none).cmd = f.cmd := applyOut_cmd
  unfold doKnotSignalStep
  rw [runStep_of_noWalk hstarts hwalk hop rfl (.inr (outElsewhere_of_none hnone))]
  simp only [running_stepBegun hstarts, if_pos hop, hcmd, knot_stepBegun]
  rw [← State.stepSignalled, endStep_of_starts hstarts (flights_stepSignalled (x := .none))]

/-- A halo step that has started adds 1 to its knot (R318). -/
theorem stepAdd_of_starts (n : Nat) : (s.stepBegun f core k t x).stepAdd (s.stepCommand f core k t x) n 1 =
    ((s.stepSignalled f core k t x n 1).testWaits f.cmd.hoop n).settled := by
  have hcmd : (s.stepCommand f core k t x).cmd = f.cmd := applyOut_cmd
  rw [State.stepAdd, hcmd, knot_stepBegun]
  rfl

theorem fail_stepCommand (hstarts : starts s core f k t) : (s.stepCommand f core k t x).fail = none := by
  obtain ⟨-, -, hfail⟩ := mem_of_starts hstarts
  exact applyOut_fail.trans hfail

theorem doHaloPut_of_starts (hstarts : starts s core f k t) (hwalk : noWalk s f t) (hop : stOp t = 0x18)
    (hx : (startView s core f k t).haloPut (f.cores.getD (st1 t 10) 0 / 8) = .ok x) : doHaloPut core s =
      ((s.stepSignalled f core k t x (st2 t 20) 1).testWaits f.cmd.hoop (st2 t 20)).settled := by
  have hnone : (stepOperands t).2 = [] := by simp [stepOperands, hop]
  unfold doHaloPut
  rw [if_neg (by simp [idle_of_starts hstarts]), runStep_of_noWalk hstarts hwalk hop hx (.inr (outElsewhere_of_none hnone))]
  simp only [running_stepBegun hstarts, if_pos (And.intro hop (fail_stepCommand hstarts))]
  exact stepAdd_of_starts _

theorem doHaloGet_of_starts (hstarts : starts s core f k t) (hwalk : noWalk s f t) (hop : stOp t = 0x19) (hx : (startView s core f k t).haloGet = .ok x)
    (hout : x.empty = true ∨ (s.openTurn (core / 8)).outElsewhere f core t = false) : doHaloGet core s =
      ((s.stepSignalled f core k t x (st2 t 20 + 1) 1).testWaits f.cmd.hoop (st2 t 20 + 1)).settled := by
  unfold doHaloGet
  rw [if_neg (by simp [idle_of_starts hstarts]), runStep_of_noWalk hstarts hwalk hop hx hout]
  simp only [running_stepBegun hstarts, if_pos (And.intro hop (fail_stepCommand hstarts))]
  exact stepAdd_of_starts _

end KnotSteps

/-- Settles O35: the end of a step is `State.countStep` of the command that ran it; a step on a knot starts, by what is said above of its start, and
then ends, or adds to its knot. -/
theorem stepsEndAndSignal : Obligations.StepsEndAndSignal := by
  unfold Obligations.StepsEndAndSignal
  intro s core f k up after
  constructor
  · intro slots vec bank stage knot port hfind hstream
    have hrise {a n : Nat} (hmem : (a, n) ∈ stepCounts core slots.toNat vec.toNat bank.toNat stage.toNat knot.toNat port.toNat) :=
      countStep_rises (s := s) (f := f) (k := k) hmem
    constructor
    · intro hheld
      exact completes_run rfl (if_pos hheld) rfl rfl
    · intro hfree
      have hrun : doStepComplete core slots.toNat vec.toNat bank.toNat stage.toNat knot.toNat port.toNat s =
          (after (s.countStep core slots.toNat vec.toNat bank.toNat stage.toNat knot.toNat port.toNat f k)).startMoves := by
        rw [doStepComplete, if_neg (by simp [hfree]), endStep_of_running hfind hstream]
        rfl
      refine completesThen_run rfl hrun ⟨stepEnded_countStep (List.mem_of_find?_eq_some hfind) rfl rfl rfl, hrise ?_, hrise ?_, hrise ?_, hrise ?_, hrise ?_,
        hrise ?_, hrise ?_, objs_countStep, knots_countStep⟩
      all_goals simp [stepCounts]
  · intro t hstarts hwalk
    obtain ⟨hmem, hstream, -⟩ := mem_of_starts hstarts
    have hrise {x : StepOut} {u : State} {slots vec bank stage cyc port a n : Nat} (hu : u.reg a = (s.stepBegun f core k t x).reg a)
        (hmem : (a, n) ∈ stepCounts core slots vec bank stage cyc port) (hlow : 0x800110 + 0x4000 * core.val ≤ a) (hhigh : a ≤ 0x800124 + 0x4000 * core) :
        up a n (u.countStep core slots vec bank stage cyc port (s.stepCommand f core k t x) k) :=
      (countStep_rises hmem).trans (congrArg (satAdd · n) (hu.trans (reg_stepBegun_of_core hlow hhigh)))
    refine ⟨fun cyc hop => ?_, fun hop => ?_, fun x hop hx => ?_, fun x hop hx hout => ?_⟩
    · exact completesThen_run rfl (doKnotWaitStep_of_starts hstarts hwalk hop cyc.toNat) ⟨stepEnded_of_starts hstarts rfl,
        hrise rfl (by simp [stepCounts]) (by dsimp only [R.STEPS_DONE]; omega) (by dsimp only [R.STEPS_DONE]; omega),
        hrise rfl (by simp [stepCounts]) (by dsimp only [R.KNOT_STALL_CYCLES]; omega) (le_refl _), objs_countStep.trans objs_stepBegun,
        knots_countStep.trans knots_stepBegun⟩
    · exact completesThen_run rfl (doKnotSignalStep_of_starts hstarts hwalk hop) ⟨stepEnded_of_starts hstarts flights_stepSignalled,
        hrise reg_stepSignalled (by simp [stepCounts]) (by dsimp only [R.STEPS_DONE]; omega) (by dsimp only [R.STEPS_DONE]; omega),
        knot_countStep.trans knot_stepSignalled, objs_countStep.trans objs_stepSignalled⟩
    · exact completesThen_run rfl (doHaloPut_of_starts hstarts hwalk hop hx)
        ⟨knot_stepSignalled, objs_stepSignalled, _, mem_stepBegun hmem, applyOut_id, rfl, running_stepCommand hstream⟩
    · exact completesThen_run rfl (doHaloGet_of_starts hstarts hwalk hop hx hout)
        ⟨knot_stepSignalled, objs_stepSignalled, _, mem_stepBegun hmem, applyOut_id, rfl, running_stepCommand hstream⟩

end Sys2Proof.Machine

namespace Sys2Proof.Machine

/-! ## The assignment of clusters (R97, R112, R406, R407) -/

/-- The pages of a cluster and of its cores (R406). -/
def clusterPages (n : Nat) : List Nat := pageOf .cluster n :: (List.range 8).map fun i => pageOf .core (8 * n + i)

/-- Each page's expert unlock closes, and its faults go to hoop 0 or to the owner of a page with FIXED = 1 (R97, R112). -/
def State.closePages (s : State) (l : List Nat) : State := l.foldl (fun s p => (s.setReg (R.EXPERT_KEY p) 0).setReg (R.FAULT_ROUTE p)
  (if bit (s.reg (R.HOOP_OWNER p)) 8 then w32 (fld (s.reg (R.HOOP_OWNER p)) 0 4) else 0)) s

/-- A change of owner leaves the pages' storage to be zeroed (R540). -/
def State.oweZeros (s : State) (changed : Bool) (l : List Nat) : State :=
  if changed then { s with zeroOwed := l.foldl (fun m p => mset false m p true) s.zeroOwed } else s

section Clusters
variable {s : State} {n a : Nat} {v : W32}

theorem clusterPages_aligned : ∀ p ∈ clusterPages n, p % 0x1000 = 0 := by
  intro p hp
  rcases List.mem_cons.1 hp with rfl | hp
  · change (0x140000 + 0x1000 * n) % 0x1000 = 0
    omega
  · obtain ⟨i, -, rfl⟩ := List.mem_map.1 hp
    change (0x800000 + 0x4000 * (8 * n + i)) % 0x1000 = 0
    omega

theorem reg_closePages {l : List Nat} (ha : ∀ p ∈ l, a ≠ R.EXPERT_KEY p ∧ a ≠ R.FAULT_ROUTE p) : (s.closePages l).reg a = s.reg a := by
  induction l generalizing s with
  | nil => rfl
  | cons p l ih =>
    obtain ⟨hkey, hroute⟩ := ha p List.mem_cons_self
    exact (ih fun q hq => ha q (List.mem_cons_of_mem _ hq)).trans ((reg_setReg_ne _ _ _ _ hroute).trans (reg_setReg_ne _ _ _ _ hkey))

theorem reg_oweZeros {changed : Bool} {l : List Nat} : (s.oweZeros changed l).reg a = s.reg a := by
  cases changed <;> rfl

/-- Every register of the pages but the owners is left alone. -/
theorem reg_ownCluster_ne (ha : a % 0x1000 ≠ 0x20) : (s.ownCluster n v).reg a = s.reg a := by
  have hne {p : Nat} (hp : p % 0x1000 = 0) : a ≠ R.HOOP_OWNER p := by dsimp only [R.HOOP_OWNER]; omega
  unfold State.ownCluster
  extract_lets own s1
  have hcores : ∀ s : State, ∀ i, (s.setReg (R.HOOP_OWNER (pageOf .core (8 * n + i))) (own ||| 0x100)).reg a = s.reg a := fun s i =>
    reg_setReg_ne _ _ _ _ (hne (by change (0x800000 + 0x4000 * (8 * n + i)) % 0x1000 = 0; omega))
  exact (foldl_keeps (State.reg · a) _ hcores _ _).trans (reg_setReg_ne _ _ _ _ (hne (clusterPages_aligned _ List.mem_cons_self)))

theorem reg_ownCluster_owner (hn : n < 8) : (s.ownCluster n v).reg (R.HOOP_OWNER (pageOf .cluster n)) = if bit v 0 then w32 (2 ^ 9) else w32 (fld v 4 4) := by
  unfold State.ownCluster
  extract_lets own s1
  have hcores : ∀ s : State, ∀ i, (s.setReg (R.HOOP_OWNER (pageOf .core (8 * n + i))) (own ||| 0x100)).reg (R.HOOP_OWNER (pageOf .cluster n)) =
      s.reg (R.HOOP_OWNER (pageOf .cluster n)) := fun s i =>
    reg_setReg_ne _ _ _ _ (by change 0x140000 + 0x1000 * n + 0x20 ≠ 0x800000 + 0x4000 * (8 * n + i) + 0x20; omega)
  exact (foldl_keeps (State.reg · _) _ hcores _ _).trans (reg_setReg_same _ _ _)

theorem assignCluster_of_working (hoff : s.blkState (pageOf .cluster n) ≠ 0) (hfence : s.blkState (pageOf .cluster n) ≠ 5) :
    s.assignCluster n v = s.orReg R.SCH_FLAGS 1 := if_pos ⟨hoff, hfence⟩

/-- The state in which a cluster has its mode and owners, its pages their keys and routes, and their storage is to be zeroed after a change of owner. -/
def State.reassigned (s : State) (n : Nat) (v : W32) : State :=
  let s1 := (s.setReg (R.SCH_CLUSTER n) v).ownCluster n v
  (s1.closePages (clusterPages n)).oweZeros (decide (s1.reg (R.HOOP_OWNER (pageOf .cluster n)) ≠ s.reg (R.HOOP_OWNER (pageOf .cluster n)))) (clusterPages n)

/-- The assignment of a cluster that works nothing also ends its turn (R407). -/
theorem assignCluster_of_stopped (hst : s.blkState (pageOf .cluster n) = 0 ∨ s.blkState (pageOf .cluster n) = 5) : s.assignCluster n v =
    ((s.reassigned n v).setTurn n { (s.reassigned n v).turn n with active := false }).setReg (R.SCH_TURN_HOOP n) 0 := by
  have hstopped : ¬ (s.blkState (pageOf .cluster n) ≠ 0 ∧ s.blkState (pageOf .cluster n) ≠ 5) := by tauto
  exact if_neg hstopped

theorem reg_setTurn {t : Turn} : (s.setTurn n t).reg a = s.reg a := rfl

theorem turn_setTurn {t : Turn} : (s.setTurn n t).turn n = t := mget_mset_same _ _ _ _

theorem turn_setReg : (s.setReg a v).turn n = s.turn n := rfl

theorem reg_reassigned (hkey : a % 0x1000 ≠ 0x24) (hroute : a % 0x1000 ≠ 0x18) :
    (s.reassigned n v).reg a = ((s.setReg (R.SCH_CLUSTER n) v).ownCluster n v).reg a := by
  rw [State.reassigned, reg_oweZeros, reg_closePages fun p hp => ?_]
  have := clusterPages_aligned p hp
  dsimp only [R.EXPERT_KEY, R.FAULT_ROUTE]
  omega

theorem reg_assignCluster (hst : s.blkState (pageOf .cluster n) = 0 ∨ s.blkState (pageOf .cluster n) = 5)
    (hkey : a % 0x1000 ≠ 0x24) (hroute : a % 0x1000 ≠ 0x18) (hturn : a ≠ R.SCH_TURN_HOOP n) :
    (s.assignCluster n v).reg a = ((s.setReg (R.SCH_CLUSTER n) v).ownCluster n v).reg a := by
  rw [assignCluster_of_stopped hst, reg_setReg_ne _ _ _ _ hturn, reg_setTurn, reg_reassigned hkey hroute]

theorem turn_assignCluster (hst : s.blkState (pageOf .cluster n) = 0 ∨ s.blkState (pageOf .cluster n) = 5) :
    ((s.assignCluster n v).turn n).active = false ∧ (s.assignCluster n v).reg (R.SCH_TURN_HOOP n) = 0 := by
  rw [assignCluster_of_stopped hst, turn_setReg, turn_setTurn, reg_setReg_same]
  exact ⟨rfl, rfl⟩

/-- A command whose operation keeps the part leaves the registers and the turns that the operation leaves. -/
theorem completes_reg_turns {c : Instr} {f : State → State} {t : State} {p : State → Prop} (hc : exec c s = run f s) (hf : f s = t)
    (hpart : t.part = s.part) (hp : ∀ u : State, u.reg = t.reg → u.turns = t.turns → p u) : completes c s p :=
  ⟨dev f s, hc, hp _ (funext fun a => by rw [reg_dev s a f (by rw [hf, hpart]), hf]) (by rw [dev_turns, hf])⟩

end Clusters

/-! ## The end of a turn (R408) -/

/-- The state in which a cluster's turn is over. -/
def State.turnOver (s : State) (n : Nat) : State :=
  let t := s.turn n
  (s.setTurn n { t with active := false, ends := mset 0 t.ends t.hoop (min s.now (t.start + t.limit)) }).setReg (R.SCH_TURN_HOOP n) 0

theorem turnOver_ended {s : State} {n : Nat} : ((s.turnOver n).turn n).active = false ∧ (s.turnOver n).reg (R.SCH_TURN_HOOP n) = 0 ∧
    mget 0 ((s.turnOver n).turn n).ends (s.turn n).hoop = min s.now ((s.turn n).start + (s.turn n).limit) := by
  rw [State.turnOver, turn_setReg, turn_setTurn]
  exact ⟨rfl, reg_setReg_same _ _ _, mget_mset_same _ _ _ _⟩

/-! ## Regulators (R412, R424) -/

section Regulators
variable {s : State} {h r a : Nat} {v : W32}

/-- The tokens rise no higher than BURST (R412). -/
theorem bucket_tokens_le : (s.bucket h r).tokens ≤ (s.reg (R.REG_BURST r h)).toNat * 1024 := by
  unfold State.bucket
  extract_lets b num burst t
  split
  next => exact le_refl _
  next hbelow =>
    rw [not_or, not_le] at hbelow
    exact hbelow.2.le

theorem bucket_waiting : (s.bucket h r).waiting = (mget Bucket.dflt s.buckets (h * 4 + r)).waiting := by
  unfold State.bucket
  extract_lets b num burst t
  split <;> rfl

/-- The state in which a regulator's register has been written: the tokens up to now rise at the old rate, and stand under the new BURST (R424). -/
def State.regulated (s : State) (h r a : Nat) (v : W32) : State :=
  let t := (s.setBucket h r (s.bucket h r)).setReg a v
  t.setBucket h r (t.bucket h r)

theorem reg_regulated : (s.regulated h r a v).reg a = v := reg_setReg_same (s.setBucket h r (s.bucket h r)) a v

theorem dev_regulated : dev (fun _ => s.regulated h r a v) s = s.regulated h r a v := rfl

/-- REG_RATE, REG_BURST and REG_WEIGHT, in the order in which REGULATOR_WRITE names them (R424). -/
def regulatorReg (r h which : Nat) : Nat := if which = 0 then R.REG_RATE r h else if which = 1 then R.REG_BURST r h else R.REG_WEIGHT r h

/-- What each of them stores of a value written (R424). -/
def regulatorLimit (which : Nat) (v : W32) : W32 :=
  if which = 0 then v else if which = 1 then applyLimit (.whole 4 1048576) v else applyLimit (.whole 0 255) v

theorem doRegulatorWrite_of_reaches {f which : Nat} (hreach : s.reaches f (regulatorReg r h which) = true) :
    doRegulatorWrite f h r which v s = s.regulated h r (regulatorReg r h which) (regulatorLimit which v) := by
  rw [← reach_of_reaches s (regulatorReg r h which) f (fun s => s.regulated h r (regulatorReg r h which) (regulatorLimit which v)) hreach]
  rfl

/-! ## Turns at a port (R17, R413) -/

theorem portAsks_iff : s.portAsks r h = true ↔
    (s.bucket h r).waiting ≠ [] ∧ (s.noBucket h r = true ∨ (0 ≤ (s.bucket h r).tokens ∧ s.rateOf h r ≠ 0)) ∧ s.portHeld r = false := by
  simp [State.portAsks, State.mayIssue]

/-- The hoops in the cyclic order after one of them. -/
theorem mem_cyclic (cur : Nat) (hh : h < 16) : h ∈ (List.range 16).map fun k => (cur + 1 + k) % 16 :=
  List.mem_map.2 ⟨(h + 16 - (cur + 1) % 16) % 16, List.mem_range.2 (by omega), by omega⟩

/-- A hoop that a port serves asks there; and it has a weight, where one that asks has. -/
theorem portTurn_serves {turn : Nat × Int} (hturn : s.portTurn r = some turn) : s.portAsks r turn.1 = true ∧
    ((∃ g < 16, s.portAsks r g = true ∧ 0 < s.weight r g) → 0 < s.weight r turn.1) := by
  unfold State.portTurn at hturn
  extract_lets cur order at hturn
  split at hturn
  next hcur =>
    obtain rfl := Option.some.inj hturn
    exact ⟨hcur.2.1, fun _ => hcur.2.2⟩
  next =>
    split at hturn
    next g hg =>
      obtain rfl := Option.some.inj hturn
      have hserved := List.find?_some hg
      rw [Bool.and_eq_true, decide_eq_true_eq] at hserved
      exact ⟨hserved.1, fun _ => hserved.2⟩
    next hnone =>
      obtain ⟨g, hg, rfl⟩ := Option.map_eq_some_iff.1 hturn
      refine ⟨List.find?_some hg, fun ⟨g', hlt, hasks, hweight⟩ => ?_⟩
      exact absurd (List.find?_eq_none.1 hnone g' (mem_cyclic _ hlt)) (by simp [hasks, hweight])

/-- A port at which only one hoop asks serves it. -/
theorem portTurn_of_only (hh : h < 16) (hasks : s.portAsks r h = true) (honly : ∀ g ≠ h, s.portAsks r g = false) : ∃ left, s.portTurn r = some (h, left) := by
  obtain ⟨turn, hturn⟩ : ∃ turn, s.portTurn r = some turn := by
    unfold State.portTurn
    extract_lets cur order
    split
    · exact ⟨_, rfl⟩
    · split
      · exact ⟨_, rfl⟩
      · obtain ⟨g, hg⟩ := Option.isSome_iff_exists.1 (List.find?_isSome.2 ⟨h, mem_cyclic cur.1 hh, hasks⟩)
        exact ⟨_, Option.map_eq_some_iff.2 ⟨g, hg, rfl⟩⟩
  have hserved : turn.1 = h := by
    by_contra hne
    exact absurd (portTurn_serves hturn).1 (by simp [honly _ hne])
  exact ⟨turn.2, by rw [hturn, ← hserved]⟩

/-! ## Held requests (R412) -/

/-- The state in which at most 4,096 bytes of the hoop's oldest held request have been issued, in a turn with `left` bytes. -/
def State.issued (s : State) (h r n since : Nat) (what : DrawFor) (rest : List (Nat × Nat × DrawFor)) (left : Int) : State :=
  let b := s.bucket h r
  let k := min n 4096
  ((s.spendTurn r h k left).setBucket h r { b with
    waiting := if 4096 < n then (n - 4096, since, what) :: rest else rest
    tokens := if s.noBucket h r then b.tokens else b.tokens - k }).addReg (R.OWN_THROTTLE h r) (s.now - since)

/-- What is released by the last of its bytes: a message goes out (R412). -/
def State.released (u : State) (n : Nat) : DrawFor → State
  | .msg p ticket => if 4096 < n then u else u.launchHeld p ticket
  | _ => u

variable {n since : Nat} {what : DrawFor} {rest : List (Nat × Nat × DrawFor)}

theorem doTokenIssue_of_turn {left : Int} (hwait : (s.bucket h r).waiting = (n, since, what) :: rest) (hturn : s.portTurn r = some (h, left)) :
    doTokenIssue h r s = (s.issued h r n since what rest left).released n what := by
  have hmore : min n 4096 < n ↔ 4096 < n := by omega
  have hrest : (if 4096 < n then (n - min n 4096, since, what) :: rest else rest) = if 4096 < n then (n - 4096, since, what) :: rest else rest := by
    split
    next hlong => rw [Nat.min_eq_right hlong.le]
    next => rfl
  unfold doTokenIssue
  simp only [hwait, hturn, if_true, hmore, hrest]
  cases what <;> rfl

/-- Where the port's turn is another's, or nobody's, nothing is issued. -/
theorem doTokenIssue_of_other (hother : ∀ turn, s.portTurn r = some turn → turn.1 ≠ h) : doTokenIssue h r s = s := by
  unfold doTokenIssue
  extract_lets b
  split
  next hturn => exact if_neg (hother _ hturn)
  next => rfl

theorem doTokenIssue_of_silent (hsilent : s.portAsks r h = false) : doTokenIssue h r s = s :=
  doTokenIssue_of_other fun turn hturn heq => by
    have hserved := (portTurn_serves hturn).1
    rw [heq, hsilent] at hserved
    exact nomatch hserved

theorem waiting_issued {left : Int} :
    ((s.issued h r n since what rest left).bucket h r).waiting = if 4096 < n then (n - 4096, since, what) :: rest else rest := by
  rw [bucket_waiting]
  exact congrArg Bucket.waiting (mget_mset_same _ _ _ _)

theorem throttle_issued {left : Int} :
    (s.issued h r n since what rest left).reg (R.OWN_THROTTLE h r) = satAdd (s.reg (R.OWN_THROTTLE h r)) (s.now - since) := reg_addReg_same _ _ _

end Regulators

/-! ## The ground-buffer hash (R290) -/

theorem doClGbHashWrite_of_reaches {s : State} {f n : Nat} {v : W32} (hreach : s.reaches f (R.CL_GB_HASH n) = true) : doClGbHashWrite f n v s =
    if s.clusterReserved n ≠ 0 ∨ ∃ e ∈ s.objs, e.2.used = true ∧ e.2.homed = true ∧ e.2.tier = 1 ∧ e.2.loc = n then s.accessRefused .cluster n
    else s.setReg (R.CL_GB_HASH n) (applyLimit (.fields [(0,1,0,1)]) v) := by
  unfold doClGbHashWrite
  rw [reach_of_reaches _ _ _ _ hreach]
  refine if_congr (or_congr Iff.rfl ?_) rfl rfl
  simp [List.any_eq_true, and_assoc]

/-- Settles O38: each write by its limit and its guard, the end of a turn by `doTurnEnd`'s two branches, and a held request by the hoop that its port
serves. -/
theorem clustersAndRegulators : Obligations.ClustersAndRegulators := by
  unfold Obligations.ClustersAndRegulators
  refine ⟨fun s f n v hreach => ?_, fun s f h n v => ⟨fun hreach => ?_, fun hreach => ?_⟩, fun s n => ?_, fun s f h r v => ?_⟩
  · intro st x
    have hrun : doSchClusterWrite f n v s = s.assignCluster n x := reach_of_reaches _ _ _ _ hreach
    constructor
    · intro hst
      obtain ⟨hactive, hhoop⟩ := turn_assignCluster (n := n) (v := x) hst
      refine completes_reg_turns rfl hrun ((stable_part s.part).assignCluster rfl) fun u hreg hturns => ?_
      rw [hreg, State.turn, hturns]
      refine ⟨?_, ?_, hactive, hhoop⟩
      · rw [reg_assignCluster hst (by dsimp only [R.SCH_CLUSTER]; omega) (by dsimp only [R.SCH_CLUSTER]; omega)
          (by dsimp only [R.SCH_CLUSTER, R.SCH_TURN_HOOP]; omega), reg_ownCluster_ne (by dsimp only [R.SCH_CLUSTER]; omega), reg_setReg_same]
      · have hpage : pageOf .cluster n = 0x140000 + 0x1000 * n := rfl
        rw [reg_assignCluster hst (by dsimp only [R.HOOP_OWNER]; omega) (by dsimp only [R.HOOP_OWNER]; omega)
          (by dsimp only [R.HOOP_OWNER, R.SCH_TURN_HOOP]; omega), reg_ownCluster_owner n.isLt]
    · intro hoff hfence
      refine completes_run rfl (hrun.trans (assignCluster_of_working hoff hfence)) rfl ⟨reg_setReg_ne _ _ _ _ ?_, ?_⟩
      · dsimp only [R.SCH_CLUSTER, R.SCH_FLAGS]
        omega
      · rw [orReg_eq, reg_setReg_same]
        exact bit_or_of_bit (by decide)
  · exact completes_run rfl (reach_of_reaches _ _ _ _ hreach) rfl ⟨reg_setReg_same _ _ _, rfl⟩
  · intro used
    constructor
    · intro hunused
      exact completes_run rfl ((doClGbHashWrite_of_reaches hreach).trans (if_neg hunused)) rfl (reg_setReg_same _ _ _)
    · intro hused
      refine completes_regs rfl ((doClGbHashWrite_of_reaches hreach).trans (if_pos hused)) ((stable_part s.part).accessRefused rfl) fun u hreg => ?_
      rw [hreg]
      exact reg_accessRefused_ne _ _ _ (by change 0x140800 + 0x1000 * n.val ≠ 0x140000 + 0x1000 * n.val + 0x10; omega)
  · intro t
    constructor
    · intro hactive hover
      have hends : ¬ (t.active = false ∨ (s.now < t.start + t.limit ∧ s.hoopHasWork n t.hoop = true)) := by
        rcases hover with hlate | hidle
        · simp [hactive, hlate.not_gt]
        · simp [hactive, hidle]
      exact completesThen_run (u := s.turnOver n) rfl (if_neg hends) turnOver_ended
    · intro hgoes
      exact completes_run rfl (if_pos hgoes) rfl rfl
  · refine ⟨fun hreach => ?_, fun hreach => ?_, fun hreach => ?_, fun n since what rest hwait =>
      ⟨fun htokens hport honly => ?_, fun hbucket hnone => ?_, fun hheld => ?_, fun hweight hasks => ?_⟩⟩
    · exact completes_run rfl (doRegulatorWrite_of_reaches (which := 0) hreach) dev_regulated reg_regulated
    · exact completes_run rfl (doRegulatorWrite_of_reaches (which := 1) hreach) dev_regulated ⟨reg_regulated, bucket_tokens_le⟩
    · exact completes_run rfl (doRegulatorWrite_of_reaches (which := 2) hreach) dev_regulated reg_regulated
    · obtain ⟨left, hturn⟩ := portTurn_of_only h.isLt (portAsks_iff.2 ⟨by simp [hwait], htokens, hport⟩) honly
      refine completesThen_run (u := s.issued h r n since what rest left) rfl ((doTokenIssue_of_turn hwait hturn).trans ?_) ⟨waiting_issued, throttle_issued⟩
      cases what <;> rfl
    · refine completes_run rfl (doTokenIssue_of_silent ?_) rfl rfl
      rw [← Bool.not_eq_true, portAsks_iff]
      rintro ⟨-, hall | ⟨htokens, hrate⟩, -⟩
      · simp [hbucket] at hall
      · exact hnone.elim htokens.not_gt hrate
    · refine completes_run rfl (doTokenIssue_of_silent ?_) rfl rfl
      rw [← Bool.not_eq_true, portAsks_iff]
      simp [hheld]
    · refine completes_run rfl (doTokenIssue_of_other fun turn hturn heq => ?_) rfl rfl
      have hserved := (portTurn_serves hturn).2 hasks
      rw [heq, hweight] at hserved
      exact absurd hserved (lt_irrefl 0)

end Sys2Proof.Machine

namespace Sys2Proof.Machine

/-! ## The knot window, hand-sets and knot checks (R396, R397, R404, R405) -/

section KnotWindow
variable {s : State} {f h k a : Nat} {v : W32}

theorem knot_setReg : (s.setReg a v).knot h k = s.knot h k := rfl

theorem knot_addReg {n : Nat} : (s.addReg a n).knot h k = s.knot h k := rfl

theorem knot_setKnot_ne {j : Nat} (hne : j ≠ k) : (s.setKnot h k v).knot h j = s.knot h j :=
  mget_mset_ne _ _ _ _ _ _ (by simpa [knotKey] using hne)

theorem reg_setKnot : (s.setKnot h k v).reg a = s.reg a := rfl

/-- A write in a hoop's own region of the window, or of function 0, acts while the compute domain is on (R84, R109). -/
theorem knotWindow_of_allowed {act : State → State} (hf : f = 0 ∨ f = h) (hon : s.domainOn .compute = true) : s.knotWindow f h act = act s := by
  have hview : ¬ (f ≠ 0 ∧ f ≠ h) := by tauto
  rw [State.knotWindow, if_neg hview, hon]
  rfl

theorem knotWindow_of_stranger {act : State → State} (hzero : f ≠ 0) (hother : f ≠ h) : s.knotWindow f h act = s.viewViolation :=
  if_pos ⟨hzero, hother⟩

theorem knots_viewViolation : s.viewViolation.knots = s.knots := by
  obtain ⟨-, -, -, -, -, hknots, -⟩ := (calm_keepsStore s).viewViolation ⟨rfl, rfl, rfl, rfl, rfl, rfl, rfl, rfl, rfl⟩
  exact hknots

/-- The state in which a knot has a new value, which the window counts (R396). -/
def State.windowSet (s : State) (h k : Nat) (v : W32) : State := (s.setKnot h k v).addReg (R.KN_SIGNAL_COUNT h) 1

theorem knotOp_of_free {reset : Bool} (hfree : s.knotHeld h k = false) :
    s.knotOp h k reset v true = (s.windowSet h k (if reset then 0 else s.knot h k + v)).testWaits h k := by
  rw [State.knotOp, hfree]
  rfl

/-- A held knot discards it (R397). -/
theorem knotOp_of_held {reset counted : Bool} (hheld : s.knotHeld h k = true) :
    s.knotOp h k reset v counted = s.addReg (R.KN_HELD_DISCARDS h) 1 := if_pos hheld

theorem knot_windowSet : (s.windowSet h k v).knot h k = v := knot_addReg.trans knot_setKnot

theorem knot_windowSet_ne {j : Nat} (hne : j ≠ k) : (s.windowSet h k v).knot h j = s.knot h j := knot_addReg.trans (knot_setKnot_ne hne)

theorem count_windowSet : (s.windowSet h k v).reg (R.KN_SIGNAL_COUNT h) = satAdd (s.reg (R.KN_SIGNAL_COUNT h)) 1 := reg_addReg_same _ _ _

/-! ### Hand-sets (R405) -/

/-- The debug registers of knot page 0 are reached beside the debug lock (R101). -/
theorem reach_kdbgSet {act : State → State} (hview : s.inView f R.KDBG_SET = true) (hpresent : present s.part .knot 0 = true)
    (hon : s.domainOn (blkRow .knot).domain = true) : s.reach f R.KDBG_SET act = act s := by
  have hblk : blkAt R.KDBG_SET = some (.knot, 0, 0xF0C) := by decide
  simp [State.reach, hview, hblk, hpresent, hon]

/-- The state in which a hand-set has been logged and counted. -/
def State.handSetLogged (s : State) (h k : Nat) (v : W32) : State :=
  State.addReg { s with kdbg := (⟨s.count, h, k, s.knot h k, v, s.knotHeld h k⟩ :: s.kdbg).take 16 } R.KDBG_SET_COUNT 1

/-- The state in which it has been made: it marks the device and the hoop as touched. -/
def State.handSet (s : State) (h k : Nat) (v : W32) : State :=
  (((s.handSetLogged h k v).orReg R.DEV_STATUS 2).orReg (R.KN_STATUS h) 1).setKnot h k v

theorem count_handSetLogged : (s.handSetLogged h k v).reg R.KDBG_SET_COUNT = satAdd (s.reg R.KDBG_SET_COUNT) 1 := reg_addReg_same _ _ _

theorem reg_handSet (hstatus : a ≠ R.KN_STATUS h) : (s.handSet h k v).reg a = ((s.handSetLogged h k v).orReg R.DEV_STATUS 2).reg a := by
  rw [State.handSet, reg_setKnot, orReg_eq _ (R.KN_STATUS h), reg_setReg_ne _ _ _ _ hstatus]

theorem count_handSet : (s.handSet h k v).reg R.KDBG_SET_COUNT = satAdd (s.reg R.KDBG_SET_COUNT) 1 := by
  rw [reg_handSet (by dsimp only [R.KDBG_SET_COUNT, R.KN_STATUS]; omega), orReg_eq, reg_setReg_ne _ _ _ _ (by decide), count_handSetLogged]

theorem touched_handSet : bit ((s.handSet h k v).reg R.DEV_STATUS) 1 = true := by
  rw [reg_handSet (by dsimp only [R.DEV_STATUS, R.KN_STATUS]; omega), orReg_eq, reg_setReg_same]
  exact bit_or_of_bit (by decide)

section HandSet
variable (hview : s.inView f R.KDBG_SET = true) (hpresent : present s.part .knot 0 = true) (hon : s.domainOn (blkRow .knot).domain = true)
  (hk : fld (s.reg R.KDBG_SEL) 0 14 = k) (hh : fld (s.reg R.KDBG_SEL) 16 4 = h)
include hview hpresent hon hk hh

theorem doKdbgSet_of_free (hfree : s.knotHeld h k = false) : doKdbgSet f v s = ((s.handSet h k v).testWaits h k).settled := by
  subst hk hh
  rw [doKdbgSet, reach_kdbgSet hview hpresent hon]
  exact if_neg (by rw [hfree]; decide)

theorem doKdbgSet_of_held (hheld : s.knotHeld h k = true) : doKdbgSet f v s = (s.handSetLogged h k v).addReg (R.KN_HELD_DISCARDS h) 1 := by
  subst hk hh
  rw [doKdbgSet, reach_kdbgSet hview hpresent hon]
  exact if_pos hheld

end HandSet

/-! ### Knot checks (R404) -/

/-- The state in which the value of an entry's knot stands in the entry's register. -/
def State.noteKnot (h : Nat) (at_ : Nat → Nat) (s : State) (e : Nat × Nat) : State := s.setReg (at_ e.1) (s.knot h e.2)

/-- The same for all entries of a check. -/
def State.noteKnots (s : State) (h : Nat) (at_ : Nat → Nat) (es : List (Nat × Nat)) : State := es.foldl (State.noteKnot h at_) s

variable {at_ : Nat → Nat} {es : List (Nat × Nat)}

/-- Only registers change. -/
theorem noteKnots_eq : s.noteKnots h at_ es = { s with regs := (s.noteKnots h at_ es).regs } := by
  induction es generalizing s with
  | nil => rfl
  | cons e es ih => exact ih (s := s.noteKnot h at_ e)

theorem reg_noteKnots_ne (ha : ∀ i, a ≠ at_ i) : (s.noteKnots h at_ es).reg a = s.reg a :=
  foldl_keeps (State.reg · a) (State.noteKnot h at_) (fun s e => reg_setReg_ne s _ _ _ (ha e.1)) es s

/-- Each entry's register holds its knot's value, where an entry names one knot. -/
theorem reg_noteKnots {e : Nat × Nat} (hinj : Function.Injective at_) (hes : ∀ x ∈ es, x.1 = e.1 → x.2 = e.2) (he : e ∈ es) :
    (s.noteKnots h at_ es).reg (at_ e.1) = s.knot h e.2 := by
  obtain ⟨l1, l2, rfl⟩ := List.append_of_mem he
  have hknots (t : State) (l : List (Nat × Nat)) : (t.noteKnots h at_ l).knots = t.knots :=
    foldl_keeps State.knots (State.noteKnot h at_) (fun _ _ => rfl) l t
  have hsplit : s.noteKnots h at_ (l1 ++ e :: l2) = ((s.noteKnots h at_ l1).noteKnot h at_ e).noteKnots h at_ l2 := by
    rw [State.noteKnots, List.foldl_append]
    rfl
  have hknot : (s.noteKnots h at_ l1).knot h e.2 = s.knot h e.2 := congrArg (mget 0 · _) (hknots s l1)
  rw [hsplit, State.noteKnot, hknot]
  refine (List.foldlRecOn (motive := fun t : State => t.reg (at_ e.1) = s.knot h e.2 ∧ t.knots = s.knots) l2 (State.noteKnot h at_)
    ⟨reg_setReg_same _ _ _, hknots s l1⟩ fun t ⟨ht, hkept⟩ x hx => ⟨?_, hkept⟩).1
  by_cases hentry : x.1 = e.1
  · rw [State.noteKnot, hentry, reg_setReg_same, hes x (by simp [hx]) hentry]
    exact congrArg (mget 0 · _) hkept
  · rw [State.noteKnot, reg_setReg_ne _ _ _ _ (fun heq => hentry (hinj heq).symm), ht]

/-- An entry of a check names one knot. -/
theorem knot_of_chkEntries {e x : Nat × Nat} (he : e ∈ s.chkEntries h) (hx : x ∈ s.chkEntries h) (heq : x.1 = e.1) : x.2 = e.2 := by
  have hof {y : Nat × Nat} (hy : y ∈ s.chkEntries h) : y.2 = fld (s.reg (R.CHK_KNOT h y.1)) 0 31 := by
    obtain ⟨i, -, hi⟩ := List.mem_filterMap.1 hy
    dsimp only at hi
    split at hi
    · rw [← Option.some.inj hi]
    · exact nomatch hi
  rw [hof he, hof hx, heq]

/-- The knots whose values differ from those recorded, as the bits of LEAK_MASK. -/
def State.leakMask (s : State) (h : Nat) : Nat :=
  (s.chkEntries h).foldl (fun (a : Nat) (e : Nat × Nat) => if s.knot h e.2 = s.reg (R.CHK_OPEN_VAL h e.1) then a else a + 2 ^ e.1) 0

/-- The state in which an opened check has its knots' values recorded. -/
def State.checkOpened (s : State) (h : Nat) : State :=
  { s.noteKnots h (R.CHK_OPEN_VAL h) (s.chkEntries h) with chkOpen := mset false (s.noteKnots h (R.CHK_OPEN_VAL h) (s.chkEntries h)).chkOpen h true }

/-- The state in which a closed check has them recorded. -/
def State.checkClosed (s : State) (h : Nat) : State :=
  { s.noteKnots h (R.CHK_CLOSE_VAL h) (s.chkEntries h) with chkOpen := mset false (s.noteKnots h (R.CHK_CLOSE_VAL h) (s.chkEntries h)).chkOpen h false }

theorem result_chkResult {n mask : Nat} : (s.chkResult h n mask).reg (R.CHK_RESULT h) = w32 (1 + 16 * n + 2 ^ 16 * mask) := reg_setReg_same _ _ _

theorem chkIsOpen_chkResult {n mask : Nat} : (s.chkResult h n mask).chkIsOpen h = s.chkIsOpen h := rfl

theorem chkIsOpen_checkOpened : (s.checkOpened h).chkIsOpen h = true := mget_mset_same false _ h true

theorem chkIsOpen_checkClosed : (s.checkClosed h).chkIsOpen h = false := mget_mset_same false _ h false

theorem value_checkOpened {e : Nat × Nat} {n mask : Nat} (he : e ∈ s.chkEntries h) :
    ((s.checkOpened h).chkResult h n mask).reg (R.CHK_OPEN_VAL h e.1) = s.knot h e.2 := by
  have hinj : Function.Injective (R.CHK_OPEN_VAL h) := fun i j hij => by
    dsimp only [R.CHK_OPEN_VAL] at hij
    omega
  rw [State.chkResult, reg_setReg_ne _ _ _ _ (by dsimp only [R.CHK_OPEN_VAL, R.CHK_RESULT]; omega)]
  exact reg_noteKnots hinj (fun x hx => knot_of_chkEntries he hx) he

theorem leakCount_checkClosed : (s.checkClosed h).reg (R.KN_LEAK_COUNT h) = s.reg (R.KN_LEAK_COUNT h) :=
  reg_noteKnots_ne fun i => by dsimp only [R.KN_LEAK_COUNT, R.CHK_CLOSE_VAL]; omega

theorem dev_checkOpened {n mask : Nat} : dev (fun _ => (s.checkOpened h).chkResult h n mask) s = (s.checkOpened h).chkResult h n mask := by
  rw [State.checkOpened, noteKnots_eq]
  rfl

theorem dev_checkClosed {n mask : Nat} : dev (fun _ => (s.checkClosed h).chkResult h n mask) s = (s.checkClosed h).chkResult h n mask := by
  rw [State.checkClosed, noteKnots_eq]
  rfl

theorem dev_leakCounted {n mask : Nat} : dev (fun _ => ((s.checkClosed h).addReg (R.KN_LEAK_COUNT h) 1).chkResult h n mask) s =
    ((s.checkClosed h).addReg (R.KN_LEAK_COUNT h) 1).chkResult h n mask := by
  rw [State.checkClosed, noteKnots_eq]
  rfl

theorem badKnot_iff : ((s.chkEntries h).any fun e => decide (16383 < e.2)) = true ↔ ∃ e ∈ s.chkEntries h, 16383 < e.2 := by
  simp [List.any_eq_true]

section Check
variable (haccepts : s.accepts f (R.CHK_CMD h) = true)
include haccepts

theorem doChkOpen_of_open (hopen : s.chkIsOpen h = true) : doChkOpen f h s = s.chkResult h 3 0 := by
  rw [doChkOpen, command_of_accepts s _ _ _ haccepts]
  exact if_pos hopen

theorem doChkOpen_of_bad (hclosed : s.chkIsOpen h = false) (hbad : ∃ e ∈ s.chkEntries h, 16383 < e.2) : doChkOpen f h s = s.chkResult h 4 0 := by
  rw [doChkOpen, command_of_accepts s _ _ _ haccepts]
  exact (if_neg (by rw [hclosed]; decide)).trans (if_pos (badKnot_iff.2 hbad))

theorem doChkOpen_of_good (hclosed : s.chkIsOpen h = false) (hgood : ¬ ∃ e ∈ s.chkEntries h, 16383 < e.2) :
    doChkOpen f h s = (s.checkOpened h).chkResult h 0 0 := by
  rw [doChkOpen, command_of_accepts s _ _ _ haccepts]
  exact (if_neg (by rw [hclosed]; decide)).trans (if_neg fun hbad => hgood (badKnot_iff.1 hbad))

theorem doChkClose_of_closed (hclosed : s.chkIsOpen h = false) : doChkClose f h s = s.chkResult h 2 0 := by
  rw [doChkClose, command_of_accepts s _ _ _ haccepts]
  exact if_pos (by rw [hclosed]; rfl)

theorem doChkClose_of_bad (hopen : s.chkIsOpen h = true) (hbad : ∃ e ∈ s.chkEntries h, 16383 < e.2) : doChkClose f h s = s.chkResult h 4 0 := by
  rw [doChkClose, command_of_accepts s _ _ _ haccepts]
  exact (if_neg (by rw [hopen]; decide)).trans (if_pos (badKnot_iff.2 hbad))

theorem doChkClose_of_good (hopen : s.chkIsOpen h = true) (hgood : ¬ ∃ e ∈ s.chkEntries h, 16383 < e.2) :
    doChkClose f h s = if s.leakMask h = 0 then (s.checkClosed h).chkResult h 0 0
      else ((s.checkClosed h).addReg (R.KN_LEAK_COUNT h) 1).chkResult h 1 (s.leakMask h) := by
  rw [doChkClose, command_of_accepts s _ _ _ haccepts]
  exact (if_neg (by rw [hopen]; decide)).trans (if_neg fun hbad => hgood (badKnot_iff.1 hbad))

end Check

end KnotWindow

/-- Settles O37: a write of the window and a hand-set by whether the knot is held; a check by whether it is open and its knots are in range. -/
theorem knotWindowAndChecks : Obligations.KnotWindowAndChecks := by
  unfold Obligations.KnotWindowAndChecks
  refine ⟨fun s f h k v hf hon => ?_, fun s f h k v hzero hother c hc => ?_, fun s f v hview hpresent hon => ?_, fun s f h haccepts => ?_⟩
  · have hwindow {act : State → State} : s.knotWindow f h act = act s := knotWindow_of_allowed (hf.imp (congrArg Fin.val) (congrArg Fin.val)) hon
    refine ⟨fun hfree => ⟨?_, ?_⟩, fun hheld c hc => ?_⟩
    · exact completesThen_run (f := doKwAdd f h k v) (u := s.windowSet h k (s.knot h k + v)) rfl
        (hwindow.trans (congrArg State.settled (knotOp_of_free hfree))) ⟨knot_windowSet, count_windowSet⟩
    · exact completesThen_run (f := doKwReset f h k) (u := s.windowSet h k 0) rfl
        (hwindow.trans (congrArg State.settled (knotOp_of_free hfree))) ⟨knot_windowSet, fun j hj => knot_windowSet_ne hj⟩
    · fin_cases hc
      · exact completesThen_run (f := doKwAdd f h k v) rfl (hwindow.trans (congrArg State.settled (knotOp_of_held hheld))) ⟨rfl, reg_addReg_same _ _ _⟩
      · exact completesThen_run (f := doKwReset f h k) rfl (hwindow.trans (congrArg State.settled (knotOp_of_held hheld))) ⟨rfl, reg_addReg_same _ _ _⟩
  · have hwindow {act : State → State} : s.knotWindow f h act = s.viewViolation :=
      knotWindow_of_stranger (fun h0 => hzero (Fin.ext h0)) (fun hh => hother (Fin.ext hh))
    fin_cases hc
    · exact ⟨dev (doKwAdd f h k v) s, rfl, (congrArg State.knots hwindow).trans knots_viewViolation⟩
    · exact ⟨dev (doKwReset f h k) s, rfl, (congrArg State.knots hwindow).trans knots_viewViolation⟩
  · intro k h logged
    refine ⟨fun hfree => ?_, fun hheld => ?_⟩
    · exact completesThen_run (f := doKdbgSet f v) rfl (doKdbgSet_of_free hview hpresent hon rfl rfl hfree)
        ⟨⟨count_handSet, rfl⟩, knot_setKnot, touched_handSet⟩
    · refine completes_run (f := doKdbgSet f v) rfl (doKdbgSet_of_held hview hpresent hon rfl rfl hheld) rfl ⟨⟨?_, rfl⟩, rfl⟩
      rw [reg_addReg_ne _ _ _ _ (by dsimp only [R.KDBG_SET_COUNT, R.KN_HELD_DISCARDS]; omega), count_handSetLogged]
  · intro es leaks answers
    refine ⟨fun hopen => ?_, fun hclosed => ?_, fun hbad => ⟨fun hclosed => ?_, fun hopen => ?_⟩, fun hrange => ?_⟩
    · exact completes_run (f := doChkOpen f h) rfl (doChkOpen_of_open haccepts hopen) rfl result_chkResult
    · exact completes_run (f := doChkClose f h) rfl (doChkClose_of_closed haccepts hclosed) rfl result_chkResult
    · exact completes_run (f := doChkOpen f h) rfl (doChkOpen_of_bad haccepts hclosed hbad) rfl ⟨result_chkResult, chkIsOpen_chkResult.trans hclosed⟩
    · exact completes_run (f := doChkClose f h) rfl (doChkClose_of_bad haccepts hopen hbad) rfl ⟨result_chkResult, chkIsOpen_chkResult.trans hopen⟩
    · have hgood : ¬ ∃ e ∈ s.chkEntries h, 16383 < e.2 := fun ⟨e, he, hlt⟩ => (hrange e he).not_gt hlt
      refine ⟨fun hclosed => ?_, fun hopen hnone => ?_, fun hopen hsome => ?_⟩
      · exact completes_run (f := doChkOpen f h) rfl (doChkOpen_of_good haccepts hclosed hgood) dev_checkOpened
          ⟨result_chkResult, chkIsOpen_checkOpened, fun e he => value_checkOpened he⟩
      · exact completes_run (f := doChkClose f h) rfl ((doChkClose_of_good haccepts hopen hgood).trans (if_pos hnone)) dev_checkClosed
          ⟨result_chkResult, chkIsOpen_checkClosed⟩
      · refine completes_run (f := doChkClose f h) rfl ((doChkClose_of_good haccepts hopen hgood).trans (if_neg hsome)) dev_leakCounted
          ⟨result_chkResult, chkIsOpen_checkClosed, ?_⟩
        rw [State.chkResult, reg_setReg_ne _ _ _ _ (by dsimp only [R.KN_LEAK_COUNT, R.CHK_RESULT]; omega), reg_addReg_same, leakCount_checkClosed]

end Sys2Proof.Machine

namespace Sys2Proof.Machine

/-! ## What the release of commands and the work of moves leave alone

As `Calm` and `Stable` do for the stores, `Aside`, `Freeing` and `Beginning` name the changes that an invariant of the ledger has to go
through; the lemma of an operation then says that such an invariant goes through the operation. -/

/-- The begun commands, the descriptors of contexts, the next number, the hoops with their records, and the evictions that are noted as refused. -/
def State.ledger (s : State) := (s.flights, s.ctxs, s.nextId, s.hoops, s.freeRefused)

/-- An invariant that every change beside the ledger keeps. -/
structure Aside (I : State → Prop) : Prop where
  same : ∀ {s t : State}, I s → t.ledger = s.ledger → I t

/-- An invariant that changes of contexts keep too. -/
structure Freeing (I : State → Prop) : Prop extends Aside I where
  ctxs : ∀ {s l}, I s → I { s with ctxs := l }

section Aside
variable {I : State → Prop} {s : State} {α : Type} {a b : State}

theorem Aside.ite (_ : Aside I) {c : Prop} {_ : Decidable c} (ha : I a) (hb : I b) : I (if c then a else b) := by split <;> assumption

theorem Aside.foldl (_ : Aside I) {f : State → α → State} {l : List α} (hf : ∀ s x, I s → I (f s x)) (hs : I s) : I (l.foldl f s) :=
  List.foldlRecOn l f hs fun s hs x _ => hf s x hs

theorem Aside.setReg {a : Nat} {v : W32} (hI : Aside I) (hs : I s) : I (s.setReg a v) := hI.same hs rfl

theorem Aside.addReg {a n : Nat} (hI : Aside I) (hs : I s) : I (s.addReg a n) := hI.same hs rfl

theorem Aside.addPieces {a unit n : Nat} (hI : Aside I) (hs : I s) : I (s.addPieces a unit n) := hI.same hs rfl

theorem Aside.maxReg {a v : Nat} (hI : Aside I) (hs : I s) : I (s.maxReg a v) := hI.ite (hI.setReg hs) hs

theorem Aside.setObj {k : Nat} {o : Obj} (hI : Aside I) (hs : I s) : I (s.setObj k o) := hI.same hs rfl

theorem Aside.setCq {h q : Nat} {x : Cq} (hI : Aside I) (hs : I s) : I (s.setCq h q x) := hI.same hs rfl

theorem Aside.draw {h r n : Nat} {f : DrawFor} (hI : Aside I) (hs : I s) : I (s.draw h r n f) := hI.ite (hI.same hs rfl) (hI.same hs rfl)

theorem Aside.transmit {p : Nat} (hI : Aside I) (hs : I s) : I (s.transmit p) := by
  unfold State.transmit
  split
  · exact hs
  · exact hI.ite hs (hI.ite (hI.same hs rfl) (hI.same hs rfl))

theorem Aside.launch {p : Nat} {m : LinkMsg} (hI : Aside I) (hs : I s) : I (s.launch p m) := hI.transmit (hI.same hs rfl)

theorem Aside.sendMsg {p : Nat} {m : LinkMsg} (hI : Aside I) (hs : I s) : I (s.sendMsg p m) :=
  hI.ite (hI.same (hI.ite hs (hI.draw hs)) rfl) (hI.launch (hI.ite hs (hI.draw hs)))

theorem Aside.endWait {p : AllocWait → Bool} (hI : Aside I) (hs : I s) : I (s.endWait p) := hI.same (hI.foldl (fun _ _ hs => hI.maxReg hs) hs) rfl

theorem Aside.programAll {place : Nat} {l : List (Nat × Nat)} (hI : Aside I) (hs : I s) : I (s.programAll place l) :=
  hI.foldl (fun _ _ hs => hI.ite hs (hI.same hs rfl)) hs

theorem Aside.endCharge {place tiles : Nat} {l : List (Nat × Nat)} (hI : Aside I) (hs : I s) : I (s.endCharge place tiles l) :=
  hI.foldl (fun _ _ hs => hI.same hs rfl) (hI.programAll hs)

theorem Aside.cancelDraws {p : DrawFor → Bool} (hI : Aside I) (hs : I s) : I (s.cancelDraws p) := hI.same hs rfl

theorem Aside.dropMove {id : Nat} (hI : Aside I) (hs : I s) : I (s.dropMove id) := by
  unfold State.dropMove
  refine hI.cancelDraws (hI.endWait (hI.same (hI.foldl (fun _ _ hs => hI.ite (hI.endCharge hs) hs) ?_) rfl))
  refine hI.foldl (fun _ _ hs => hI.foldl (fun _ _ hs => ?_) hs) hs
  split
  · exact hI.ite hs (hI.addReg hs)
  · exact hs

theorem Aside.modObj {k : Nat} {f : Obj → Obj} (hI : Aside I) (hs : I s) : I (s.modObj k f) := hI.setObj hs

theorem Aside.retire {k h tier unit bytes : Nat} (hI : Aside I) (hs : I s) : I (s.retire k h tier unit bytes) := hI.ite hs (hI.same hs rfl)

theorem Aside.freeObj {k : Nat} (hI : Aside I) (hs : I s) : I (s.freeObj k) := hI.setObj (hI.ite (hI.retire hs) hs)

theorem Aside.keepOnly {i n : Nat} (hI : Aside I) (hs : I s) : I (s.keepOnly i n) := hI.same hs rfl

theorem Aside.unholdKnots {id : Nat} (hI : Aside I) (hs : I s) : I (s.unholdKnots id) := hI.same hs rfl

theorem Aside.endAsk {i : Nat} (hI : Aside I) (hs : I s) : I (s.endAsk i) := hI.ite hs (hI.setReg hs)

theorem Aside.dropReader {id : Nat} (hI : Aside I) (hs : I s) : I (s.dropReader id) := hI.same hs rfl

/-! ### Commands are released (R169, R416) -/

theorem Freeing.setCtx {i : Nat} {c : Ctx} (hI : Freeing I) (hs : I s) : I (s.setCtx i c) := hI.ctxs hs

theorem Freeing.undoCtx {i : Nat} (hI : Freeing I) (hs : I s) : I (s.undoCtx i) :=
  hI.setCtx (hI.endAsk (hI.foldl (fun _ _ hs => hI.ite (hI.modObj hs) (hI.freeObj hs)) (hI.keepOnly (hI.foldl (fun _ _ hs => hI.dropMove hs) hs))))

theorem Freeing.undoOpen {h q : Nat} (hI : Freeing I) (hs : I s) : I (s.undoOpen h q) := hI.foldl (fun _ _ hs => hI.undoCtx hs) hs

theorem Freeing.withdrawHead {h q : Nat} (hI : Freeing I) (hs : I s) : I (s.withdrawHead h q) :=
  hI.setCq (hI.endWait (hI.same (hI.foldl (fun _ _ hs => hI.freeObj hs) (hI.ite (hI.undoOpen hs) hs)) rfl))

/-- The release of a command takes an invariant `J` to `I` where the removal of its entry does. -/
theorem Freeing.releaseFlight {J : State → Prop} {f : InFlight} (hJ : Freeing J) (hI : Freeing I)
    (hdrop : ∀ t : State, J t → I { t with flights := t.flights.filter fun x => decide (x.id ≠ f.id) }) (hs : J s) : I (s.releaseFlight f) := by
  unfold State.releaseFlight
  extract_lets mine s1 gone s2 s3 s4 s5 s6 s7 s8 s9 s10 _ s11
  have h1 : J s1 := hJ.foldl (fun _ _ hs => hJ.dropMove hs) hs
  have h2 : J s2 := hJ.foldl (fun _ _ hs => hJ.ite (hJ.sendMsg hs) hs) h1
  have h3 : J s3 := hJ.foldl (fun _ _ hs => hJ.ite (hJ.endCharge hs) hs) h2
  have h4 : J s4 := hJ.endWait (hJ.same h3 rfl)
  have h5 : J s5 := hJ.foldl (fun _ _ hs => hJ.ite (hJ.endCharge hs) hs) h4
  have h7 : J s7 := hJ.foldl (fun _ _ hs => hJ.freeObj hs) (hJ.unholdKnots h5)
  have h8 : I s8 := hI.same (hdrop s7 h7) rfl
  have h9 : I s9 := hI.foldl (fun _ _ hs => hI.addReg hs) h8
  have h10 : I s10 := hI.ite (hI.foldl (fun _ _ hs => hI.undoCtx hs) h9) h9
  have h11 : I s11 := hI.ite (hI.setCtx h10) h10
  exact hI.cancelDraws (hI.dropReader h11)

end Aside

/-! ## Pre-emption and release (R415, R416, R418, R420) -/

section Kills
variable {s : State} {h q : Nat}

theorem freeing_flights (l : List InFlight) : Freeing fun t => t.flights = l where
  same := fun hs h => (congrArg Prod.fst h).trans hs
  ctxs := id

theorem flights_releaseFlight (f : InFlight) : (s.releaseFlight f).flights = s.flights.filter fun x => decide (x.id ≠ f.id) :=
  Freeing.releaseFlight (J := fun t => t.flights = s.flights) (I := fun t => t.flights = s.flights.filter fun x => decide (x.id ≠ f.id))
    (freeing_flights _) (freeing_flights _) (fun _ ht => congrArg (List.filter _) ht) rfl

theorem flights_withdrawHead : (s.withdrawHead h q).flights = s.flights :=
  Freeing.withdrawHead (I := fun t => t.flights = s.flights) (freeing_flights _) rfl

theorem mem_foldl_releaseFlight {l : List InFlight} {x : InFlight} (hx : x ∈ (l.foldl (fun s f => s.releaseFlight f) s).flights) :
    x ∈ s.flights ∧ ∀ f ∈ l, x.id ≠ f.id := by
  induction l generalizing s with
  | nil => exact ⟨hx, fun f hf => absurd hf List.not_mem_nil⟩
  | cons f l ih =>
    obtain ⟨hmem, hrest⟩ := ih hx
    rw [flights_releaseFlight] at hmem
    obtain ⟨hmem, hne⟩ := List.mem_filter.1 hmem
    exact ⟨hmem, List.forall_mem_cons.2 ⟨of_decide_eq_true hne, hrest⟩⟩

/-- None of the commands that a kill selects is left. -/
theorem not_of_mem_killWhere {p : InFlight → Bool} {x : InFlight} (hx : x ∈ (s.killWhere p).flights) : p x = false := by
  obtain ⟨hmem, hne⟩ := mem_foldl_releaseFlight hx
  by_contra hp
  exact hne x (List.mem_filter.2 ⟨hmem, Bool.eq_true_of_not_eq_false hp⟩) rfl

theorem flights_killQueue : (s.killQueue h q).flights = (s.killWhere fun f => decide (f.cmd.hoop = h ∧ f.cmd.cq = q)).flights := by
  unfold State.killQueue
  extract_lets s1 s2 c s3
  have h2 : s2.flights = s1.flights := flights_withdrawHead (s := s1)
  have h3 : s3.flights = s2.flights := by dsimp only [s3]; split <;> rfl
  clear_value s3 c
  rw [State.setCq_flights, h3, h2]

/-- A queue is pre-empted: killed, it stands PREEMPTED (R416, R418). -/
def State.preemptQueue (g : Nat) (s : State) (q : Nat) : State := (s.killQueue g q).setCq g q { (s.killQueue g q).cq g q with mode := .preempted }

theorem preemptQueue_effect : ((s.preemptQueue h q).cq h q).mode = .preempted ∧ ((s.preemptQueue h q).cq h q).read = ((s.preemptQueue h q).cq h q).done ∧
    ((s.preemptQueue h q).cq h q).head = none ∧ ∀ x ∈ (s.preemptQueue h q).flights, ¬ (x.cmd.hoop = h ∧ x.cmd.cq = q) := by
  obtain ⟨hhead, hread⟩ := cq_killQueue (s := s) (h := h) (q := q)
  rw [State.preemptQueue, cq_setCq_same, State.setCq_flights, flights_killQueue]
  generalize (s.killQueue h q).cq h q = x at hhead hread
  refine ⟨rfl, hread, hhead, fun f hf => ?_⟩
  have hnot := not_of_mem_killWhere hf
  exact of_decide_eq_false hnot

/-- The queues that a PREEMPT kills: the selected ones that run (R415). -/
def State.runningOf (s : State) (h g : Nat) : List Nat := (s.preMask h).filter fun q => decide ((s.cq g q).mode = .running)

/-- The state in which a PREEMPT has killed its queues and reported them (R415, R418). -/
def State.preempted (s : State) (h g cyc : Nat) : State :=
  (((s.runningOf h g).foldl (State.preemptQueue g) s).maxReg (R.PRE_LATENCY_MAX g) cyc).preResult h 0
    (((s.runningOf h g).map (s.killCount g)).foldl (· + ·) 0)

/-- A released queue runs again, if it stands PREEMPTED (R420). -/
def State.releaseQueue (g : Nat) (s : State) (q : Nat) : State :=
  if (s.cq g q).mode = .preempted then s.setCq g q { s.cq g q with mode := .running } else s

theorem result_preResult {n killed : Nat} : (s.preResult h n killed).reg (R.PRE_RESULT h) = w32 (1 + 16 * n + 2 ^ 16 * killed) := reg_setReg_same _ _ _

theorem cqs_preempted_of_none {g cyc : Nat} (hnone : s.runningOf h g = []) : (s.preempted h g cyc).cqs = s.cqs := by
  rw [State.preempted, hnone]
  exact maxReg_cqs _ _ _

/-- The one queue that a PREEMPT kills stands PREEMPTED with READ at DONE, and none of its commands is left. -/
theorem preempted_of_one {g cyc : Nat} (hone : s.runningOf h g = [q]) :
    (s.preempted h g cyc).reg (R.PRE_RESULT h) = w32 (1 + 16 * 0 + 2 ^ 16 * s.killCount g q) ∧
    ((s.preempted h g cyc).cq g q).mode = .preempted ∧ ((s.preempted h g cyc).cq g q).read = ((s.preempted h g cyc).cq g q).done ∧
    ((s.preempted h g cyc).cq g q).head = none ∧ ∀ x ∈ (s.preempted h g cyc).flights, ¬ (x.cmd.hoop = g ∧ x.cmd.cq = q) := by
  have hcq : (s.preempted h g cyc).cq g q = (s.preemptQueue g q).cq g q := by
    rw [State.preempted, hone]
    exact congrArg (mget Cq.dflt · _) (maxReg_cqs _ _ _)
  have hflights : (s.preempted h g cyc).flights = (s.preemptQueue g q).flights := by
    rw [State.preempted, hone]
    exact maxReg_flights _ _ _
  rw [hcq, hflights]
  refine ⟨?_, preemptQueue_effect⟩
  rw [State.preempted, hone, result_preResult]
  simp

theorem cq_setCq_ne {j : Nat} (x : Cq) (hne : j ≠ q) : (s.setCq h q x).cq h j = s.cq h j :=
  mget_mset_ne _ _ _ _ _ _ (show h * 64 + j ≠ h * 64 + q by omega)

theorem cq_releaseQueue_ne {g j : Nat} (hne : j ≠ q) : (s.releaseQueue g q).cq g j = s.cq g j := by
  unfold State.releaseQueue
  split
  · exact cq_setCq_ne _ hne
  · rfl

theorem mode_releaseQueue_same {g : Nat} : ((s.releaseQueue g q).cq g q).mode = if (s.cq g q).mode = .preempted then .running else (s.cq g q).mode := by
  unfold State.releaseQueue
  split
  · rw [cq_setCq_same]
  · rfl

/-- RELEASE sets the preempted ones of the selected queues running, and leaves the others (R420). -/
theorem mode_foldl_releaseQueue {g j : Nat} (l : List Nat) : ((l.foldl (State.releaseQueue g) s).cq g j).mode =
    if j ∈ l ∧ (s.cq g j).mode = .preempted then .running else (s.cq g j).mode := by
  induction l generalizing s with
  | nil => simp
  | cons q l ih =>
    rw [List.foldl_cons, ih]
    by_cases hj : j = q
    · subst hj
      rw [mode_releaseQueue_same]
      by_cases hp : (s.cq g j).mode = .preempted <;> simp [hp]
    · rw [cq_releaseQueue_ne hj]
      simp [hj]

theorem releaseQueue_eq {g : Nat} (l : List Nat) : l.foldl (State.releaseQueue g) s = { s with cqs := (l.foldl (State.releaseQueue g) s).cqs } := by
  refine List.foldlRecOn (motive := fun t : State => t = { s with cqs := t.cqs }) l (State.releaseQueue g) rfl fun t ht q _ => ?_
  unfold State.releaseQueue
  split
  · rw [ht]
    rfl
  · exact ht

section Accepted
variable {f g : Nat} (haccepts : s.accepts f (R.PRE_CMD h) = true) (hdone : bit (s.reg (R.PRE_RESULT h)) 0 = true)
include haccepts hdone

/-- While DONE is 1, a command for a hoop that is not READY is refused, and another acts (R418). -/
theorem preCmd_of_done {act : Nat → State → State} : s.preCmd f h act =
    if (s.hoop (s.preHoop h)).phase ≠ .ready then s.preResult h 2 0 else act (s.preHoop h) s := by
  rw [State.preCmd, command_of_accepts s _ _ _ haccepts, hdone]
  rfl

theorem doPreempt_of_ready {cyc : Nat} (hready : (s.hoop (s.preHoop h)).phase = .ready) :
    doPreempt f h cyc s = (s.preempted h (s.preHoop h) cyc).startMoves.settled := by
  rw [doPreempt, preCmd_of_done haccepts hdone, if_neg (not_not.2 hready), State.preempted, List.foldl_map]
  rfl

theorem doRelease_of_ready (hready : (s.hoop (s.preHoop h)).phase = .ready) : doRelease f h s =
    ((s.preMask h).foldl (State.releaseQueue (s.preHoop h)) s).preResult h
      (b2n ((s.preMask h).any fun q => decide ((s.cq (s.preHoop h) q).mode ≠ .preempted))) 0 := by
  rw [doRelease, preCmd_of_done haccepts hdone, if_neg (not_not.2 hready)]
  rfl

end Accepted

end Kills

/-- Settles O39: a PREEMPT kills each of its queues as the model kills one, and a RELEASE goes through the selected queues. -/
theorem preemptAndRelease : Obligations.PreemptAndRelease := by
  unfold Obligations.PreemptAndRelease
  intro s f h cyc haccepts hdone g answers
  refine ⟨fun hphase => ⟨?_, ?_⟩, fun hready => ?_⟩
  · exact completes_run (f := doPreempt f h cyc.toNat) rfl ((preCmd_of_done haccepts hdone).trans (if_pos hphase)) rfl ⟨result_preResult, rfl⟩
  · exact completes_run (f := doRelease f h) rfl ((preCmd_of_done haccepts hdone).trans (if_pos hphase)) rfl ⟨result_preResult, rfl⟩
  · intro run_
    have hrun := doPreempt_of_ready haccepts hdone (cyc := cyc.toNat) hready
    refine ⟨fun hnone => ?_, fun q hone => ?_, ?_, ?_⟩
    · refine completesThen_run (f := doPreempt f h cyc.toNat) rfl hrun ⟨?_, cqs_preempted_of_none hnone⟩
      rw [State.preempted, show s.runningOf h g = [] from hnone]
      exact result_preResult
    · exact completesThen_run (f := doPreempt f h cyc.toNat) rfl hrun (preempted_of_one hone)
    · exact completesThen_run (f := doPreempt f h cyc.toNat) rfl hrun result_preResult
    · refine completes_run (f := doRelease f h) rfl (doRelease_of_ready haccepts hdone hready) (by rw [releaseQueue_eq]; rfl) ⟨?_, fun q => ?_⟩
      · refine result_preResult.trans ?_
        by_cases hother : ∃ q ∈ s.preMask h, (s.cq g q).mode ≠ .preempted
        · have hany : ((s.preMask h).any fun q => decide ((s.cq (s.preHoop h) q).mode ≠ .preempted)) = true := by simpa [List.any_eq_true] using hother
          rw [hany, if_pos hother]
          rfl
        · have hany : ((s.preMask h).any fun q => decide ((s.cq (s.preHoop h) q).mode ≠ .preempted)) = false := by simpa [List.any_eq_false] using hother
          rw [hany, if_neg hother]
          rfl
      · exact mode_foldl_releaseQueue _

end Sys2Proof.Machine

namespace Sys2Proof.Machine

/-! ## What the begin of commands and the start of moves leave alone -/

/-- An invariant that changes of the begun commands, new numbers and records keep too. -/
structure Beginning (I : State → Prop) : Prop extends Freeing I where
  flights : ∀ {s l}, I s → I { s with flights := l }
  fresh : ∀ {s : State}, I s → I s.fresh.1
  post : ∀ {s r}, I s → I (s.post r)

section Beginning
variable {I : State → Prop} {s : State}

theorem Aside.setRegFld {a lo len x : Nat} (hI : Aside I) (hs : I s) : I (s.setRegFld a lo len x) := hI.same hs rfl

theorem Aside.noteOcc {p : Nat} (hI : Aside I) (hs : I s) : I (s.noteOcc p) := hI.ite (hI.setRegFld hs) hs

theorem Aside.markDone {h q pos : Nat} {committed : Bool} (hI : Aside I) (hs : I s) : I (s.markDone h q pos committed) := hI.same hs rfl

theorem Aside.chargeAll {loc tiles : Nat} (hI : Aside I) (hs : I s) : I (s.chargeAll loc tiles) := hI.foldl (fun _ _ hs => hI.same hs rfl) hs

theorem Aside.countRefusal {loc tiles : Nat} {claims : Nat → Nat} (hI : Aside I) (hs : I s) : I (s.countRefusal loc tiles claims) :=
  hI.foldl (fun _ _ hs => hI.ite hs (hI.addPieces (hI.addReg hs))) hs

theorem Aside.addWait {w : AllocWait} (hI : Aside I) (hs : I s) : I (s.addWait w) := hI.ite hs (hI.same (hI.endWait hs) rfl)

theorem Aside.giveRanges {id n : Nat} (hI : Aside I) (hs : I s) : I (s.giveRanges id n) := by
  induction n generalizing s with
  | zero => exact hs
  | succ n ih =>
    unfold State.giveRanges
    split
    · exact hs
    · split
      · exact hs
      · split
        · exact hs
        · exact hI.ite hs (ih (hI.noteOcc (hI.noteOcc (hI.ite (hI.same hs rfl) (hI.same hs rfl)))))

theorem Aside.abandonMove {m : Move} (hI : Aside I) (hs : I s) : I (s.abandonMove m) := by
  unfold State.abandonMove
  extract_lets s1
  have hs1 : I s1 := hI.dropMove hs
  split
  · exact hI.addReg hs1
  · exact hI.addReg hs1
  · exact hs1

theorem Aside.dropSpill {i : Nat} (hI : Aside I) (hs : I s) : I (s.dropSpill i) := hI.foldl (fun _ _ hs => hI.dropMove hs) hs

theorem Aside.removeMove {id : Nat} (hI : Aside I) (hs : I s) : I (s.removeMove id) := hI.endWait (hI.same hs rfl)

theorem Aside.takeKept {m : Move} {bytes : Nat} (hI : Aside I) (hs : I s) : I (s.takeKept m bytes) := by
  unfold State.takeKept
  split
  · exact hI.keepOnly hs
  · exact hs

theorem Aside.transfer {h : Nat} {write : Bool} {tier loc : Nat} {l : List (Nat × Nat)} {f : DrawFor} (hI : Aside I) (hs : I s) :
    I (s.transfer h write tier loc l f) :=
  hI.ite (hI.foldl (fun _ _ hs => hI.addPieces hs) (hI.draw hs)) (hI.ite (hI.draw hs) (hI.ite (hI.draw hs) hs))

theorem Aside.sendTiles {r : Remote} (hI : Aside I) (hs : I s) : I (s.sendTiles r) := by
  unfold State.sendTiles
  extract_lets _ s1 s2 s3
  have hs1 : I s1 := hI.ite (hI.same (hI.transfer hs) rfl) (hI.transfer hs)
  have hs2 : I s2 := hI.foldl (fun _ _ hs => hI.sendMsg hs) hs1
  have hs3 : I s3 := by
    dsimp only [s3]
    split
    · exact hI.addPieces (hI.addPieces hs2)
    · exact hs2
  exact hI.ite (hI.sendMsg hs3) hs3

theorem Aside.sweep (hI : Aside I) (hs : I s) : I s.sweep := hI.foldl (fun _ _ hs => hI.ite (hI.freeObj hs) hs) (hI.same hs rfl)

/-! ### Contexts are brought up to date (R233, R243, R246, R247) -/

/-- An invariant that holds of open context `i` only, and that changes of its descriptor keep while it is open. -/
structure Ticking (I : State → Prop) (i : Nat) : Prop extends Aside I where
  isOpen : ∀ {s : State}, I s → (s.ctx i).isOpen = true
  setCtx : ∀ {s : State} {c : Ctx}, I s → c.isOpen = true → I (s.setCtx i c)

theorem Ticking.cancelRestore {i : Nat} (hI : Ticking I i) (hs : I s) : I (s.cancelRestore i) := by
  unfold State.cancelRestore
  extract_lets s1 s2
  have hs2 : I s2 := hI.foldl (fun _ _ hs => hI.modObj hs) (hI.foldl (fun _ _ hs => hI.dropMove hs) hs)
  exact hI.keepOnly (hI.setCtx hs2 (hI.isOpen hs2))

theorem Ticking.noteCauses {i : Nat} (hI : Ticking I i) (hs : I s) : I (s.noteCauses i) := hI.setCtx hs (hI.isOpen hs)

theorem Ticking.tickCtx {i : Nat} (hI : Ticking I i) (hs : I s) : I (s.tickCtx i) := by
  unfold State.tickCtx
  extract_lets c1 _ _ ended s1 s2 _ _ s3 _ s3' c3 s4 c4 s6 done c6 s5 c5 _ s7 s8
  refine hI.ite hs ?_
  have hended {t : State} (ht : I t) : I (ended t) := hI.ite ht (hI.maxReg ht)
  have hc1 : c1.isOpen = true := hI.isOpen hs
  have h1 : I s1 := hI.ite (hI.setCtx (hended hs) hc1) (hI.ite (hI.setCtx (hended hs) hc1) hs)
  have h2 : I s2 := hI.ite (hI.noteCauses h1) h1
  have h3 : I s3 := hI.ite (hI.ite (hI.cancelRestore h2) (hI.ite h2 (hI.keepOnly h2))) h2
  have h3' : I s3' := hI.cancelRestore h3
  have hc3 : c3.isOpen = true := hI.isOpen h3'
  have h4 : I s4 := hI.ite (hI.setReg (hI.setCtx h3' hc3)) h3
  have hc4 : c4.isOpen = true := hI.isOpen h4
  have h6 : I s6 := hI.keepOnly (hI.addReg (hI.setCtx h4 hc4))
  have hc6 : c6.isOpen = true := hI.isOpen h6
  have hdone {t : State} {n : Nat} (ht : I t) : I (done t n) := hI.setReg ht
  have h5 : I s5 := hI.ite (hI.ite (hdone h6) (hI.ite (hI.ite (hdone (hI.setCtx h6 hc6)) (hdone h6)) h6)) h4
  have hc5 : c5.isOpen = true := hI.isOpen h5
  have h7 : I s7 := hI.setCtx h5 hc5
  have h8 : I s8 := hI.ite (hI.addReg h7) h7
  exact hI.ite (hI.ite (hI.setReg h8) h8) h5

theorem tickCtx_of_not_open {i : Nat} (hopen : (s.ctx i).isOpen = false) : s.tickCtx i = s := by
  unfold State.tickCtx
  extract_lets c
  exact if_pos (by dsimp only [c]; rw [hopen]; rfl)

theorem Freeing.ticking {i : Nat} (hI : Freeing I) : Ticking (fun t => I t ∧ (t.ctx i).isOpen = true) i where
  same := fun {s t} hs h => by
    have hctxs : t.ctxs = s.ctxs := congrArg (fun l => l.2.1) h
    exact ⟨hI.same hs.1 h, by rw [State.ctx, hctxs]; exact hs.2⟩
  isOpen := And.right
  setCtx := fun hs hopen => ⟨hI.setCtx hs.1, by rw [ctx_setCtx_same]; exact hopen⟩

theorem Freeing.tickCtx {i : Nat} (hI : Freeing I) (hs : I s) : I (s.tickCtx i) := by
  cases hopen : (s.ctx i).isOpen
  · rw [tickCtx_of_not_open hopen]
    exact hs
  · exact (hI.ticking.tickCtx ⟨hs, hopen⟩).1

/-! ### Commands begin and end (R125, R138, R235, R395) -/

theorem Beginning.tickCtxs (hI : Beginning I) (hs : I s) : I s.tickCtxs := hI.flights (hI.foldl (fun _ _ hs => hI.tickCtx hs) hs)

theorem Beginning.killWhere {p : InFlight → Bool} (hI : Beginning I) (hs : I s) : I (s.killWhere p) :=
  hI.foldl (fun _ _ hs => hI.releaseFlight hI.toFreeing (fun _ => hI.flights) hs) hs

/-- What the end of a command does beside its record, it does after it. -/
theorem Beginning.endCmd_of_posted {c : Cmd} {code : Nat} {detail : BitVec 192} (hI : Beginning I) (hposted : ∀ ent : Option (Nat × Nat),
      I ((s.killWhere fun f => decide (f.cmd = c)).post { (s.killWhere fun f => decide (f.cmd = c)).cmdRec c 2 code 0 detail with entry := ent })) :
    I (s.endCmd c code detail) := by
  unfold State.endCmd
  extract_lets _ _ _ s1 _ s2 s3 s4 s5
  have hs2 : I s2 := hI.addReg (hposted _)
  have hs3 : I s3 := hI.ite (hI.withdrawHead hs2) hs2
  have hs5 : I s5 := hI.withdrawHead (hI.killWhere hs3)
  exact hI.ite (hI.setCq hs5) (hI.markDone hs3)

theorem Beginning.endGone_of_ended {c : Cmd} (hI : Beginning I) (hs : I (s.endCmd c 0x202 0)) : I (s.endGone c) := hI.ite (hI.setCq hs) hs

theorem Beginning.beginCmd {f : InFlight} (hI : Beginning I) (hs : I s) : I (s.beginCmd f) := hI.noteOcc (hI.flights (hI.endWait (hI.setCq hs)))

theorem Beginning.beginDone {c : Cmd} {flags : Nat} {detail : BitVec 192} (hI : Beginning I) (hs : I s) : I (s.beginDone c flags detail) :=
  hI.ite (hI.endGone_of_ended (hI.endCmd_of_posted fun _ => hI.post (hI.killWhere hs))) (hI.beginCmd (hI.fresh hs))

theorem Beginning.testWaits {h k : Nat} (hI : Beginning I) (hs : I s) : I (s.testWaits h k) := by
  unfold State.testWaits
  refine hI.foldl (fun _ _ hs => ?_) hs
  split
  · exact hI.ite (hI.addReg (hI.beginDone hs)) hs
  · exact hs

theorem Beginning.retest (hI : Beginning I) (hs : I s) : I s.retest := by
  unfold State.retest
  refine hI.foldl (fun _ _ hs => ?_) hs
  split
  · exact hI.ite (hI.testWaits hs) hs
  · exact hs

/-! ### Moves start (R180, R190) -/

theorem Beginning.evictFor {payer tier unit need n : Nat} {count : Nat → Bool} {skip : List Nat} (hI : Beginning I) (hs : I s) :
    I (s.evictFor payer tier unit need count skip n).1 := by
  induction n generalizing s skip with
  | zero => exact hs
  | succ n ih =>
    unfold State.evictFor
    split
    · exact hs
    · split
      · exact hs
      · split
        · exact ih (hI.ite (hI.countRefusal (hI.addReg hs)) hs)
        · split
          · exact hs
          · exact ih (hI.same (hI.fresh hs) rfl)

theorem Beginning.waitRoom {w : AllocWait} (hI : Beginning I) (hs : I s) : I (s.waitRoom w).1 := by
  unfold State.waitRoom
  extract_lets _ _ _ _ r r1
  have hr : I r.1 := by
    dsimp only [r]
    split
    · exact hI.addWait hs
    · exact hI.evictFor (hI.addWait hs)
  exact hI.ite hr (hI.same hr rfl)

theorem Beginning.moveEmpty {m : Move} {id code : Nat} (hI : Beginning I) (hs : I s) : I (s.moveEmpty m id code) :=
  hI.same (hI.flights (hI.endWait hs)) rfl

theorem Beginning.moveFailed {m : Move} {e : Nat × BitVec 192} (hI : Beginning I) (hs : I s) : I (s.moveFailed m e) := by
  unfold State.moveFailed
  extract_lets s1
  have hs1 : I s1 := hI.ite (hI.addReg hs) (hI.ite (hI.addReg hs) hs)
  split
  · exact hI.flights hs1
  · exact hI.dropSpill hs1
  · exact hI.abandonMove hs1

theorem Beginning.moveRefused {m : Move} (hI : Beginning I) (hs : I s) : I (s.moveRefused m) := by
  unfold State.moveRefused
  extract_lets s1 s2
  have hs1 : I s1 := by
    dsimp only [s1]
    split
    · exact hI.foldl (fun _ _ hs => hI.countRefusal hs) hs
    · exact hI.countRefusal hs
  have hs2 : I s2 := hI.ite (hI.addReg hs1) hs1
  split
  · exact hI.moveEmpty hs2
  · extract_lets s3
    have hs3 : I s3 := hI.dropSpill (hI.addReg hs2)
    split
    · exact hI.ctxs hs3
    · exact hs3
  · exact hI.abandonMove hs2

theorem Beginning.goRemote {m : Move} {id : Nat} (hI : Beginning I) (hs : I s) : I (s.goRemote m id) := by
  unfold State.goRemote
  split
  · exact hs
  · dsimp only
    split
    · exact hI.flights (hI.removeMove hs)
    · exact hI.same (hI.removeMove hs) rfl

theorem Beginning.tryStart {id : Nat} (hI : Beginning I) (hs : I s) : I (s.tryStart id) := by
  unfold State.tryStart
  split
  · exact hs
  · refine hI.ite hs (hI.ite ?_ (hI.ite ?_ (hI.ite (hI.same (hI.flights hs) rfl) (hI.ite hs ?_))))
    · split
      · exact hI.moveEmpty hs
      · exact hs
    · split
      · exact hI.goRemote hs
      · exact hs
    · split
      · exact hI.moveFailed hs
      · extract_lets _ s1 _ _ s2 s3 s4 s5 _ _ _ s6
        have hs1 : I s1 := hI.ite (hI.same hs rfl) hs
        have hs3 : I s3 := by
          dsimp only [s3]
          split
          · exact hI.ctxs (hI.takeKept hs1)
          · exact hI.takeKept hs1
        have hs5 : I s5 := hI.takeKept (hI.ite (hI.chargeAll hs1) hs1)
        have hs6 : I s6 := hI.same hs5 rfl
        exact hI.ite (hI.moveFailed hs1) (hI.ite (hI.moveRefused hs1) (hI.ite (hI.removeMove (hI.setObj hs3))
          (hI.ite (hI.giveRanges (hI.endWait hs6)) (hI.ite (hI.abandonMove hs1) (hI.waitRoom hs1)))))

theorem Beginning.startPass (hI : Beginning I) (hs : I s) : I s.startPass := hI.foldl (fun _ _ hs => hI.giveRanges (hI.tryStart hs)) hs

theorem Beginning.startRemote {r : Remote} (hI : Beginning I) (hs : I s) : I (s.startRemote r) := by
  unfold State.startRemote
  have hset {t : State} {old new : Remote} (ht : I t) : I (t.setRemote old new) := hI.same ht rfl
  refine hI.ite hs ?_
  split
  · dsimp only
    split
    · exact hI.flights (hI.ite (hI.addReg hs) hs)
    · exact hI.sendMsg (hI.noteOcc (hset hs))
  · extract_lets _ _ _ s1 _ s2 _ s3 s4 s5
    have hs1 : I s1 := hI.ite hs (hI.sendMsg (hI.noteOcc (hset hs)))
    have hs2 : I s2 := hI.sendMsg (hI.countRefusal hs1)
    have hs4 : I s4 := hI.same (hI.ite (hI.chargeAll hs1) hs1) rfl
    have hs5 : I s5 := hset (hI.endWait hs4)
    exact hI.ite (hI.same (hI.flights hs2) rfl) (hI.ite (hI.flights hs1) (hI.ite (hI.sendMsg hs5) (hI.waitRoom hs1)))
  · exact hI.ite (hI.sendMsg (hI.noteOcc (hset (hI.endWait (hI.same hs rfl))))) (hI.waitRoom hs)
  · split
    · exact hI.sendMsg (hI.same (hI.ite (hI.addReg hs) hs) rfl)
    · extract_lets _ _ s1
      have hs1 : I s1 := hI.noteOcc (hset hs)
      exact hI.ite (hI.sendTiles hs1) hs1
  · exact hs

/-- After the evictions toward FREE_TARGET, the rest of a start of moves keeps the invariant. -/
theorem Beginning.startMoves_of_freeTargets (hI : Beginning I) (hs : I s.freeTargets) : I s.startMoves :=
  hI.foldl (fun _ _ hs => hI.startRemote hs) (hI.startPass (hI.startPass (hI.startPass (hI.startPass (hI.startPass hs)))))

end Beginning
end Sys2Proof.Machine

namespace Sys2Proof.Machine

/-! ## The registers before a state settled

`completesThen` leaves open which state `u` settled to the step's result. The lemmas up to `regs_of_dev_settled` read the registers of `u` back from a
result that shows three things: a refusal noted twice, so that no command committed; no trace of a KNOT_WAIT, so that no wait was tested with
success; and no descriptor, so that no context was brought up to date.

### The evictions that are noted as refused (R190, R217) -/

section Refused
variable {s : State}

theorem mem_bestOf {l : List Nat} {k : Nat} (hk : s.bestOf l = some k) : k ∈ l := by
  unfold State.bestOf at hk
  refine List.foldlRecOn (motive := fun best : Option Nat => ∀ k, best = some k → k ∈ l) l _
    (fun _ h => absurd h.symm (Option.some_ne_none _)) ?_ k hk
  intro best hbest x hx k hk
  split at hk
  · exact Option.some.inj hk ▸ hx
  · split at hk
    · exact Option.some.inj hk ▸ hx
    · exact hbest k hk

/-- Evictions note a refusal of the tier 2 unit only, and none twice. -/
theorem refused_evictFor {payer tier unit need n : Nat} {count : Nat → Bool} {skip : List Nat} :
    (tier ≠ 2 → (s.evictFor payer tier unit need count skip n).2 = skip) ∧
    (skip.Nodup → (s.evictFor payer tier unit need count skip n).2.Nodup) := by
  induction n generalizing s skip with
  | zero => exact ⟨fun _ => rfl, id⟩
  | succ n ih =>
    unfold State.evictFor
    split
    · exact ⟨fun _ => rfl, id⟩
    · split
      next => exact ⟨fun _ => rfl, id⟩
      next k hbest =>
        have hk := List.of_mem_filter (mem_bestOf hbest)
        simp only [Bool.and_eq_true, Bool.or_eq_true, decide_eq_true_eq, Bool.not_eq_true', List.contains_eq_mem, decide_eq_false_iff_not] at hk
        obtain ⟨⟨-, hnew⟩, hdest⟩ := hk
        split
        next hrefused =>
          have htwo : tier = 2 := hdest.resolve_right fun h => by rw [h] at hrefused; exact Bool.false_ne_true hrefused
          exact ⟨fun htier => absurd htwo htier, fun hskip => ih.2 (List.nodup_cons.2 ⟨hnew, hskip⟩)⟩
        next =>
          split
          · exact ⟨fun _ => rfl, id⟩
          · exact ih

/-- The evictions toward the FREE_TARGET of one tier, with the refusals noted so far. -/
def State.targetStep (s : State) (x : State × List Nat) (t : Nat) : State × List Nat :=
  if (x.1.force (R.FREE_TARGET t)).toNat = 0 then x
  else (List.range (if t = 0 then 64 else if t = 1 then 8 else 1)).foldl (fun (x : State × List Nat) u =>
    let y := x.1.evictFor 16 t u (x.1.guarBytes t (x.1.force (R.FREE_TARGET t)).toNat - x.1.freeRoom 0 t u) (fun k => !s.freeRefused.contains k) []
      (x.1.objs.length + 1)
    (y.1, x.2 ++ y.2)) x

theorem freeRefused_freeTargets : s.freeTargets.freeRefused = ((List.range 4).foldl s.targetStep (s, [])).2 := rfl

theorem targetStep_of_ne_two {x : State × List Nat} {t : Nat} (ht : t ≠ 2) : (s.targetStep x t).2 = x.2 := by
  unfold State.targetStep
  split
  · rfl
  · refine List.foldlRecOn (motive := fun y : State × List Nat => y.2 = x.2) _ _ rfl fun y hy u _ => ?_
    dsimp only
    rw [refused_evictFor.1 ht, List.append_nil, hy]

/-- Tier 2 is one unit. -/
theorem targetStep_of_two {x : State × List Nat} {t : Nat} (ht : t = 2) (hx : x.2 = []) : (s.targetStep x t).2.Nodup := by
  unfold State.targetStep
  split
  · rw [hx]
    exact List.nodup_nil
  · rw [if_neg (by omega), if_neg (by omega), List.range_one, List.foldl_cons, List.foldl_nil]
    dsimp only
    rw [hx]
    exact refused_evictFor.2 List.nodup_nil

theorem nodup_freeTargets : s.freeTargets.freeRefused.Nodup := by
  rw [freeRefused_freeTargets]
  change (s.targetStep (s.targetStep (s.targetStep (s.targetStep (s, []) 0) 1) 2) 3).2.Nodup
  rw [targetStep_of_ne_two (by decide)]
  exact targetStep_of_two rfl ((targetStep_of_ne_two (by decide)).trans (targetStep_of_ne_two (by decide)))

theorem beginning_freeRefused : Beginning fun t => t.freeRefused.Nodup where
  same := fun {s t} hs h => by
    have hrefused : t.freeRefused = s.freeRefused := congrArg (fun l => l.2.2.2.2) h
    rw [hrefused]
    exact hs
  ctxs := id
  flights := id
  fresh := id
  post := fun {s r} hs => by
    unfold State.post
    split <;> exact hs

theorem nodup_startMoves : s.startMoves.freeRefused.Nodup := beginning_freeRefused.startMoves_of_freeTargets nodup_freeTargets

theorem commitWhole_startMoves (f : InFlight) : ∃ t : State, s.commitWhole f = t.startMoves := by
  unfold State.commitWhole
  extract_lets c ent s1 s2 s3
  split
  extract_lets f' s5 s6 mine s7 s8 s9
  split
  extract_lets s11 ev r done s12
  exact ⟨s12, rfl⟩

theorem nodup_commitFlight (f : InFlight) : (s.commitFlight f).freeRefused.Nodup := by
  unfold State.commitFlight
  split
  · exact nodup_startMoves
  · obtain ⟨t, ht⟩ := commitWhole_startMoves (s := s) f
    rw [ht]
    exact nodup_startMoves

/-- Where commands commit, moves start, and what is noted as refused is noted anew. -/
theorem settle_cases (n : Nat) : s.settle n = s ∨ (s.settle n).freeRefused.Nodup := by
  induction n generalizing s with
  | zero => exact Or.inl rfl
  | succ n ih =>
    have hrest {t : State} (ht : t.freeRefused.Nodup) : (t.settle n).freeRefused.Nodup := (ih (s := t)).elim (fun h => h.symm ▸ ht) id
    unfold State.settle
    split
    · exact Or.inl rfl
    · split
      · exact Or.inr (hrest nodup_startMoves)
      · exact Or.inr (hrest (nodup_commitFlight _))

/-- Where a refusal is noted twice, no command commits. -/
theorem settled_of_not_nodup (hdup : ¬ s.settled.freeRefused.Nodup) : s.settled = s.tickCtxs.retest.tickCtxs.sweep := by
  have hI := beginning_freeRefused
  unfold State.settled at hdup ⊢
  have hsecond := (settle_cases (s := (s.settle s.fuel).tickCtxs.retest) s.fuel).resolve_right fun h => hdup (hI.sweep (hI.tickCtxs h))
  rw [hsecond] at hdup ⊢
  have hfirst := (settle_cases (s := s) s.fuel).resolve_right fun h => hdup (hI.sweep (hI.tickCtxs (hI.retest (hI.tickCtxs h))))
  rw [hfirst]

end Refused

/-! ### A KNOT_WAIT that is begun or ended leaves a trace (R136, R395) -/

/-- A number has been taken, a hoop is being reset, or a record of opcode 3 is held. -/
def State.heard (s : State) : Prop := s.nextId ≠ 0 ∨ ∃ h, (s.hoop h).phase = .resetting ∨ ∃ r ∈ (s.hoop h).held, r.pay 29 1 = 3

section Heard
variable {s : State}

theorem nextId_post {r : Rec} : (s.post r).nextId = s.nextId := by
  unfold State.post
  split <;> rfl

theorem hoop_post_ne {r : Rec} {h : Nat} (hne : h ≠ r.hoop) : (s.post r).hoop h = s.hoop h := by
  unfold State.post
  split
  · rfl
  · exact mget_mset_ne _ _ _ _ _ _ hne

theorem heard_post {r : Rec} (hs : s.heard) : (s.post r).heard := by
  rcases hs with hid | ⟨h, hh⟩
  · exact Or.inl (by rw [nextId_post]; exact hid)
  · refine Or.inr ⟨h, ?_⟩
    by_cases hr : h = r.hoop
    · subst hr
      by_cases hphase : (s.hoop r.hoop).phase = .resetting
      · rw [State.post, if_pos hphase]
        exact Or.inl hphase
      · rw [held_post_of_not_resetting hphase]
        obtain ⟨x, hx, hop⟩ := hh.resolve_left hphase
        exact Or.inr ⟨x, List.mem_append_left _ hx, hop⟩
    · rw [hoop_post_ne hr]
      exact hh

theorem beginning_heard : Beginning State.heard where
  same := fun {s t} hs h => by
    have hid : t.nextId = s.nextId := congrArg (fun l => l.2.2.1) h
    have hhoops : t.hoops = s.hoops := congrArg (fun l => l.2.2.2.1) h
    rw [State.heard] at hs ⊢
    simp only [State.hoop] at hs ⊢
    rw [hid, hhoops]
    exact hs
  ctxs := id
  flights := id
  fresh := fun _ => Or.inl (Nat.succ_ne_zero _)
  post := heard_post

theorem cmdRec_opcode {c : Cmd} {ty code flags : Nat} {detail : BitVec 192} : (s.cmdRec c ty code flags detail).pay 29 1 = c.opcode := by
  have hop : c.opcode < 2 ^ 8 := fld_lt c.bits 0 8
  simp only [Rec.pay, State.cmdRec, payAt, bytesAt, setBytes]
  rw [fld_setFld_above _ _ _ _ _ _ (by decide) (by decide), fld_setFld_above _ _ _ _ _ _ (by decide) (by decide), fld_setFld_same _ _ _ _ (by decide)]
  exact Nat.mod_eq_of_lt hop

/-- The record of a command of opcode 3 is held, or its hoop is being reset. -/
theorem heard_of_posted {r : Rec} (hop : r.pay 29 1 = 3) : (s.post r).heard := by
  refine Or.inr ⟨r.hoop, ?_⟩
  by_cases hphase : (s.hoop r.hoop).phase = .resetting
  · rw [State.post, if_pos hphase]
    exact Or.inl hphase
  · rw [held_post_of_not_resetting hphase]
    exact Or.inr ⟨_, List.mem_append_right _ (List.mem_singleton_self _), hop⟩

theorem heard_beginDone {c : Cmd} {flags : Nat} {detail : BitVec 192} (hop : c.opcode = 3) : (s.beginDone c flags detail).heard := by
  have hI := beginning_heard
  refine hI.ite (hI.endGone_of_ended (hI.endCmd_of_posted fun ent => heard_of_posted ?_)) ?_
  · exact (cmdRec_opcode (s := s.killWhere fun f => decide (f.cmd = c)) (ty := 2) (code := 0x202) (flags := 0) (detail := 0)).trans hop
  · exact hI.beginCmd (Or.inl (Nat.succ_ne_zero _) : s.fresh.1.heard)

/-- A fold whose steps either leave the state or reach an invariant does one of the two. -/
theorem foldl_same_or {α : Type} {I : State → Prop} {f : State → α → State} (hkeep : ∀ s x, I s → I (f s x))
    (hstep : ∀ s x, f s x = s ∨ I (f s x))
    (l : List α) : l.foldl f s = s ∨ I (l.foldl f s) := by
  refine List.foldlRecOn (motive := fun t => t = s ∨ I t) l f (Or.inl rfl) fun t ht x _ => ?_
  rcases ht with rfl | ht
  · exact hstep _ x
  · exact Or.inr (hkeep t x ht)

theorem testWaits_same_or (h k : Nat) : s.testWaits h k = s ∨ (s.testWaits h k).heard := by
  have hI := beginning_heard
  unfold State.testWaits
  refine foldl_same_or (I := State.heard) (fun t q ht => ?_) (fun t q => ?_) _
  · split
    · exact hI.ite (hI.addReg (hI.beginDone ht)) ht
    · exact ht
  · split
    · split
      next hwait => exact Or.inr (hI.addReg (heard_beginDone hwait.1))
      next => exact Or.inl rfl
    · exact Or.inl rfl

theorem retest_same_or : s.retest = s ∨ s.retest.heard := by
  have hI := beginning_heard
  unfold State.retest
  refine foldl_same_or (I := State.heard) (fun t e ht => ?_) (fun t e => ?_) _
  · split
    · exact hI.ite (hI.testWaits ht) ht
    · exact ht
  · split
    · split
      · exact testWaits_same_or _ _
      · exact Or.inl rfl
    · exact Or.inl rfl

end Heard
end Sys2Proof.Machine

namespace Sys2Proof.Machine

section Unheard
variable {s : State}

/-- Where no number is taken, no hoop is being reset and no record of opcode 3 is held, there is no trace of a KNOT_WAIT. -/
theorem not_heard_of_hoops (hid : s.nextId = 0)
    (hhoops : (s.hoops.all fun e => decide (e.2.phase ≠ .resetting) && e.2.held.all fun r => decide (r.pay 29 1 ≠ 3)) = true) : ¬ s.heard := by
  have hhoop (h : Nat) : (s.hoop h).phase ≠ .resetting ∧ ∀ r ∈ (s.hoop h).held, r.pay 29 1 ≠ 3 := by
    by_cases hdflt : s.hoop h = Hoop.dflt
    · rw [hdflt]
      exact ⟨by decide, fun r hr => absurd hr List.not_mem_nil⟩
    · have hentry := List.all_eq_true.1 hhoops (h, s.hoop h) (mem_of_mget_ne hdflt)
      rw [Bool.and_eq_true, List.all_eq_true] at hentry
      obtain ⟨hphase, hheld⟩ := hentry
      exact ⟨of_decide_eq_true hphase, fun r hr => of_decide_eq_true (hheld r hr)⟩
  rintro (hne | ⟨h, hphase | ⟨r, hr, hop⟩⟩)
  · exact hne hid
  · exact (hhoop h).1 hphase
  · exact (hhoop h).2 r hr hop

/-! ### A table without descriptors -/

theorem isOpen_tickCtx {i : Nat} (hopen : (s.ctx i).isOpen = true) : ((s.tickCtx i).ctx i).isOpen = true :=
  (Ticking.tickCtx (Freeing.ticking (I := fun _ => True) { same := fun _ _ => trivial, ctxs := fun _ => trivial }) ⟨trivial, hopen⟩).2

/-- A table that has descriptors keeps one when they are brought up to date. -/
theorem ctxs_tickCtx_ne_nil {i : Nat} (hctxs : s.ctxs ≠ []) : (s.tickCtx i).ctxs ≠ [] := by
  cases hopen : (s.ctx i).isOpen
  · rwa [tickCtx_of_not_open hopen]
  · intro hnil
    have hafter := isOpen_tickCtx hopen
    rw [State.ctx, hnil] at hafter
    exact Bool.false_ne_true hafter

theorem tickCtxs_of_nil (hctxs : s.tickCtxs.ctxs = []) : s.ctxs = [] ∧ s.tickCtxs.regs = s.regs := by
  have hnil : s.ctxs = [] := by
    by_contra hne
    exact List.foldlRecOn (motive := fun t : State => t.ctxs ≠ []) (s.ctxs.map fun e : Nat × Ctx => e.1) (fun s i => s.tickCtx i) hne
      (fun _ ht _ _ => ctxs_tickCtx_ne_nil ht) hctxs
  refine ⟨hnil, ?_⟩
  unfold State.tickCtxs
  rw [hnil]
  rfl

theorem regs_freeObj {k : Nat} : (s.freeObj k).regs = s.regs := by
  unfold State.freeObj State.retire
  simp only [State.setObj_regs]
  split
  · split <;> rfl
  · rfl

theorem regs_sweep : s.sweep.regs = s.regs := by
  refine List.foldlRecOn (motive := fun t : State => t.regs = s.regs) _ _ rfl fun t ht k _ => ?_
  split
  · exact regs_freeObj.trans ht
  · exact ht

theorem ctxs_sweep : s.sweep.ctxs = s.ctxs :=
  Aside.sweep (I := fun t => t.ctxs = s.ctxs) { same := fun hs h => (congrArg (fun l => l.2.1) h).trans hs } rfl

/-- Where a refusal is noted twice, no KNOT_WAIT has left a trace and there is no descriptor, the state that settled had the same registers. -/
theorem regs_of_settled (hdup : ¬ s.settled.freeRefused.Nodup) (hunheard : ¬ s.settled.heard) (hctxs : s.settled.ctxs = []) :
    s.regs = s.settled.regs := by
  have hI := beginning_heard
  rw [settled_of_not_nodup hdup] at hunheard hctxs ⊢
  rw [retest_same_or.resolve_right fun h => hunheard (hI.sweep (hI.tickCtxs h))] at hctxs ⊢
  rw [ctxs_sweep] at hctxs
  obtain ⟨hctxs, hregs⟩ := tickCtxs_of_nil hctxs
  rw [regs_sweep, hregs, (tickCtxs_of_nil hctxs).2]

/-- The same of a step's result, which takes the host's side of the state from before the step. -/
theorem regs_of_dev_settled {u t : State} (hend : t = dev (fun _ => u.settled) s) (hdup : ¬ t.freeRefused.Nodup) (hunheard : ¬ t.heard)
    (hctxs : t.ctxs = []) : u.regs = t.regs := by
  have hdev (v : State) : (dev (fun _ => v) s).freeRefused = v.freeRefused ∧ (dev (fun _ => v) s).heard = v.heard ∧ (dev (fun _ => v) s).ctxs = v.ctxs ∧
      (dev (fun _ => v) s).regs = v.regs := ⟨rfl, rfl, rfl, rfl⟩
  obtain ⟨hrefused, hheard, hctx, hregs⟩ := hdev u.settled
  subst hend
  rw [hregs]
  exact regs_of_settled (hrefused ▸ hdup) (hheard ▸ hunheard) (hctx ▸ hctxs)

end Unheard

/-! ## The end of a CONTEXT_OPEN that is refused (R137, R238) -/

/-- A CONTEXT_OPEN with no context asked for. -/
def openAtHead : Cmd := ⟨0, 0, 0, 8#512⟩

/-- The move of command 1, with a range on shuttle 864, past the shuttles that there are. -/
def strayMove : Move :=
  { Move.dflt with
    id := 2
    kind := .command 1
    started := true
    ranges := [{ shuttle := some 864, codec := none, first := 0, count := 1, done := false }] }

/-- A device in ACTIVE at the head of whose queue 0 of hoop 0, which halts on a fault, a CONTEXT_OPEN stands that is refused; the MOVE of `strayMove`
has begun behind it, and the eviction of object 5 is noted twice as refused. -/
def State.strayShuttle : State :=
  { State.reset with
    pm := { Pm.dflt with mode := .active }
    regs := [(cqCtrl 0 0, 4)]
    cqs := [(0, { Cq.dflt with mode := .running, head := some openAtHead })]
    flights := [{ InFlight.dflt with id := 1, cmd := ⟨0, 0, 1, 2#512⟩ }]
    moves := [strayMove]
    freeRefused := [5, 5]
    nextId := 0 }

/-- Past the pages of the shuttles lie those of the queues: where shuttle 864 would count its killed ranges, hoop 0 counts its failed commands. -/
theorem shKilled_864 : R.SH_KILLED 864 = R.CMD_FAULT_COUNT 0 := rfl

/-- `strayShuttle` after its CONTEXT_OPEN. -/
def State.strayEnded : State := dev (doContextOpen 0 0) State.strayShuttle

theorem refused_strayEnded : State.strayEnded.freeRefused = [5, 5] := by decide +kernel

theorem ctxs_strayEnded : State.strayEnded.ctxs = [] := by decide +kernel

/-- The register counts the failed CONTEXT_OPEN, and the range of the MOVE that its queue's halt kills. -/
theorem regs_strayEnded : State.strayEnded.regs = [(R.SH_KILLED 864, 2), (cqCtrl 0 0, 4)] := by decide +kernel

theorem not_heard_strayEnded : ¬ State.strayEnded.heard := not_heard_of_hoops (by decide +kernel) (by decide +kernel)

/-- Refutes O31: with a begun range on shuttle 864, which no hypothesis excludes, the refusal of a CONTEXT_OPEN at the head of a queue that halts on a
fault kills that range too, and SH_KILLED of shuttle 864 is CMD_FAULT_COUNT of hoop 0, so that this register rises by 2. -/
theorem not_knotAndContextCommands : ¬ Obligations.KnotAndContextCommands := by
  intro h
  obtain ⟨-, hcontext⟩ := h
  obtain ⟨hopen, -⟩ := hcontext State.strayShuttle 0 0 openAtHead rfl rfl
  obtain ⟨-, -, hrefused⟩ := hopen (by decide +kernel) fun e he => absurd he List.not_mem_nil
  obtain ⟨u, hexec, hcount, -⟩ := hrefused (by decide +kernel) (by decide +kernel)
  have hend : State.strayEnded = dev (fun _ => u.settled) State.strayShuttle := Host.Outcome.next.inj hexec
  have hdup : ¬ State.strayEnded.freeRefused.Nodup := by
    rw [refused_strayEnded]
    decide
  have hregs : u.regs = State.strayEnded.regs := regs_of_dev_settled hend hdup not_heard_strayEnded ctxs_strayEnded
  have htwo : u.reg (R.CMD_FAULT_COUNT 0) = 2 := by rw [State.reg, hregs, regs_strayEnded, shKilled_864]; rfl
  exact absurd (htwo.symm.trans hcount) (by decide +kernel)

end Sys2Proof.Machine

namespace Sys2Proof.Machine

/-! ## Links: training, rekeys and takeover (R426, R427, R428, R433) -/

section LinkState
variable {s : State} {n k p a m : Nat} {l : Link} {x : Session} {v : W32}

@[simp] theorem lk_setLk_same : (s.setLk n l).lk n = l := mget_mset_same _ _ _ _

theorem lk_setLk_ne (hne : k ≠ n) : (s.setLk n l).lk k = s.lk k := mget_mset_ne _ _ _ _ _ _ hne

@[simp] theorem lk_setReg : (s.setReg a v).lk n = s.lk n := rfl
@[simp] theorem lk_addReg : (s.addReg a m).lk n = s.lk n := rfl
@[simp] theorem lk_setSession : (s.setSession p x).lk n = s.lk n := rfl
@[simp] theorem reg_setLk : (s.setLk n l).reg a = s.reg a := rfl
@[simp] theorem reg_setSession : (s.setSession p x).reg a = s.reg a := rfl
@[simp] theorem session_setLk : (s.setLk n l).session p = s.session p := rfl
@[simp] theorem session_setSession_same : (s.setSession p x).session p = x := mget_mset_same _ _ _ _

/-- Links stay through every operation that writes beside the stores, or a register. -/
theorem calm_links (l : SMap Link) : Calm fun s => s.links = l where
  setReg := id
  dropRegs := id
  same := fun hs h => (congrArg (fun x => x.2.2.2.2.2.2.2.2.2.2) h).trans hs
  part := fun _ ht => ht

theorem lk_of_links {t : State} (h : t.links = s.links) : t.lk n = s.lk n := congrArg (mget Link.dflt · n) h

@[simp] theorem lk_startDone {b : Blk} {i : Nat} : (s.startDone b i).lk n = s.lk n := lk_of_links ((calm_links s.links).startDone rfl)

@[simp] theorem lk_raise {b : Blk} {i bitNo code : Nat} : (s.raise b i bitNo code).lk n = s.lk n :=
  lk_of_links ((calm_links s.links).raise rfl)

/-- A new key is of the next epoch, with CTR from 0 in both directions (R433). -/
theorem lk_newKey : (s.newKey n).lk n = { (s.lk n).rekey with rxCtr := none, rxNew := false } := by
  unfold State.newKey
  extract_lets l s1 s2
  split
  · exact lk_setReg.trans lk_setLk_same
  · exact lk_addReg.trans (lk_setReg.trans lk_setLk_same)

@[simp] theorem session_dev {t : State} : (dev (fun _ => t) s).session p = t.session p := rfl
@[simp] theorem lk_dev {t : State} : (dev (fun _ => t) s).lk n = t.lk n := rfl

/-- A command whose operation keeps the part and makes `t` leaves what `dev` keeps of `t`, with its registers. -/
theorem completes_dev {c : Instr} {f : State → State} {t : State} {p : State → Prop} (hc : exec c s = run f s) (hf : f s = t)
    (hpart : (f s).part = s.part) (hp : (dev (fun _ => t) s).reg = t.reg → p (dev (fun _ => t) s)) : completes c s p := by
  subst hf
  exact ⟨dev f s, hc, hp (funext fun a => reg_dev s a _ hpart)⟩

end LinkState

section Training
variable {s : State} {n lanes peer : Nat} {keyOk : Bool}

/-- The lanes of a link that met the bit-error target and are not left out (R426). -/
def Link.goodLanes (l : Link) (lanes : Nat) : Nat := (BitVec.ofNat 8 lanes &&& ~~~(BitVec.ofNat 8 (l.lanesOut ||| l.without))).toNat

theorem goodLanes_toNat (l : Link) (lanes : BitVec 8) :
    l.goodLanes lanes.toNat = (lanes &&& ~~~(BitVec.ofNat 8 (l.lanesOut ||| l.without))).toNat := by
  rw [Link.goodLanes, BitVec.ofNat_toNat, BitVec.setWidth_eq]

/-- The widest width that a training with `lanes` offers (R426). -/
def State.trainedWidth (s : State) (n lanes : Nat) : Nat := laneWidth ((s.lk n).goodLanes lanes)

/-- The far end is the package that LK_CTRL expects, and not this one (R427). -/
def State.rightPeer (s : State) (n peer : Nat) : Prop := peer ≠ fld (s.reg R.LK_PKG_ID) 0 2 ∧ peer = fld (s.reg (R.LK_CTRL n)) 0 2

/-- A link that has trained, as it is when its start completes (R426, R433). -/
def State.keyed (s : State) (n lanes peer : Nat) : State :=
  ((s.setLk n { s.lk n with
    mode := .standby, width := s.trainedWidth n lanes, peer := peer, peerValid := true, without := 0,
    laneFault := (BitVec.ofNat 8 (s.lk n).laneFault &&& ~~~(BitVec.ofNat 8 ((s.lk n).goodLanes lanes))).toNat }).newKey n).startDone .link n

theorem lk_keyed : ((s.keyed n lanes peer).lk n).mode = .standby ∧ ((s.keyed n lanes peer).lk n).width = s.trainedWidth n lanes ∧
    ((s.keyed n lanes peer).lk n).peer = peer ∧ ((s.keyed n lanes peer).lk n).epoch = ((s.lk n).epoch + 1) % 2 ^ 31 ∧
    ((s.keyed n lanes peer).lk n).txCtr = 0 := by
  simp only [State.keyed, lk_startDone, lk_newKey, lk_setLk_same]
  exact ⟨rfl, rfl, rfl, rfl, rfl⟩

variable (htraining : (s.lk n).mode = .training) (htime : s.timePassed .link n = true)
include htraining htime

/-- A training in progress ends by the width that its lanes offer, the far end's identity and the verification of its key. -/
theorem doLinkTrainingComplete_eq : doLinkTrainingComplete n lanes peer keyOk s =
    if s.trainedWidth n lanes < s.minWidth n then (s.setLk n { s.lk n with mode := .down, width := 0, without := 0 }).startDone .link n
    else if peer = fld (s.reg R.LK_PKG_ID) 0 2 ∨ peer ≠ fld (s.reg (R.LK_CTRL n)) 0 2 then
      (s.setLk n { s.lk n with mode := .down, width := 0, without := 0 }).startFail .link n
    else if !keyOk then (s.setLk n { s.lk n with mode := .keying, width := s.trainedWidth n lanes, without := 0 }).raise .link n 0 0x700
    else
      let u := s.keyed n lanes peer
      if u.stOf .link n ≠ 2 then u.setLk n { u.lk n with mode := .down, width := 0 } else if (u.upLink peer).isSome then u else u.carry n :=
  if_neg (by simp [htraining, htime])

theorem doLinkTrainingComplete_of_narrow (hw : s.trainedWidth n lanes < s.minWidth n) : doLinkTrainingComplete n lanes peer keyOk s =
    (s.setLk n { s.lk n with mode := .down, width := 0, without := 0 }).startDone .link n := by
  rw [doLinkTrainingComplete_eq htraining htime, if_pos hw]

variable (hw : s.minWidth n ≤ s.trainedWidth n lanes) (hpeer : s.rightPeer n peer)
include hw hpeer

theorem doLinkTrainingComplete_of_unverified : doLinkTrainingComplete n lanes peer false s =
    (s.setLk n { s.lk n with mode := .keying, width := s.trainedWidth n lanes, without := 0 }).raise .link n 0 0x700 := by
  rw [doLinkTrainingComplete_eq htraining htime, if_neg hw.not_gt, if_neg (not_or.2 ⟨hpeer.1, not_not.2 hpeer.2⟩)]
  rfl

theorem doLinkTrainingComplete_of_verified : doLinkTrainingComplete n lanes peer true s =
    let u := s.keyed n lanes peer
    if u.stOf .link n ≠ 2 then u.setLk n { u.lk n with mode := .down, width := 0 } else if (u.upLink peer).isSome then u else u.carry n := by
  rw [doLinkTrainingComplete_eq htraining htime, if_neg hw.not_gt, if_neg (not_or.2 ⟨hpeer.1, not_not.2 hpeer.2⟩)]
  rfl

end Training

section Takeover
variable {s : State} {n : Nat} {mode : LinkMode} {l : Link}

/-- The lowest STANDBY link to the peer of link `n`, beside `n` itself (R428). -/
def State.standbyFor (s : State) (n : Nat) : Option Nat :=
  (List.range 8).find? fun k => decide (k ≠ n ∧ (s.lk k).mode = .standby ∧ (s.lk k).peer = (s.lk n).peer)

theorem standbyFor_setLk (hpeer : l.peer = (s.lk n).peer) : (s.setLk n l).standbyFor n = s.standbyFor n := by
  refine List.find?_congr fun k _ => decide_eq_decide.2 (and_congr_right fun hne => ?_)
  rw [lk_setLk_ne hne, lk_setLk_same, hpeer]

/-- Where link `n` is not STANDBY, the search for the link that takes over need not leave it out. -/
theorem find_standby_eq (hmode : (s.lk n).mode ≠ .standby) :
    ((List.range 8).find? fun k => decide ((s.lk k).mode = .standby ∧ (s.lk k).peer = (s.lk n).peer)) = s.standbyFor n :=
  List.find?_congr fun _ _ => decide_eq_decide.2 ⟨fun h => ⟨by rintro rfl; exact hmode h.1, h⟩, And.right⟩

/-- What becomes of a link that stops carrying traffic (R428). -/
def Link.lost (l : Link) (mode : LinkMode) : Link := { l with mode := mode, width := 0 }

/-- The state in which link `n` is lost and its peer counts as lost with it (R428). -/
def State.cutOff (s : State) (n : Nat) (mode : LinkMode) : State :=
  (s.setLk n ((s.lk n).lost mode)).setSession (s.lk n).peer { s.session (s.lk n).peer with lostSince := some s.count }

/-- An UP link that is lost hands over to the link that `standbyFor` finds, or its peer counts as lost from now (R428). -/
theorem lostLink_of_up (hup : (s.lk n).mode = .up) (hmode : mode ≠ .standby) : s.lostLink n mode =
    match s.standbyFor n with
    | some k => (s.setLk n ((s.lk n).lost mode)).carry k
    | none => s.cutOff n mode := by
  have hfind := find_standby_eq (s := s.setLk n ((s.lk n).lost mode)) (n := n) (by rw [lk_setLk_same]; exact hmode)
  rw [standbyFor_setLk (l := (s.lk n).lost mode) rfl, lk_setLk_same] at hfind
  rw [← hfind, State.lostLink]
  exact if_neg (not_not.2 hup)

theorem lostLink_of_alone (hup : (s.lk n).mode = .up) (hmode : mode ≠ .standby) (hnone : s.standbyFor n = none) :
    s.lostLink n mode = s.cutOff n mode := by
  rw [lostLink_of_up hup hmode, hnone]

theorem lostLink_of_other {k : Nat} (hup : (s.lk n).mode = .up) (hmode : mode ≠ .standby) (hsome : s.standbyFor n = some k) :
    s.lostLink n mode = (s.setLk n ((s.lk n).lost mode)).carry k := by
  rw [lostLink_of_up hup hmode, hsome]

theorem lk_cutOff : (s.cutOff n mode).lk n = (s.lk n).lost mode := lk_setSession.trans lk_setLk_same

theorem lost_cutOff : ((s.cutOff n mode).session (s.lk n).peer).lostSince = some s.count := congrArg Session.lostSince session_setSession_same

theorem reg_cutOff {a : Nat} : (s.cutOff n mode).reg a = s.reg a := rfl

theorem doLinkDown_of_up (hup : (s.lk n).mode = .up) : doLinkDown n s = s.lostLink n .down := if_pos (.inl hup)

/-- A link that notes one more faulty lane, which its retrain leaves out (R426). -/
def Link.faulty (l : Link) (lane : Nat) : Link := { l with laneFault := l.laneFault ||| 2 ^ lane, without := l.without ||| 2 ^ lane }

/-- The state in which a link with a faulty lane is cut off while it retrains (R426, R428). -/
def State.laneLost (s : State) (n lane : Nat) : State :=
  ((s.setLk n ((s.lk n).faulty lane)).cutOff n .training).addReg (R.LK_RETRAIN_COUNT n) 1

theorem lk_laneLost {lane : Nat} : (s.laneLost n lane).lk n = ((s.lk n).faulty lane).lost .training := by
  rw [State.laneLost, lk_addReg, lk_cutOff, lk_setLk_same]

theorem retrains_laneLost {lane : Nat} : (s.laneLost n lane).reg (R.LK_RETRAIN_COUNT n) = satAdd (s.reg (R.LK_RETRAIN_COUNT n)) 1 := by
  rw [State.laneLost, reg_addReg_same, reg_cutOff, reg_setLk]

theorem doLaneFault_of_alone {lane : Nat} (hup : (s.lk n).mode = .up) (hnone : s.standbyFor n = none) :
    doLaneFault n lane s = s.laneLost n lane := by
  have halone : (s.setLk n ((s.lk n).faulty lane)).lostLink n .training = (s.setLk n ((s.lk n).faulty lane)).cutOff n .training := by
    refine lostLink_of_alone ?_ (by decide) ((standbyFor_setLk ?_).trans hnone)
    · rw [lk_setLk_same]
      exact hup
    · rfl
  rw [State.laneLost, ← halone]
  exact if_neg (not_not.2 hup)

end Takeover

section Rekey
variable {s : State} {n : Nat}

/-- The state in which a link that carries traffic has taken a new key (R433). -/
def State.rekeyed (s : State) (n : Nat) : State :=
  ((s.setLk n (s.lk n).rekey).setReg (R.LK_KEY_EPOCH n) (w32 (s.lk n).rekey.epoch)).addReg (R.LK_REKEY_COUNT n) 1

theorem doLinkRekey_of_usable (hmode : (s.lk n).mode = .up ∨ (s.lk n).mode = .standby) : doLinkRekey n s = s.rekeyed n := if_pos hmode

theorem lk_rekeyed : (s.rekeyed n).lk n = (s.lk n).rekey := lk_addReg.trans (lk_setReg.trans lk_setLk_same)

theorem epoch_rekeyed : (s.rekeyed n).reg (R.LK_KEY_EPOCH n) = w32 (((s.lk n).epoch + 1) % 2 ^ 31) := by
  rw [State.rekeyed, reg_addReg_ne _ _ _ _ (by dsimp only [R.LK_KEY_EPOCH, R.LK_REKEY_COUNT]; omega)]
  exact reg_setReg_same _ _ _

end Rekey

section PackageId
variable {s : State} {f v : Nat}

/-- Every link of the package is OFF (R427). -/
def State.linksOff (s : State) : Prop := ∀ n < 8, present s.part .link n = true → s.stOf .link n = 0

theorem linksOff_iff : ((List.range 8).all fun n => !present s.part .link n || decide (s.stOf .link n = 0)) = true ↔ s.linksOff := by
  simp only [State.linksOff, List.all_eq_true, List.mem_range, Bool.or_eq_true, Bool.not_eq_true', decide_eq_true_eq]
  refine forall₂_congr fun n _ => ?_
  cases present s.part .link n <;> simp

variable (hreach : s.reaches f R.LK_PKG_ID = true)
include hreach

theorem doLkPkgIdWrite_of_off (hoff : s.linksOff) : doLkPkgIdWrite f v s = s.setReg R.LK_PKG_ID (w32 (v % 4)) := by
  rw [doLkPkgIdWrite, reach_of_reaches _ _ _ _ hreach]
  exact if_pos (linksOff_iff.2 hoff)

theorem doLkPkgIdWrite_of_not_off (hon : ¬ s.linksOff) : doLkPkgIdWrite f v s = s.accessRefused .link 0 := by
  rw [doLkPkgIdWrite, reach_of_reaches _ _ _ _ hreach]
  exact if_neg fun h => hon (linksOff_iff.1 h)

end PackageId

/-- Settles O40: a training by the width it offers and by the far end, the loss of a link by whether another one stands by, and LK_PKG_ID by whether all
are OFF. -/
theorem linksTrainAndFail : Obligations.LinksTrainAndFail := by
  unfold Obligations.LinksTrainAndFail
  refine ⟨fun s n lanes peer keyOk htraining htime => ?_, fun s n hup => ?_, fun s n hmode => ?_, fun s f v hreach => ?_⟩
  · intro l w rightPeer
    have hw : w = s.trainedWidth n lanes.toNat := congrArg laneWidth (goodLanes_toNat _ _).symm
    rw [hw]
    refine ⟨fun hnarrow => ?_, fun hwide hpeer hkey => ?_, fun hwide hpeer hkey => ?_⟩
    · refine completesThen_run (f := doLinkTrainingComplete n lanes.toNat peer keyOk) rfl
        (doLinkTrainingComplete_of_narrow htraining htime hnarrow) ?_
      rw [lk_setLk_same]
      exact ⟨rfl, rfl⟩
    · subst hkey
      refine completes_dev (f := doLinkTrainingComplete n lanes.toNat peer false) rfl
        (doLinkTrainingComplete_of_unverified htraining htime hwide hpeer) ((stable_part s.part).doLinkTrainingComplete rfl) fun _ => ?_
      rw [lk_dev, lk_raise, lk_setLk_same]
      exact ⟨rfl, rfl⟩
    · subst hkey
      exact completesThen_run (f := doLinkTrainingComplete n lanes.toNat peer true) rfl
        (doLinkTrainingComplete_of_verified htraining htime hwide hpeer) lk_keyed
  · intro other
    refine ⟨fun hnone => ?_, fun k hsome => ?_, fun hnone lane => ?_⟩
    · refine completes_dev (f := doLinkDown n) rfl ((doLinkDown_of_up hup).trans (lostLink_of_alone hup (by decide) hnone))
        ((stable_part s.part).doLinkDown rfl) fun _ => ⟨?_, ?_⟩
      · rw [lk_dev, lk_cutOff]
        rfl
      · rw [session_dev, lost_cutOff]
    · refine completesThen_run (f := doLinkDown n) rfl ((doLinkDown_of_up hup).trans (lostLink_of_other hup (by decide) hsome)) ?_
      rw [lk_setLk_same]
      exact ⟨rfl, rfl⟩
    · refine completes_dev (f := doLaneFault n lane) rfl (doLaneFault_of_alone hup hnone) ((stable_part s.part).doLaneFault rfl)
        fun hreg => ?_
      rw [lk_dev, hreg, lk_laneLost]
      exact ⟨rfl, rfl, retrains_laneLost⟩
  · refine completes_dev (f := doLinkRekey n) rfl (doLinkRekey_of_usable hmode) ((stable_part s.part).doLinkRekey rfl) fun hreg => ?_
    rw [lk_dev, hreg, lk_rekeyed]
    exact ⟨rfl, rfl, rfl, epoch_rekeyed⟩
  · intro off
    refine ⟨fun hoff => ?_, fun hon => ?_⟩
    · exact completes_run (f := doLkPkgIdWrite f v.toNat) rfl (doLkPkgIdWrite_of_off hreach hoff) (dev_setReg s _ _) (reg_setReg_same _ _ _)
    · refine completes_regs (f := doLkPkgIdWrite f v.toNat) rfl (doLkPkgIdWrite_of_not_off hreach hon)
        ((stable_part s.part).accessRefused rfl) fun u hu => ?_
      rw [hu, reg_accessRefused_ne _ _ _ (by decide)]

end Sys2Proof.Machine

namespace Sys2Proof.Machine

/-! ## Flits and their replay (R429, R430, R434) -/

section Forced
variable {s : State} {a a' n : Nat}

theorem pageOf_aligned (b : Blk) (i : Nat) : pageOf b i % 0x1000 = 0 := by
  have hrow : (blkRow b).base % 0x1000 = 0 ∧ (blkRow b).stride % 0x1000 = 0 := by cases b <;> decide
  rw [pageOf, Nat.add_mod, Nat.mul_mod, hrow.1, hrow.2]
  simp

/-- The value in force of a register stays where the register and BLOCK_CTRL of its page do (R102). -/
theorem force_congr {t : State} (hpart : t.part = s.part) (hreg : t.reg a = s.reg a)
    (hctrl : ∀ b i, t.reg (R.BLOCK_CTRL (pageOf b i)) = s.reg (R.BLOCK_CTRL (pageOf b i))) : t.force a = s.force a := by
  unfold State.force
  split
  · rw [hctrl, hreg, hpart]
  · rfl

/-- A count elsewhere, which is no BLOCK_CTRL, leaves the value in force. -/
theorem force_addReg_ne (hne : a ≠ a') (hctrl : a' % 0x1000 ≠ 8) : (s.addReg a' n).force a = s.force a := by
  refine force_congr rfl (reg_addReg_ne _ _ _ _ hne) fun b i => reg_addReg_ne _ _ _ _ ?_
  have hpage := pageOf_aligned b i
  dsimp only [R.BLOCK_CTRL]
  omega

end Forced

section Messages
variable {s : State} {n tag ctr : Nat}

/-- The least CTR that link `n` accepts of a message that comes with `ctr` (R433, R434). -/
def State.nextCtr (s : State) (n ctr : Nat) : Nat :=
  if (s.lk n).rxNew = true ∧ ctr = 0 then 0 else match (s.lk n).rxCtr with | none => 0 | some c => c + 1

/-- A message whose CTR has been used is dropped, noted as a fault and counted (R434). -/
theorem checkMsg_of_replayed (hctr : ctr < s.nextCtr n ctr) :
    s.checkMsg n tag ctr = (s.raise .link n 1 0x701).addReg (R.LK_REPLAY_COUNT n) 1 := if_pos hctr

/-- A message with a matching tag and the next CTR passes (R434). -/
theorem checkMsg_of_next (hctr : ctr = s.nextCtr n ctr) :
    s.checkMsg n 1 ctr = s.setLk n { s.lk n with rxCtr := some ctr, rxNew := (s.lk n).rxNew && decide (ctr ≠ 0) } :=
  (if_neg (show ¬ ctr < s.nextCtr n ctr from hctr.not_lt)).trans
    (if_neg (show ¬ (s.nextCtr n ctr < ctr ∨ 1 ≠ 1) from not_or.2 ⟨hctr.not_gt, not_not.2 rfl⟩))

end Messages

section Flits
variable {s : State} {n ftype fseq ack cls credits tag ctr : Nat} {d : Option W64}

/-- Link `n` has asked again for the flit that it expects (R430). -/
def State.nakNoted (s : State) (n : Nat) : State := s.setLk n { s.lk n with nakSent := some (s.lk n).rxSeq }

/-- What a flit brings beside its payload: acknowledgments, credits, and the session's part (R429, R431, R435). -/
def State.headerTaken (s : State) (n ftype ack cls credits : Nat) (d : Option W64) : State :=
  let u := s.setLk n (addCredits (ackFlits (s.lk n) ack) cls credits)
  if ftype = 3 ∧ (u.session (s.lk n).peer).resync = true then u.exchange (s.lk n).peer (d.map (·.toNat))
  else match d with | some x => u.ackSession (s.lk n).peer x.toNat | none => u.transmit (s.lk n).peer

/-- Link `n` has accepted the flit that it expected (R430). -/
def State.flitTaken (s : State) (n fseq : Nat) : State := s.setLk n { s.lk n with rxSeq := (fseq + 1) % 4096, nakSent := none }

theorem lk_flitTaken : (s.flitTaken n fseq).lk n = { s.lk n with rxSeq := (fseq + 1) % 4096, nakSent := none } := lk_setLk_same

theorem nextCtr_flitTaken : (s.flitTaken n fseq).nextCtr n ctr = s.nextCtr n ctr := by
  rw [State.nextCtr, lk_flitTaken]
  rfl

variable (hmode : (s.lk n).mode = .up ∨ (s.lk n).mode = .standby) (hkept : ftype = 1 ∨ ftype = 3)
include hmode hkept

/-- The link takes flits, and the type is none that is reserved. -/
theorem goes_of_kept : ¬ (((s.lk n).mode ≠ .up ∧ (s.lk n).mode ≠ .standby) ∨ 3 < ftype) := by
  rintro (⟨hup, hstandby⟩ | hlarge)
  · exact hmode.elim hup hstandby
  · omega

theorem doFlitReceived_of_bad_crc : doFlitReceived n ftype false fseq ack cls credits tag ctr d s = s.nakNoted n :=
  (if_neg (goes_of_kept hmode hkept)).trans ((if_pos rfl).trans (if_pos hkept))

theorem doFlitReceived_of_out_of_turn (hseq : fseq ≠ (s.lk n).rxSeq) : doFlitReceived n ftype true fseq ack cls credits tag ctr d s = s.nakNoted n :=
  (if_neg (goes_of_kept hmode hkept)).trans ((if_neg (by decide)).trans (if_pos ⟨hkept, hseq⟩))

variable (hseq : fseq = (s.lk n).rxSeq)
include hseq

theorem doFlitReceived_of_in_turn : doFlitReceived n ftype true fseq ack cls credits tag ctr d s =
    if tag = 0 then (s.headerTaken n ftype ack cls credits d).flitTaken n fseq
    else ((s.headerTaken n ftype ack cls credits d).flitTaken n fseq).checkMsg n tag ctr :=
  (if_neg (goes_of_kept hmode hkept)).trans ((if_neg (by decide)).trans ((if_neg fun h => h.2 hseq).trans
    ((if_neg (by omega)).trans (if_neg (by omega)))))

theorem doFlitReceived_of_next : doFlitReceived n ftype true fseq ack cls credits 0 ctr d s =
    (s.headerTaken n ftype ack cls credits d).flitTaken n fseq := by
  rw [doFlitReceived_of_in_turn hmode hkept hseq, if_pos rfl]

/-- A flit that completes a message has it checked. -/
theorem doFlitReceived_of_message (htag : tag ≠ 0) : doFlitReceived n ftype true fseq ack cls credits tag ctr d s =
    ((s.headerTaken n ftype ack cls credits d).flitTaken n fseq).checkMsg n tag ctr := by
  rw [doFlitReceived_of_in_turn hmode hkept hseq, if_neg htag]

end Flits

section Replay
variable {s : State} {n : Nat}

/-- The state in which the oldest unacknowledged flit has been sent once more (R430). -/
def State.replayed (s : State) (n : Nat) : State := (s.setLk n { s.lk n with replays := (s.lk n).replays + 1 }).addReg (R.LK_RETRY_COUNT n) 1

theorem lk_replayed : (s.replayed n).lk n = { s.lk n with replays := (s.lk n).replays + 1 } := lk_addReg.trans lk_setLk_same

theorem retries_replayed : (s.replayed n).reg (R.LK_RETRY_COUNT n) = satAdd (s.reg (R.LK_RETRY_COUNT n)) 1 := by
  rw [State.replayed, reg_addReg_same, reg_setLk]

theorem retryLimit_replayed : (s.replayed n).force (R.LK_RETRY_LIMIT n) = s.force (R.LK_RETRY_LIMIT n) :=
  force_addReg_ne (by dsimp only [R.LK_RETRY_LIMIT, R.LK_RETRY_COUNT]; omega) (by dsimp only [R.LK_RETRY_COUNT]; omega)

/-- A NAK of the oldest unacknowledged flit is a replay, and at LK_RETRY_LIMIT of them without progress a retrain (R430). -/
theorem doNak_of_oldest (hmode : (s.lk n).mode = .up ∨ (s.lk n).mode = .standby) (hunacked : (s.lk n).ackSeq ≠ (s.lk n).txSeq) :
    doNak n (s.lk n).ackSeq s = if (s.force (R.LK_RETRY_LIMIT n)).toNat ≤ (s.lk n).replays + 1 then
      ((s.replayed n).setLk n { (s.replayed n).lk n with replays := 0 }).retrain n else s.replayed n := by
  rw [← retryLimit_replayed]
  refine (if_pos hmode).trans ?_
  rw [State.replay]
  dsimp only
  rw [if_pos rfl, if_neg (not_or.2 ⟨not_not.2 rfl, hunacked⟩)]
  rfl

end Replay

/-- Settles O41: a flit by its CRC, its sequence number and the message that it completes, a NAK by the replays so far. -/
theorem flitsAndReplay : Obligations.FlitsAndReplay := by
  unfold Obligations.FlitsAndReplay
  intro s n hmode
  refine ⟨fun ftype fseq ack cls credits tag ctr d htype => ?_, fun _ hunacked f hf => ?_⟩
  · intro p u s1 next
    have hthree : ftype = 3 ↔ ftype.toNat = 3 := BitVec.toNat_inj.symm
    have hkept : ftype.toNat = 1 ∨ ftype.toNat = 3 := htype.imp (congrArg BitVec.toNat) (congrArg BitVec.toNat)
    have hs1 : s1 = s.headerTaken n ftype.toNat ack cls credits.toNat d := if_congr (and_congr_left' hthree) rfl rfl
    have hnext : next = s1.nextCtr n ctr.toNat := rfl
    have hpart {tag : Nat} {crcOk : Bool} : (doFlitReceived n ftype.toNat crcOk fseq ack cls credits.toNat tag ctr.toNat d s).part = s.part :=
      (stable_part s.part).doFlitReceived rfl
    clear_value s1 next
    subst hs1 hnext
    refine ⟨?_, fun hseq => ?_, fun hseq => ⟨fun htag => ?_, fun htag hctr => ?_, fun htag hctr => ?_⟩⟩
    · exact completes_dev (f := doFlitReceived n ftype.toNat false fseq ack cls credits.toNat tag ctr.toNat d) rfl
        (doFlitReceived_of_bad_crc hmode hkept) hpart fun _ => lk_dev.trans lk_setLk_same
    · exact completes_dev (f := doFlitReceived n ftype.toNat true fseq ack cls credits.toNat tag ctr.toNat d) rfl
        (doFlitReceived_of_out_of_turn hmode hkept hseq) hpart fun _ => ⟨lk_dev.trans lk_setLk_same, rfl⟩
    · subst htag
      exact completes_dev (f := doFlitReceived n ftype.toNat true fseq ack cls credits.toNat 0 ctr.toNat d) rfl
        (doFlitReceived_of_next hmode hkept hseq) hpart fun _ => lk_dev.trans lk_flitTaken
    · subst htag
      refine completes_dev (f := doFlitReceived n ftype.toNat true fseq ack cls credits.toNat 1 ctr.toNat d) rfl
        ((doFlitReceived_of_message hmode hkept hseq (by decide)).trans (checkMsg_of_next (hctr.trans nextCtr_flitTaken.symm))) hpart
        fun _ => lk_dev.trans ?_
      rw [lk_setLk_same, lk_flitTaken]
    · refine completes_dev (f := doFlitReceived n ftype.toNat true fseq ack cls credits.toNat tag ctr.toNat d) rfl
        ((doFlitReceived_of_message hmode hkept hseq fun h => htag (Fin.ext h)).trans (checkMsg_of_replayed (hctr.trans_eq nextCtr_flitTaken.symm)))
        hpart fun hreg => ⟨?_, ?_⟩
      · rw [lk_dev, lk_addReg, lk_raise, lk_flitTaken]
      · rw [hreg, reg_addReg_same, reg_raise_ne _ _ _ _ _ _ ?_]
        · rfl
        · dsimp only [R.LK_REPLAY_COUNT, R.FAULT_STATUS, pageOf, blkRow]
          omega
  · have hnak := doNak_of_oldest hmode hunacked
    rw [← hf] at hnak
    refine ⟨fun hfew => ?_, fun hmany => ?_⟩
    · refine completes_dev (f := doNak n f) rfl (hnak.trans (if_neg hfew.not_ge)) ((stable_part s.part).doNak rfl) fun hreg => ?_
      rw [lk_dev, hreg, lk_replayed]
      exact ⟨rfl, rfl, retries_replayed⟩
    · refine completesThen_run (f := doNak n f) rfl (hnak.trans (if_pos hmany)) ?_
      rw [lk_setLk_same, reg_setLk, retries_replayed]
      exact ⟨rfl, rfl⟩

end Sys2Proof.Machine

namespace Sys2Proof.Machine

/-! ## Messages of peers, and the end of a session (R435, R436, R437, R442, R443) -/

section Receipt
variable {s : State} {m : MsgHdr} {bytes : Nat} {request : Bool} {act bad : State → Nat → State}

/-- A device in ACTIVE is awake. -/
theorem wake_of_active {src : Nat} (hmode : s.pm.mode = .active) : s.wake src = s := by
  have hfrom : wakesFrom src s.pm.mode = false := by
    rw [hmode, wakesFrom]
    split <;> rfl
  rw [State.wake, hmode, if_neg (by decide), ← hmode, hfrom]
  rfl

theorem receive_of_out_of_turn (hout : (s.lk m.link).mode ≠ .up ∨ m.dseq.toNat ≠ (s.session (s.lk m.link).peer).rxDseq) :
    s.receive m bytes request act bad = s := if_pos hout

/-- The acceptance of a message leaves the hoops, the knots and what is held of them. -/
theorem beside_accepted : (accepted s m bytes).hoops = s.hoops ∧ (accepted s m bytes).knots = s.knots ∧
    (accepted s m bytes).heldKnots = s.heldKnots := by
  simp only [accepted, State.addPieces, State.addReg, State.setReg_hoops, State.setReg_knots, State.setReg_heldKnots, State.setSession, and_self]

theorem hoop_accepted {h : Nat} : (accepted s m bytes).hoop h = s.hoop h := congrArg (mget Hoop.dflt · h) beside_accepted.1

theorem knots_accepted : (accepted s m bytes).knots = s.knots := beside_accepted.2.1

theorem knot_accepted {h k : Nat} : (accepted s m bytes).knot h k = s.knot h k := congrArg (mget 0 · (knotKey h k)) knots_accepted

theorem knotHeld_accepted {h k : Nat} : (accepted s m bytes).knotHeld h k = s.knotHeld h k := by
  obtain ⟨-, -, hheld⟩ := beside_accepted (s := s) (m := m) (bytes := bytes)
  rw [State.knotHeld, hheld, State.knotHeld]

/-- The map of the hoop's senders stays where a message is accepted (R437). -/
theorem hoopMap_accepted : (accepted s m bytes).reg (R.LK_HOOP_MAP m.link m.receiver) = s.reg (R.LK_HOOP_MAP m.link m.receiver) :=
  reg_addPieces_ne (by dsimp only [R.LK_HOOP_MAP, R.LK_RX_MB]; omega)

/-- A message in its turn, on a link that is UP, in a device that is awake: it acts where its receiving hoop admits it, and only counts otherwise. -/
theorem receive_of_in_turn (hup : (s.lk m.link).mode = .up) (hseq : m.dseq.toNat = (s.session (s.lk m.link).peer).rxDseq)
    (hon : s.domainOn .compute = true) (hmode : s.pm.mode = .active) : s.receive m bytes request act bad =
      if bit (s.reg (R.LK_HOOP_MAP m.link m.receiver)) (16 + m.sender) = true ∧ (s.hoop m.receiver).phase = .ready then
        act (accepted s m bytes) (s.lk m.link).peer
      else
        let t := (accepted s m bytes).addReg (R.LK_IN_REFUSED m.link) 1
        if request then bad (t.refuse (s.lk m.link).peer m 0) (s.lk m.link).peer else t := by
  rw [State.receive]
  dsimp only
  rw [if_neg (not_or.2 ⟨not_not.2 hup, not_not.2 hseq⟩), hon, if_neg (by decide), wake_of_active hmode,
    ← hoopMap_accepted (s := s) (m := m) (bytes := bytes), ← hoop_accepted (s := s) (m := m) (bytes := bytes)]
  rfl

theorem receive_of_delivered (hdel : delivered s m) :
    s.receive m bytes request act bad = act (accepted s m bytes) (s.lk m.link).peer := by
  obtain ⟨hup, hseq, hon, hmode, hadmits, hready⟩ := hdel
  rw [receive_of_in_turn hup hseq hon hmode, if_pos ⟨hadmits, hready⟩]

/-- A message that is no request, which its receiving hoop does not admit, only counts (R437). -/
theorem receive_of_not_admitted (hup : (s.lk m.link).mode = .up) (hseq : m.dseq.toNat = (s.session (s.lk m.link).peer).rxDseq)
    (hon : s.domainOn .compute = true) (hmode : s.pm.mode = .active) (hnot : bit (s.reg (R.LK_HOOP_MAP m.link m.receiver)) (16 + m.sender) = false) :
    s.receive m bytes false act bad = (accepted s m bytes).addReg (R.LK_IN_REFUSED m.link) 1 := by
  rw [receive_of_in_turn hup hseq hon hmode, if_neg (by simp [hnot])]
  rfl

theorem refused_accepted : (accepted s m bytes).reg (R.LK_IN_REFUSED m.link) = s.reg (R.LK_IN_REFUSED m.link) :=
  reg_addPieces_ne (by dsimp only [R.LK_IN_REFUSED, R.LK_RX_MB]; omega)

end Receipt

section Signals
variable {s : State} {m : MsgHdr} {h k op : Nat} {v : W32}

theorem regs_setKnot : (s.setKnot h k v).regs = s.regs := rfl

/-- A knot that is not held takes a peer's signal, which counts for no signal of this hoop (R442). -/
theorem knotOp_of_peer {reset : Bool} (hfree : s.knotHeld h k = false) :
    s.knotOp h k reset v false = (s.setKnot h k (if reset then 0 else s.knot h k + v)).testWaits h k := by
  rw [State.knotOp, hfree]
  rfl

theorem doKnotSig_of_delivered (hdel : delivered s m) (hop : op < 2) :
    doKnotSig m k op v s = ((accepted s m (msgBytes 3)).knotOp m.receiver k (decide (op = 1)) v false).settled :=
  (receive_of_delivered hdel).trans (if_neg (by omega))

end Signals

section Ends
variable {s : State} {c : Cmd} {code : Nat} {detail : BitVec 192} {x : InFlight}

theorem mem_killWhere {p : InFlight → Bool} (hx : x ∈ (s.killWhere p).flights) : x ∈ s.flights ∧ p x = false :=
  ⟨(mem_foldl_releaseFlight hx).1, not_of_mem_killWhere hx⟩

theorem flights_post (r : Rec) : (s.post r).flights = s.flights := by
  unfold State.post
  split <;> rfl

/-- The end of a command leaves none of it, and begins no other (R138). -/
theorem mem_endCmd (hx : x ∈ (s.endCmd c code detail).flights) : x ∈ s.flights ∧ x.cmd ≠ c := by
  unfold State.endCmd at hx
  extract_lets h q ent s1 _ s2 s3 s4 s5 y at hx
  have h2 : s2.flights = s1.flights := (State.setReg_flights _ _ _).trans (flights_post _)
  have h3 : s3.flights = s1.flights := by
    dsimp only [s3]
    split
    · exact flights_withdrawHead.trans h2
    · exact h2
  clear_value s3
  have h5 : s5.flights = s4.flights := flights_withdrawHead
  have hs3 : x ∈ s3.flights := by
    split at hx
    · rw [State.setCq_flights, h5] at hx
      exact (mem_killWhere hx).1
    · rwa [State.markDone, State.setCq_flights] at hx
  rw [h3] at hs3
  obtain ⟨hmem, hother⟩ := mem_killWhere hs3
  exact ⟨hmem, of_decide_eq_false hother⟩

/-- A begun command ends as its peer is unreachable, unless the end of another has killed it (R138, R436). -/
def State.endUnreachable (s : State) (f : InFlight) : State :=
  if s.flights.any (fun x => decide (x.cmd = f.cmd)) then s.endCmd f.cmd 0x202 (reasonDetail 44 0) else s

theorem mem_endUnreachable {f : InFlight} (hx : x ∈ (s.endUnreachable f).flights) : x ∈ s.flights ∧ x.cmd ≠ f.cmd := by
  unfold State.endUnreachable at hx
  split at hx
  next => exact mem_endCmd hx
  next hnone => exact ⟨hx, fun hcmd => hnone (List.any_eq_true.2 ⟨x, hx, decide_eq_true hcmd⟩)⟩

theorem mem_foldl_endUnreachable {l : List InFlight} (hx : x ∈ (l.foldl State.endUnreachable s).flights) :
    x ∈ s.flights ∧ ∀ f ∈ l, x.cmd ≠ f.cmd := by
  induction l generalizing s with
  | nil => exact ⟨hx, fun f hf => absurd hf List.not_mem_nil⟩
  | cons f l ih =>
    obtain ⟨hmem, hrest⟩ := ih hx
    obtain ⟨hmem, hne⟩ := mem_endUnreachable hmem
    exact ⟨hmem, List.forall_mem_cons.2 ⟨hne, hrest⟩⟩

variable {p : Nat}

/-- No command is left that has a remote operation outstanding to the peer (R436). -/
theorem mem_endRemote (hx : x ∈ (s.endRemote p).flights) : x ∈ s.flights ∧
    ∀ r ∈ s.remotes, r.cmd = x.id → r.peer = p → r.role ≠ .pushInit ∧ r.role ≠ .returnInit := by
  obtain ⟨hmem, hends⟩ := mem_foldl_endUnreachable hx
  refine ⟨hmem, fun r hr hcmd hpeer => not_or.1 fun hrole => hends x (List.mem_filter.2 ⟨hmem, ?_⟩) rfl⟩
  exact List.any_eq_true.2 ⟨r, hr, decide_eq_true ⟨hcmd, hpeer, hrole⟩⟩

/-- No knot signal to the peer is left (R436). -/
theorem mem_endSignals (hx : x ∈ (s.endSignals p).flights) : x ∈ s.flights ∧
    ¬ (x.cmd.opcode = 4 ∧ x.cmd.knotRemote = true ∧ x.cmd.knotPeer = p) := by
  obtain ⟨hmem, hends⟩ := mem_foldl_endUnreachable hx
  refine ⟨hmem, fun ⟨hop, hremote, hpeer⟩ => hends x (List.mem_filter.2 ⟨hmem, ?_⟩) rfl⟩
  rw [hremote, Bool.and_true]
  exact decide_eq_true ⟨hop, hpeer⟩

end Ends

section Sessions
variable {s : State} {p n : Nat}

/-- The state in which what the peer's last session left has ended, and its messages are counted as lost (R436). -/
def State.lastSessionEnded (s : State) (p n : Nat) : State :=
  let t := (s.endRemote p).addReg (R.LK_LOST_MSGS n) (s.session p).unacked.length
  (t.remotes.filter fun r => decide (r.peer = p ∧ (r.role = .inbound ∨ r.role = .lent))).foldl (fun s r => s.dropAnswer r) t

/-- The state in which a peer's new session has begun, before its new key (R433, R436). -/
def State.newSession (s : State) (p n : Nat) : State :=
  let t := ((s.lastSessionEnded p n).setSession p { Session.dflt with lostSince := (s.session p).lostSince }).cancelDraws fun f =>
    match f with | .msg k _ => decide (k = p) | _ => false
  t.setLk n { t.lk n with sessionNew := true }

theorem doPeerNewSession_of_link (hlink : s.peerLink p = some n) :
    doPeerNewSession p s = ((s.newSession p n).newKey n).startMoves.settled := by
  rw [doPeerNewSession, hlink]
  rfl

theorem session_cancelDraws {q : DrawFor → Bool} : (s.cancelDraws q).session p = s.session p := rfl

theorem reg_cancelDraws {a : Nat} {q : DrawFor → Bool} : (s.cancelDraws q).reg a = s.reg a := rfl

theorem session_newSession : (s.newSession p n).session p = { Session.dflt with lostSince := (s.session p).lostSince } := by
  rw [State.newSession, session_setLk, session_cancelDraws, session_setSession_same]

theorem sessionNew_newSession : ((s.newSession p n).lk n).sessionNew = true := by
  rw [State.newSession, lk_setLk_same]

theorem endRemote_of_none (hnone : s.remotes = []) : s.endRemote p = s := by
  simp [State.endRemote, hnone]

/-- Where no remote move is in progress, the messages are all that is lost. -/
theorem lost_newSession (hnone : s.remotes = []) :
    (s.newSession p n).reg (R.LK_LOST_MSGS n) = satAdd (s.reg (R.LK_LOST_MSGS n)) (s.session p).unacked.length := by
  have hended : s.lastSessionEnded p n = s.addReg (R.LK_LOST_MSGS n) (s.session p).unacked.length := by
    rw [State.lastSessionEnded, endRemote_of_none hnone, State.addReg, State.setReg_remotes, hnone]
    rfl
  rw [State.newSession, hended, reg_setLk, reg_cancelDraws, reg_setSession, reg_addReg_same]

theorem doPeerUnreachableTimeout_eq {c : Nat} (hlost : (s.session p).lostSince = some c) (hlink : s.peerLink p = some n) :
    doPeerUnreachableTimeout p s =
      if c + (s.force (R.LK_DOWN_HOLD n)).toNat ≤ s.count then ((s.endRemote p).endSignals p).startMoves.settled else s := by
  rw [doPeerUnreachableTimeout, hlost, hlink]

end Sessions

/-- Settles O43: a message by its turn and by what its receiving hoop admits, a new session and a loss by what they end. -/
theorem signalsRecordsAndSessions : Obligations.SignalsRecordsAndSessions := by
  unfold Obligations.SignalsRecordsAndSessions
  refine ⟨⟨fun s m hout w x g k op e line kind c hc => ?_, fun s m k op v hdel => ?_, fun s m e line hdel => ?_,
      fun s m k op v hup hseq hon hmode hnot => ?_⟩,
    fun s p n hlink _ => ⟨?_, fun hnone => ?_⟩, fun s p c n hlost hlink => ⟨fun hearly => ?_, fun hover => ?_⟩⟩
  · have hstays {c : Instr} {f : State → State} (hexec : exec c s = run f s) (hf : f s = s) : completes c s fun t => t = s :=
      completes_run hexec hf rfl rfl
    fin_cases hc
    · exact hstays (f := doMoveReq m g w.toNat kind x x w.toNat g g) rfl (receive_of_out_of_turn hout)
    · exact hstays (f := doPullReq m) rfl (receive_of_out_of_turn hout)
    · exact hstays (f := doPrepared m w.toNat w.toNat w.toNat w.toNat x g) rfl (receive_of_out_of_turn hout)
    · exact hstays (f := doRefused m g) rfl (receive_of_out_of_turn hout)
    · exact hstays (f := doCommitted m) rfl (receive_of_out_of_turn hout)
    · exact hstays (f := doCancel m) rfl (receive_of_out_of_turn hout)
    · exact hstays (f := doKnotSig m k op w) rfl (receive_of_out_of_turn hout)
    · exact hstays (f := doEventFwd m e line) rfl (receive_of_out_of_turn hout)
  · have hrun : doKnotSig m k op v s = _ := doKnotSig_of_delivered hdel op.isLt
    rw [← knotHeld_accepted (bytes := msgBytes 3), ← knot_accepted (bytes := msgBytes 3)]
    refine ⟨fun hfree => ?_, fun hheld => ?_⟩
    · refine completesThen_run (f := doKnotSig m k op v) rfl (hrun.trans (congrArg State.settled (knotOp_of_peer hfree)))
        ⟨knot_setKnot.trans ?_, regs_setKnot⟩
      exact if_congr (decide_eq_true_iff.trans (Fin.ext_iff (b := (1 : Fin 2))).symm) rfl rfl
    · exact completesThen_run (f := doKnotSig m k op v) rfl (hrun.trans (congrArg State.settled (knotOp_of_held hheld)))
        ((State.setReg_knots _ _ _).trans knots_accepted)
  · refine completesThen_run (f := doEventFwd m e line) rfl (receive_of_delivered hdel) ?_
    rw [hoop_setHoop_same, hoop_accepted]
  · refine completes_dev (f := doKnotSig m k op v) rfl (receive_of_not_admitted hup hseq hon hmode hnot) ((stable_part s.part).doKnotSig rfl)
      fun hreg => ⟨(dev_knots _ _).trans ((State.setReg_knots _ _ _).trans knots_accepted), ?_⟩
    rw [hreg, reg_addReg_same, refused_accepted]
  · exact completesThen_run (f := doPeerNewSession p) rfl (doPeerNewSession_of_link hlink) ⟨session_newSession, sessionNew_newSession⟩
  · exact completesThen_run (f := doPeerNewSession p) rfl (doPeerNewSession_of_link hlink) (lost_newSession hnone)
  · exact completes_run (f := doPeerUnreachableTimeout p) rfl ((doPeerUnreachableTimeout_eq hlost hlink).trans (if_neg hearly.not_ge)) rfl rfl
  · refine completesThen_run (f := doPeerUnreachableTimeout p) rfl ((doPeerUnreachableTimeout_eq hlost hlink).trans (if_pos hover)) fun f hf => ?_
    obtain ⟨hmem, hsignal⟩ := mem_endSignals hf
    exact ⟨hsignal, (mem_endRemote hmem).2⟩

end Sys2Proof.Machine

namespace Sys2Proof.Machine

/-! ## Commands of the island that leave the part, the clock, scene time and the waiting commands as they are -/

section Fixed
variable {s t : State}

/-- What no command of the device's blocks changes. -/
def State.fixed (s : State) := (s.part, s.now, s.sub, s.ts, s.pending)

theorem dev_of_fixed (h : t.fixed = s.fixed) : dev (fun _ => t) s = t := by
  simp only [State.fixed, Prod.mk.injEq] at h
  obtain ⟨hpart, hnow, hsub, hts, hpending⟩ := h
  rw [dev, ← hpart, ← hnow, ← hsub, ← hts, ← hpending]

theorem completes_fixed {c : Instr} {f : State → State} {p : State → Prop} (hc : exec c s = run f s) (hf : f s = t) (hfixed : t.fixed = s.fixed)
    (hp : p t) : completes c s p := completes_run hc hf (dev_of_fixed hfixed) hp

@[simp] theorem fixed_setReg (a : Nat) (v : W32) : (s.setReg a v).fixed = s.fixed := rfl
@[simp] theorem fixed_addReg (a n : Nat) : (s.addReg a n).fixed = s.fixed := rfl
@[simp] theorem fixed_setRegFld (a lo len x : Nat) : (s.setRegFld a lo len x).fixed = s.fixed := rfl

end Fixed

/-! ## The ring's channels and the detectors (R454 to R457, R471 to R473) -/

section RingChannels
variable {s : State} {c : Nat}

/-- The state with another island. -/
def State.withIsland (s : State) (x : Island) : State := { s with island := x }

@[simp] theorem fixed_withIsland (x : Island) : (s.withIsland x).fixed = s.fixed := rfl
@[simp] theorem reg_withIsland (x : Island) (a : Nat) : (s.withIsland x).reg a = s.reg a := rfl

/-- The state with another ring. -/
def State.withChans (s : State) (m : SMap Chan) : State := s.withIsland { s.island with chans := m }

@[simp] theorem fixed_withChans (m : SMap Chan) : (s.withChans m).fixed = s.fixed := rfl
@[simp] theorem reg_withChans (m : SMap Chan) (a : Nat) : (s.withChans m).reg a = s.reg a := rfl

theorem chan_setChan_same (x : Chan) : (s.setChan c x).chan c = x := mget_mset_same _ _ _ _

theorem chan_setChan_ne (x : Chan) {k : Nat} (hk : k ≠ c) : (s.setChan c x).chan k = s.chan k := mget_mset_ne _ _ _ _ _ _ hk

/-- `t` is `s` with the ring's newest frames changed: each channel holds as many frames as before. -/
def keepsFrameCounts (s t : State) : Prop := ∃ m, t = s.withChans m ∧ ∀ k, (t.chan k).frames.length = (s.chan k).frames.length

theorem keepsFrameCounts_refl : keepsFrameCounts s s := ⟨_, rfl, fun _ => rfl⟩

theorem keepsFrameCounts_trans {t u : State} (hst : keepsFrameCounts s t) (htu : keepsFrameCounts t u) : keepsFrameCounts s u := by
  obtain ⟨m, rfl, hs⟩ := hst
  obtain ⟨n, rfl, ht⟩ := htu
  exact ⟨n, rfl, fun k => (ht k).trans (hs k)⟩

theorem keepsFrameCounts_modRunning (g : Frame → Frame) : keepsFrameCounts s (s.modRunning c g) := by
  unfold State.modRunning
  dsimp only
  split
  next f hlast =>
    split
    · refine ⟨_, rfl, fun k => ?_⟩
      by_cases hk : k = c
      · have hne : (s.chan c).frames ≠ [] := fun h => by simp [h] at hlast
        rw [hk, chan_setChan_same, List.length_append, List.length_dropLast, List.length_singleton,
          Nat.sub_add_cancel (List.length_pos_iff.2 hne)]
      · rw [chan_setChan_ne _ hk]
    · exact keepsFrameCounts_refl
  next => exact keepsFrameCounts_refl

/-- The quiet rest of a frame takes no frame away (R450, R473). -/
theorem keepsFrameCounts_hushFrames : keepsFrameCounts s s.hushFrames := by
  refine List.foldlRecOn (motive := keepsFrameCounts s) _ _ keepsFrameCounts_refl fun t ht c _ => ?_
  split
  · exact keepsFrameCounts_trans ht (keepsFrameCounts_modRunning _)
  · exact ht

/-- A clear takes the frames of the channels named and of no other; of the island it changes the ring, and CLEARING where it names one (R473). -/
theorem clearChans_spec (cs : List Nat) : ∃ m,
    s.clearChans cs = s.withIsland { s.island with chans := m, clearing := if cs = [] then s.island.clearing else true } ∧
    ∀ k, (mget Chan.dflt m k).frames = if k ∈ cs then [] else (s.chan k).frames := by
  have hfold : ∃ m, cs.foldl (fun s c => s.setChan c { s.chan c with frames := [], cont := false, runs := false }) s = s.withChans m ∧
      ∀ k, (mget Chan.dflt m k).frames = if k ∈ cs then [] else (s.chan k).frames := by
    induction cs generalizing s with
    | nil => exact ⟨_, rfl, fun _ => rfl⟩
    | cons c cs ih =>
      obtain ⟨m, hm, hframes⟩ := ih (s := s.setChan c { s.chan c with frames := [], cont := false, runs := false })
      refine ⟨m, hm, fun k => ?_⟩
      rw [hframes]
      by_cases hk : k = c
      · simp [hk, chan_setChan_same]
      · simp [hk, chan_setChan_ne]
  obtain ⟨m, hm, hframes⟩ := hfold
  unfold State.clearChans
  rw [hm]
  by_cases hcs : cs = []
  · simp only [if_pos hcs]
    exact ⟨m, rfl, hframes⟩
  · simp only [if_neg hcs]
    exact ⟨m, rfl, hframes⟩

/-- Deafened detectors are all IDLE (R472). -/
theorem det_deafen (g d : Nat) : (s.deafen.det g d).st = 0 := by
  refine List.foldlRecOn (motive := fun m => ∀ k, (mget Det.dflt m k).st = 0) s.island.dets _ (fun _ => rfl)
    (fun m hm e _ k => ?_) (4 * g + d)
  by_cases hk : k = e.1
  · rw [hk, mget_mset_same]
  · rw [mget_mset_ne _ _ _ _ _ _ hk, hm]

end RingChannels

/-! ## Inputs and mutes (R450, R471 to R473) -/

section Inputs
variable {s : State} {l p f : Nat} {v : W32}

theorem doPdmLineStuck_of_free (hon : s.islandOn = true) (hfree : bit (s.reg R.PDM_STATUS) l = false) :
    doPdmLineStuck l s = ((s.setRegFld R.PDM_STATUS l 1 1).addReg R.PDM_STUCK_COUNT 1).hushFrames := by
  rw [doPdmLineStuck, if_neg (by simp [hon, hfree])]

theorem doPdmLineRecover_of_on (hon : s.islandOn = true) : doPdmLineRecover l s = s.setRegFld R.PDM_STATUS l 1 0 := if_pos hon

/-- The wrong frames of a TDM port, where they are what its loss is known by (R450). -/
def State.frameErrors (s : State) (p : Nat) (counts : Bool) : State :=
  if counts ∧ bit (s.reg (R.TDM_CTRL p)) 0 then s.addReg (R.TDM_FRAME_ERR p) 8 else s

theorem frameErrors_spec (counts : Bool) : ∃ n, s.frameErrors p counts = { s with regs := n } ∧
    ∀ a, a ≠ R.TDM_FRAME_ERR p → (s.frameErrors p counts).reg a = s.reg a := by
  unfold State.frameErrors
  split
  · exact ⟨_, rfl, fun a ha => reg_addReg_ne _ _ _ _ ha⟩
  · exact ⟨_, rfl, fun _ _ => rfl⟩

theorem doTdmPortLost_of_locked (counts : Bool) (hlocked : fld (s.reg (R.TDM_STATUS p)) 0 2 = 1) :
    doTdmPortLost p counts s =
      (((s.frameErrors p counts).setReg (R.TDM_STATUS p) 2).addReg (R.TDM_LOST_COUNT p) 1).hushFrames := by
  obtain ⟨_, -, hreg⟩ := frameErrors_spec (s := s) (p := p) counts
  refine if_neg (not_not.2 ?_)
  exact (congrArg (fld · 0 2) (hreg _ (by dsimp only [R.TDM_STATUS, R.TDM_FRAME_ERR]; omega))).trans hlocked

/-- The detectors and groups of a muted island, in a ring that is cleared (R472). -/
def State.hardMuted (s : State) : State :=
  let t := s.deafen
  { t with island := { t.island with hwMuted := true } }

theorem hardMuted_withIsland (y : Island) : ∃ x : Island, (s.withIsland y).hardMuted = s.withIsland x ∧
    x.hwMuted = true ∧ x.clearing = y.clearing ∧ x.kept = y.kept ∧ x.chans = y.chans ∧ ∀ g d, (mget Det.dflt x.dets (4 * g + d)).st = 0 :=
  ⟨_, rfl, rfl, rfl, rfl, rfl, det_deafen (s := s.withIsland y)⟩

/-- The assertion of the mute switch is counted and stamped (R472). -/
def State.muteStamped (s : State) : State :=
  ((s.addReg R.MUTE_COUNT 1).setReg R.MUTE_STAMP_LO (w32 (s.count % 2 ^ 32))).setReg R.MUTE_STAMP_HI (w32 (s.count / 2 ^ 32))

@[simp] theorem fixed_muteStamped : s.muteStamped.fixed = s.fixed := by simp [State.muteStamped]

theorem island_muteStamped : s.muteStamped.island = s.island := by simp [State.muteStamped, State.addReg]

theorem regs_muteStamped : s.muteStamped.reg R.MUTE_COUNT = satAdd (s.reg R.MUTE_COUNT) 1 ∧
    s.muteStamped.reg R.MUTE_STAMP_LO = w32 (s.count % 2 ^ 32) ∧ s.muteStamped.reg R.MUTE_STAMP_HI = w32 (s.count / 2 ^ 32) := by
  refine ⟨?_, ?_, reg_setReg_same _ _ _⟩
  · rw [State.muteStamped, reg_setReg_ne _ _ _ _ (by decide), reg_setReg_ne _ _ _ _ (by decide), reg_addReg_same]
  · rw [State.muteStamped, reg_setReg_ne _ _ _ _ (by decide), reg_setReg_same]

theorem doHwMuteAssert_of_open (hon : s.domainOn .aon = true) (hopen : s.island.hwMuted = false) :
    doHwMuteAssert s = ((s.withIsland { s.island with muteHigh := false }).clearChans (List.range 16)).hardMuted.muteStamped :=
  (if_neg (by simp [hon])).trans (if_neg (by simp [hopen]))

theorem doIslSwMuteWrite_of_reaches (hreach : s.reaches f R.ISL_SW_MUTE = true) :
    doIslSwMuteWrite f v s = (s.setReg R.ISL_SW_MUTE (w32 (v.toNat % 2 ^ 17))).hushFrames := reach_of_reaches _ _ _ _ hreach

theorem doIslClear_of_reaches (hreach : s.reaches f R.ISL_CLEAR = true) :
    doIslClear f v s = s.clearChans ((List.range 16).filter fun c => bit v c) := reach_of_reaches _ _ _ _ hreach

end Inputs

/-- Settles O44: each event is the operation that its guard selects; what it does to the ring is said by the frames that each channel keeps. -/
theorem islandInputsAndMutes : Obligations.IslandInputsAndMutes := by
  unfold Obligations.IslandInputsAndMutes
  refine ⟨fun s l hon => ⟨fun hfree => ?_, ?_⟩, fun s p counts => ⟨fun hlocked => ?_, fun hen => ?_, fun hoff => ?_⟩,
    fun s hon => ⟨fun hopen => ?_, ?_⟩, fun s => ?_, fun s f v => ⟨fun hreach => ?_, fun hreach => ?_⟩⟩
  · obtain ⟨m, hm, -⟩ := keepsFrameCounts_hushFrames (s := (s.setRegFld R.PDM_STATUS l 1 1).addReg R.PDM_STUCK_COUNT 1)
    refine completes_fixed (f := doPdmLineStuck l) rfl ((doPdmLineStuck_of_free hon hfree).trans hm) (by simp) ⟨?_, ?_⟩
    · rw [reg_withChans, reg_addReg_ne _ _ _ _ (by decide), reg_setRegFld_same]
      exact bit_setFld_same _ _ _ (by omega)
    · rw [reg_withChans, reg_addReg_same, setRegFld_eq, reg_setReg_ne _ _ _ _ (by decide)]
  · refine completes_fixed (f := doPdmLineRecover l) rfl (doPdmLineRecover_of_on hon) (by simp) ⟨?_, fun j _ hj => ?_⟩
    · rw [reg_setRegFld_same]
      exact bit_setFld_same _ _ _ (by omega)
    · rw [reg_setRegFld_same]
      exact bit_setFld_ne _ _ _ _ _ (by omega) (by omega)
  · obtain ⟨n, hn, hreg⟩ := frameErrors_spec (s := s) (p := p) counts
    obtain ⟨m, hm, -⟩ := keepsFrameCounts_hushFrames
      (s := ((s.frameErrors p counts).setReg (R.TDM_STATUS p) 2).addReg (R.TDM_LOST_COUNT p) 1)
    have hcount : R.TDM_LOST_COUNT p ≠ R.TDM_STATUS p := by dsimp only [R.TDM_LOST_COUNT, R.TDM_STATUS]; omega
    refine completes_fixed (f := doTdmPortLost p counts) rfl ((doTdmPortLost_of_locked counts hlocked).trans hm) ?_ ⟨?_, ?_⟩
    · rw [fixed_withChans, fixed_addReg, fixed_setReg, hn]
      rfl
    · rw [reg_withChans, reg_addReg_ne _ _ _ _ hcount.symm, reg_setReg_same]
    · rw [reg_withChans, reg_addReg_same, reg_setReg_ne _ _ _ _ hcount, hreg _ (by dsimp only [R.TDM_LOST_COUNT, R.TDM_FRAME_ERR]; omega)]
  · exact completes_fixed (f := doTdmPortLocked p) rfl (if_pos hen) (by simp) (reg_setReg_same _ _ _)
  · exact completes_fixed (f := doTdmPortLocked p) rfl (if_neg (by simp [hoff])) rfl rfl
  · obtain ⟨m, hm, hframes⟩ := clearChans_spec (s := s.withIsland { s.island with muteHigh := false }) (List.range 16)
    obtain ⟨x, hx, hmuted, hclearing, hkept, hchans, hdets⟩ := hardMuted_withIsland (s := s)
      { s.island with muteHigh := false, chans := m, clearing := true }
    have hassert : doHwMuteAssert s = (s.withIsland x).muteStamped :=
      (doHwMuteAssert_of_open hon hopen).trans (congrArg State.muteStamped ((congrArg State.hardMuted hm).trans hx))
    have hframes' : ∀ c < 16, (mget Chan.dflt x.chans c).frames = [] := fun c hc => by
      rw [hchans]
      exact (hframes c).trans (if_pos (List.mem_range.2 hc))
    refine completes_fixed rfl hassert (by simp) ?_
    unfold State.chan State.det
    rw [island_muteStamped]
    exact ⟨hmuted, hclearing, hframes', hdets, hkept, regs_muteStamped⟩
  · exact completes_fixed rfl (if_pos hon) rfl ⟨rfl, rfl, rfl⟩
  · exact completes_fixed (f := doRingClearComplete) rfl rfl rfl rfl
  · obtain ⟨m, hm, hlengths⟩ := keepsFrameCounts_hushFrames (s := s.setReg R.ISL_SW_MUTE (w32 (v.toNat % 2 ^ 17)))
    rw [hm] at hlengths
    exact completes_fixed (f := doIslSwMuteWrite f v) rfl ((doIslSwMuteWrite_of_reaches hreach).trans hm) (by simp)
      ⟨by rw [reg_withChans, reg_setReg_same], rfl, rfl, fun c _ => hlengths c⟩
  · obtain ⟨m, hm, hframes⟩ := clearChans_spec (s := s) ((List.range 16).filter fun c => bit v c)
    refine completes_fixed (f := doIslClear f v) rfl ((doIslClear_of_reaches hreach).trans hm) (by simp) fun c hc => ?_
    exact (hframes c).trans (if_congr (by simp [hc]) rfl rfl)

end Sys2Proof.Machine

namespace Sys2Proof.Machine

/-! ## The division of the ring, and the sources of its channels (R451, R455) -/

section RingWrites
variable {s : State} {f c : Nat} {v : W32}

theorem island_raise (b : Blk) (i bitNo code : Nat) : (s.raise b i bitNo code).island = s.island := by
  unfold State.raise State.raiseWith
  extract_lets page info s1 s2
  split
  · rfl
  · split
    · rfl
    · unfold State.post
      split <;> rfl

theorem doRingNchWrite_of_stopped (hreach : s.reaches f R.RING_NCH = true) (hoff : bit (s.reg R.ISL_CTRL) 0 = false) :
    doRingNchWrite f v s =
      ((s.setReg R.RING_NCH (w32 (clamp 1 16 v.toNat))).setReg R.RING_FRAMES (w32 (11397 / clamp 1 16 v.toNat))).clearChans (List.range 16) := by
  rw [doRingNchWrite, reach_of_reaches _ _ _ _ hreach, if_neg (by simp [hoff])]

theorem doRingNchWrite_of_running (hreach : s.reaches f R.RING_NCH = true) (hon : bit (s.reg R.ISL_CTRL) 0 = true) :
    doRingNchWrite f v s = s.accessRefused .island 0 := by
  rw [doRingNchWrite, reach_of_reaches _ _ _ _ hreach, if_pos hon]

/-- The value that RCH keeps of a written one (R478). -/
def rchKept (v : W32) : W32 := applyLimit (.fields [(0,2,0,2), (4,4,0,15), (8,4,0,15), (16,5,0,30), (24,1,0,1), (28,4,0,15)]) v

/-- Does a value of RCH put its channel in an enabled group (R451)? -/
def State.rchOn (s : State) (x : W32) : Prop := fld x 0 2 ≠ 0 ∧ s.grpOn (fld x 28 4) = true

@[simp] theorem fixed_setChan (x : Chan) : (s.setChan c x).fixed = s.fixed := rfl
@[simp] theorem reg_setChan (x : Chan) (a : Nat) : (s.setChan c x).reg a = s.reg a := rfl

/-- A channel that is in no enabled group, and is put in none, takes what is written (R451). -/
theorem reg_doRchWrite_of_off (hreach : s.reaches f (R.RCH c) = true) (hold : ¬ s.rchOn (s.reg (R.RCH c))) (hnew : ¬ s.rchOn (rchKept v)) :
    (doRchWrite f c v s).reg (R.RCH c) = rchKept v := by
  rw [doRchWrite, reach_of_reaches _ _ _ _ hreach]
  extract_lets old new on
  have hidle : ∀ x, ¬ s.rchOn x → on x = false := fun x hx => by simpa [on, State.rchOn] using hx
  rw [if_neg (by simp [hidle old hold, hidle new hnew])]
  split
  · rw [reg_setChan, reg_setReg_same]
    rfl
  · exact reg_setReg_same _ _ _

theorem doRchWrite_of_on (hreach : s.reaches f (R.RCH c) = true) (hon : s.rchOn (s.reg (R.RCH c)) ∨ s.rchOn (rchKept v)) :
    doRchWrite f c v s = s.accessRefused .island 0 := by
  rw [doRchWrite, reach_of_reaches _ _ _ _ hreach]
  refine if_pos ?_
  simpa [State.rchOn, rchKept] using hon

end RingWrites

/-! ## Changes of model (R467) -/

section ModelTurns
variable {s : State} {d : Nat}

/-- The model that a turn leaves: the new image in force, or none. -/
def Model.turned (m : Model) : Model :=
  match m.next with
  | some i => { m with loaded := true, buf := !m.buf, image := i, next := none, unload := false, passed := [] }
  | none => { m with loaded := false, image := [], unload := false, passed := [] }

theorem modelTurn_eq : s.modelTurn d =
    if ((s.model d).next.isNone ∧ (s.model d).unload = false) ∨ s.islandOn && (s.liveGroups.any fun g => !(s.model d).passed.contains g) then s
    else (s.setModel d (s.model d).turned).modelResult 0 := rfl

/-- A detector with no change of its model in progress has none to make. -/
theorem modelTurn_of_settled (hnext : (s.model d).next = none) (hunload : (s.model d).unload = false) : s.modelTurn d = s := by
  rw [modelTurn_eq, if_pos (.inl ⟨by rw [hnext]; rfl, hunload⟩)]

/-- A change waits for the hop boundaries of the groups that listen. -/
theorem modelTurn_of_listening (hon : s.islandOn = true) (hlive : s.liveGroups ≠ []) (hpassed : (s.model d).passed = []) : s.modelTurn d = s := by
  obtain ⟨g, hg⟩ := List.exists_mem_of_ne_nil _ hlive
  refine if_pos (.inr ?_)
  rw [hon, hpassed, Bool.true_and]
  exact List.any_eq_true.2 ⟨g, hg, rfl⟩

/-- Where no group listens it is made at once. -/
theorem modelTurn_of_quiet (hchange : (s.model d).next.isSome ∨ (s.model d).unload = true) (hlive : s.liveGroups = []) :
    s.modelTurn d = (s.setModel d (s.model d).turned).modelResult 0 := by
  rw [modelTurn_eq, if_neg]
  rintro (⟨hnone, hkept⟩ | hwaits)
  · rcases hchange with hnext | hunload
    · simp [Option.isNone_iff_eq_none.1 hnone] at hnext
    · simp [hkept] at hunload
  · simp [hlive] at hwaits

/-- Of the registers a turn changes MODEL_RESULT, and of the island its models. -/
theorem modelTurn_spec : ∃ m, s.modelTurn d = s ∨ s.modelTurn d = (s.withIsland { s.island with models := m }).modelResult 0 := by
  rw [modelTurn_eq]
  split
  · exact ⟨[], .inl rfl⟩
  · exact ⟨_, .inr rfl⟩

theorem reg_modelTurn {a : Nat} (ha : a ≠ R.MODEL_RESULT) : (s.modelTurn d).reg a = s.reg a := by
  obtain ⟨m, h | h⟩ := modelTurn_spec (s := s) (d := d)
  · rw [h]
  · rw [h, State.modelResult, reg_setReg_ne _ _ _ _ ha]
    rfl

theorem det_modelTurn (g k : Nat) : (s.modelTurn d).det g k = s.det g k := by
  obtain ⟨m, h | h⟩ := modelTurn_spec (s := s) (d := d)
  · rw [h]
  · rw [h]
    rfl

end ModelTurns

/-! ## Groups (R452, R479) -/

section Groups
variable {s : State} {f g : Nat} {v : W32}

/-- The value that GRP_CTRL keeps of one written with EN = 1 (R479). -/
def grpKept (v : W32) : W32 :=
  applyLimit (.fields [(0,1,0,1), (4,4,0,15), (8,4,0,15), (12,3,0,7), (16,3,0,7), (20,2,0,2), (22,2,0,2), (24,2,0,2)]) (setBit v 0 true)

/-- Fields above bit 0 do not change a number's parity. -/
theorem mod_two_foldl_fields (l : List (Nat × Nat × Nat × Nat)) (n : Nat) (habove : ∀ x ∈ l, 1 ≤ x.1) :
    l.foldl (fun n x => n + clamp x.2.2.1 x.2.2.2 (fld v x.1 x.2.1) * 2 ^ x.1) n % 2 = n % 2 := by
  induction l generalizing n with
  | nil => rfl
  | cons x l ih =>
    obtain ⟨k, hk⟩ := Nat.exists_eq_add_of_le (habove x List.mem_cons_self)
    rw [List.foldl_cons, ih _ fun y hy => habove y (List.mem_cons_of_mem _ hy), hk, pow_add, pow_one, Nat.mul_left_comm,
      Nat.add_mul_mod_self_left]

/-- The bound of a field at bit 0 that may hold 0 and 1, with the other fields above it, is none. -/
theorem bit_zero_applyLimit {l : List (Nat × Nat × Nat × Nat)} (habove : ∀ x ∈ l, 1 ≤ x.1) :
    bit (applyLimit (.fields ((0, 1, 0, 1) :: l)) v) 0 = bit v 0 := by
  have hlt : fld v 0 1 < 2 := fld_lt v 0 1
  have hen : clamp 0 1 (fld v 0 1) = fld v 0 1 := by
    unfold clamp
    split_ifs <;> omega
  rw [bit_eq_fld, bit_eq_fld, applyLimit, List.foldl_cons, fld, w32, BitVec.toNat_ofNat, pow_zero, Nat.div_one, pow_one,
    Nat.mod_mod_of_dvd _ (by decide), mod_two_foldl_fields l _ habove, hen, Nat.zero_add, Nat.mul_one, Nat.mod_eq_of_lt hlt]

theorem bit_grpKept : bit (grpKept v) 0 = true := (bit_zero_applyLimit (by decide)).trans (bit_setBit_same v (by decide))

theorem det_setDet_same (d : Nat) (x : Det) : (s.setDet g d x).det g d = x := mget_mset_same _ _ _ _

theorem det_setDet_ne {d k : Nat} (x : Det) (hk : k ≠ d) : (s.setDet g d x).det g k = s.det g k := mget_mset_ne _ _ _ _ _ _ (by omega)

theorem det_resets {d : Nat} (hd : d < 3) : ((List.range 3).foldl (fun s d => s.setDet g d Det.dflt) s).det g d = Det.dflt := by
  change (((s.setDet g 0 Det.dflt).setDet g 1 Det.dflt).setDet g 2 Det.dflt).det g d = Det.dflt
  interval_cases d
  · rw [det_setDet_ne _ (by decide), det_setDet_ne _ (by decide), det_setDet_same]
  · rw [det_setDet_ne _ (by decide), det_setDet_same]
  · rw [det_setDet_same]

@[simp] theorem det_setGroup (x : Machine.Group) (k d : Nat) : (s.setGroup g x).det k d = s.det k d := rfl
@[simp] theorem reg_setGroup (x : Machine.Group) (a : Nat) : (s.setGroup g x).reg a = s.reg a := rfl

/-- A group that may be enabled is, and its detectors begin anew (R452). -/
theorem storeGrp_of_ok (hoff : s.grpOn g = false) (hen : bit v 0 = true) (hok : s.grpOk g = true) :
    (s.storeGrp g v).reg = (s.setReg (R.GRP_CTRL g) v).reg ∧ ∀ d < 3, (s.storeGrp g v).det g d = Det.dflt := by
  have hold : ¬ bit (s.reg (R.GRP_CTRL g)) 0 = true := by simpa [State.grpOn] using hoff
  rw [State.storeGrp]
  dsimp only
  rw [if_neg fun h => hold h.1, if_neg fun h => hold h.1, if_neg (by simp [hold, hen]), if_pos hok]
  refine ⟨funext fun a => ?_, fun d hd => (det_setGroup _ _ _).trans (det_resets hd)⟩
  rw [reg_setGroup, foldl_keeps (fun t : State => t.reg a) _ (by intros; rfl), foldl_keeps (fun t : State => t.reg a) _ (by intros; rfl)]

/-- One that may not stays disabled, and GROUP_REFUSED says so (R452). -/
theorem storeGrp_of_bad (hoff : s.grpOn g = false) (hen : bit v 0 = true) (hbad : s.grpOk g = false) :
    s.storeGrp g v = (s.setReg (R.GRP_CTRL g) (setBit v 0 false)).orReg R.ISL_STATUS (w32 (2 ^ 10)) := by
  have hold : ¬ bit (s.reg (R.GRP_CTRL g)) 0 = true := by simpa [State.grpOn] using hoff
  rw [State.storeGrp]
  dsimp only
  rw [if_neg fun h => hold h.1, if_neg fun h => hold h.1, if_neg (by simp [hold, hen]), if_neg (by simp [hbad])]

/-- A write of GRP_CTRL that enables: the store of its value, and the turn of a model that no group holds up any longer (R467). -/
theorem doGroupEnable_of_reaches (hreach : s.reaches f (R.GRP_CTRL g) = true) :
    doGroupEnable f g v s = ((s.storeGrp g (grpKept v)).modelTurn 0).modelTurn 1 := reach_of_reaches _ _ _ _ hreach

theorem reg_doGroupEnable (hreach : s.reaches f (R.GRP_CTRL g) = true) {a : Nat} (ha : a ≠ R.MODEL_RESULT) :
    (doGroupEnable f g v s).reg a = (s.storeGrp g (grpKept v)).reg a := by
  rw [doGroupEnable_of_reaches hreach, reg_modelTurn ha, reg_modelTurn ha]

end Groups

/-! ## Frames of the ring (R454 to R457) -/

section Frames
variable {s : State} {c : Nat} {words : List W32}

/-- Does channel `c` write frames (R451, R455, R457)? -/
def State.writes (s : State) (c : Nat) : Prop :=
  s.islandOn = true ∧ bit (s.reg R.ISL_CTRL) 0 = true ∧ fld (s.reg (R.RCH c)) 0 2 ≠ 0 ∧ s.grpOn (fld (s.reg (R.RCH c)) 28 4) = true ∧
  c < (s.reg R.RING_NCH).toNat

theorem samples_of_silent {f : Frame} (h : f.silent = true) : f.samples = List.replicate 512 0 := if_pos h

/-- MUTED and GAP are the low flags of a frame (R456). -/
theorem silent_of_flags {f : Frame} {muted gap : Bool} {x y z : Nat} (hflags : f.flags = b2n muted + 2 * b2n gap + 4 * x + 8 * y + 16 * z)
    (h : muted = true ∨ gap = true) : f.silent = true := by
  have hlow : 0 < b2n muted + 2 * b2n gap ∧ b2n muted + 2 * b2n gap < 4 := by
    revert h
    cases muted <;> cases gap <;> decide
  exact decide_eq_true (by omega)

/-- A channel that writes begins a frame here and now, after the newest frames for which its share has room (R454 to R456). -/
theorem doRingFrame_of_writes (h : s.writes c) : ∃ (f : Frame) (x : Chan) (sat : Nat),
    doRingFrame c words s = (s.setChan c x).addReg (R.RCH_SAT c) sat ∧
    x.frames = ((s.chan c).frames ++ [f]).drop (((s.chan c).frames ++ [f]).length - (s.reg R.RING_FRAMES).toNat) ∧
    x.fseq = ((s.chan c).fseq + 1) % 65536 ∧ f.pos = s.pos ∧ f.fseq = (s.chan c).fseq ∧
    (s.chanMuted c = true ∨ s.chanGap c = true → f.silent = true) := by
  obtain ⟨hon, hring, hsource, hgroup, hshare⟩ := h
  unfold doRingFrame
  dsimp only
  rw [if_neg (by simp [hon, hring, hsource, hgroup, hshare])]
  exact ⟨_, _, _, rfl, rfl, rfl, rfl, rfl, silent_of_flags rfl⟩

/-- A list that ends in `f`, cut from the front to at most `n` elements, still ends in `f`. -/
theorem getLast?_drop_append {α : Type} (l : List α) (f : α) {n : Nat} (hn : 0 < n) :
    ((l ++ [f]).drop ((l ++ [f]).length - n)).getLast? = some f := by
  rw [List.getLast?_drop, if_neg (by simp only [List.length_append, List.length_singleton]; omega), List.getLast?_concat]

/-- The decoder of a coded run ends at the value that the encoder carries (R453). -/
theorem filetDecode_filetEncode (xs : List Int) (p : Int) (i : Nat) :
    (filetDecode p i (filetEncode p i xs).1).getLastD p = (filetEncode p i xs).2.1 := by
  induction xs generalizing p i with
  | nil => rfl
  | cons x xs ih =>
    rw [filetEncode, filetDecode, List.getLastD_cons]
    exact ih _ _

end Frames

/-! ## Segments (R458 to R460) -/

section Segments
variable {s : State} {h q slot g i : Nat} {c : Cmd}

/-- The stitch count at which a segment begins (R278). -/
def Cmd.segStart (c : Cmd) (slot : Nat) : Nat := c.slot slot + c.slot (slot + 1) * 2 ^ 32

/-- The one at which it ends. -/
def Cmd.segStop (c : Cmd) (slot : Nat) : Nat := c.slot (slot + 2) + c.slot (slot + 3) * 2 ^ 32

/-- Is the segment of a slot of `c` still to be made, from group `g`, in a ring that is not being cleared (R458, R472)? -/
def State.segmentOwed (s : State) (c : Cmd) (slot g : Nat) : Prop :=
  slot ∈ s.segSlots c ∧ (∀ e ∈ (s.cq c.hoop c.cq).segs, e.1 ≠ slot) ∧ s.segGroup c = some g ∧ s.island.clearing = false

/-- Size and content of that segment (R459, R460). -/
def State.segMade (s : State) (c : Cmd) (slot g : Nat) : Nat × SMap Byte :=
  s.segBytes g (c.segStart slot) (c.segStop slot) (s.segMinKib c slot)

/-- The AUDIO_SEGMENT object of a size and content (R459). -/
def State.segmentObj (s : State) (made : Nat × SMap Byte) : Obj :=
  { Obj.dflt with kind := 6, tier := 2, homed := true, size := made.1, age := s.pos, data := made.2, tileDflt := zeroTile,
                  tiles := (tilesOf made.2 (ceilDiv made.1 4096) fun _ => false).filter fun e => decide (e.2 ≠ zeroTile) }

/-- A table entry holds the object, and the wait of its queue for room is over. -/
def State.segmentHeld (s : State) (c : Cmd) (i : Nat) (made : Nat × SMap Byte) : State :=
  (s.setObj (oKey c.hoop i) (s.entry (oKey c.hoop i) (s.segmentObj made))).endWait fun w => decide (w.cq = some (c.hoop * 64 + c.cq))

/-- The object is given to the head of its queue, and counted (R458). -/
def State.withSegment (s : State) (c : Cmd) (slot i : Nat) (made : Nat × SMap Byte) : State :=
  let t := s.segmentHeld c i made
  (t.setCq c.hoop c.cq { t.cq c.hoop c.cq with segs := (t.cq c.hoop c.cq).segs ++ [(slot, oKey c.hoop i)] }).addReg R.SEG_COUNT 1

theorem doSegmentReady_of_head (hhead : (s.cq h q).head = some c) (hfirst : s.reachedFirst (65536 * c.segStop slot) = true) :
    doSegmentReady h q slot s = (s.makeSegment c slot).startMoves.settled := by
  rw [doSegmentReady, hhead]
  exact if_pos hfirst

section Owed
variable (howed : s.segmentOwed c slot g)
include howed

theorem segment_unmade : ¬ (!(s.segSlots c).contains slot ∨ (s.cq c.hoop c.cq).segs.any fun e => decide (e.1 = slot)) := by
  obtain ⟨hslot, hnew, -, -⟩ := howed
  simpa [hslot] using fun k hk => hnew (slot, k) hk rfl

theorem makeSegment_of_waiting (hwaits : s.segReached g (c.segStop slot) = false) (hmore : s.segWaitOver g = false) : s.makeSegment c slot = s := by
  have hunmade := segment_unmade howed
  obtain ⟨-, -, hgroup, hopen⟩ := howed
  unfold Cmd.segStop at hwaits
  rw [State.makeSegment]
  dsimp only
  rw [if_neg hunmade, hgroup]
  exact if_pos (.inl (by rw [hwaits, hmore]; rfl))

theorem makeSegment_of_ready (hready : s.segReached g (c.segStop slot) = true ∨ s.segWaitOver g = true)
    (hroom : s.roomFor c.hoop 2 0 (4096 * ceilDiv (s.segMade c slot g).1 4096 + 8 * ceilDiv (s.segMade c slot g).1 4096) = true)
    (hfree : s.freeIndex c.hoop = some i) : s.makeSegment c slot = s.withSegment c slot i (s.segMade c slot g) := by
  have hunmade := segment_unmade howed
  obtain ⟨-, -, hgroup, hopen⟩ := howed
  unfold State.segMade Cmd.segStart Cmd.segStop at *
  rw [State.makeSegment]
  dsimp only
  rw [if_neg hunmade, hgroup]
  dsimp only
  have hdue : ¬ (!(s.segReached g (c.slot (slot + 2) + c.slot (slot + 3) * 2 ^ 32) || s.segWaitOver g) ∨ s.island.clearing) := by
    rw [hopen, ← Bool.or_eq_true] at *
    rw [hready]
    decide
  rw [if_neg hdue, if_pos hroom, newObj_of_free hfree]
  rfl

end Owed

variable {made : Nat × SMap Byte}

theorem segs_withSegment : ((s.withSegment c slot i made).cq c.hoop c.cq).segs = (s.cq c.hoop c.cq).segs ++ [(slot, oKey c.hoop i)] := by
  rw [State.withSegment, addReg_eq, cq_setReg, cq_setCq_same]
  dsimp only
  rw [State.cq, State.segmentHeld, endWait_cqs]
  rfl

theorem objs_endWait (p : AllocWait → Bool) : (s.endWait p).objs = s.objs := by rw [endWait_eq]

theorem obj_withSegment : (s.withSegment c slot i made).obj (oKey c.hoop i) = s.entry (oKey c.hoop i) (s.segmentObj made) := by
  have hheld : (s.segmentHeld c i made).objs = (s.setObj (oKey c.hoop i) (s.entry (oKey c.hoop i) (s.segmentObj made))).objs := objs_endWait _
  exact (congrArg (mget Obj.dflt · (oKey c.hoop i)) hheld).trans (obj_setObj_same _ _)

theorem reg_withSegment : (s.withSegment c slot i made).reg R.SEG_COUNT = satAdd (s.reg R.SEG_COUNT) 1 := by
  rw [State.withSegment, reg_addReg_same, reg_setCq, State.segmentHeld, reg_endWait fun w _ => by dsimp only [R.SEG_COUNT, R.ALLOC_WAIT_STITCHES]; omega,
    reg_setObj]

end Segments

/-- Settles O45: a refused write by the registers and the island that a fault leaves alone, a frame by what its channel then holds, the codec by induction
over the samples, and a segment by the object that its head is given. -/
theorem ringGroupsAndSegments : Obligations.RingGroupsAndSegments := by
  unfold Obligations.RingGroupsAndSegments
  refine ⟨fun s f v hreach => ⟨fun hoff => ?_, fun hon => ?_⟩, fun s f c v hreach => ⟨fun hold hnew => ?_, fun hon => ?_⟩,
    fun s f g v hreach hoff => ⟨fun hok => ?_, fun hbad => ?_⟩, fun s c words hlen hisl hring hsource hgroup hshare hroom => ?_,
    fun p i xs => filetDecode_filetEncode xs p i, fun s h q slot c g i hhead hhoop hcq hslot hnew hgroup hopen => ?_⟩
  · obtain ⟨m, hm, hframes⟩ := clearChans_spec (s := (s.setReg R.RING_NCH (w32 (clamp 1 16 v.toNat))).setReg R.RING_FRAMES
      (w32 (11397 / clamp 1 16 v.toNat))) (List.range 16)
    refine completes_fixed (f := doRingNchWrite f v) rfl ((doRingNchWrite_of_stopped hreach hoff).trans hm) (by simp) ⟨?_, ?_, fun c hc => ?_⟩
    · rw [reg_withIsland, reg_setReg_ne _ _ _ _ (by decide), reg_setReg_same]
    · rw [reg_withIsland, reg_setReg_same]
    · exact (hframes c).trans (if_pos (List.mem_range.2 hc))
  · refine completes_dev (f := doRingNchWrite f v) rfl (doRingNchWrite_of_running hreach hon)
      ((stable_part s.part).doRingNchWrite rfl) fun hreg => ⟨?_, ?_⟩
    · rw [hreg, reg_accessRefused_ne _ _ _ (by decide)]
    · exact island_raise _ _ _ _
  · refine completes_dev (f := doRchWrite f c v) rfl rfl ((stable_part s.part).doRchWrite rfl) fun hreg => ?_
    rw [hreg, reg_doRchWrite_of_off hreach hold hnew]
    rfl
  · refine completes_dev (f := doRchWrite f c v) rfl (doRchWrite_of_on hreach hon) ((stable_part s.part).doRchWrite rfl) fun hreg => ?_
    rw [hreg, reg_accessRefused_ne _ _ _ (show R.RCH c ≠ 0x190010 by dsimp only [R.RCH]; omega)]
  · obtain ⟨hstored, hdets⟩ := storeGrp_of_ok hoff (bit_grpKept (v := v)) hok
    refine completes_dev (f := doGroupEnable f g v) rfl rfl ((stable_part s.part).doGroupEnable rfl) fun hreg => ⟨?_, fun d hd => ?_⟩
    · rw [State.grpOn, hreg, reg_doGroupEnable hreach (by dsimp only [R.GRP_CTRL, R.MODEL_RESULT]; omega), hstored, reg_setReg_same]
      exact bit_grpKept
    · refine Eq.trans (b := (doGroupEnable f g v s).det g d) rfl ?_
      rw [doGroupEnable_of_reaches hreach, det_modelTurn, det_modelTurn, hdets d hd]
  · have hrefused := storeGrp_of_bad hoff (bit_grpKept (v := v)) hbad
    refine completes_dev (f := doGroupEnable f g v) rfl rfl ((stable_part s.part).doGroupEnable rfl) fun hreg => ⟨?_, ?_⟩
    · rw [State.grpOn, hreg, reg_doGroupEnable hreach (by dsimp only [R.GRP_CTRL, R.MODEL_RESULT]; omega), hrefused, orReg_eq,
        reg_setReg_ne _ _ _ _ (by dsimp only [R.GRP_CTRL, R.ISL_STATUS]; omega), reg_setReg_same]
      exact bit_setFld_same _ _ _ (by decide)
    · rw [hreg, reg_doGroupEnable hreach (by decide), hrefused, orReg_eq, reg_setReg_same]
      exact bit_or_of_bit (by decide)
  · obtain ⟨f, x, sat, heq, hframes, hseq, hpos, hfseq, hquiet⟩ := doRingFrame_of_writes (words := words) ⟨hisl, hring, hsource, hgroup, hshare⟩
    refine completes_fixed (f := doRingFrame c words) (if_pos (decide_eq_true hlen)) heq (by simp) ?_
    have hchan : ((s.setChan c x).addReg (R.RCH_SAT c) sat).chan c = x := chan_setChan_same x
    rw [hchan, hframes]
    refine ⟨?_, hseq, f, getLast?_drop_append _ _ hroom, hpos, hfseq, fun h => samples_of_silent (hquiet h)⟩
    rw [List.length_drop]
    omega
  · intro start stop hfirst made
    have howed : s.segmentOwed c slot g := ⟨hslot, by rwa [hhoop, hcq], hgroup, hopen⟩
    have hrun := doSegmentReady_of_head hhead hfirst
    refine ⟨fun hwaits hmore => ?_, fun hready hroom hfree => ?_⟩
    · rw [makeSegment_of_waiting howed hwaits hmore] at hrun
      exact completesThen_run (f := doSegmentReady h q slot) rfl hrun rfl
    · rw [← hhoop] at hroom hfree
      rw [makeSegment_of_ready howed hready hroom hfree] at hrun
      refine completesThen_run (f := doSegmentReady h q slot) rfl hrun ?_
      rw [← hhoop, ← hcq, obj_withSegment]
      exact ⟨segs_withSegment, rfl, rfl, rfl, rfl, reg_withSegment⟩

end Sys2Proof.Machine

namespace Sys2Proof.Machine

/-! ## Hops of a group (R462, R463, R465) -/

section Hops
variable {s : State} {g d : Nat} {chans : List (List (BitVec 16))}

theorem group_setGroup_same (x : Machine.Group) : (s.setGroup g x).group g = x := mget_mset_same _ _ _ _

theorem model_setModel_same (x : Model) : (s.setModel d x).model d = x := mget_mset_same _ _ _ _

theorem model_setModel_ne {k : Nat} (x : Model) (hk : k ≠ d) : (s.setModel d x).model k = s.model k := mget_mset_ne _ _ _ _ _ _ hk

theorem hops_tone (x : Machine.Group) (t : Bool) (p : Nat) : (x.tone t p).hops = x.hops := by
  unfold Group.tone
  split <;> rfl

theorem mix_tone (x : Machine.Group) (t : Bool) (p : Nat) : (x.tone t p).mix = x.mix := by
  unfold Group.tone
  split <;> rfl

/-- The hop boundary of a group that a change of model waits for (R467). -/
def Model.pass (g : Nat) (m : Model) : Model :=
  if (m.next.isSome || m.unload) && !m.passed.contains g then { m with passed := m.passed ++ [g] } else m

/-- Is no change of detector `d`'s model in progress? -/
def State.settledModel (s : State) (d : Nat) : Prop := (s.model d).next = none ∧ (s.model d).unload = false

/-- The hop boundaries pass a model that does not change. -/
theorem modelTurn_pass_of_settled (h : s.settledModel d) :
    (s.setModel d ((s.model d).pass g)).modelTurn d = s.setModel d (s.model d) := by
  obtain ⟨hnext, hunload⟩ := h
  have hpass : (s.model d).pass g = s.model d := if_neg (by simp [hnext, hunload])
  rw [hpass, modelTurn_of_settled] <;> rw [model_setModel_same]
  · exact hnext
  · exact hunload

/-- What a group hears in a hop, before its detectors score it: the hop, the newest first, the mix, and the tone (R462 to R464). -/
def State.hear (s : State) (g : Nat) (chans : List (List (BitVec 16))) : State :=
  let x := s.group g
  let hop := s.mixHop g chans
  let first := s.pos - s.sampleSpan 159
  let e := hopEnergy hop
  let mix := x.mix ++ hop
  let band := s.reg R.ALARM_BAND
  let t := Config.toneTest (fld band 0 16) (fld band 16 16) (fld (s.reg R.ALARM_CTRL) 0 8) hop
  let now : Hop := ⟨first, e, s.isOnset x.hops e⟩
  let x := { x with ctrl := s.reg (R.GRP_CTRL g), mark := s.reg (R.GRP_MARK g), mix := mix.drop (mix.length - 24400), hops := (now :: x.hops).take 300 }
  s.setGroup g (x.tone t first)

/-- The detectors of a group that are enabled score a hop (R465). -/
def State.score (s : State) (g : Nat) (ctrl : W32) : State :=
  ((List.range 3).filter fun d => bit ctrl (12 + d)).foldl (fun s d => s.hopDet g d) s

/-- The models after a hop boundary of group `g` (R467). -/
def State.atBoundary (s : State) (g : Nat) : State := (List.range 2).foldl (fun s d => (s.setModel d ((s.model d).pass g)).modelTurn d) s

theorem doDetectorHop_of_on (hon : s.islandOn = true) (hen : s.grpOn g = true) :
    doDetectorHop g chans s = ((s.atBoundary g).hear g chans).score g ((s.atBoundary g).reg (R.GRP_CTRL g)) := if_neg (by simp [hon, hen])

theorem atBoundary_of_settled (h : ∀ d < 2, s.settledModel d) : s.atBoundary g = (s.setModel 0 (s.model 0)).setModel 1 (s.model 1) := by
  have hmodel : (s.setModel 0 (s.model 0)).model 1 = s.model 1 := model_setModel_ne _ (by decide)
  have hsettled : (s.setModel 0 (s.model 0)).settledModel 1 := by
    rw [State.settledModel, hmodel]
    exact h 1 (by decide)
  rw [State.atBoundary, show List.range 2 = [0, 1] from rfl, List.foldl_cons, List.foldl_cons, List.foldl_nil,
    modelTurn_pass_of_settled (h 0 (by decide)), modelTurn_pass_of_settled hsettled, hmodel]

section SetModel
variable (x : Model)

@[simp] theorem reg_setModel (a : Nat) : (s.setModel d x).reg a = s.reg a := rfl
@[simp] theorem group_setModel : (s.setModel d x).group g = s.group g := rfl
@[simp] theorem pos_setModel : (s.setModel d x).pos = s.pos := rfl
@[simp] theorem sampleSpan_setModel (n : Nat) : (s.setModel d x).sampleSpan n = s.sampleSpan n := rfl
@[simp] theorem mixHop_setModel : (s.setModel d x).mixHop g chans = s.mixHop g chans := rfl
@[simp] theorem isOnset_setModel (l : List Hop) (e : Nat) : (s.setModel d x).isOnset l e = s.isOnset l e := rfl

end SetModel

/-- The hop is remembered before those of the last 3 s (R463). -/
theorem hops_hear : ((s.hear g chans).group g).hops =
    (⟨s.pos - s.sampleSpan 159, hopEnergy (s.mixHop g chans), s.isOnset (s.group g).hops (hopEnergy (s.mixHop g chans))⟩ ::
      (s.group g).hops).take 300 := by
  rw [State.hear, group_setGroup_same, hops_tone]

theorem length_hops_hear : ((s.hear g chans).group g).hops.length ≤ 300 := hops_hear ▸ List.length_take_le _ _

@[simp] theorem regs_hear : (s.hear g chans).regs = s.regs := rfl
@[simp] theorem dets_hear : (s.hear g chans).island.dets = s.island.dets := rfl

theorem length_mix_hear : ((s.hear g chans).group g).mix.length ≤ 24400 := by
  rw [State.hear, group_setGroup_same, mix_tone, List.length_drop]
  omega

end Hops

/-! ## Detectors (R465) -/

section Detectors
variable {s : State} {g d : Nat}

/-- A detector after a hop, where `mark` is the start mark of its ARM crossing (R465). -/
def State.scored (s : State) (g d mark : Nat) : Det :=
  let y := s.det g d
  let score := s.detScore g d (s.group g)
  let v := fun (a : Nat) => fp32 (s.reg a)
  let low := (v (R.DET_ARM d)).sub (v (R.DET_HYST d))
  if y.st = 2 then { y with st := if y.refractoryEnd ≤ s.pos ∧ (fp32 score).lt low then 0 else 2, score := score }
  else if y.st = 0 ∧ (v (R.DET_ARM d)).le (fp32 score) = false then { y with score := score }
  else if (v (R.DET_FIRE d)).le (fp32 score) then
    { y with st := 2, score := score, mark := mark, refractoryEnd := s.pos + 65536 * (s.reg (R.DET_REFRACTORY d)).toNat }
  else { y with st := if (fp32 score).lt low then 0 else 1, score := score, mark := mark }

/-- A hop of a detector leaves it as its score says; what a crossing posts, keeps or wakes does not matter to it. -/
theorem det_hopDet : ∃ mark, (s.hopDet g d).det g d = s.scored g d mark := by
  unfold State.hopDet
  extract_lets x y score v arm low sv refr s1 arms mark s2
  refine ⟨mark, ?_⟩
  have hscored : s.scored g d mark =
      if y.st = 2 then { y with st := if y.refractoryEnd ≤ s.pos ∧ sv.lt low then 0 else 2, score := score }
      else if y.st = 0 ∧ arm.le sv = false then { y with score := score }
      else if (v (R.DET_FIRE d)).le sv then { y with st := 2, score := score, mark := mark, refractoryEnd := refr }
      else { y with st := if sv.lt low then 0 else 1, score := score, mark := mark } := rfl
  rw [hscored]
  by_cases hfired : y.st = 2
  · rw [if_pos hfired, if_pos hfired]
    by_cases hover : y.refractoryEnd ≤ s1.pos ∧ sv.lt low = true
    · rw [if_pos hover, if_pos (show y.refractoryEnd ≤ s.pos ∧ sv.lt low = true from hover)]
      exact det_setDet_same _ _
    · rw [if_neg hover, if_neg (show ¬ (y.refractoryEnd ≤ s.pos ∧ sv.lt low = true) from hover), ← hfired]
      exact det_setDet_same _ _
  · rw [if_neg hfired, if_neg hfired]
    by_cases hlow : y.st = 0 ∧ arm.le sv = false
    · have harms : arms = false := by simp [arms, hlow.2]
      have hs2 : s2 = s1 := if_neg (by simp [harms])
      rw [if_pos hlow, if_pos ⟨by simp [harms], hlow.1⟩, hs2]
      exact det_setDet_same _ _
    · have harms : ¬ ((!arms) = true ∧ y.st = 0) := by
        rintro ⟨hnot, hidle⟩
        exact hlow ⟨hidle, by simpa [arms, hidle] using hnot⟩
      rw [if_neg hlow, if_neg harms]
      split <;> exact det_setDet_same _ _

end Detectors

/-! ## Loading and stopping of models (R467, R481) -/

section Models
variable {s : State} {f d k n : Nat} {act : Nat → State → State}

/-- Is an object whole, and its content a good image for detector `d` (R466, R481)? -/
def Obj.goodModel (o : Obj) (d : Nat) : Prop := o.homed = true ∧ o.allValid = true ∧ modelOk o.data o.size d = true

/-- Bytes of an image (R466). -/
def Obj.modelSize (o : Obj) : Nat := rdAt o.data 12 4

/-- Bytes of the room for it (R467). -/
def modelRoom (d : Nat) : Nat := (if d = 0 then 320 else 96) * 1024

/-- The detector that MODEL_DET names (R481). -/
def State.modelDet (s : State) : Nat := (s.reg R.MODEL_DET).toNat

/-- The model of that detector with the image of an object to take over (R467). -/
def State.withImage (s : State) (k : Nat) : Model :=
  { s.model s.modelDet with next := some ((s.obj k).data.filter fun e => decide (e.1 < (s.obj k).modelSize)) }

/-- The model of that detector with a stop ahead (R467). -/
def State.withoutImage (s : State) : Model := { s.model s.modelDet with unload := true }

section Command
variable (haccepts : s.accepts f R.MODEL_CMD = true) (hdone : bit (s.reg R.MODEL_RESULT) 0 = true)
include haccepts hdone

theorem modelCmd_of_no_model (hbad : 2 ≤ s.modelDet) : s.modelCmd f act = s.modelResult 4 := by
  rw [State.modelCmd, command_of_accepts _ _ _ _ haccepts, if_neg (by simp [hdone])]
  exact if_pos hbad

theorem modelCmd_of_model (hd : s.modelDet < 2) : s.modelCmd f act = act s.modelDet s := by
  rw [State.modelCmd, command_of_accepts _ _ _ _ haccepts, if_neg (by simp [hdone])]
  exact if_neg (by omega : ¬ 2 ≤ s.modelDet)

end Command

theorem completes_modelResult {c : Instr} {g : State → State} (hc : exec c s = run g s) (hg : g s = s.modelResult n) :
    completes c s fun t => t.reg R.MODEL_RESULT = w32 (1 + 16 * n) ∧ t.island = s.island :=
  completes_fixed hc hg (by simp [State.modelResult]) ⟨reg_setReg_same _ _ _, rfl⟩

/-- A change of a model is asked for: DONE is 0, and no group has passed its hop boundary yet (R467). -/
def State.askedModel (s : State) (d : Nat) (m : Model) : State := (s.setReg R.MODEL_RESULT 0).setModel d { m with passed := [] }

theorem model_askedModel (m : Model) : (s.askedModel d m).model d = { m with passed := [] } := model_setModel_same _

theorem reg_askedModel (m : Model) : (s.askedModel d m).reg R.MODEL_RESULT = 0 := (reg_setModel _ _).trans (reg_setReg_same _ _ _)

theorem reg_askedModel_ne (m : Model) {a : Nat} (ha : a ≠ R.MODEL_RESULT) : (s.askedModel d m).reg a = s.reg a :=
  (reg_setModel _ _).trans (reg_setReg_ne _ _ _ _ ha)

@[simp] theorem fixed_askedModel (m : Model) : (s.askedModel d m).fixed = s.fixed := rfl

theorem islandOn_askedModel (m : Model) : (s.askedModel d m).islandOn = s.islandOn := by
  rw [State.islandOn, State.isOn, State.blkState, reg_askedModel_ne m (by decide)]
  rfl

theorem liveGroups_askedModel (m : Model) : (s.askedModel d m).liveGroups = s.liveGroups := by
  refine List.filter_congr fun g _ => congrArg (bit · 0) (reg_askedModel_ne m ?_)
  dsimp only [R.GRP_CTRL, R.MODEL_RESULT]
  omega

/-- While a group listens, what is asked for waits (R467). -/
theorem turn_askedModel_of_listening (m : Model) (hon : s.islandOn = true) (hlive : s.liveGroups ≠ []) :
    (s.askedModel d m).modelTurn d = s.askedModel d m :=
  modelTurn_of_listening ((islandOn_askedModel m).trans hon) ((liveGroups_askedModel m).symm ▸ hlive) (by rw [model_askedModel])

/-- A change of a model is made: the model takes its turn, and DONE is set (R467, R481). -/
def State.turnedModel (s : State) (d : Nat) (m : Model) : State :=
  ((s.askedModel d m).setModel d { m with passed := [] }.turned).modelResult 0

/-- Where no group listens, what is asked for is done (R467). -/
theorem turn_askedModel_of_quiet (m : Model) (hchange : m.next.isSome ∨ m.unload = true) (hlive : s.liveGroups = []) :
    (s.askedModel d m).modelTurn d = s.turnedModel d m := by
  rw [modelTurn_of_quiet (by rwa [model_askedModel]) ((liveGroups_askedModel m).trans hlive), model_askedModel]
  rfl

theorem model_turnedModel (m : Model) : (s.turnedModel d m).model d = { m with passed := [] }.turned := model_setModel_same _

theorem reg_turnedModel (m : Model) : (s.turnedModel d m).reg R.MODEL_RESULT = w32 (1 + 16 * 0) := reg_setReg_same _ _ _

@[simp] theorem fixed_turnedModel (m : Model) : (s.turnedModel d m).fixed = s.fixed := by
  rw [State.turnedModel, State.modelResult, fixed_setReg]
  rfl

/-- A model with no new image stops (R467). -/
theorem turned_of_stop {m : Model} (hnext : m.next = none) : m.turned.loaded = false := by rw [Model.turned, hnext]

section Loads
variable (haccepts : s.accepts f R.MODEL_CMD = true) (hdone : bit (s.reg R.MODEL_RESULT) 0 = true) (hd : s.modelDet < 2)
include haccepts hdone hd

theorem doModelUnload_of_model : doModelUnload f s = (s.askedModel s.modelDet s.withoutImage).modelTurn s.modelDet :=
  modelCmd_of_model haccepts hdone hd

theorem doModelLoad_of_asleep (hoff : s.domainOn .compute = false) : doModelLoad f s = s.modelResult 5 :=
  (modelCmd_of_model haccepts hdone hd).trans (if_pos (by simp [hoff]))

variable (hup : s.domainOn .compute = true)
include hup

theorem doModelLoad_of_stale (hnone : s.resolve 0 (s.reg R.MODEL_HANDLE).toNat = none) : doModelLoad f s = s.modelResult 1 := by
  rw [doModelLoad, modelCmd_of_model haccepts hdone hd, if_neg (by simp [hup]), hnone]

variable (hkey : s.resolve 0 (s.reg R.MODEL_HANDLE).toNat = some k)
include hkey

/-- An object is refused as no good image, or as too large a one, or its image is asked for (R481). -/
theorem doModelLoad_of_object [Decidable ((s.obj k).goodModel s.modelDet)] : doModelLoad f s =
    if ¬ (s.obj k).goodModel s.modelDet then s.modelResult 2
    else if modelRoom s.modelDet < (s.obj k).modelSize then s.modelResult 3
    else (s.askedModel s.modelDet (s.withImage k)).modelTurn s.modelDet := by
  rw [doModelLoad, modelCmd_of_model haccepts hdone hd, if_neg (by simp [hup]), hkey]
  refine if_congr ?_ rfl rfl
  simp only [Obj.goodModel, Bool.not_eq_true', not_and_or, Bool.not_eq_true]

end Loads

end Models

/-- Settles O46: a hop by what its group then holds, a detector by what its score makes of it, and a change of model by the groups that listen. -/
theorem detectorsAndModels : Obligations.DetectorsAndModels := by
  unfold Obligations.DetectorsAndModels
  refine ⟨fun s g chans hlen hon hen hsettled => ?_, fun s g d => ?_,
    fun s f haccepts hdone => ⟨fun hbad c hc => ?_, fun hd => ⟨fun hon hlive => ?_, fun hlive hnext => ?_, fun hoff => ?_, fun hup => ?_⟩⟩⟩
  · refine completesThen_run (f := doDetectorHop g chans)
      (u := ((s.setModel 0 (s.model 0)).setModel 1 (s.model 1)).hear g chans) (if_pos (by simpa using hlen)) ?_ ?_
    · rw [doDetectorHop_of_on hon hen, atBoundary_of_settled hsettled, reg_setModel, reg_setModel]
      rfl
    · have hhops := hops_hear (s := (s.setModel 0 (s.model 0)).setModel 1 (s.model 1)) (g := g) (chans := chans)
      simp only [group_setModel, pos_setModel, sampleSpan_setModel, mixHop_setModel, isOnset_setModel] at hhops
      refine ⟨?_, length_hops_hear, length_mix_hear, regs_hear, dets_hear⟩
      rw [hhops]
      rfl
  · obtain ⟨mark, hdet⟩ := det_hopDet (s := s) (g := g) (d := d)
    intro y score v t low
    have ht : t.det g d = s.scored g d mark := hdet
    rw [ht]
    unfold State.scored
    refine ⟨?_, fun hidle hlow => ?_, fun hidle harm hfire => ?_, fun hready harm hfire => ?_, fun hfired => ?_⟩
    · dsimp only
      split_ifs <;> rfl
    · rw [if_neg (by rw [hidle]; decide), if_pos ⟨hidle, hlow⟩]
      exact hidle
    · rw [if_neg (by rw [hidle]; decide), if_neg fun h => Bool.false_ne_true (h.2.symm.trans harm), if_neg (Bool.eq_false_iff.1 hfire)]
    · rw [if_neg hready, if_neg fun h => Bool.false_ne_true (h.2.symm.trans harm), if_pos hfire]
      exact ⟨rfl, rfl⟩
    · rw [if_pos hfired]
  · fin_cases hc
    · exact completes_modelResult (g := doModelLoad f) rfl (modelCmd_of_no_model haccepts hdone hbad)
    · exact completes_modelResult (g := doModelUnload f) rfl (modelCmd_of_no_model haccepts hdone hbad)
  · refine completes_fixed (f := doModelUnload f) rfl
      ((doModelUnload_of_model haccepts hdone hd).trans (turn_askedModel_of_listening _ hon hlive)) (by simp) ?_
    have hmodel := model_askedModel (s := s) (d := s.modelDet) s.withoutImage
    exact ⟨reg_askedModel _, (congrArg Model.unload hmodel :), (congrArg Model.loaded hmodel :)⟩
  · refine completes_fixed (f := doModelUnload f) rfl
      ((doModelUnload_of_model haccepts hdone hd).trans (turn_askedModel_of_quiet _ (.inr rfl) hlive)) (by simp) ?_
    exact ⟨reg_turnedModel _, (congrArg Model.loaded (model_turnedModel s.withoutImage)).trans (turned_of_stop hnext)⟩
  · exact completes_modelResult (g := doModelLoad f) rfl (doModelLoad_of_asleep haccepts hdone hd hoff)
  · refine ⟨fun hnone => ?_, fun k hkey => ?_⟩
    · exact completes_modelResult (g := doModelLoad f) rfl (doModelLoad_of_stale haccepts hdone hd hup hnone)
    · classical
      have hload := doModelLoad_of_object haccepts hdone hd hup hkey
      refine ⟨fun hbad => ?_, fun hgood hlarge => ?_, fun hgood hfits hon hlive => ?_, fun hgood hfits hlive => ?_⟩
      · exact completes_modelResult (g := doModelLoad f) rfl (hload.trans (if_pos hbad))
      · exact completes_modelResult (g := doModelLoad f) rfl (hload.trans ((if_neg (not_not.2 hgood)).trans (if_pos hlarge)))
      · refine completes_fixed (f := doModelLoad f) rfl (hload.trans ((if_neg (not_not.2 hgood)).trans ((if_neg hfits.not_gt).trans
          (turn_askedModel_of_listening _ hon hlive)))) (by simp) ?_
        have hmodel := model_askedModel (s := s) (d := s.modelDet) (s.withImage k)
        exact ⟨reg_askedModel _, (congrArg Model.next hmodel :), (congrArg Model.image hmodel :)⟩
      · refine completes_fixed (f := doModelLoad f) rfl (hload.trans ((if_neg (not_not.2 hgood)).trans ((if_neg hfits.not_gt).trans
          (turn_askedModel_of_quiet _ (.inl rfl) hlive)))) (by simp) ?_
        have hmodel := model_turnedModel (s := s) (d := s.modelDet) (s.withImage k)
        exact ⟨reg_turnedModel _, (congrArg Model.loaded hmodel :), (congrArg Model.image hmodel :), (congrArg Model.buf hmodel :)⟩

end Sys2Proof.Machine
